-- ==== Sys2Proof/Word.lean ====
section
/-! DEFINITION. The word types of the Solaek Q9 (R5, R68, R90, R143): bytes, 32-bit lanes and predicates, 64-bit
scalar words, and 1,024-bit vector registers. -/

namespace Sys2Proof

/-- One byte of memory (R5). -/
abbrev Byte := BitVec 8

/-- A 32-bit word: a vector lane, a predicate, an FP32 code (R90, R146). -/
abbrev W32 := BitVec 32

/-- A 64-bit word: an X, LA or QA register, a staging word, an address (R68, R191, R210). -/
abbrev W64 := BitVec 64

/-- A vector register: 32 lanes of 32 bits, lane i in bits 32i+31 to 32i (R140, R143). -/
abbrev Vec := BitVec 1024

/-- An 8-bit truth table of a guard (R92). -/
abbrev TT := BitVec 8

end Sys2Proof
end

