-- ==== Sys2Proof/Syntax.lean ====
section
/-! DEFINITION. The syntax of the Solaek Q9: the operands and the one inductive of its steps (opcode_table.json, R16 to
R48), with the data that the outside events carry. -/

namespace Sys2Proof

/-- Number of an X register (R21). -/
abbrev XReg := BitVec 6

/-- Number of a predicate (R21). -/
abbrev PReg := BitVec 4

/-- Number of a vector register in a V slot, 0 to 639 (R22). -/
abbrev VReg := BitVec 10

/-- Number of an LA or QA register (R191). -/
abbrev AReg := BitVec 4

/-- Id of a Grove node of a context, 1 to 255 (R223). -/
abbrev NodeId := BitVec 8

/-- The two vector slots (R22). -/
inductive VUnit where
  | v0 | v1
  deriving DecidableEq, Repr

/-- A copy descriptor of the X slot: source file and register, destination file and register (R23). -/
structure CopyDesc where
  sf : BitVec 3
  sr : BitVec 10
  df : BitVec 3
  dr : BitVec 10
  deriving DecidableEq, Repr

/-- An entry of a partition's range table (R168). -/
structure RangeEntry where
  vbase : W64
  len : W64
  pbase : W64
  perm : BitVec 9
  res : BitVec 2
  deriving DecidableEq, Repr

/-- An entry of a range table as the runtime loads it: its four words of 8 bytes (R168). -/
structure RangeWords where
  w0 : W64
  w1 : W64
  w2 : W64
  w3 : W64
  deriving DecidableEq, Repr

/-- The registers that a REGISTER_WRITE reaches (R309, R343, R351, R367). -/
inductive HostReg where
  | qbase (q : Nat)
  | qctl (q : Nat)
  | qwdog (q : Nat)
  | pcmd (p : Nat)
  | pcfg (p : Nat)
  | pslots (p : Nat)
  | pvc (p i : Nat)
  | pgddr (p : Nat)
  | pstart (p : Nat)
  | hctl
  deriving DecidableEq, Repr

/-- Who makes a request: the hypervisor, the owner of a partition on its interface's stream, anyone else (R355). -/
inductive Requester where
  | hyp
  | owner (p : Nat)
  | other
  deriving DecidableEq, Repr

/-- What a request reaches, with the party that makes it (R355). -/
structure By (α : Type) where
  who : Requester
  what : α
  deriving DecidableEq, Repr

/-- What of a host write arrives: all of it, a beginning that already takes its entry, or the rest of one that has (R277). -/
inductive Arriving where
  | whole
  | first
  | rest
  deriving DecidableEq, Repr

/-- A host write of 1 to 64 bytes within a 64-byte line of device memory: bit i of the mask tells whether byte i is written
(R277). -/
structure HostWrite where
  part : Nat
  addr : W64
  bytes : List Byte
  mask : BitVec 64
  arriving : Arriving
  who : Requester
  deriving DecidableEq, Repr

/-- A host read of device memory, or of a register by its window and offset (R279, R309, R343, R367). -/
inductive HostRead where
  | memory (who : Requester) (part : Nat) (addr : W64) (len : Nat)
  | queueReg (who : Requester) (q offset : Nat)
  | partReg (who : Requester) (p offset : Nat)
  | healthReg (who : Requester) (offset : Nat)
  deriving DecidableEq, Repr

/-- The header flit, and for a CSEND the payload, of a fabric command of another device, with the port and the virtual channel
that bring it (R274, R326). -/
structure FabricHeader where
  port : Nat
  vc : Nat
  part : Nat
  addr : W64
  len : Nat
  write : Bool
  payload : List Byte
  arrive : Option (W64 × W64 × Nat)
  deriving DecidableEq, Repr

/-- What arrives of a reduction: the fragments, in the order of R330, or the partial of a participant of another device,
with its partition's mode, bin and PSTART (R340), or the result of a combiner at another device (R331, R333); none as a
result is a disagreement. -/
inductive Fragment where
  | share (part group seq participant n v : Nat) (ao : Bool) (lo cnt start hops lr : Nat) (det : Bool) (bin : Nat)
      (pstart : W64) (vals : List (List W32))
  | result (part group seq : Nat) (vals : Option (List W32))
  deriving DecidableEq, Repr

/-- The units that R365 keeps a history of, and the places of an error that R364 names. Beside it an uncorrectable error
names the partition whose line, register or bank fails, and a corrected one tells whether it recurs in a row of a granule
that a spare row now repairs. -/
inductive ErrorUnit where
  | core (k : Nat)
  | bank (cluster bank : Nat)
  | slice (s : Nat)
  | granule (g : Nat)
  | port (n : Nat)
  | unowned
  deriving DecidableEq, Repr

/-- Where an uncorrectable error finds a failing word: nowhere that work in flight reads, in the 64-byte line of a physical
address, or in a register of a context (R220, R364). -/
inductive Failing where
  | none
  | line (pa : Nat)
  | ctx (core ctx : Nat)
  deriving DecidableEq, Repr

/-- What an uncorrectable error strikes beside its unit: the partition whose line an L2 slice holds, and the failing word (R364). -/
structure Struck where
  holder : Nat
  failing : Failing
  deriving DecidableEq, Repr

/-- What the module measures when a limit of R370 is met or left: the hottest die's temperature, in sixteenths of a degree, and
the module's power, in watts (R367, R370). -/
structure Thermal where
  temp : BitVec 16
  watts : BitVec 16
  deriving DecidableEq, Repr

/-- Credits that the link of a virtual channel of a port withholds or returns (R323). -/
inductive CreditReturn where
  | withheld (port vc : Nat)
  | returned (port vc n : Nat)
  deriving DecidableEq, Repr

/-- SPDM requests (R356): a key exchange on a fabric port carries the STIME that the peer's domain holds now (R348). -/
inductive SpdmRequest where
  | certificates
  | measurements
  | keyExchange (port : Nat) (stime : W64)
  deriving DecidableEq, Repr


/-- The steps of the part: one constructor for each row of spec/opcode_table.json. The slot operations carry their
truth table TT first (R92) and, in the vector slots, the slot they stand in (R22); the events carry what they name. The
events from outside come last. -/
inductive Instr where
  /-- BUNDLE_ISSUE (R30). A bundle of a context issues: its header is decoded and checked, its waits are tested, and all its slots issue together in one cycle or not at all. -/
  | bundleIssue (core : Nat) (ctx : Nat)
  /-- SCHEDULE_OVERRUN (R32). In DET, a bundle that cannot issue at its stamp raises the completion trap with OVSTAMP and OVCAUSE. -/
  | scheduleOverrun (core : Nat) (ctx : Nat)
  /-- RESULT_LANDS (R27). An in-flight register, lane, predicate, flag or CSR write lands at its landing cycle. -/
  | resultLands (core : Nat) (ctx : Nat)
  /-- TRAP_ENTRY (R285). A pending completion trap is taken at a bundle boundary: the run ends, the snapshot buffer is taken and the context enters HANDLER. -/
  | trapEntry (core : Nat) (ctx : Nat)
  /-- SNAPSHOT_BUFFER_GAINED (R294). A THR context waiting for the held snapshot buffer gains it and takes its trap. -/
  | snapshotBufferGained (core : Nat) (ctx : Nat)
  /-- ADD (R73). S-slot 64-bit addition modulo 2^64. -/
  | add (tt : TT) (xd : XReg) (xa : XReg) (xb : XReg)
  /-- SUB (R73). S-slot 64-bit subtraction. -/
  | sub (tt : TT) (xd : XReg) (xa : XReg) (xb : XReg)
  /-- MUL (R73). S-slot low 64 bits of the product. -/
  | mul (tt : TT) (xd : XReg) (xa : XReg) (xb : XReg)
  /-- MULH (R73). S-slot high 64 bits of the signed product. -/
  | mulh (tt : TT) (xd : XReg) (xa : XReg) (xb : XReg)
  /-- MULHU (R73). S-slot high 64 bits of the unsigned product. -/
  | mulhu (tt : TT) (xd : XReg) (xa : XReg) (xb : XReg)
  /-- DIV (R74). S-slot signed division with defined results for zero divisors and overflow. -/
  | div (tt : TT) (xd : XReg) (xa : XReg) (xb : XReg)
  /-- DIVU (R74). S-slot unsigned division. -/
  | divu (tt : TT) (xd : XReg) (xa : XReg) (xb : XReg)
  /-- REM (R74). S-slot signed remainder. -/
  | rem (tt : TT) (xd : XReg) (xa : XReg) (xb : XReg)
  /-- REMU (R74). S-slot unsigned remainder. -/
  | remu (tt : TT) (xd : XReg) (xa : XReg) (xb : XReg)
  /-- AND (R73). S-slot bitwise AND. -/
  | and (tt : TT) (xd : XReg) (xa : XReg) (xb : XReg)
  /-- OR (R73). S-slot bitwise OR. -/
  | or (tt : TT) (xd : XReg) (xa : XReg) (xb : XReg)
  /-- XOR (R73). S-slot bitwise XOR. -/
  | xor (tt : TT) (xd : XReg) (xa : XReg) (xb : XReg)
  /-- ANDN (R73). S-slot a AND NOT b. -/
  | andn (tt : TT) (xd : XReg) (xa : XReg) (xb : XReg)
  /-- SHL (R73). S-slot logical shift left. -/
  | shl (tt : TT) (xd : XReg) (xa : XReg) (xb : XReg)
  /-- SHR (R73). S-slot logical shift right. -/
  | shr (tt : TT) (xd : XReg) (xa : XReg) (xb : XReg)
  /-- SAR (R73). S-slot arithmetic shift right. -/
  | sar (tt : TT) (xd : XReg) (xa : XReg) (xb : XReg)
  /-- ROL (R73). S-slot rotate left. -/
  | rol (tt : TT) (xd : XReg) (xa : XReg) (xb : XReg)
  /-- MIN (R73). S-slot signed minimum. -/
  | min (tt : TT) (xd : XReg) (xa : XReg) (xb : XReg)
  /-- MAX (R73). S-slot signed maximum. -/
  | max (tt : TT) (xd : XReg) (xa : XReg) (xb : XReg)
  /-- MINU (R73). S-slot unsigned minimum. -/
  | minu (tt : TT) (xd : XReg) (xa : XReg) (xb : XReg)
  /-- MAXU (R73). S-slot unsigned maximum. -/
  | maxu (tt : TT) (xd : XReg) (xa : XReg) (xb : XReg)
  /-- CLZ (R73). S-slot count of leading zero bits. -/
  | clz (tt : TT) (xd : XReg) (xa : XReg)
  /-- CTZ (R73). S-slot count of trailing zero bits. -/
  | ctz (tt : TT) (xd : XReg) (xa : XReg)
  /-- POPC (R73). S-slot population count. -/
  | popc (tt : TT) (xd : XReg) (xa : XReg)
  /-- MOVI (R73). Writes the sign-extended immediate. -/
  | movi (tt : TT) (xd : XReg) (imm : W32)
  /-- MOVH (R75). Places the immediate in the upper 32 bits and keeps the lower half. -/
  | movh (tt : TT) (xd : XReg) (imm : W32)
  /-- SEXT (R73). Sign-extends the low 32 bits. -/
  | sext (tt : TT) (xd : XReg) (xa : XReg)
  /-- ZEXT (R73). Zero-extends the low 32 bits. -/
  | zext (tt : TT) (xd : XReg) (xa : XReg)
  /-- CMP (R76). S-slot integer compare that writes a predicate pair under its write type. -/
  | cmp (tt : TT) (pd0 : PReg) (pd1 : PReg) (pwt : BitVec 2) (cond : BitVec 4) (xa : XReg) (xb : XReg)
  /-- FCMP (R77). S-slot FP32 compare that writes a predicate pair. -/
  | fcmp (tt : TT) (pd0 : PReg) (pd1 : PReg) (pwt : BitVec 2) (cond : BitVec 4) (xa : XReg) (xb : XReg)
  /-- FADD (R78). S-slot FP32 addition. -/
  | fadd (tt : TT) (xd : XReg) (xa : XReg) (xb : XReg)
  /-- FSUB (R78). S-slot FP32 subtraction. -/
  | fsub (tt : TT) (xd : XReg) (xa : XReg) (xb : XReg)
  /-- FMUL (R78). S-slot FP32 multiplication. -/
  | fmul (tt : TT) (xd : XReg) (xa : XReg) (xb : XReg)
  /-- FFMA (R78). S-slot FP32 fused multiply-add into the destination. -/
  | ffma (tt : TT) (xd : XReg) (xa : XReg) (xb : XReg)
  /-- FDIV (R78). S-slot FP32 division. -/
  | fdiv (tt : TT) (xd : XReg) (xa : XReg) (xb : XReg)
  /-- FSQRT (R78). S-slot FP32 square root. -/
  | fsqrt (tt : TT) (xd : XReg) (xa : XReg)
  /-- FMIN (R79). S-slot FP32 minimum. -/
  | fmin (tt : TT) (xd : XReg) (xa : XReg) (xb : XReg)
  /-- FMAX (R79). S-slot FP32 maximum. -/
  | fmax (tt : TT) (xd : XReg) (xa : XReg) (xb : XReg)
  /-- FCVT (R80). S-slot conversion between FP32 and 32-bit integers, selected by COND. -/
  | fcvt (tt : TT) (xd : XReg) (xa : XReg) (cond : BitVec 4)
  /-- BR (R54). Branches to a bundle offset. -/
  | br (tt : TT) (ofs : W32)
  /-- BRX (R54). Branches to an address held in an X register. -/
  | brx (tt : TT) (xa : XReg)
  /-- CALL (R54). Calls a bundle offset and writes the link with LDEPTH. -/
  | call (tt : TT) (xd : XReg) (ofs : W32)
  /-- CALLX (R54). Calls a register address and writes the link. -/
  | callx (tt : TT) (xd : XReg) (xa : XReg)
  /-- RET (R54). Returns to a link value and restores LDEPTH. -/
  | ret (tt : TT) (xa : XReg)
  /-- LOOP (R57). Opens a hardware loop level with an immediate count, or skips the body. -/
  | loop (tt : TT) (count : BitVec 16) (eofs : BitVec 16) (rsz : BitVec 5) (prt : Bool) (epi : BitVec 3)
  /-- LOOPX (R57). Opens a hardware loop level with a count from an X register. -/
  | loopx (tt : TT) (xa : XReg) (eofs : BitVec 16) (rsz : BitVec 5) (prt : Bool) (epi : BitVec 3)
  /-- LBRK (R60). Closes the innermost loop level and continues after its END. -/
  | lbrk (tt : TT)
  /-- LIDX (R60). Copies the index of a loop level into an X register. -/
  | lidx (tt : TT) (xd : XReg) (level : BitVec 3)
  /-- GETC (R71). Reads a control and status register into an X register. -/
  | getc (tt : TT) (xd : XReg) (csr : BitVec 12)
  /-- PUTC (R71). Writes an X register into a writable control and status register. -/
  | putc (tt : TT) (csr : BitVec 12) (xa : XReg)
  /-- FMTSET (R81). Merges masked fields into FMT four cycles after issue. -/
  | fmtset (tt : TT) (xa : XReg) (mask : W32)
  /-- MODE (R82). Sets the issue mode of the innermost open level. -/
  | mode (tt : TT) (il : Bool)
  /-- TEND (R56). Ends the task: the context passes to CLOSING, leaves its groups and signals. -/
  | tend (tt : TT)
  /-- TRAP (R83). Raises SOFTWARE_TRAP with a code at the next boundary. -/
  | trap (tt : TT) (code : BitVec 16)
  /-- HRET (R295). Leaves handler mode, releases the buffer, replays the snapshot entries and resumes at EPC. -/
  | hret (tt : TT)
  /-- SNAPST (R292). Writes the snapshot-buffer image to memory. -/
  | snapst (tt : TT) (xa : XReg)
  /-- SNAPLD (R292). Replaces the snapshot buffer with an image from memory. -/
  | snapld (tt : TT) (xa : XReg)
  /-- SNAPREL (R84). Releases the snapshot buffer and unmasks traps. -/
  | snaprel (tt : TT)
  /-- PLUT (R95). S-slot truth table over three predicates, written to all lanes. -/
  | plut (tt : TT) (pd : PReg) (pa : PReg) (pb : PReg) (pc : PReg) (table : BitVec 8)
  /-- V_ADD (R151). Vector integer addition on sub-lanes, with optional saturation. -/
  | vAdd (vu : VUnit) (tt : TT) (vd : VReg) (va : VReg) (vb : VReg) (w : BitVec 2) (sati : BitVec 2)
  /-- V_SUB (R151). Vector integer subtraction, with optional saturation. -/
  | vSub (vu : VUnit) (tt : TT) (vd : VReg) (va : VReg) (vb : VReg) (w : BitVec 2) (sati : BitVec 2)
  /-- V_MUL (R151). Vector low product. -/
  | vMul (vu : VUnit) (tt : TT) (vd : VReg) (va : VReg) (vb : VReg) (w : BitVec 2)
  /-- V_MULH (R151). Vector signed high product. -/
  | vMulh (vu : VUnit) (tt : TT) (vd : VReg) (va : VReg) (vb : VReg) (w : BitVec 2)
  /-- V_MULHU (R151). Vector unsigned high product. -/
  | vMulhu (vu : VUnit) (tt : TT) (vd : VReg) (va : VReg) (vb : VReg) (w : BitVec 2)
  /-- V_AND (R151). Vector bitwise AND. -/
  | vAnd (vu : VUnit) (tt : TT) (vd : VReg) (va : VReg) (vb : VReg) (w : BitVec 2)
  /-- V_OR (R151). Vector bitwise OR. -/
  | vOr (vu : VUnit) (tt : TT) (vd : VReg) (va : VReg) (vb : VReg) (w : BitVec 2)
  /-- V_XOR (R151). Vector bitwise XOR. -/
  | vXor (vu : VUnit) (tt : TT) (vd : VReg) (va : VReg) (vb : VReg) (w : BitVec 2)
  /-- V_ANDN (R151). Vector a AND NOT b. -/
  | vAndn (vu : VUnit) (tt : TT) (vd : VReg) (va : VReg) (vb : VReg) (w : BitVec 2)
  /-- V_SHL (R151). Vector shift left. -/
  | vShl (vu : VUnit) (tt : TT) (vd : VReg) (va : VReg) (vb : VReg) (w : BitVec 2)
  /-- V_SHR (R151). Vector logical shift right. -/
  | vShr (vu : VUnit) (tt : TT) (vd : VReg) (va : VReg) (vb : VReg) (w : BitVec 2)
  /-- V_SAR (R151). Vector arithmetic shift right. -/
  | vSar (vu : VUnit) (tt : TT) (vd : VReg) (va : VReg) (vb : VReg) (w : BitVec 2)
  /-- V_MIN (R151). Vector signed minimum. -/
  | vMin (vu : VUnit) (tt : TT) (vd : VReg) (va : VReg) (vb : VReg) (w : BitVec 2)
  /-- V_MAX (R151). Vector signed maximum. -/
  | vMax (vu : VUnit) (tt : TT) (vd : VReg) (va : VReg) (vb : VReg) (w : BitVec 2)
  /-- V_MINU (R151). Vector unsigned minimum. -/
  | vMinu (vu : VUnit) (tt : TT) (vd : VReg) (va : VReg) (vb : VReg) (w : BitVec 2)
  /-- V_MAXU (R151). Vector unsigned maximum. -/
  | vMaxu (vu : VUnit) (tt : TT) (vd : VReg) (va : VReg) (vb : VReg) (w : BitVec 2)
  /-- V_CLZ (R151). Vector count of leading zeros. -/
  | vClz (vu : VUnit) (tt : TT) (vd : VReg) (va : VReg) (w : BitVec 2)
  /-- V_POPC (R151). Vector population count. -/
  | vPopc (vu : VUnit) (tt : TT) (vd : VReg) (va : VReg) (w : BitVec 2)
  /-- ABS (R151). Vector integer absolute value. -/
  | vAbs (vu : VUnit) (tt : TT) (vd : VReg) (va : VReg) (w : BitVec 2)
  /-- V_CMP (R93). Lane-by-lane integer compare into a predicate pair. -/
  | vCmp (vu : VUnit) (tt : TT) (pd0 : PReg) (pd1 : PReg) (pwt : BitVec 2) (cond : BitVec 4) (va : VReg) (vb : VReg)
  /-- V_FADD (R152). Vector FP32 addition. -/
  | vFadd (vu : VUnit) (tt : TT) (vd : VReg) (va : VReg) (vb : VReg) (rm : BitVec 3)
  /-- V_FSUB (R152). Vector FP32 subtraction. -/
  | vFsub (vu : VUnit) (tt : TT) (vd : VReg) (va : VReg) (vb : VReg) (rm : BitVec 3)
  /-- V_FMUL (R152). Vector FP32 multiplication. -/
  | vFmul (vu : VUnit) (tt : TT) (vd : VReg) (va : VReg) (vb : VReg) (rm : BitVec 3)
  /-- V_FCMP (R93). Lane-by-lane FP32 compare into a predicate pair. -/
  | vFcmp (vu : VUnit) (tt : TT) (pd0 : PReg) (pd1 : PReg) (pwt : BitVec 2) (cond : BitVec 4) (va : VReg) (vb : VReg)
  /-- V_FFMA (R152). Vector FP32 fused multiply-add. -/
  | vFfma (vu : VUnit) (tt : TT) (vd : VReg) (va : VReg) (vb : VReg) (vc : VReg) (rm : BitVec 3)
  /-- V_FMIN (R152). Vector FP32 minimum. -/
  | vFmin (vu : VUnit) (tt : TT) (vd : VReg) (va : VReg) (vb : VReg)
  /-- V_FMAX (R152). Vector FP32 maximum. -/
  | vFmax (vu : VUnit) (tt : TT) (vd : VReg) (va : VReg) (vb : VReg)
  /-- FABS (R152). Vector FP32 absolute value. -/
  | vFabs (vu : VUnit) (tt : TT) (vd : VReg) (va : VReg)
  /-- FNEG (R152). Vector FP32 negation. -/
  | vFneg (vu : VUnit) (tt : TT) (vd : VReg) (va : VReg)
  /-- VFCLASS (R154). Writes a one-hot class mask of each FP32 lane. -/
  | vfclass (vu : VUnit) (tt : TT) (vd : VReg) (va : VReg)
  /-- VNFIN (R155). Tests lanes for non-finite values, writes a predicate pair and sets NF. -/
  | vnfin (vu : VUnit) (tt : TT) (pd0 : PReg) (pd1 : PReg) (pwt : BitVec 2) (va : VReg) (fmt : BitVec 4)
  /-- VFDIV (R153). Vector FP32 division in the shared divide unit. -/
  | vfdiv (vu : VUnit) (tt : TT) (vd : VReg) (va : VReg) (vb : VReg) (rm : BitVec 3)
  /-- VFSQRT (R153). Vector FP32 square root. -/
  | vfsqrt (vu : VUnit) (tt : TT) (vd : VReg) (va : VReg) (rm : BitVec 3)
  /-- VFRSQ (R153). Vector FP32 reciprocal square root. -/
  | vfrsq (vu : VUnit) (tt : TT) (vd : VReg) (va : VReg) (rm : BitVec 3)
  /-- VFRCP (R153). Vector FP32 reciprocal. -/
  | vfrcp (vu : VUnit) (tt : TT) (vd : VReg) (va : VReg) (rm : BitVec 3)
  /-- VLANE (R156). Writes lane 0 of the source into a chosen lane. -/
  | vlane (vu : VUnit) (tt : TT) (vd : VReg) (va : VReg) (lane : BitVec 5)
  /-- VBCAST (R156). Broadcasts a chosen lane to the guarded lanes. -/
  | vbcast (vu : VUnit) (tt : TT) (vd : VReg) (va : VReg) (lane : BitVec 5)
  /-- VPERM (R156). Permutes lanes by an index vector. -/
  | vperm (vu : VUnit) (tt : TT) (vd : VReg) (va : VReg) (vb : VReg)
  /-- VSLIDE (R156). Slides lanes up or down with fill from a second vector. -/
  | vslide (vu : VUnit) (tt : TT) (vd : VReg) (va : VReg) (vb : VReg) (amount : BitVec 5) (down : Bool)
  /-- VPACK (R158). Encodes 64 values into undithered narrow codes. -/
  | vpack (vu : VUnit) (tt : TT) (vd : VReg) (va : VReg) (vb : VReg) (fmt : BitVec 4)
  /-- VUNPK (R159). Decodes 32 narrow codes of one part into lanes. -/
  | vunpk (vu : VUnit) (tt : TT) (vd : VReg) (va : VReg) (fmt : BitVec 4) (part : BitVec 2)
  /-- VCVT (R157). Converts lanes between FP32, FP16, BF16 and INT32. -/
  | vcvt (vu : VUnit) (tt : TT) (vd : VReg) (va : VReg) (sfmt : BitVec 4) (dfmt : BitVec 4) (rm : BitVec 3)
  /-- VRED (R160). Reduces all 32 lanes by a fixed pairwise tree. -/
  | vred (vu : VUnit) (tt : TT) (vd : VReg) (va : VReg) (red : BitVec 2)
  /-- VDOT4 (R161). Four-term narrow dot product into an accumulator lane. -/
  | vdot4 (vu : VUnit) (tt : TT) (vd : VReg) (va : VReg) (vb : VReg) (vc : VReg) (fmt : BitVec 4)
  /-- VAMAX (R162). Writes the largest magnitude among the lanes. -/
  | vamax (vu : VUnit) (tt : TT) (vd : VReg) (va : VReg)
  /-- VEXPO (R163). Computes an E8M0 block scale for each lane. -/
  | vexpo (vu : VUnit) (tt : TT) (vd : VReg) (va : VReg) (fmt : BitVec 4)
  /-- VSRND (R164). Stochastically rounds lanes to a format, keeping FP32. -/
  | vsrnd (vu : VUnit) (tt : TT) (vd : VReg) (va : VReg) (frame : BitVec 3) (fmt : BitVec 4)
  /-- VDITH (R141). Writes the dither offset of a frame for each lane's index. -/
  | vdith (vu : VUnit) (tt : TT) (vd : VReg) (va : VReg) (frame : BitVec 3) (fmt : BitVec 4)
  /-- VQENC (R141). Encodes lanes into dithered, scaled narrow codes. -/
  | vqenc (vu : VUnit) (tt : TT) (vd : VReg) (va : VReg) (frame : BitVec 3) (sc : BitVec 4) (se : Bool) (fmt : BitVec 4)
  /-- VQDEC (R141). Decodes dithered, scaled narrow codes into FP32 lanes. -/
  | vqdec (vu : VUnit) (tt : TT) (vd : VReg) (va : VReg) (frame : BitVec 3) (sc : BitVec 4) (se : Bool) (fmt : BitVec 4)
  /-- V_PLUT (R95). Vector truth table over three predicates, lane by lane. -/
  | vPlut (vu : VUnit) (tt : TT) (pd : PReg) (pa : PReg) (pb : PReg) (pc : PReg) (table : BitVec 8)
  /-- PMOV_TO_PREDICATE (R96). Sets predicate lanes from non-zero vector lanes. -/
  | pmovToPredicate (vu : VUnit) (tt : TT) (pd : PReg) (va : VReg)
  /-- PMOV_TO_VECTOR (R96). Expands predicate bits into vector lanes. -/
  | pmovToVector (vu : VUnit) (tt : TT) (vd : VReg) (pa : PReg)
  /-- TDEF (R229). Appends a leaf node over a tile in memory. -/
  | tdef (tt : TT) (nd : NodeId) (mk : BitVec 4)
  /-- TMUL (R230). Appends a matrix product node. -/
  | tmul (tt : TT) (nd : NodeId) (na : NodeId) (nb : NodeId) (mk : BitVec 4) (acc : Bool)
  /-- TMULB (R230). Appends a product node that reduces over B's columns. -/
  | tmulb (tt : TT) (nd : NodeId) (na : NodeId) (nb : NodeId) (mk : BitVec 4) (acc : Bool)
  /-- TADD (R231). Appends an elementwise addition node. -/
  | tadd (tt : TT) (nd : NodeId) (na : NodeId) (nb : NodeId) (mk : BitVec 4)
  /-- TSCAL (R231). Appends an elementwise scaling node. -/
  | tscal (tt : TT) (nd : NodeId) (na : NodeId) (mk : BitVec 4)
  /-- TROT (R232). Appends a signed Walsh-Hadamard rotation node. -/
  | trot (tt : TT) (nd : NodeId) (na : NodeId) (mk : BitVec 4) (inv : Bool)
  /-- TVIEW (R233). Appends a sub-tile, transpose or reshape view. -/
  | tview (tt : TT) (nd : NodeId) (na : NodeId) (mk : BitVec 4)
  /-- TCVT (R231). Appends a conversion node. -/
  | tcvt (tt : TT) (nd : NodeId) (na : NodeId) (mk : BitVec 4)
  /-- TCB (R235). Queues a load of the codebook shell table. -/
  | tcb (tt : TT) (mk : BitVec 4)
  /-- TDROP (R242). Frees a node once no demand needs it. -/
  | tdrop (tt : TT) (nd : NodeId)
  /-- TFORCE (R236). Queues a demand for a region of a node and takes a TM number. -/
  | tforce (tt : TT) (nd : NodeId) (mk : BitVec 4)
  /-- TSTORE (R237). Queues a demand that also quantises a region to memory. -/
  | tstore (tt : TT) (nd : NodeId) (mk : BitVec 4)
  /-- TTRSM (R259). Appends a triangular-solve node. -/
  | ttrsm (tt : TT) (nd : NodeId) (na : NodeId) (nb : NodeId) (mk : BitVec 4) (up : Bool) (unit : Bool) (tr : Bool)
  /-- TLU (R254). Appends a pivoted LU factorisation node. -/
  | tlu (tt : TT) (nd : NodeId) (na : NodeId) (mk : BitVec 4) (np : Bool)
  /-- TCHOL (R253). Appends a Cholesky factorisation node. -/
  | tchol (tt : TT) (nd : NodeId) (na : NodeId) (mk : BitVec 4)
  /-- TQR (R257). Appends a Givens QR node. -/
  | tqr (tt : TT) (nd : NodeId) (na : NodeId) (mk : BitVec 4)
  /-- TAPPLY (R258). Appends a node that applies a recorded permutation or rotations. -/
  | tapply (tt : TT) (nd : NodeId) (na : NodeId) (nb : NodeId) (mk : BitVec 4) (kind : BitVec 2)
  /-- TRES (R263). Appends an exact FX residual node. -/
  | tres (tt : TT) (nd : NodeId) (na : NodeId) (nb : NodeId) (mk : BitVec 4)
  /-- DEMAND_START (R236). A queued Grove demand starts, fixes its needed sets and evaluates nodes. -/
  | demandStart (core : Nat)
  /-- DEMAND_COMPLETE (R238). A demand completes at start plus cost and its TM number completes. -/
  | demandComplete (core : Nat)
  /-- DEMAND_SUSPEND (R245). A demand that meets a fault or breakdown is suspended and its progress is recorded. -/
  | demandSuspend (core : Nat)
  /-- SOLVER_UNIT_REQUEST (R148). A solver node's request to the divide unit is served, or waits a cycle when a vector divide takes the unit. -/
  | solverUnitRequest (core : Nat)
  /-- LD (R201). Scheduled scalar load of 1 to 8 bytes. -/
  | ld (tt : TT) (lvd : BitVec 7) (lab : BitVec 4) (am : Bool) (ofs : BitVec 15) (sz : BitVec 2) (sx : Bool) (rd : BitVec 2)
  /-- LDV (R201). Scheduled vector load of 32 words, or a FIFO pop. -/
  | ldv (tt : TT) (lvd : BitVec 7) (lab : BitVec 4) (am : Bool) (ofs : BitVec 15) (rd : BitVec 2)
  /-- LDS (R201). Scheduled strided vector load. -/
  | lds (tt : TT) (lvd : BitVec 7) (lab : BitVec 4) (las : BitVec 4) (ofs : BitVec 15) (rd : BitVec 2)
  /-- LDG (R201). Scheduled gather load. -/
  | ldg (tt : TT) (lvd : BitVec 7) (lab : BitVec 4) (lvi : BitVec 7) (ofs : BitVec 12) (rd : BitVec 2)
  /-- LDC (R200). Cached scoreboarded scalar load that takes a TA number. -/
  | ldc (tt : TT) (lvd : BitVec 7) (lab : BitVec 4) (am : Bool) (ofs : BitVec 15) (sz : BitVec 2) (sx : Bool) (rd : BitVec 2)
  /-- LDCV (R200). Cached scoreboarded vector load. -/
  | ldcv (tt : TT) (lvd : BitVec 7) (lab : BitVec 4) (am : Bool) (ofs : BitVec 15) (rd : BitVec 2)
  /-- PREF (R202). Prefetches lines into the cluster cache. -/
  | pref (tt : TT) (lines : BitVec 4) (lab : BitVec 4) (am : Bool) (ofs : BitVec 15) (rd : BitVec 2)
  /-- LAADD (R203). Adds an immediate to a load address register. -/
  | laadd (tt : TT) (lad : BitVec 4) (laa : BitVec 4) (imm : BitVec 24)
  /-- LAMOV (R203). Moves a 64-bit value from LV into a load address register. -/
  | lamov (tt : TT) (lad : BitVec 4) (lvs : BitVec 7)
  /-- LOAD_VALUE_LANDS (R199). A scheduled load's data arrives and lands; a late arrival stalls the context. -/
  | loadValueLands (p : Nat) (id : Nat)
  /-- LDC_LANDS (R200). A cached load's value lands, clears the pending mark and completes its TA number. -/
  | ldcLands (p : Nat) (id : Nat)
  /-- ST (R204). Scalar store of 1 to 8 bytes. -/
  | st (tt : TT) (qvs : BitVec 6) (qab : BitVec 4) (am : Bool) (ofs : BitVec 18) (sz : BitVec 2)
  /-- STV (R204). Vector store of 32 words, or a FIFO push. -/
  | stv (tt : TT) (qvs : BitVec 6) (qab : BitVec 4) (am : Bool) (ofs : BitVec 18)
  /-- STS (R204). Strided vector store. -/
  | sts (tt : TT) (qvs : BitVec 6) (qab : BitVec 4) (qas : BitVec 4) (ofs : BitVec 18)
  /-- SCAT (R204). Scatter store. -/
  | scat (tt : TT) (qvs : BitVec 6) (qab : BitVec 4) (qvi : BitVec 6) (ofs : BitVec 16)
  /-- QST (R205). Quantising store through a frame and uniform scale. -/
  | qst (tt : TT) (qvs : BitVec 6) (qab : BitVec 4) (am : Bool) (ofs : BitVec 9) (frame : BitVec 3) (fmt : BitVec 4) (sc : BitVec 4) (se : Bool)
  /-- QSTB (R206). Quantising store that computes and writes its block scale. -/
  | qstb (tt : TT) (qvs : BitVec 6) (qab : BitVec 4) (am : Bool) (ofs : BitVec 9) (frame : BitVec 3) (fmt : BitVec 4) (sc : BitVec 4)
  /-- AADD (R207). Atomic integer add at the home. -/
  | aadd (tt : TT) (qvs : BitVec 6) (qvd : BitVec 6) (qab : BitVec 4) (ofs : BitVec 13) (sz : BitVec 1) (nr : Bool)
  /-- AFADD (R207). Atomic FP32 add at the home. -/
  | afadd (tt : TT) (qvs : BitVec 6) (qvd : BitVec 6) (qab : BitVec 4) (ofs : BitVec 13) (nr : Bool)
  /-- AMIN (R207). Atomic minimum. -/
  | amin (tt : TT) (qvs : BitVec 6) (qvd : BitVec 6) (qab : BitVec 4) (ofs : BitVec 13) (sz : BitVec 1) (nr : Bool) (u : Bool)
  /-- AMAX (R207). Atomic maximum. -/
  | amax (tt : TT) (qvs : BitVec 6) (qvd : BitVec 6) (qab : BitVec 4) (ofs : BitVec 13) (sz : BitVec 1) (nr : Bool) (u : Bool)
  /-- AOR (R207). Atomic OR. -/
  | aor (tt : TT) (qvs : BitVec 6) (qvd : BitVec 6) (qab : BitVec 4) (ofs : BitVec 13) (sz : BitVec 1) (nr : Bool)
  /-- AAND (R207). Atomic AND. -/
  | aand (tt : TT) (qvs : BitVec 6) (qvd : BitVec 6) (qab : BitVec 4) (ofs : BitVec 13) (sz : BitVec 1) (nr : Bool)
  /-- AXCHG (R207). Atomic exchange. -/
  | axchg (tt : TT) (qvs : BitVec 6) (qvd : BitVec 6) (qab : BitVec 4) (ofs : BitVec 13) (sz : BitVec 1) (nr : Bool)
  /-- ACAS (R207). Atomic compare and swap. -/
  | acas (tt : TT) (qvs : BitVec 6) (qvd : BitVec 6) (qab : BitVec 4) (ofs : BitVec 13) (sz : BitVec 1) (nr : Bool)
  /-- CONTRIB (R208). Delivers 16 FP32 values to the update unit of a line. -/
  | contrib (tt : TT) (qvs : BitVec 6) (qab : BitVec 4) (qak : BitVec 4) (ofs : BitVec 17) (h : Bool)
  /-- QAADD (R203). Adds an immediate to a store address register. -/
  | qaadd (tt : TT) (qad : BitVec 4) (qaa : BitVec 4) (imm : BitVec 24)
  /-- STORE_PERFORMS (R198). A store's writes perform at their cache or home. -/
  | storePerforms (p : Nat) (id : Nat)
  /-- ATOMIC_PERFORMS (R207). An atomic performs at its home, and its old value lands and completes its TA number. -/
  | atomicPerforms (p : Nat) (id : Nat)
  /-- FIFO_POP_SERVED (R175). A pop held at an empty FIFO bank is served when an entry appears. -/
  | fifoPopServed (p : Nat) (id : Nat)
  /-- FIFO_PUSH_ENTERS (R175). A push held at a full FIFO bank enters when room appears. -/
  | fifoPushEnters (p : Nat) (id : Nat)
  /-- COPY (R86). Exchange copy between registers of one width class. -/
  | copy (tt : TT) (c0 : CopyDesc) (c1 : CopyDesc)
  /-- COPYB (R86). Broadcasts 32 bits of a 64-bit register to every lane. -/
  | copyb (tt : TT) (c0 : CopyDesc) (c1 : CopyDesc)
  /-- COPYL (R86). Packs lanes 1 and 0 of a vector into a 64-bit register. -/
  | copyl (tt : TT) (c0 : CopyDesc) (c1 : CopyDesc)
  /-- COPYP (R86). Places a 64-bit value into lanes 0 and 1. -/
  | copyp (tt : TT) (c0 : CopyDesc) (c1 : CopyDesc)
  /-- CPY (R214). Copies bytes, optionally with an arrival block. -/
  | cpy (tt : TT) (k : BitVec 4) (rd : BitVec 2) (ha : Bool)
  /-- CPY2 (R214). Copies a 2-D region with pitches. -/
  | cpy2 (tt : TT) (k : BitVec 4) (rd : BitVec 2)
  /-- CPYT (R214). Copies a region transposed. -/
  | cpyt (tt : TT) (k : BitVec 4) (rd : BitVec 2)
  /-- CRDT (R215). Decodes and re-encodes elements between frames and formats. -/
  | crdt (tt : TT) (k : BitVec 4) (rd : BitVec 2) (tr : Bool)
  /-- CGAT (R214). Gathers elements by an index list. -/
  | cgat (tt : TT) (k : BitVec 4) (rd : BitVec 2)
  /-- CSCT (R214). Scatters elements by an index list. -/
  | csct (tt : TT) (k : BitVec 4) (rd : BitVec 2)
  /-- CFILL (R214). Fills bytes with an 8-byte pattern. -/
  | cfill (tt : TT) (k : BitVec 4) (rd : BitVec 2)
  /-- CSEND (R326). Writes local bytes into a peer's memory over a route. -/
  | csend (tt : TT) (k : BitVec 4) (rd : BitVec 2) (ha : Bool)
  /-- CPULL (R326). Reads a peer's bytes into local memory. -/
  | cpull (tt : TT) (k : BitVec 4) (rd : BitVec 2)
  /-- CRED (R333). Contributes a range of indices to a canonical or arrival-order reduction. -/
  | cred (tt : TT) (k : BitVec 4)
  /-- BANKSET (R176). Sets the mode of a run of the cluster's SRAM banks. -/
  | bankset (tt : TT) (k : BitVec 4)
  /-- COPY_START (R218). An accepted copy-engine command starts once its predecessor and overlapping commands allow. -/
  | copyStart (core : Nat)
  /-- COPY_COMPLETE (R218). A copy-engine command completes and its TC or TF number completes. -/
  | copyComplete (p : Nat) (id : Nat)
  /-- BANKSET_COMPLETE (R176). The last bank enters its mode, write-backs have performed, and TC advances. -/
  | banksetComplete (p : Nat) (id : Nat)
  /-- WADD (R268). Sets a wait register's target and counter. -/
  | wadd (tt : TT) (wi : BitVec 3) (ctr : BitVec 3) (bs : BitVec 2) (yk : BitVec 6)
  /-- TLINC (R268). Increments the context's own TS counter. -/
  | tlinc (tt : TT) (yk : BitVec 6)
  /-- TLINC_C (R268). Releases at core scope and increments TS of another context of the core. -/
  | tlincC (tt : TT) (xa : XReg) (yk : BitVec 6)
  /-- TS_INCREMENT (R268). The increment of a TLINC.c lands on the target's TS when its release completes. -/
  | tsIncrement (p : Nat) (id : Nat)
  /-- FENCE_REL (R271). Release fence at a scope that holds the next bundle until completion. -/
  | fenceRel (tt : TT) (scope : BitVec 3)
  /-- FENCE_ACQ (R271). Acquire fence at a scope. -/
  | fenceAcq (tt : TT) (scope : BitVec 3)
  /-- DRAIN (R271). Holds the next bundle until every earlier write has performed. -/
  | drain (tt : TT)
  /-- FLUSH (R271). Writes back the named lines of the cluster cache. -/
  | flush (tt : TT) (xa : XReg) (xb : XReg)
  /-- FLUSH_ALL (R271). Writes back the whole cluster cache. -/
  | flushAll (tt : TT)
  /-- INVAL (R271). Writes back and invalidates the named lines. -/
  | inval (tt : TT) (xa : XReg) (xb : XReg)
  /-- INVAL_ALL (R271). Writes back and invalidates the whole cluster cache. -/
  | invalAll (tt : TT)
  /-- SYNC_COMPLETE (R272). A DRAIN, FENCE, FLUSH or INVAL reaches its completion cycle and releases the held bundle. -/
  | syncComplete (core : Nat) (ctx : Nat)
  /-- JOIN (R63). The context becomes a member of a group. -/
  | join (tt : TT) (xg : XReg)
  /-- LEAVE (R63). Releases and leaves a group, counting as an arrival if due. -/
  | leave (tt : TT) (xg : XReg) (scope : BitVec 3)
  /-- GNEW (R63). Allocates a group and returns its id. -/
  | gnew (tt : TT) (xg : XReg)
  /-- GFREE (R63). Frees an empty group and increments its generation. -/
  | gfree (tt : TT) (xg : XReg)
  /-- BAR (R65). Releases, arrives at the group's phase and takes a TG number. -/
  | bar (tt : TT) (xg : XReg) (scope : BitVec 3)
  /-- ARRIVE (R65). Releases and arrives at the group's phase without a TG number. -/
  | arrive (tt : TT) (xg : XReg) (scope : BitVec 3)
  /-- ARRIVAL_COUNTS (R65). An arrival or LEAVE counts when its release completes, possibly completing the phase. -/
  | arrivalCounts (p : Nat) (id : Nat)
  /-- TG_ADVANCE (R65). TG advances GBL cycles after a BAR's phase completes. -/
  | tgAdvance (p : Nat) (id : Nat)
  /-- SIGNAL (R280). Releases the task's earlier writes to the launch's dependants. -/
  | signal (tt : TT)
  /-- TASK_SIGNALLED (R280). A task's signal counts once its drain part has passed. -/
  | taskSignalled (p : Nat) (id : Nat)
  /-- SUBMIT (R281). Offers a launch packet to a work queue after a package release. -/
  | submit (tt : TT) (xa : XReg) (xb : XReg)
  /-- SUBMIT_DELIVERY (R281). The packet is written into the queue's ring 160 cycles after the release completes. -/
  | submitDelivery (p : Nat) (id : Nat)
  /-- ARMCTX (R188). Reserves a FREE context of the core as ARMED for an arrival handler. -/
  | armctx (tt : TT) (xd : XReg)
  /-- UARM (R184). Arms an update unit for a weight line. -/
  | uarm (tt : TT) (xa : XReg) (xb : XReg)
  /-- ARM_ARRIVAL (R337). An arm reaches its update unit and takes an arm entry. -/
  | armArrival (p : Nat) (id : Nat)
  /-- CONTRIB_ACCEPTED (R185). A contribution reaches its unit and is buffered or discarded and counted. -/
  | contribAccepted (p : Nat) (id : Nat)
  /-- UPDATE_RULE_APPLY (R186). With all contributions present, the unit forms the canonical sum and applies the rule. -/
  | updateRuleApply (p : Nat) (id : Nat)
  /-- UPDATE_COMPLETE (R187). The rule's writes perform at the home and the arm's TA number completes. -/
  | updateComplete (p : Nat) (id : Nat)
  /-- ARRIVAL (R189). A carrier's payload has performed and its arrival enters the destination core's arrival queue. -/
  | arrival (p : Nat) (id : Nat)
  /-- ARRIVAL_HANDLER_START (R189). The oldest arrival binds the lowest ARMED context at its handler address. -/
  | arrivalHandlerStart (core : Nat)
  /-- CONTEXT_FREE (R56). A CLOSING context's last effect completes; its nodes are dropped and it becomes FREE. -/
  | contextFree (core : Nat) (ctx : Nat)
  /-- FORCED_PREEMPTION (R299). In THR, a request not landed within 20,000 cycles is forced and takes the snapshot buffer. -/
  | forcedPreemption (core : Nat) (ctx : Nat)
  /-- CONTEXT_SAVE (R301). A pre-empted context's state is saved to its save area and the context becomes FREE. -/
  | contextSave (core : Nat) (ctx : Nat)
  /-- CONTEXT_RESTORE (R302). A saved task is rebound, its image is loaded and it resumes at its saved PC. -/
  | contextRestore (p : Nat) (id : Nat)
  /-- SLOT_READ (R310). The scheduler reads a ring slot, first within 256 ns and then every 64 ns while stale. -/
  | slotRead (q : Nat)
  /-- QUEUE_STALE (R310). A slot still stale 2 µs after its first read puts the queue in ERROR. -/
  | queueStale (q : Nat)
  /-- PACKET_ACCEPT (R313). A fresh packet is accepted, checked, admitted to the Thicket and HEAD advances. -/
  | packetAccept (q : Nat)
  /-- TASK_BIND (R319). In THR, each cycle the scheduler binds at most one ready task per cluster. -/
  | taskBind (p : Nat) (cluster : Nat)
  /-- PRIORITY_AGING (R319). A ready task waiting 65,536 cycles at its level rises in effective priority. -/
  | priorityAging (p : Nat) (id : Nat)
  /-- DET_BIND (R321). In DET, a task is bound at START − 16, or misses its start. -/
  | detBind (p : Nat) (id : Nat)
  /-- LAUNCH_COMPLETE (R322). A launch completes: release, Thicket entries freed, record written, COMPLCNT and TQ advance. -/
  | launchComplete (p : Nat) (id : Nat)
  /-- WATCHDOG_EXPIRY (R351). A queue's watchdog reaches its limit, and the queue enters ERROR and the partition drains. -/
  | watchdogExpiry (q : Nat)
  /-- DRAIN_AND_RESET (R352). The partition stops issue, abandons work in flight, completes launches as RESET and frees its contexts. -/
  | drainAndReset (p : Nat)
  /-- DRAIN_END (R352). 65,536 cycles after the drain began, PSTATE returns to RUNNING and binding resumes. -/
  | drainEnd (p : Nat)
  /-- PARTITION_START (R348). CREATING ends and PTIME starts at 0, at PSTART when SYNC is set. -/
  | partitionStart (p : Nat)
  /-- INGRESS_PERFORMED (R278). An applied entry's writes perform at the home and its TH number completes. -/
  | ingressPerformed (p : Nat) (id : Nat)
  /-- REDUCTION_RESULT (R333). The combiner completes the reduction and writes the result to every participant. -/
  | reductionResult (p : Nat) (id : Nat)
  /-- FLUSH_PART_COMPLETE (R282). The deferred flush of a launch's or SIGNALLED release completes on a cluster, after which a cross-cluster dependant may bind and a completion record or TQ completion that needs it is made. -/
  | flushPartComplete (p : Nat) (id : Nat)
  /-- BANK_NEW_MODE_ENTERED (R176). One bank of a running BANKSET finishes its write-back or clear and enters its new mode, ending SWITCHING for that bank. -/
  | bankNewModeEntered (p : Nat) (id : Nat)
  /-- DESTROYING_DONE (R344). A partition's DESTROYING phase ends, its banks and L2 share are cleared and its key erased, and its state becomes NONE. -/
  | destroyingDone (p : Nat)
  /-- REGISTER_WRITE (R343). A write to a host-visible register without behaviour of its own stores its value or is refused. -/
  | registerWrite (reg : By HostReg) (value : W64)
  /-- DOORBELL (R310). The owner writes a queue's tail. -/
  | doorbell (q : By Nat) (tail : W32)
  /-- INGRESS_ARRIVAL (R277). A host write arrives and takes an ingress-buffer entry, or is discarded. -/
  | ingressArrival (write : HostWrite)
  /-- HOST_READ (R279). A host read of device memory is served at the home. -/
  | hostRead (read : HostRead)
  /-- PEVENT_CLEAR (R343). Writing 1 to a PEVENT bit clears it. -/
  | peventClear (p : By Nat) (bits : W64)
  /-- PREEMPT_REQUEST (R298). The scheduler requests pre-emption of a BOUND context. -/
  | preemptRequest (core : Nat) (ctx : Nat) (area : W64)
  /-- QUEUE_ENABLE (R309). Setting QCTL.EN makes the queue ACTIVE and clears its state. -/
  | queueEnable (q : By Nat) (ctl : W64)
  /-- RANGE_TABLE_LOAD (R169). The runtime loads the partition's range table, or the load is rejected whole. -/
  | rangeTableLoad (p : Nat) (entries : List RangeWords)
  /-- QUEUE_DISABLE (R309). Clearing QCTL.EN makes the queue DISABLED and discards unaccepted packets. -/
  | queueDisable (q : By Nat) (ctl : W64)
  /-- CREATE (R344). PCMD CREATE checks and creates a partition with a new key. -/
  | create (p : Nat)
  /-- DESTROY (R344). PCMD DESTROY drains the partition, clears its banks and erases its key. -/
  | destroy (p : Nat)
  /-- RESET (R344). PCMD RESET drains and resets a running partition. -/
  | reset (p : Nat)
  /-- HRSEL (R367). Writing HRSEL selects the field record that HREC shows. -/
  | hrsel (sel : By W64)
  /-- ROUTE_TABLE_LOAD (R324). The runtime loads the route table, or the load is rejected whole. -/
  | routeTableLoad (p : Nat) (words : List W64)
  /-- REDUCTION_GROUP_LOAD (R340). The runtime loads a reduction-group entry, or the load is rejected. -/
  | reductionGroupLoad (p : Nat) (index : Nat) (words : List W64)
  /-- RULE_SET_LOAD (R183). The runtime writes the partition's update rule sets between kernels. -/
  | ruleSetLoad (p : Nat) (index : Nat) (words : List W32)
  /-- FABRIC_HEADER_CHECK (R326). A CSEND or CPULL header flit is checked at the peer over its remote extent before bytes move. -/
  | fabricHeaderCheck (header : FabricHeader)
  /-- FRAGMENT_ARRIVAL (R333). A reduction fragment or partial reaches the root's combiner. -/
  | fragmentArrival (fragment : Fragment)
  /-- UNCORRECTABLE_ERROR (R364). An uncorrectable error is a device fault that drains the partitions it touches. -/
  | uncorrectableError (unit : ErrorUnit) (holder : Struck)
  /-- CORRECTED_ERROR (R365). A corrected error is counted and may declare its unit lasting. -/
  | correctedError (unit : ErrorUnit) (repair : Bool)
  /-- THERMAL_EVENT (R370). A temperature or power limit lowers THR clocks, faults DET partitions or resets the module. -/
  | thermalEvent (event : Thermal)
  /-- MODULE_RESET (R371). After reset, bring-up runs its stages to ready or stops at a failed stage. -/
  | moduleReset
  /-- FABRIC_CREDITS_RETURNED (R323). Flow-control credits for a virtual channel return from the link, letting a fabric command waiting for credits proceed. -/
  | fabricCreditsReturned (p : Nat) (credits : CreditReturn)
  /-- SPDM_REQUEST (R356). The device answers an SPDM request for its certificates, its measurements or a fabric key exchange, signed with the identity key. -/
  | spdmRequest (request : SpdmRequest)
  /-- TDISP_REQUEST (R355). A TDISP request moves a partition's device interface into or out of its RUN state, which gates the owner's access to its GDDR, queue registers and owner fields. -/
  | tdispRequest (p : Nat) (run : Bool)
  /-- LIFETIME_HOUR (R365). The device's powered-on hour count advances, updating HLIFE and the per-day and temperature histograms of the field records. -/
  | lifetimeHour
  deriving DecidableEq, Repr

end Sys2Proof
end

