-- ==== Sys2Proof/Config.lean ====
section
/-! DEFINITION. What one implementation fixes and the spec leaves open: free values, as constants without a body, so that
nothing can be proved of any one of them (notes/assumptions, 2, 9, 10, 12, 13). The fixed figures of the spec stand here
too. -/

namespace Sys2Proof.Config

/-! ## Free values -/

/-- The figure that a THR access, command or demand takes where the spec calls its figure typical (R180, R218, R238,
R271): from the DET figure and the n-th choice. -/
opaque thrFigure : Nat → Nat → Nat

/-- The n-th choice of a THR delay that the spec bounds above (R65, R187, R176). -/
opaque thrWithin : Nat → Nat

/-- The multiple of 100 MHz, above 18, at which a THR partition's clock starts (R2, R347). -/
opaque thrClock : Nat → Nat

/-- The cycles that a core's clock counts from module reset, or from the end of its last partition, to the creation of its
partition: from the n-th choice and the core (R70, R344). -/
opaque coreCycles : Nat → Nat → Nat

/-- How long CREATING and DESTROYING last (R344). -/
opaque createCycles : Nat → Nat
opaque destroyCycles : Nat → Nat

/-- The PERR code of a table load that is refused for a reason to which R345 gives no code. -/
opaque tableError : BitVec 8

/-- Which field record HRSEL selects, and a word of HREC: from its place and what the record holds (R367 and R368 state neither
the numbers nor the layout of the records). -/
opaque recordOf : Nat → Nat
opaque recordWord : Nat → List Nat → BitVec 64

/-- Which free group object GNEW takes (R61, R63). -/
opaque groupPick : Nat → Nat

/-- How many nanoseconds pass before the first read of a ring slot (R310). -/
opaque slotReadDelay : Nat → Nat

/-- What the peer of a fabric command answers to its header: 0 accepted, 1 to 3 a cause of R335 (R326). -/
opaque peerAnswer : Nat → Nat

/-- How many cycles a peer's full arrival queue or held push keeps a CSEND beyond its figure (R189, R326). -/
opaque peerDelay : Nat → Nat

/-- Byte i of what a peer sends (R326). -/
opaque peerByte : Nat → Nat → BitVec 8

/-- What GRVSEQ and GRVNODE receive from a NONFINITE of a copy, which has no demand and no node (R286). -/
opaque copyGrvSeq : Nat → BitVec 64
opaque copyGrvNode : Nat → BitVec 8

/-- What an integer accumulator holds after a group whose exact sum is no integer: from the accumulator, the kind of the
sum (0 finite, 1 infinite, 2 NaN), its sign, mantissa and exponent (R124 states only integer sums). -/
opaque integerSum : BitVec 32 → Nat → Bool → Nat → Int → BitVec 32

/-- Accumulator i of the spill buffer of a demand suspended at K chunk 0, on which no result depends (R245, R246). -/
opaque accumulator : Nat → Nat → BitVec 32

/-- STIME of the fabric domain that a module with attested ports joins at bring-up (R348). -/
opaque domainTime : Nat → Nat

/-- SHA-384 and the signature of the identity key, and the measurement of the firmware (R356, R357). -/
opaque sha384 : List (BitVec 8) → BitVec 384
opaque sign : List (BitVec 8) → List (BitVec 8)
opaque firmware : BitVec 384
opaque certificates : List (BitVec 8)

/-- How bring-up ends: the failed stage in the low four bits, 0 for none, and its error code above (R371). -/
opaque bringUp : Nat → Nat

/-- Which fabric ports have an attested peer after bring-up (R356, R371). -/
opaque attested : Nat → BitVec 16

/-- The temperature, in sixteenths of a degree, and the power, in watts, that the module measures (R367, R368, R370). -/
opaque temperature : Nat → BitVec 16
opaque power : Nat → BitVec 16

/-- Whether an access that nothing orders after, or before, a write finds the write performed: in the n-th choice, for the i-th
byte that is open (R209, R219, R387). -/
opaque raceByte : Nat → Nat → Bool

/-- By how many cycles beyond the first a DET access misses its padded time when its channel's slots do not hold it (R181). -/
opaque slotDelay : Nat → Nat

/-- The byte that an abandoned write leaves where the spec allows the old or the new one (R352): whether it performed, in the n-th
choice, for the i-th byte. -/
opaque abandonedPerforms : Nat → Nat → Bool

/-! ## Fixed figures -/

/-- Global time units in one 100 MHz reference tick of 10 ns: the least number that every clock multiple from 18 to 30
divides, and 10 with it (the model's own unit; R2, R348). -/
def unitsPerTick : Nat := 68502634200

/-- Global time units in a nanosecond. -/
def unitsPerNs : Nat := unitsPerTick / 10

/-- GBL: the barrier latency (R65). -/
def gbl : Nat := 320

/-- UCL: the update latency (R187). -/
def ucl : Nat := 640

/-- The delivery of a SUBMIT after its release (R281). -/
def submitDelay : Nat := 160

/-- The wait before a pre-emption is forced (R299). -/
def forceAfter : Nat := 20000

/-- The duration of a drain (R352). -/
def drainCycles : Nat := 65536

/-- The waiting time of one level of priority (R319). -/
def agingCycles : Nat := 65536

end Sys2Proof.Config
end

