-- ==== Sys2Proof/WellFormed.lean ====
section
/-! DEFINITION. Which field values the encodings admit (R24, R44 to R48 and the encoding rules of each family). The
checks that need the whole bundle or the context are made when the bundle issues (R25, R28, R34 to R37, R42). -/

namespace Sys2Proof

/-- An integer condition code of R46. -/
def condOk (c : BitVec 4) : Bool := decide (c.toNat < 12)

/-- A floating-point condition code of R46. -/
def fcondOk (c : BitVec 4) : Bool := decide (c.toNat < 8)

/-- A rounding-mode code of R46. -/
def rmOk (r : BitVec 3) : Bool := decide (r.toNat < 6)

/-- A register-number field of a V slot (R22). -/
def vregOk (v : VReg) : Bool := decide (v.toNat < 640)

/-- A format from 1 to 7 (R158, R159, R163, R164, R195). -/
def narrowOk (f : BitVec 4) : Bool := decide (1 ≤ f.toNat ∧ f.toNat ≤ 7)

/-- The part limit of VUNPK (R159): the 16-bit formats have two parts. -/
def partOk (f : BitVec 4) (part : BitVec 2) : Bool := !(f.toNat == 1 || f.toNat == 2) || decide (part.toNat < 2)

/-- The formats of VCVT (R157). -/
def cvtOk (f : BitVec 4) : Bool := decide (f.toNat < 3) || f.toNat == 10

/-- The fields of LOOP and LOOPX (R53). -/
def loopFieldsOk (rsz : BitVec 5) (prt : Bool) (epi : BitVec 3) (eofs : BitVec 16) : Bool :=
  decide (rsz.toNat ≤ 16) && (prt || epi.toNat == 0) && eofs.toNat != 0

/-- The CSR numbers that R70 assigns. -/
def csrAssigned (n : Nat) : Bool :=
  decide (n ≤ 0x006) || (decide (0x008 ≤ n) && decide (n ≤ 0x012)) || n == 0x018 || n == 0x019 || n == 0x020 || n == 0x021
    || (decide (0x040 ≤ n) && decide (n < 0x070) && decide (n % 8 ≤ 4))
    || (decide (0x080 ≤ n) && decide (n ≤ 0x083)) || (decide (0x100 ≤ n) && decide (n ≤ 0x104)) || n == 0x110 || n == 0x111
    || (decide (0x120 ≤ n) && decide (n ≤ 0x124)) || (decide (0x130 ≤ n) && decide (n ≤ 0x137)) || n == 0x140

/-- The RH registers of R70, written only in handler mode. -/
def csrHandlerOnly (n : Nat) : Bool :=
  n == 0x020 || n == 0x021 || (decide (0x040 ≤ n) && decide (n < 0x070) && decide (n % 8 ≤ 4))
    || n == 0x100 || n == 0x101 || n == 0x104

/-- The RW and RH registers of R70. -/
def csrWritable (n : Nat) : Bool := n == 0x019 || n == 0x124 || csrHandlerOnly n

/-- A node id that a form uses is not 0 (R223). -/
def nodeOk (n : NodeId) : Bool := n != 0

/-- The w staging words from k on stay below 16 (R212, R223). -/
def wordsOk (k : BitVec 4) (w : Nat) : Bool := decide (k.toNat + w ≤ 16)

/-- The file codes of the vector class (R86). -/
def fileIsVector (f : BitVec 3) : Bool := decide (1 ≤ f.toNat ∧ f.toNat ≤ 4)

/-- A register number within its file (R44, R45). -/
def fileNumOk (f : BitVec 3) (r : BitVec 10) : Bool :=
  match f.toNat with
  | 0 => decide (r.toNat < 64)
  | 1 => decide (r.toNat < 640)
  | 2 => decide (r.toNat < 640)
  | 3 => decide (r.toNat < 128)
  | 4 => decide (r.toNat < 64)
  | 5 => decide (r.toNat < 16)
  | 6 => decide (r.toNat < 16)
  | _ => decide (r.toNat < 128) && !(decide (64 ≤ r.toNat) && r.toNat % 8 == 7)

/-- A descriptor whose four fields are all 0 is empty (R44). -/
def CopyDesc.isEmpty (c : CopyDesc) : Bool := c.sf == 0 && c.sr == 0 && c.df == 0 && c.dr == 0

/-- The classes of the files under the four forms (R86). -/
def classesOk (form : Nat) (c : CopyDesc) : Bool :=
  match form with
  | 1 => fileIsVector c.sf == fileIsVector c.df
  | 3 => fileIsVector c.sf && !fileIsVector c.df
  | _ => !fileIsVector c.sf && fileIsVector c.df

/-- One descriptor: empty, or numbers and classes that its form admits (R44, R86). -/
def copyOk (form : Nat) (c : CopyDesc) : Bool :=
  c.isEmpty || (fileNumOk c.sf c.sr && fileNumOk c.df c.dr && classesOk form c)

/-- What two descriptors of a bundle name as one destination (R28, R88): the two words of a wait register are one. -/
def destKey (c : CopyDesc) : Nat × Nat :=
  (c.df.toNat, if c.df.toNat = 7 ∧ 32 ≤ c.dr.toNat ∧ c.dr.toNat < 48 then c.dr.toNat / 2 * 2 else c.dr.toNat)

/-- The two descriptors together (R44, R87). -/
def copyPairOk (form : Nat) (c0 c1 : CopyDesc) : Bool :=
  copyOk form c0 && copyOk form c1 && (!c0.isEmpty || c1.isEmpty)
    && (c0.isEmpty || c1.isEmpty || destKey c0 != destKey c1)

/-- A host write of 1 to 64 bytes within one line of 64 bytes (R277). -/
def HostWrite.ok (w : HostWrite) : Bool :=
  decide (1 ≤ w.bytes.length) && decide (w.addr.toNat % 64 + w.bytes.length ≤ 64)


/-- An instruction is well-formed when every field holds a value that the encodings admit (R24, R41, R44, R46, R47,
R53, R71, R76, R195, R212, R223, R249, R268, R270). An event has no encoding; what it carries keeps the
limits of R168, R183, R277, R309, R324 and R331. -/
def Instr.wf (i : Instr) : Bool :=
  match i with
  | .bundleIssue _ _ => true
  | .scheduleOverrun _ _ => true
  | .resultLands _ _ => true
  | .trapEntry _ _ => true
  | .snapshotBufferGained _ _ => true
  | .add _ _ _ _ => true
  | .sub _ _ _ _ => true
  | .mul _ _ _ _ => true
  | .mulh _ _ _ _ => true
  | .mulhu _ _ _ _ => true
  | .div _ _ _ _ => true
  | .divu _ _ _ _ => true
  | .rem _ _ _ _ => true
  | .remu _ _ _ _ => true
  | .and _ _ _ _ => true
  | .or _ _ _ _ => true
  | .xor _ _ _ _ => true
  | .andn _ _ _ _ => true
  | .shl _ _ _ _ => true
  | .shr _ _ _ _ => true
  | .sar _ _ _ _ => true
  | .rol _ _ _ _ => true
  | .min _ _ _ _ => true
  | .max _ _ _ _ => true
  | .minu _ _ _ _ => true
  | .maxu _ _ _ _ => true
  | .clz _ _ _ => true
  | .ctz _ _ _ => true
  | .popc _ _ _ => true
  | .movi _ _ _ => true
  | .movh _ _ _ => true
  | .sext _ _ _ => true
  | .zext _ _ _ => true
  | .cmp _ pd0 pd1 _ cond _ _ => condOk cond && pd0 != pd1
  | .fcmp _ pd0 pd1 _ cond _ _ => fcondOk cond && pd0 != pd1
  | .fadd _ _ _ _ => true
  | .fsub _ _ _ _ => true
  | .fmul _ _ _ _ => true
  | .ffma _ _ _ _ => true
  | .fdiv _ _ _ _ => true
  | .fsqrt _ _ _ => true
  | .fmin _ _ _ _ => true
  | .fmax _ _ _ _ => true
  | .fcvt _ _ _ cond => decide (cond.toNat < 4)
  | .br _ _ => true
  | .brx _ _ => true
  | .call _ _ _ => true
  | .callx _ _ _ => true
  | .ret _ _ => true
  | .loop _ _ eofs rsz prt epi => loopFieldsOk rsz prt epi eofs
  | .loopx _ _ eofs rsz prt epi => loopFieldsOk rsz prt epi eofs
  | .lbrk _ => true
  | .lidx _ _ level => decide (level.toNat ≤ 5)
  | .getc _ _ csr => csrAssigned csr.toNat
  | .putc _ csr _ => csrWritable csr.toNat
  | .fmtset _ _ _ => true
  | .mode _ _ => true
  | .tend _ => true
  | .trap _ _ => true
  | .hret _ => true
  | .snapst _ _ => true
  | .snapld _ _ => true
  | .snaprel _ => true
  | .plut _ _ _ _ _ _ => true
  | .vAdd _ _ vd va vb w sati => vregOk vd && vregOk va && vregOk vb && w.toNat != 3 && sati.toNat != 3
  | .vSub _ _ vd va vb w sati => vregOk vd && vregOk va && vregOk vb && w.toNat != 3 && sati.toNat != 3
  | .vMul _ _ vd va vb w => vregOk vd && vregOk va && vregOk vb && w.toNat != 3
  | .vMulh _ _ vd va vb w => vregOk vd && vregOk va && vregOk vb && w.toNat != 3
  | .vMulhu _ _ vd va vb w => vregOk vd && vregOk va && vregOk vb && w.toNat != 3
  | .vAnd _ _ vd va vb w => vregOk vd && vregOk va && vregOk vb && w.toNat != 3
  | .vOr _ _ vd va vb w => vregOk vd && vregOk va && vregOk vb && w.toNat != 3
  | .vXor _ _ vd va vb w => vregOk vd && vregOk va && vregOk vb && w.toNat != 3
  | .vAndn _ _ vd va vb w => vregOk vd && vregOk va && vregOk vb && w.toNat != 3
  | .vShl _ _ vd va vb w => vregOk vd && vregOk va && vregOk vb && w.toNat != 3
  | .vShr _ _ vd va vb w => vregOk vd && vregOk va && vregOk vb && w.toNat != 3
  | .vSar _ _ vd va vb w => vregOk vd && vregOk va && vregOk vb && w.toNat != 3
  | .vMin _ _ vd va vb w => vregOk vd && vregOk va && vregOk vb && w.toNat != 3
  | .vMax _ _ vd va vb w => vregOk vd && vregOk va && vregOk vb && w.toNat != 3
  | .vMinu _ _ vd va vb w => vregOk vd && vregOk va && vregOk vb && w.toNat != 3
  | .vMaxu _ _ vd va vb w => vregOk vd && vregOk va && vregOk vb && w.toNat != 3
  | .vClz _ _ vd va w => vregOk vd && vregOk va && w.toNat != 3
  | .vPopc _ _ vd va w => vregOk vd && vregOk va && w.toNat != 3
  | .vAbs _ _ vd va w => vregOk vd && vregOk va && w.toNat != 3
  | .vCmp _ _ pd0 pd1 _ cond va vb => vregOk va && vregOk vb && condOk cond && pd0 != pd1
  | .vFadd _ _ vd va vb rm => vregOk vd && vregOk va && vregOk vb && rmOk rm
  | .vFsub _ _ vd va vb rm => vregOk vd && vregOk va && vregOk vb && rmOk rm
  | .vFmul _ _ vd va vb rm => vregOk vd && vregOk va && vregOk vb && rmOk rm
  | .vFcmp _ _ pd0 pd1 _ cond va vb => vregOk va && vregOk vb && fcondOk cond && pd0 != pd1
  | .vFfma _ _ vd va vb vc rm => vregOk vd && vregOk va && vregOk vb && vregOk vc && rmOk rm
  | .vFmin _ _ vd va vb => vregOk vd && vregOk va && vregOk vb
  | .vFmax _ _ vd va vb => vregOk vd && vregOk va && vregOk vb
  | .vFabs _ _ vd va => vregOk vd && vregOk va
  | .vFneg _ _ vd va => vregOk vd && vregOk va
  | .vfclass _ _ vd va => vregOk vd && vregOk va
  | .vnfin _ _ pd0 pd1 _ va fmt => vregOk va && decide (fmt.toNat ≤ 2) && pd0 != pd1
  | .vfdiv _ _ vd va vb rm => vregOk vd && vregOk va && vregOk vb && rmOk rm
  | .vfsqrt _ _ vd va rm => vregOk vd && vregOk va && rmOk rm
  | .vfrsq _ _ vd va rm => vregOk vd && vregOk va && rmOk rm
  | .vfrcp _ _ vd va rm => vregOk vd && vregOk va && rmOk rm
  | .vlane _ _ vd va _ => vregOk vd && vregOk va
  | .vbcast _ _ vd va _ => vregOk vd && vregOk va
  | .vperm _ _ vd va vb => vregOk vd && vregOk va && vregOk vb
  | .vslide _ _ vd va vb _ _ => vregOk vd && vregOk va && vregOk vb
  | .vpack _ _ vd va vb fmt => vregOk vd && vregOk va && vregOk vb && narrowOk fmt
  | .vunpk _ _ vd va fmt part => vregOk vd && vregOk va && narrowOk fmt && partOk fmt part
  | .vcvt _ _ vd va sfmt dfmt rm => vregOk vd && vregOk va && cvtOk sfmt && cvtOk dfmt && sfmt != dfmt && rmOk rm
  | .vred _ _ vd va _ => vregOk vd && vregOk va
  | .vdot4 _ _ vd va vb vc fmt => vregOk vd && vregOk va && vregOk vb && vregOk vc && (fmt.toNat == 3 || fmt.toNat == 4 || fmt.toNat == 6)
  | .vamax _ _ vd va => vregOk vd && vregOk va
  | .vexpo _ _ vd va fmt => vregOk vd && vregOk va && narrowOk fmt
  | .vsrnd _ _ vd va _ fmt => vregOk vd && vregOk va && narrowOk fmt
  | .vdith _ _ vd va _ fmt => vregOk vd && vregOk va && decide (fmt.toNat < 8)
  | .vqenc _ _ vd va _ sc se fmt => vregOk vd && vregOk va && decide (fmt.toNat < 8) && (se || sc.toNat == 0)
  | .vqdec _ _ vd va _ sc se fmt => vregOk vd && vregOk va && decide (fmt.toNat < 8) && (se || sc.toNat == 0)
  | .vPlut _ _ _ _ _ _ _ => true
  | .pmovToPredicate _ _ _ va => vregOk va
  | .pmovToVector _ _ vd _ => vregOk vd
  | .tdef _ nd mk => nodeOk nd && wordsOk mk 2
  | .tmul _ nd na nb mk _ => nodeOk nd && nodeOk na && nodeOk nb && wordsOk mk 2
  | .tmulb _ nd na nb mk _ => nodeOk nd && nodeOk na && nodeOk nb && wordsOk mk 2
  | .tadd _ nd na nb mk => nodeOk nd && nodeOk na && nodeOk nb && wordsOk mk 2
  | .tscal _ nd na mk => nodeOk nd && nodeOk na && wordsOk mk 3
  | .trot _ nd na mk _ => nodeOk nd && nodeOk na && wordsOk mk 3
  | .tview _ nd na mk => nodeOk nd && nodeOk na && wordsOk mk 2
  | .tcvt _ nd na mk => nodeOk nd && nodeOk na && wordsOk mk 2
  | .tcb _ mk => wordsOk mk 1
  | .tdrop _ nd => nodeOk nd
  | .tforce _ nd mk => nodeOk nd && wordsOk mk 1
  | .tstore _ nd mk => nodeOk nd && wordsOk mk 3
  | .ttrsm _ nd na nb mk _ _ _ => nodeOk nd && nodeOk na && nodeOk nb && wordsOk mk 2
  | .tlu _ nd na mk _ => nodeOk nd && nodeOk na && wordsOk mk 3
  | .tchol _ nd na mk => nodeOk nd && nodeOk na && wordsOk mk 2
  | .tqr _ nd na mk => nodeOk nd && nodeOk na && wordsOk mk 3
  | .tapply _ nd na nb mk _ => nodeOk nd && nodeOk na && nodeOk nb && wordsOk mk 2
  | .tres _ nd na nb mk => nodeOk nd && nodeOk na && nodeOk nb && wordsOk mk 4
  | .demandStart _ => true
  | .demandComplete _ => true
  | .demandSuspend _ => true
  | .solverUnitRequest _ => true
  | .ld _ _ _ _ _ sz sx _ => !(sx && sz.toNat == 3)
  | .ldv _ _ _ _ _ _ => true
  | .lds _ _ _ _ _ _ => true
  | .ldg _ _ _ _ _ _ => true
  | .ldc _ _ _ _ _ sz sx _ => !(sx && sz.toNat == 3)
  | .ldcv _ _ _ _ _ _ => true
  | .pref _ _ _ _ _ _ => true
  | .laadd _ _ _ _ => true
  | .lamov _ _ _ => true
  | .loadValueLands _ _ => true
  | .ldcLands _ _ => true
  | .st _ _ _ _ _ _ => true
  | .stv _ _ _ _ _ => true
  | .sts _ _ _ _ _ => true
  | .scat _ _ _ _ _ => true
  | .qst _ _ _ _ _ _ fmt sc se => narrowOk fmt && (se || sc.toNat == 0)
  | .qstb _ _ _ _ _ _ fmt _ => decide (3 ≤ fmt.toNat ∧ fmt.toNat ≤ 7)
  | .aadd _ _ qvd _ _ _ nr => (!nr || qvd.toNat == 0)
  | .afadd _ _ qvd _ _ nr => (!nr || qvd.toNat == 0)
  | .amin _ _ qvd _ _ _ nr _ => (!nr || qvd.toNat == 0)
  | .amax _ _ qvd _ _ _ nr _ => (!nr || qvd.toNat == 0)
  | .aor _ _ qvd _ _ _ nr => (!nr || qvd.toNat == 0)
  | .aand _ _ qvd _ _ _ nr => (!nr || qvd.toNat == 0)
  | .axchg _ _ qvd _ _ _ nr => (!nr || qvd.toNat == 0)
  | .acas _ _ qvd _ _ _ nr => (!nr || qvd.toNat == 0)
  | .contrib _ _ _ _ _ _ => true
  | .qaadd _ _ _ _ => true
  | .storePerforms _ _ => true
  | .atomicPerforms _ _ => true
  | .fifoPopServed _ _ => true
  | .fifoPushEnters _ _ => true
  | .copy _ c0 c1 => copyPairOk 1 c0 c1
  | .copyb _ c0 c1 => copyPairOk 2 c0 c1
  | .copyl _ c0 c1 => copyPairOk 3 c0 c1
  | .copyp _ c0 c1 => copyPairOk 4 c0 c1
  | .cpy _ k _ ha => wordsOk k (if ha then 6 else 3)
  | .cpy2 _ k _ => wordsOk k 5
  | .cpyt _ k _ => wordsOk k 6
  | .crdt _ k _ _ => wordsOk k 4
  | .cgat _ k _ => wordsOk k 5
  | .csct _ k _ => wordsOk k 5
  | .cfill _ k _ => wordsOk k 3
  | .csend _ k _ ha => wordsOk k (if ha then 7 else 4)
  | .cpull _ k _ => wordsOk k 4
  | .cred _ k => wordsOk k 4
  | .bankset _ k => wordsOk k 1
  | .copyStart _ => true
  | .copyComplete _ _ => true
  | .banksetComplete _ _ => true
  | .wadd _ _ ctr bs _ => bs.toNat != 3 && !(bs.toNat == 1 && ctr.toNat == 6)
  | .tlinc _ yk => yk.toNat != 0
  | .tlincC _ _ yk => yk.toNat != 0
  | .tsIncrement _ _ => true
  | .fenceRel _ scope => decide (scope.toNat ≤ 4)
  | .fenceAcq _ scope => decide (scope.toNat ≤ 4)
  | .drain _ => true
  | .flush _ _ _ => true
  | .flushAll _ => true
  | .inval _ _ _ => true
  | .invalAll _ => true
  | .syncComplete _ _ => true
  | .join _ _ => true
  | .leave _ _ scope => decide (scope.toNat ≤ 3)
  | .gnew _ _ => true
  | .gfree _ _ => true
  | .bar _ _ scope => decide (scope.toNat ≤ 3)
  | .arrive _ _ scope => decide (scope.toNat ≤ 3)
  | .arrivalCounts _ _ => true
  | .tgAdvance _ _ => true
  | .signal _ => true
  | .taskSignalled _ _ => true
  | .submit _ _ _ => true
  | .submitDelivery _ _ => true
  | .armctx _ _ => true
  | .uarm _ _ _ => true
  | .armArrival _ _ => true
  | .contribAccepted _ _ => true
  | .updateRuleApply _ _ => true
  | .updateComplete _ _ => true
  | .arrival _ _ => true
  | .arrivalHandlerStart _ => true
  | .contextFree _ _ => true
  | .forcedPreemption _ _ => true
  | .contextSave _ _ => true
  | .contextRestore _ _ => true
  | .slotRead _ => true
  | .queueStale _ => true
  | .packetAccept _ => true
  | .taskBind _ _ => true
  | .priorityAging _ _ => true
  | .detBind _ _ => true
  | .launchComplete _ _ => true
  | .watchdogExpiry _ => true
  | .drainAndReset _ => true
  | .drainEnd _ => true
  | .partitionStart _ => true
  | .ingressPerformed _ _ => true
  | .reductionResult _ _ => true
  | .flushPartComplete _ _ => true
  | .bankNewModeEntered _ _ => true
  | .destroyingDone _ => true
  | .registerWrite _ _ => true
  | .doorbell _ _ => true
  | .ingressArrival write => write.ok
  | .hostRead _ => true
  | .peventClear _ _ => true
  | .preemptRequest _ _ _ => true
  | .queueEnable _ ctl => ctl.getLsbD 8
  | .rangeTableLoad _ _ => true
  | .queueDisable _ ctl => !ctl.getLsbD 8
  | .create _ => true
  | .destroy _ => true
  | .reset _ => true
  | .hrsel _ => true
  | .routeTableLoad _ words => words.length == 64
  | .reductionGroupLoad _ index words => decide (index < 16) && words.length == 65
  | .ruleSetLoad _ index words => decide (index < 16) && words.length == 16
  | .fabricHeaderCheck _ => true
  | .fragmentArrival _ => true
  | .uncorrectableError _ _ => true
  | .correctedError _ _ => true
  | .thermalEvent _ => true
  | .moduleReset => true
  | .fabricCreditsReturned _ _ => true
  | .spdmRequest _ => true
  | .tdispRequest _ _ => true
  | .lifetimeHour => true

end Sys2Proof
end

