-- ==== Sys2Proof/Decode.lean ====
section
/-! DEFINITION. Decoding (R19 to R24, R39 to R48): a bundle of 64 bytes is split into its header and its nine slots, a
slot into its fields, and the fields are read as an instruction or refused by name. After the decoder stands the
encoder, written from the same tables. -/

namespace Sys2Proof

/-- Why a slot or a bundle is an illegal encoding (R24, R25, R37, R48). -/
inductive DecodeError where
  /-- Not 64 bytes. -/
  | notABundle
  /-- An opcode of R48's table of holes. -/
  | unassignedOpcode
  /-- Opcode 0 with a non-zero operand bit (R24). -/
  | operandUnderNop
  /-- A field that the operation does not use holds a non-zero value (R24, R48). -/
  | unusedField
  /-- A reserved code or a number beyond its limits (R22, R44 to R48). -/
  | reservedValue
  /-- A GAP of 0 (R37). -/
  | zeroGap
  /-- A FORM of 2 to 15 (R37). -/
  | reservedForm
  /-- FORM 1 with STOP, HOST, PRE or YIELD, or with two operations (R36, R37). -/
  | badSingle
  deriving DecidableEq, Repr

/-- Fields of an S slot (R20, R21). -/
structure SRaw where
  tt : TT
  op : BitVec 8
  sd : BitVec 6
  sa : BitVec 6
  sb : BitVec 6
  pd0 : BitVec 4
  pd1 : BitVec 4
  pwt : BitVec 2
  cond : BitVec 4
  imm : W32
  deriving DecidableEq, Repr

/-- Fields of a V slot (R20, R22). -/
structure VRaw where
  tt : TT
  op : BitVec 8
  vd : BitVec 10
  va : BitVec 10
  vb : BitVec 10
  vc : BitVec 10
  md : BitVec 8
  deriving DecidableEq, Repr

/-- Fields of an M slot (R20, R223). -/
structure MRaw where
  tt : TT
  op : BitVec 8
  nd : BitVec 8
  na : BitVec 8
  nb : BitVec 8
  ms : BitVec 4
  fl : BitVec 4
  deriving DecidableEq, Repr

/-- Fields of an L slot: the operand field is laid out by R193. -/
structure LRaw where
  tt : TT
  op : BitVec 8
  arg : BitVec 32
  deriving DecidableEq, Repr

/-- Fields of a Q slot: the operand field is laid out by R194. -/
structure QRaw where
  tt : TT
  op : BitVec 8
  arg : BitVec 32
  deriving DecidableEq, Repr

/-- Fields of an X slot (R20, R23). -/
structure XRaw where
  tt : TT
  op : BitVec 4
  c0 : CopyDesc
  c1 : CopyDesc
  deriving DecidableEq, Repr

/-- Fields of a C slot (R20, R212); bits 511 to 502 hold 0 and are checked when the slot is split. -/
structure CRaw where
  tt : TT
  op : BitVec 6
  k : BitVec 4
  rd : BitVec 2
  ha : Bool
  t : Bool
  deriving DecidableEq, Repr

/-- Fields of a Y slot (R20): the operand field [63:50] is laid out by each form. -/
structure YRaw where
  tt : TT
  op : BitVec 6
  arg : BitVec 14
  deriving DecidableEq, Repr

/-- The fields of one slot. -/
inductive Raw where
  | s (r : SRaw)
  | v (vu : VUnit) (r : VRaw)
  | m (r : MRaw)
  | l (r : LRaw)
  | q (r : QRaw)
  | x (r : XRaw)
  | c (r : CRaw)
  | y (r : YRaw)
  | event
  deriving DecidableEq, Repr

/-- The fields of the word that encodes an instruction (R21, R22, R39 to R44, R53, R193 to R195, R212, R223, R268, R270):
fields the operation does not use hold 0 (R24). An event has no word. -/
def rawOf (i : Instr) : Raw :=
  match i with
  | .bundleIssue _ _ => .event
  | .scheduleOverrun _ _ => .event
  | .resultLands _ _ => .event
  | .trapEntry _ _ => .event
  | .snapshotBufferGained _ _ => .event
  | .add tt xd xa xb => .s ⟨tt, 1, xd, xa, xb, 0, 0, 0, 0, 0⟩
  | .sub tt xd xa xb => .s ⟨tt, 2, xd, xa, xb, 0, 0, 0, 0, 0⟩
  | .mul tt xd xa xb => .s ⟨tt, 3, xd, xa, xb, 0, 0, 0, 0, 0⟩
  | .mulh tt xd xa xb => .s ⟨tt, 4, xd, xa, xb, 0, 0, 0, 0, 0⟩
  | .mulhu tt xd xa xb => .s ⟨tt, 5, xd, xa, xb, 0, 0, 0, 0, 0⟩
  | .div tt xd xa xb => .s ⟨tt, 6, xd, xa, xb, 0, 0, 0, 0, 0⟩
  | .divu tt xd xa xb => .s ⟨tt, 7, xd, xa, xb, 0, 0, 0, 0, 0⟩
  | .rem tt xd xa xb => .s ⟨tt, 8, xd, xa, xb, 0, 0, 0, 0, 0⟩
  | .remu tt xd xa xb => .s ⟨tt, 9, xd, xa, xb, 0, 0, 0, 0, 0⟩
  | .and tt xd xa xb => .s ⟨tt, 10, xd, xa, xb, 0, 0, 0, 0, 0⟩
  | .or tt xd xa xb => .s ⟨tt, 11, xd, xa, xb, 0, 0, 0, 0, 0⟩
  | .xor tt xd xa xb => .s ⟨tt, 12, xd, xa, xb, 0, 0, 0, 0, 0⟩
  | .andn tt xd xa xb => .s ⟨tt, 13, xd, xa, xb, 0, 0, 0, 0, 0⟩
  | .shl tt xd xa xb => .s ⟨tt, 14, xd, xa, xb, 0, 0, 0, 0, 0⟩
  | .shr tt xd xa xb => .s ⟨tt, 15, xd, xa, xb, 0, 0, 0, 0, 0⟩
  | .sar tt xd xa xb => .s ⟨tt, 16, xd, xa, xb, 0, 0, 0, 0, 0⟩
  | .rol tt xd xa xb => .s ⟨tt, 17, xd, xa, xb, 0, 0, 0, 0, 0⟩
  | .min tt xd xa xb => .s ⟨tt, 18, xd, xa, xb, 0, 0, 0, 0, 0⟩
  | .max tt xd xa xb => .s ⟨tt, 19, xd, xa, xb, 0, 0, 0, 0, 0⟩
  | .minu tt xd xa xb => .s ⟨tt, 20, xd, xa, xb, 0, 0, 0, 0, 0⟩
  | .maxu tt xd xa xb => .s ⟨tt, 21, xd, xa, xb, 0, 0, 0, 0, 0⟩
  | .clz tt xd xa => .s ⟨tt, 22, xd, xa, 0, 0, 0, 0, 0, 0⟩
  | .ctz tt xd xa => .s ⟨tt, 23, xd, xa, 0, 0, 0, 0, 0, 0⟩
  | .popc tt xd xa => .s ⟨tt, 24, xd, xa, 0, 0, 0, 0, 0, 0⟩
  | .movi tt xd imm => .s ⟨tt, 25, xd, 0, 0, 0, 0, 0, 0, imm⟩
  | .movh tt xd imm => .s ⟨tt, 26, xd, 0, 0, 0, 0, 0, 0, imm⟩
  | .sext tt xd xa => .s ⟨tt, 27, xd, xa, 0, 0, 0, 0, 0, 0⟩
  | .zext tt xd xa => .s ⟨tt, 28, xd, xa, 0, 0, 0, 0, 0, 0⟩
  | .cmp tt pd0 pd1 pwt cond xa xb => .s ⟨tt, 32, 0, xa, xb, pd0, pd1, pwt, cond, 0⟩
  | .fcmp tt pd0 pd1 pwt cond xa xb => .s ⟨tt, 33, 0, xa, xb, pd0, pd1, pwt, cond, 0⟩
  | .fadd tt xd xa xb => .s ⟨tt, 40, xd, xa, xb, 0, 0, 0, 0, 0⟩
  | .fsub tt xd xa xb => .s ⟨tt, 41, xd, xa, xb, 0, 0, 0, 0, 0⟩
  | .fmul tt xd xa xb => .s ⟨tt, 42, xd, xa, xb, 0, 0, 0, 0, 0⟩
  | .ffma tt xd xa xb => .s ⟨tt, 43, xd, xa, xb, 0, 0, 0, 0, 0⟩
  | .fdiv tt xd xa xb => .s ⟨tt, 44, xd, xa, xb, 0, 0, 0, 0, 0⟩
  | .fsqrt tt xd xa => .s ⟨tt, 45, xd, xa, 0, 0, 0, 0, 0, 0⟩
  | .fmin tt xd xa xb => .s ⟨tt, 46, xd, xa, xb, 0, 0, 0, 0, 0⟩
  | .fmax tt xd xa xb => .s ⟨tt, 47, xd, xa, xb, 0, 0, 0, 0, 0⟩
  | .fcvt tt xd xa cond => .s ⟨tt, 48, xd, xa, 0, 0, 0, 0, cond, 0⟩
  | .br tt ofs => .s ⟨tt, 64, 0, 0, 0, 0, 0, 0, 0, ofs⟩
  | .brx tt xa => .s ⟨tt, 65, 0, xa, 0, 0, 0, 0, 0, 0⟩
  | .call tt xd ofs => .s ⟨tt, 66, xd, 0, 0, 0, 0, 0, 0, ofs⟩
  | .callx tt xd xa => .s ⟨tt, 67, xd, xa, 0, 0, 0, 0, 0, 0⟩
  | .ret tt xa => .s ⟨tt, 68, 0, xa, 0, 0, 0, 0, 0, 0⟩
  | .loop tt count eofs rsz prt epi => .s ⟨tt, 69, 0, 0, (BitVec.ofBool prt ++ rsz), ((0#1) ++ epi), 0, 0, 0, (count ++ eofs)⟩
  | .loopx tt xa eofs rsz prt epi => .s ⟨tt, 70, 0, xa, (BitVec.ofBool prt ++ rsz), ((0#1) ++ epi), 0, 0, 0, ((0#16) ++ eofs)⟩
  | .lbrk tt => .s ⟨tt, 71, 0, 0, 0, 0, 0, 0, 0, 0⟩
  | .lidx tt xd level => .s ⟨tt, 72, xd, 0, 0, 0, 0, 0, 0, ((0#29) ++ level)⟩
  | .getc tt xd csr => .s ⟨tt, 80, xd, 0, 0, 0, 0, 0, 0, ((0#20) ++ csr)⟩
  | .putc tt csr xa => .s ⟨tt, 81, 0, xa, 0, 0, 0, 0, 0, ((0#20) ++ csr)⟩
  | .fmtset tt xa mask => .s ⟨tt, 82, 0, xa, 0, 0, 0, 0, 0, mask⟩
  | .mode tt il => .s ⟨tt, 83, 0, 0, 0, 0, 0, 0, 0, ((0#31) ++ BitVec.ofBool il)⟩
  | .tend tt => .s ⟨tt, 88, 0, 0, 0, 0, 0, 0, 0, 0⟩
  | .trap tt code => .s ⟨tt, 89, 0, 0, 0, 0, 0, 0, 0, ((0#16) ++ code)⟩
  | .hret tt => .s ⟨tt, 90, 0, 0, 0, 0, 0, 0, 0, 0⟩
  | .snapst tt xa => .s ⟨tt, 91, 0, xa, 0, 0, 0, 0, 0, 0⟩
  | .snapld tt xa => .s ⟨tt, 92, 0, xa, 0, 0, 0, 0, 0, 0⟩
  | .snaprel tt => .s ⟨tt, 93, 0, 0, 0, 0, 0, 0, 0, 0⟩
  | .plut tt pd pa pb pc table => .s ⟨tt, 96, 0, ((0#2) ++ pa), ((0#2) ++ pb), pd, pc, 0, 0, ((0#24) ++ table)⟩
  | .vAdd vu tt vd va vb w sati => .v vu ⟨tt, 1, vd, va, vb, 0, ((0#4) ++ sati ++ w)⟩
  | .vSub vu tt vd va vb w sati => .v vu ⟨tt, 2, vd, va, vb, 0, ((0#4) ++ sati ++ w)⟩
  | .vMul vu tt vd va vb w => .v vu ⟨tt, 3, vd, va, vb, 0, ((0#6) ++ w)⟩
  | .vMulh vu tt vd va vb w => .v vu ⟨tt, 4, vd, va, vb, 0, ((0#6) ++ w)⟩
  | .vMulhu vu tt vd va vb w => .v vu ⟨tt, 5, vd, va, vb, 0, ((0#6) ++ w)⟩
  | .vAnd vu tt vd va vb w => .v vu ⟨tt, 6, vd, va, vb, 0, ((0#6) ++ w)⟩
  | .vOr vu tt vd va vb w => .v vu ⟨tt, 7, vd, va, vb, 0, ((0#6) ++ w)⟩
  | .vXor vu tt vd va vb w => .v vu ⟨tt, 8, vd, va, vb, 0, ((0#6) ++ w)⟩
  | .vAndn vu tt vd va vb w => .v vu ⟨tt, 9, vd, va, vb, 0, ((0#6) ++ w)⟩
  | .vShl vu tt vd va vb w => .v vu ⟨tt, 10, vd, va, vb, 0, ((0#6) ++ w)⟩
  | .vShr vu tt vd va vb w => .v vu ⟨tt, 11, vd, va, vb, 0, ((0#6) ++ w)⟩
  | .vSar vu tt vd va vb w => .v vu ⟨tt, 12, vd, va, vb, 0, ((0#6) ++ w)⟩
  | .vMin vu tt vd va vb w => .v vu ⟨tt, 13, vd, va, vb, 0, ((0#6) ++ w)⟩
  | .vMax vu tt vd va vb w => .v vu ⟨tt, 14, vd, va, vb, 0, ((0#6) ++ w)⟩
  | .vMinu vu tt vd va vb w => .v vu ⟨tt, 15, vd, va, vb, 0, ((0#6) ++ w)⟩
  | .vMaxu vu tt vd va vb w => .v vu ⟨tt, 16, vd, va, vb, 0, ((0#6) ++ w)⟩
  | .vClz vu tt vd va w => .v vu ⟨tt, 17, vd, va, 0, 0, ((0#6) ++ w)⟩
  | .vPopc vu tt vd va w => .v vu ⟨tt, 18, vd, va, 0, 0, ((0#6) ++ w)⟩
  | .vAbs vu tt vd va w => .v vu ⟨tt, 19, vd, va, 0, 0, ((0#6) ++ w)⟩
  | .vCmp vu tt pd0 pd1 pwt cond va vb => .v vu ⟨tt, 20, (pwt ++ pd1 ++ pd0), va, vb, 0, ((0#4) ++ cond)⟩
  | .vFadd vu tt vd va vb rm => .v vu ⟨tt, 32, vd, va, vb, 0, ((0#5) ++ rm)⟩
  | .vFsub vu tt vd va vb rm => .v vu ⟨tt, 33, vd, va, vb, 0, ((0#5) ++ rm)⟩
  | .vFmul vu tt vd va vb rm => .v vu ⟨tt, 34, vd, va, vb, 0, ((0#5) ++ rm)⟩
  | .vFcmp vu tt pd0 pd1 pwt cond va vb => .v vu ⟨tt, 35, (pwt ++ pd1 ++ pd0), va, vb, 0, ((0#4) ++ cond)⟩
  | .vFfma vu tt vd va vb vc rm => .v vu ⟨tt, 36, vd, va, vb, vc, ((0#5) ++ rm)⟩
  | .vFmin vu tt vd va vb => .v vu ⟨tt, 37, vd, va, vb, 0, 0⟩
  | .vFmax vu tt vd va vb => .v vu ⟨tt, 38, vd, va, vb, 0, 0⟩
  | .vFabs vu tt vd va => .v vu ⟨tt, 39, vd, va, 0, 0, 0⟩
  | .vFneg vu tt vd va => .v vu ⟨tt, 40, vd, va, 0, 0, 0⟩
  | .vfclass vu tt vd va => .v vu ⟨tt, 41, vd, va, 0, 0, 0⟩
  | .vnfin vu tt pd0 pd1 pwt va fmt => .v vu ⟨tt, 42, (pwt ++ pd1 ++ pd0), va, 0, 0, ((0#4) ++ fmt)⟩
  | .vfdiv vu tt vd va vb rm => .v vu ⟨tt, 48, vd, va, vb, 0, ((0#5) ++ rm)⟩
  | .vfsqrt vu tt vd va rm => .v vu ⟨tt, 49, vd, va, 0, 0, ((0#5) ++ rm)⟩
  | .vfrsq vu tt vd va rm => .v vu ⟨tt, 50, vd, va, 0, 0, ((0#5) ++ rm)⟩
  | .vfrcp vu tt vd va rm => .v vu ⟨tt, 51, vd, va, 0, 0, ((0#5) ++ rm)⟩
  | .vlane vu tt vd va lane => .v vu ⟨tt, 64, vd, va, 0, 0, ((0#3) ++ lane)⟩
  | .vbcast vu tt vd va lane => .v vu ⟨tt, 65, vd, va, 0, 0, ((0#3) ++ lane)⟩
  | .vperm vu tt vd va vb => .v vu ⟨tt, 66, vd, va, vb, 0, 0⟩
  | .vslide vu tt vd va vb amount down => .v vu ⟨tt, 67, vd, va, vb, 0, ((0#2) ++ BitVec.ofBool down ++ amount)⟩
  | .vpack vu tt vd va vb fmt => .v vu ⟨tt, 68, vd, va, vb, 0, ((0#4) ++ fmt)⟩
  | .vunpk vu tt vd va fmt part => .v vu ⟨tt, 69, vd, va, 0, 0, ((0#2) ++ part ++ fmt)⟩
  | .vcvt vu tt vd va sfmt dfmt rm => .v vu ⟨tt, 70, vd, va, 0, ((0#7) ++ rm), (sfmt ++ dfmt)⟩
  | .vred vu tt vd va red => .v vu ⟨tt, 80, vd, va, 0, 0, ((0#6) ++ red)⟩
  | .vdot4 vu tt vd va vb vc fmt => .v vu ⟨tt, 81, vd, va, vb, vc, ((0#4) ++ fmt)⟩
  | .vamax vu tt vd va => .v vu ⟨tt, 82, vd, va, 0, 0, 0⟩
  | .vexpo vu tt vd va fmt => .v vu ⟨tt, 83, vd, va, 0, 0, ((0#4) ++ fmt)⟩
  | .vsrnd vu tt vd va frame fmt => .v vu ⟨tt, 84, vd, va, ((0#7) ++ frame), 0, ((0#4) ++ fmt)⟩
  | .vdith vu tt vd va frame fmt => .v vu ⟨tt, 88, vd, va, ((0#7) ++ frame), 0, ((0#4) ++ fmt)⟩
  | .vqenc vu tt vd va frame sc se fmt => .v vu ⟨tt, 89, vd, va, ((0#7) ++ frame), ((0#5) ++ BitVec.ofBool se ++ sc), ((0#4) ++ fmt)⟩
  | .vqdec vu tt vd va frame sc se fmt => .v vu ⟨tt, 90, vd, va, ((0#7) ++ frame), ((0#5) ++ BitVec.ofBool se ++ sc), ((0#4) ++ fmt)⟩
  | .vPlut vu tt pd pa pb pc table => .v vu ⟨tt, 96, ((0#6) ++ pd), ((0#6) ++ pa), ((0#6) ++ pb), ((0#6) ++ pc), table⟩
  | .pmovToPredicate vu tt pd va => .v vu ⟨tt, 97, ((0#6) ++ pd), va, 0, 0, 0⟩
  | .pmovToVector vu tt vd pa => .v vu ⟨tt, 97, vd, ((0#6) ++ pa), 0, 0, 1⟩
  | .tdef tt nd mk => .m ⟨tt, 1, nd, 0, 0, mk, 0⟩
  | .tmul tt nd na nb mk acc => .m ⟨tt, 2, nd, na, nb, mk, ((0#3) ++ BitVec.ofBool acc)⟩
  | .tmulb tt nd na nb mk acc => .m ⟨tt, 3, nd, na, nb, mk, ((0#3) ++ BitVec.ofBool acc)⟩
  | .tadd tt nd na nb mk => .m ⟨tt, 4, nd, na, nb, mk, 0⟩
  | .tscal tt nd na mk => .m ⟨tt, 5, nd, na, 0, mk, 0⟩
  | .trot tt nd na mk inv => .m ⟨tt, 6, nd, na, 0, mk, ((0#3) ++ BitVec.ofBool inv)⟩
  | .tview tt nd na mk => .m ⟨tt, 7, nd, na, 0, mk, 0⟩
  | .tcvt tt nd na mk => .m ⟨tt, 8, nd, na, 0, mk, 0⟩
  | .tcb tt mk => .m ⟨tt, 9, 0, 0, 0, mk, 0⟩
  | .tdrop tt nd => .m ⟨tt, 10, nd, 0, 0, 0, 0⟩
  | .tforce tt nd mk => .m ⟨tt, 16, nd, 0, 0, mk, 0⟩
  | .tstore tt nd mk => .m ⟨tt, 17, nd, 0, 0, mk, 0⟩
  | .ttrsm tt nd na nb mk up unit tr => .m ⟨tt, 32, nd, na, nb, mk, ((0#1) ++ BitVec.ofBool tr ++ BitVec.ofBool unit ++ BitVec.ofBool up)⟩
  | .tlu tt nd na mk np => .m ⟨tt, 33, nd, na, 0, mk, ((0#3) ++ BitVec.ofBool np)⟩
  | .tchol tt nd na mk => .m ⟨tt, 34, nd, na, 0, mk, 0⟩
  | .tqr tt nd na mk => .m ⟨tt, 35, nd, na, 0, mk, 0⟩
  | .tapply tt nd na nb mk kind => .m ⟨tt, 36, nd, na, nb, mk, ((0#2) ++ kind)⟩
  | .tres tt nd na nb mk => .m ⟨tt, 37, nd, na, nb, mk, 0⟩
  | .demandStart _ => .event
  | .demandComplete _ => .event
  | .demandSuspend _ => .event
  | .solverUnitRequest _ => .event
  | .ld tt lvd lab am ofs sz sx rd => .l ⟨tt, 1, (ofs ++ BitVec.ofBool sx ++ sz ++ rd ++ BitVec.ofBool am ++ lab ++ lvd)⟩
  | .ldv tt lvd lab am ofs rd => .l ⟨tt, 2, (ofs ++ (0#1) ++ (0#2) ++ rd ++ BitVec.ofBool am ++ lab ++ lvd)⟩
  | .lds tt lvd lab las ofs rd => .l ⟨tt, 3, (ofs ++ rd ++ las ++ lab ++ lvd)⟩
  | .ldg tt lvd lab lvi ofs rd => .l ⟨tt, 4, (ofs ++ rd ++ lab ++ lvi ++ lvd)⟩
  | .ldc tt lvd lab am ofs sz sx rd => .l ⟨tt, 5, (ofs ++ BitVec.ofBool sx ++ sz ++ rd ++ BitVec.ofBool am ++ lab ++ lvd)⟩
  | .ldcv tt lvd lab am ofs rd => .l ⟨tt, 6, (ofs ++ (0#1) ++ (0#2) ++ rd ++ BitVec.ofBool am ++ lab ++ lvd)⟩
  | .pref tt lines lab am ofs rd => .l ⟨tt, 8, (ofs ++ (0#1) ++ (0#2) ++ rd ++ BitVec.ofBool am ++ lab ++ (0#3) ++ lines)⟩
  | .laadd tt lad laa imm => .l ⟨tt, 16, (imm ++ laa ++ lad)⟩
  | .lamov tt lad lvs => .l ⟨tt, 17, ((0#21) ++ lvs ++ lad)⟩
  | .loadValueLands _ _ => .event
  | .ldcLands _ _ => .event
  | .st tt qvs qab am ofs sz => .q ⟨tt, 1, (ofs ++ (0#1) ++ sz ++ BitVec.ofBool am ++ qab ++ qvs)⟩
  | .stv tt qvs qab am ofs => .q ⟨tt, 2, (ofs ++ (0#1) ++ (0#2) ++ BitVec.ofBool am ++ qab ++ qvs)⟩
  | .sts tt qvs qab qas ofs => .q ⟨tt, 3, (ofs ++ qas ++ qab ++ qvs)⟩
  | .scat tt qvs qab qvi ofs => .q ⟨tt, 4, (ofs ++ qab ++ qvi ++ qvs)⟩
  | .qst tt qvs qab am ofs frame fmt sc se => .q ⟨tt, 5, (ofs ++ BitVec.ofBool se ++ sc ++ fmt ++ frame ++ BitVec.ofBool am ++ qab ++ qvs)⟩
  | .qstb tt qvs qab am ofs frame fmt sc => .q ⟨tt, 6, (ofs ++ (1#1) ++ sc ++ fmt ++ frame ++ BitVec.ofBool am ++ qab ++ qvs)⟩
  | .aadd tt qvs qvd qab ofs sz nr => .q ⟨tt, 16, (ofs ++ (0#1) ++ BitVec.ofBool nr ++ sz ++ qab ++ qvd ++ qvs)⟩
  | .afadd tt qvs qvd qab ofs nr => .q ⟨tt, 17, (ofs ++ (0#1) ++ BitVec.ofBool nr ++ (0#1) ++ qab ++ qvd ++ qvs)⟩
  | .amin tt qvs qvd qab ofs sz nr u => .q ⟨tt, 18, (ofs ++ BitVec.ofBool u ++ BitVec.ofBool nr ++ sz ++ qab ++ qvd ++ qvs)⟩
  | .amax tt qvs qvd qab ofs sz nr u => .q ⟨tt, 19, (ofs ++ BitVec.ofBool u ++ BitVec.ofBool nr ++ sz ++ qab ++ qvd ++ qvs)⟩
  | .aor tt qvs qvd qab ofs sz nr => .q ⟨tt, 20, (ofs ++ (0#1) ++ BitVec.ofBool nr ++ sz ++ qab ++ qvd ++ qvs)⟩
  | .aand tt qvs qvd qab ofs sz nr => .q ⟨tt, 21, (ofs ++ (0#1) ++ BitVec.ofBool nr ++ sz ++ qab ++ qvd ++ qvs)⟩
  | .axchg tt qvs qvd qab ofs sz nr => .q ⟨tt, 22, (ofs ++ (0#1) ++ BitVec.ofBool nr ++ sz ++ qab ++ qvd ++ qvs)⟩
  | .acas tt qvs qvd qab ofs sz nr => .q ⟨tt, 23, (ofs ++ (0#1) ++ BitVec.ofBool nr ++ sz ++ qab ++ qvd ++ qvs)⟩
  | .contrib tt qvs qab qak ofs h => .q ⟨tt, 24, (ofs ++ BitVec.ofBool h ++ qak ++ qab ++ qvs)⟩
  | .qaadd tt qad qaa imm => .q ⟨tt, 32, (imm ++ qaa ++ qad)⟩
  | .storePerforms _ _ => .event
  | .atomicPerforms _ _ => .event
  | .fifoPopServed _ _ => .event
  | .fifoPushEnters _ _ => .event
  | .copy tt c0 c1 => .x ⟨tt, 1, c0, c1⟩
  | .copyb tt c0 c1 => .x ⟨tt, 2, c0, c1⟩
  | .copyl tt c0 c1 => .x ⟨tt, 3, c0, c1⟩
  | .copyp tt c0 c1 => .x ⟨tt, 4, c0, c1⟩
  | .cpy tt k rd ha => .c ⟨tt, 1, k, rd, ha, false⟩
  | .cpy2 tt k rd => .c ⟨tt, 2, k, rd, false, false⟩
  | .cpyt tt k rd => .c ⟨tt, 3, k, rd, false, false⟩
  | .crdt tt k rd tr => .c ⟨tt, 4, k, rd, false, tr⟩
  | .cgat tt k rd => .c ⟨tt, 5, k, rd, false, false⟩
  | .csct tt k rd => .c ⟨tt, 6, k, rd, false, false⟩
  | .cfill tt k rd => .c ⟨tt, 7, k, rd, false, false⟩
  | .csend tt k rd ha => .c ⟨tt, 8, k, rd, ha, false⟩
  | .cpull tt k rd => .c ⟨tt, 9, k, rd, false, false⟩
  | .cred tt k => .c ⟨tt, 10, k, 0, false, false⟩
  | .bankset tt k => .c ⟨tt, 11, k, 0, false, false⟩
  | .copyStart _ => .event
  | .copyComplete _ _ => .event
  | .banksetComplete _ _ => .event
  | .wadd tt wi ctr bs yk => .y ⟨tt, 1, (yk ++ bs ++ ctr ++ wi)⟩
  | .tlinc tt yk => .y ⟨tt, 2, ((0#1) ++ yk ++ (0#1) ++ (0#6))⟩
  | .tlincC tt xa yk => .y ⟨tt, 2, ((0#1) ++ yk ++ (1#1) ++ xa)⟩
  | .tsIncrement _ _ => .event
  | .fenceRel tt scope => .y ⟨tt, 3, ((0#10) ++ scope ++ (1#1))⟩
  | .fenceAcq tt scope => .y ⟨tt, 3, ((0#10) ++ scope ++ (0#1))⟩
  | .drain tt => .y ⟨tt, 4, 0⟩
  | .flush tt xa xb => .y ⟨tt, 5, ((0#2) ++ xb ++ xa)⟩
  | .flushAll tt => .y ⟨tt, 5, (0x1000#14)⟩
  | .inval tt xa xb => .y ⟨tt, 6, ((0#2) ++ xb ++ xa)⟩
  | .invalAll tt => .y ⟨tt, 6, (0x1000#14)⟩
  | .syncComplete _ _ => .event
  | .join tt xg => .y ⟨tt, 8, ((0#8) ++ xg)⟩
  | .leave tt xg scope => .y ⟨tt, 9, ((0#5) ++ scope ++ xg)⟩
  | .gnew tt xg => .y ⟨tt, 10, ((0#8) ++ xg)⟩
  | .gfree tt xg => .y ⟨tt, 11, ((0#8) ++ xg)⟩
  | .bar tt xg scope => .y ⟨tt, 12, ((0#5) ++ scope ++ xg)⟩
  | .arrive tt xg scope => .y ⟨tt, 13, ((0#5) ++ scope ++ xg)⟩
  | .arrivalCounts _ _ => .event
  | .tgAdvance _ _ => .event
  | .signal tt => .y ⟨tt, 16, 0⟩
  | .taskSignalled _ _ => .event
  | .submit tt xa xb => .y ⟨tt, 17, ((0#2) ++ xb ++ xa)⟩
  | .submitDelivery _ _ => .event
  | .armctx tt xd => .y ⟨tt, 18, ((0#8) ++ xd)⟩
  | .uarm tt xa xb => .y ⟨tt, 19, ((0#2) ++ xb ++ xa)⟩
  | .armArrival _ _ => .event
  | .contribAccepted _ _ => .event
  | .updateRuleApply _ _ => .event
  | .updateComplete _ _ => .event
  | .arrival _ _ => .event
  | .arrivalHandlerStart _ => .event
  | .contextFree _ _ => .event
  | .forcedPreemption _ _ => .event
  | .contextSave _ _ => .event
  | .contextRestore _ _ => .event
  | .slotRead _ => .event
  | .queueStale _ => .event
  | .packetAccept _ => .event
  | .taskBind _ _ => .event
  | .priorityAging _ _ => .event
  | .detBind _ _ => .event
  | .launchComplete _ _ => .event
  | .watchdogExpiry _ => .event
  | .drainAndReset _ => .event
  | .drainEnd _ => .event
  | .partitionStart _ => .event
  | .ingressPerformed _ _ => .event
  | .reductionResult _ _ => .event
  | .flushPartComplete _ _ => .event
  | .bankNewModeEntered _ _ => .event
  | .destroyingDone _ => .event
  | .registerWrite _ _ => .event
  | .doorbell _ _ => .event
  | .ingressArrival _ => .event
  | .hostRead _ => .event
  | .peventClear _ _ => .event
  | .preemptRequest _ _ _ => .event
  | .queueEnable _ _ => .event
  | .rangeTableLoad _ _ => .event
  | .queueDisable _ _ => .event
  | .create _ => .event
  | .destroy _ => .event
  | .reset _ => .event
  | .hrsel _ => .event
  | .routeTableLoad _ _ => .event
  | .reductionGroupLoad _ _ _ => .event
  | .ruleSetLoad _ _ _ => .event
  | .fabricHeaderCheck _ => .event
  | .fragmentArrival _ => .event
  | .uncorrectableError _ _ => .event
  | .correctedError _ _ => .event
  | .thermalEvent _ => .event
  | .moduleReset => .event
  | .fabricCreditsReturned _ _ => .event
  | .spdmRequest _ => .event
  | .tdispRequest _ _ => .event
  | .lifetimeHour => .event

/-- The instruction that the opcode of an S slot names, read from the slot's fields (R39); none for a hole (R48). -/
def candS (r : SRaw) : Option Instr :=
  match r.op.toNat with
  | 1 => some (.add r.tt r.sd r.sa r.sb)
  | 2 => some (.sub r.tt r.sd r.sa r.sb)
  | 3 => some (.mul r.tt r.sd r.sa r.sb)
  | 4 => some (.mulh r.tt r.sd r.sa r.sb)
  | 5 => some (.mulhu r.tt r.sd r.sa r.sb)
  | 6 => some (.div r.tt r.sd r.sa r.sb)
  | 7 => some (.divu r.tt r.sd r.sa r.sb)
  | 8 => some (.rem r.tt r.sd r.sa r.sb)
  | 9 => some (.remu r.tt r.sd r.sa r.sb)
  | 10 => some (.and r.tt r.sd r.sa r.sb)
  | 11 => some (.or r.tt r.sd r.sa r.sb)
  | 12 => some (.xor r.tt r.sd r.sa r.sb)
  | 13 => some (.andn r.tt r.sd r.sa r.sb)
  | 14 => some (.shl r.tt r.sd r.sa r.sb)
  | 15 => some (.shr r.tt r.sd r.sa r.sb)
  | 16 => some (.sar r.tt r.sd r.sa r.sb)
  | 17 => some (.rol r.tt r.sd r.sa r.sb)
  | 18 => some (.min r.tt r.sd r.sa r.sb)
  | 19 => some (.max r.tt r.sd r.sa r.sb)
  | 20 => some (.minu r.tt r.sd r.sa r.sb)
  | 21 => some (.maxu r.tt r.sd r.sa r.sb)
  | 22 => some (.clz r.tt r.sd r.sa)
  | 23 => some (.ctz r.tt r.sd r.sa)
  | 24 => some (.popc r.tt r.sd r.sa)
  | 25 => some (.movi r.tt r.sd r.imm)
  | 26 => some (.movh r.tt r.sd r.imm)
  | 27 => some (.sext r.tt r.sd r.sa)
  | 28 => some (.zext r.tt r.sd r.sa)
  | 32 => some (.cmp r.tt r.pd0 r.pd1 r.pwt r.cond r.sa r.sb)
  | 33 => some (.fcmp r.tt r.pd0 r.pd1 r.pwt r.cond r.sa r.sb)
  | 40 => some (.fadd r.tt r.sd r.sa r.sb)
  | 41 => some (.fsub r.tt r.sd r.sa r.sb)
  | 42 => some (.fmul r.tt r.sd r.sa r.sb)
  | 43 => some (.ffma r.tt r.sd r.sa r.sb)
  | 44 => some (.fdiv r.tt r.sd r.sa r.sb)
  | 45 => some (.fsqrt r.tt r.sd r.sa)
  | 46 => some (.fmin r.tt r.sd r.sa r.sb)
  | 47 => some (.fmax r.tt r.sd r.sa r.sb)
  | 48 => some (.fcvt r.tt r.sd r.sa r.cond)
  | 64 => some (.br r.tt r.imm)
  | 65 => some (.brx r.tt r.sa)
  | 66 => some (.call r.tt r.sd r.imm)
  | 67 => some (.callx r.tt r.sd r.sa)
  | 68 => some (.ret r.tt r.sa)
  | 69 => some (.loop r.tt (r.imm.extractLsb' 16 16) (r.imm.extractLsb' 0 16) (r.sb.extractLsb' 0 5) (r.sb.getLsbD 5) (r.pd0.extractLsb' 0 3))
  | 70 => some (.loopx r.tt r.sa (r.imm.extractLsb' 0 16) (r.sb.extractLsb' 0 5) (r.sb.getLsbD 5) (r.pd0.extractLsb' 0 3))
  | 71 => some (.lbrk r.tt)
  | 72 => some (.lidx r.tt r.sd (r.imm.extractLsb' 0 3))
  | 80 => some (.getc r.tt r.sd (r.imm.extractLsb' 0 12))
  | 81 => some (.putc r.tt (r.imm.extractLsb' 0 12) r.sa)
  | 82 => some (.fmtset r.tt r.sa r.imm)
  | 83 => some (.mode r.tt (r.imm.getLsbD 0))
  | 88 => some (.tend r.tt)
  | 89 => some (.trap r.tt (r.imm.extractLsb' 0 16))
  | 90 => some (.hret r.tt)
  | 91 => some (.snapst r.tt r.sa)
  | 92 => some (.snapld r.tt r.sa)
  | 93 => some (.snaprel r.tt)
  | 96 => some (.plut r.tt r.pd0 (r.sa.extractLsb' 0 4) (r.sb.extractLsb' 0 4) r.pd1 (r.imm.extractLsb' 0 8))
  | _ => none

/-- The instruction that the opcode of a V slot names, read from the slot's fields (R40, R41); none for a hole (R48). -/
def candV (vu : VUnit) (r : VRaw) : Option Instr :=
  match r.op.toNat with
  | 1 => some (.vAdd vu r.tt r.vd r.va r.vb (r.md.extractLsb' 0 2) (r.md.extractLsb' 2 2))
  | 2 => some (.vSub vu r.tt r.vd r.va r.vb (r.md.extractLsb' 0 2) (r.md.extractLsb' 2 2))
  | 3 => some (.vMul vu r.tt r.vd r.va r.vb (r.md.extractLsb' 0 2))
  | 4 => some (.vMulh vu r.tt r.vd r.va r.vb (r.md.extractLsb' 0 2))
  | 5 => some (.vMulhu vu r.tt r.vd r.va r.vb (r.md.extractLsb' 0 2))
  | 6 => some (.vAnd vu r.tt r.vd r.va r.vb (r.md.extractLsb' 0 2))
  | 7 => some (.vOr vu r.tt r.vd r.va r.vb (r.md.extractLsb' 0 2))
  | 8 => some (.vXor vu r.tt r.vd r.va r.vb (r.md.extractLsb' 0 2))
  | 9 => some (.vAndn vu r.tt r.vd r.va r.vb (r.md.extractLsb' 0 2))
  | 10 => some (.vShl vu r.tt r.vd r.va r.vb (r.md.extractLsb' 0 2))
  | 11 => some (.vShr vu r.tt r.vd r.va r.vb (r.md.extractLsb' 0 2))
  | 12 => some (.vSar vu r.tt r.vd r.va r.vb (r.md.extractLsb' 0 2))
  | 13 => some (.vMin vu r.tt r.vd r.va r.vb (r.md.extractLsb' 0 2))
  | 14 => some (.vMax vu r.tt r.vd r.va r.vb (r.md.extractLsb' 0 2))
  | 15 => some (.vMinu vu r.tt r.vd r.va r.vb (r.md.extractLsb' 0 2))
  | 16 => some (.vMaxu vu r.tt r.vd r.va r.vb (r.md.extractLsb' 0 2))
  | 17 => some (.vClz vu r.tt r.vd r.va (r.md.extractLsb' 0 2))
  | 18 => some (.vPopc vu r.tt r.vd r.va (r.md.extractLsb' 0 2))
  | 19 => some (.vAbs vu r.tt r.vd r.va (r.md.extractLsb' 0 2))
  | 20 => some (.vCmp vu r.tt (r.vd.extractLsb' 0 4) (r.vd.extractLsb' 4 4) (r.vd.extractLsb' 8 2) (r.md.extractLsb' 0 4) r.va r.vb)
  | 32 => some (.vFadd vu r.tt r.vd r.va r.vb (r.md.extractLsb' 0 3))
  | 33 => some (.vFsub vu r.tt r.vd r.va r.vb (r.md.extractLsb' 0 3))
  | 34 => some (.vFmul vu r.tt r.vd r.va r.vb (r.md.extractLsb' 0 3))
  | 35 => some (.vFcmp vu r.tt (r.vd.extractLsb' 0 4) (r.vd.extractLsb' 4 4) (r.vd.extractLsb' 8 2) (r.md.extractLsb' 0 4) r.va r.vb)
  | 36 => some (.vFfma vu r.tt r.vd r.va r.vb r.vc (r.md.extractLsb' 0 3))
  | 37 => some (.vFmin vu r.tt r.vd r.va r.vb)
  | 38 => some (.vFmax vu r.tt r.vd r.va r.vb)
  | 39 => some (.vFabs vu r.tt r.vd r.va)
  | 40 => some (.vFneg vu r.tt r.vd r.va)
  | 41 => some (.vfclass vu r.tt r.vd r.va)
  | 42 => some (.vnfin vu r.tt (r.vd.extractLsb' 0 4) (r.vd.extractLsb' 4 4) (r.vd.extractLsb' 8 2) r.va (r.md.extractLsb' 0 4))
  | 48 => some (.vfdiv vu r.tt r.vd r.va r.vb (r.md.extractLsb' 0 3))
  | 49 => some (.vfsqrt vu r.tt r.vd r.va (r.md.extractLsb' 0 3))
  | 50 => some (.vfrsq vu r.tt r.vd r.va (r.md.extractLsb' 0 3))
  | 51 => some (.vfrcp vu r.tt r.vd r.va (r.md.extractLsb' 0 3))
  | 64 => some (.vlane vu r.tt r.vd r.va (r.md.extractLsb' 0 5))
  | 65 => some (.vbcast vu r.tt r.vd r.va (r.md.extractLsb' 0 5))
  | 66 => some (.vperm vu r.tt r.vd r.va r.vb)
  | 67 => some (.vslide vu r.tt r.vd r.va r.vb (r.md.extractLsb' 0 5) (r.md.getLsbD 5))
  | 68 => some (.vpack vu r.tt r.vd r.va r.vb (r.md.extractLsb' 0 4))
  | 69 => some (.vunpk vu r.tt r.vd r.va (r.md.extractLsb' 0 4) (r.md.extractLsb' 4 2))
  | 70 => some (.vcvt vu r.tt r.vd r.va (r.md.extractLsb' 4 4) (r.md.extractLsb' 0 4) (r.vc.extractLsb' 0 3))
  | 80 => some (.vred vu r.tt r.vd r.va (r.md.extractLsb' 0 2))
  | 81 => some (.vdot4 vu r.tt r.vd r.va r.vb r.vc (r.md.extractLsb' 0 4))
  | 82 => some (.vamax vu r.tt r.vd r.va)
  | 83 => some (.vexpo vu r.tt r.vd r.va (r.md.extractLsb' 0 4))
  | 84 => some (.vsrnd vu r.tt r.vd r.va (r.vb.extractLsb' 0 3) (r.md.extractLsb' 0 4))
  | 88 => some (.vdith vu r.tt r.vd r.va (r.vb.extractLsb' 0 3) (r.md.extractLsb' 0 4))
  | 89 => some (.vqenc vu r.tt r.vd r.va (r.vb.extractLsb' 0 3) (r.vc.extractLsb' 0 4) (r.vc.getLsbD 4) (r.md.extractLsb' 0 4))
  | 90 => some (.vqdec vu r.tt r.vd r.va (r.vb.extractLsb' 0 3) (r.vc.extractLsb' 0 4) (r.vc.getLsbD 4) (r.md.extractLsb' 0 4))
  | 96 => some (.vPlut vu r.tt (r.vd.extractLsb' 0 4) (r.va.extractLsb' 0 4) (r.vb.extractLsb' 0 4) (r.vc.extractLsb' 0 4) r.md)
  | 97 => some (if r.md.getLsbD 0 then .pmovToVector vu r.tt r.vd (r.va.extractLsb' 0 4) else .pmovToPredicate vu r.tt (r.vd.extractLsb' 0 4) r.va)
  | _ => none

/-- The instruction that the opcode of an M slot names, read from the slot's fields (R43, R223, R249); none for a hole (R48). -/
def candM (r : MRaw) : Option Instr :=
  match r.op.toNat with
  | 1 => some (.tdef r.tt r.nd r.ms)
  | 2 => some (.tmul r.tt r.nd r.na r.nb r.ms (r.fl.getLsbD 0))
  | 3 => some (.tmulb r.tt r.nd r.na r.nb r.ms (r.fl.getLsbD 0))
  | 4 => some (.tadd r.tt r.nd r.na r.nb r.ms)
  | 5 => some (.tscal r.tt r.nd r.na r.ms)
  | 6 => some (.trot r.tt r.nd r.na r.ms (r.fl.getLsbD 0))
  | 7 => some (.tview r.tt r.nd r.na r.ms)
  | 8 => some (.tcvt r.tt r.nd r.na r.ms)
  | 9 => some (.tcb r.tt r.ms)
  | 10 => some (.tdrop r.tt r.nd)
  | 16 => some (.tforce r.tt r.nd r.ms)
  | 17 => some (.tstore r.tt r.nd r.ms)
  | 32 => some (.ttrsm r.tt r.nd r.na r.nb r.ms (r.fl.getLsbD 0) (r.fl.getLsbD 1) (r.fl.getLsbD 2))
  | 33 => some (.tlu r.tt r.nd r.na r.ms (r.fl.getLsbD 0))
  | 34 => some (.tchol r.tt r.nd r.na r.ms)
  | 35 => some (.tqr r.tt r.nd r.na r.ms)
  | 36 => some (.tapply r.tt r.nd r.na r.nb r.ms (r.fl.extractLsb' 0 2))
  | 37 => some (.tres r.tt r.nd r.na r.nb r.ms)
  | _ => none

/-- The instruction that the opcode of an L slot names, read from the slot's fields (R43, R193, R195); none for a hole (R48). -/
def candL (r : LRaw) : Option Instr :=
  match r.op.toNat with
  | 1 => some (.ld r.tt (r.arg.extractLsb' 0 7) (r.arg.extractLsb' 7 4) (r.arg.getLsbD 11) (r.arg.extractLsb' 17 15) (r.arg.extractLsb' 14 2) (r.arg.getLsbD 16) (r.arg.extractLsb' 12 2))
  | 2 => some (.ldv r.tt (r.arg.extractLsb' 0 7) (r.arg.extractLsb' 7 4) (r.arg.getLsbD 11) (r.arg.extractLsb' 17 15) (r.arg.extractLsb' 12 2))
  | 3 => some (.lds r.tt (r.arg.extractLsb' 0 7) (r.arg.extractLsb' 7 4) (r.arg.extractLsb' 11 4) (r.arg.extractLsb' 17 15) (r.arg.extractLsb' 15 2))
  | 4 => some (.ldg r.tt (r.arg.extractLsb' 0 7) (r.arg.extractLsb' 14 4) (r.arg.extractLsb' 7 7) (r.arg.extractLsb' 20 12) (r.arg.extractLsb' 18 2))
  | 5 => some (.ldc r.tt (r.arg.extractLsb' 0 7) (r.arg.extractLsb' 7 4) (r.arg.getLsbD 11) (r.arg.extractLsb' 17 15) (r.arg.extractLsb' 14 2) (r.arg.getLsbD 16) (r.arg.extractLsb' 12 2))
  | 6 => some (.ldcv r.tt (r.arg.extractLsb' 0 7) (r.arg.extractLsb' 7 4) (r.arg.getLsbD 11) (r.arg.extractLsb' 17 15) (r.arg.extractLsb' 12 2))
  | 8 => some (.pref r.tt (r.arg.extractLsb' 0 4) (r.arg.extractLsb' 7 4) (r.arg.getLsbD 11) (r.arg.extractLsb' 17 15) (r.arg.extractLsb' 12 2))
  | 16 => some (.laadd r.tt (r.arg.extractLsb' 0 4) (r.arg.extractLsb' 4 4) (r.arg.extractLsb' 8 24))
  | 17 => some (.lamov r.tt (r.arg.extractLsb' 0 4) (r.arg.extractLsb' 4 7))
  | _ => none

/-- The instruction that the opcode of a Q slot names, read from the slot's fields (R43, R194, R195); none for a hole (R48). -/
def candQ (r : QRaw) : Option Instr :=
  match r.op.toNat with
  | 1 => some (.st r.tt (r.arg.extractLsb' 0 6) (r.arg.extractLsb' 6 4) (r.arg.getLsbD 10) (r.arg.extractLsb' 14 18) (r.arg.extractLsb' 11 2))
  | 2 => some (.stv r.tt (r.arg.extractLsb' 0 6) (r.arg.extractLsb' 6 4) (r.arg.getLsbD 10) (r.arg.extractLsb' 14 18))
  | 3 => some (.sts r.tt (r.arg.extractLsb' 0 6) (r.arg.extractLsb' 6 4) (r.arg.extractLsb' 10 4) (r.arg.extractLsb' 14 18))
  | 4 => some (.scat r.tt (r.arg.extractLsb' 0 6) (r.arg.extractLsb' 12 4) (r.arg.extractLsb' 6 6) (r.arg.extractLsb' 16 16))
  | 5 => some (.qst r.tt (r.arg.extractLsb' 0 6) (r.arg.extractLsb' 6 4) (r.arg.getLsbD 10) (r.arg.extractLsb' 23 9) (r.arg.extractLsb' 11 3) (r.arg.extractLsb' 14 4) (r.arg.extractLsb' 18 4) (r.arg.getLsbD 22))
  | 6 => some (.qstb r.tt (r.arg.extractLsb' 0 6) (r.arg.extractLsb' 6 4) (r.arg.getLsbD 10) (r.arg.extractLsb' 23 9) (r.arg.extractLsb' 11 3) (r.arg.extractLsb' 14 4) (r.arg.extractLsb' 18 4))
  | 16 => some (.aadd r.tt (r.arg.extractLsb' 0 6) (r.arg.extractLsb' 6 6) (r.arg.extractLsb' 12 4) (r.arg.extractLsb' 19 13) (r.arg.extractLsb' 16 1) (r.arg.getLsbD 17))
  | 17 => some (.afadd r.tt (r.arg.extractLsb' 0 6) (r.arg.extractLsb' 6 6) (r.arg.extractLsb' 12 4) (r.arg.extractLsb' 19 13) (r.arg.getLsbD 17))
  | 18 => some (.amin r.tt (r.arg.extractLsb' 0 6) (r.arg.extractLsb' 6 6) (r.arg.extractLsb' 12 4) (r.arg.extractLsb' 19 13) (r.arg.extractLsb' 16 1) (r.arg.getLsbD 17) (r.arg.getLsbD 18))
  | 19 => some (.amax r.tt (r.arg.extractLsb' 0 6) (r.arg.extractLsb' 6 6) (r.arg.extractLsb' 12 4) (r.arg.extractLsb' 19 13) (r.arg.extractLsb' 16 1) (r.arg.getLsbD 17) (r.arg.getLsbD 18))
  | 20 => some (.aor r.tt (r.arg.extractLsb' 0 6) (r.arg.extractLsb' 6 6) (r.arg.extractLsb' 12 4) (r.arg.extractLsb' 19 13) (r.arg.extractLsb' 16 1) (r.arg.getLsbD 17))
  | 21 => some (.aand r.tt (r.arg.extractLsb' 0 6) (r.arg.extractLsb' 6 6) (r.arg.extractLsb' 12 4) (r.arg.extractLsb' 19 13) (r.arg.extractLsb' 16 1) (r.arg.getLsbD 17))
  | 22 => some (.axchg r.tt (r.arg.extractLsb' 0 6) (r.arg.extractLsb' 6 6) (r.arg.extractLsb' 12 4) (r.arg.extractLsb' 19 13) (r.arg.extractLsb' 16 1) (r.arg.getLsbD 17))
  | 23 => some (.acas r.tt (r.arg.extractLsb' 0 6) (r.arg.extractLsb' 6 6) (r.arg.extractLsb' 12 4) (r.arg.extractLsb' 19 13) (r.arg.extractLsb' 16 1) (r.arg.getLsbD 17))
  | 24 => some (.contrib r.tt (r.arg.extractLsb' 0 6) (r.arg.extractLsb' 6 4) (r.arg.extractLsb' 10 4) (r.arg.extractLsb' 15 17) (r.arg.getLsbD 14))
  | 32 => some (.qaadd r.tt (r.arg.extractLsb' 0 4) (r.arg.extractLsb' 4 4) (r.arg.extractLsb' 8 24))
  | _ => none

/-- The instruction that the opcode of an X slot names, read from the slot's fields (R44); none for a hole (R48). -/
def candX (r : XRaw) : Option Instr :=
  match r.op.toNat with
  | 1 => some (.copy r.tt r.c0 r.c1)
  | 2 => some (.copyb r.tt r.c0 r.c1)
  | 3 => some (.copyl r.tt r.c0 r.c1)
  | 4 => some (.copyp r.tt r.c0 r.c1)
  | _ => none

/-- The instruction that the opcode of a C slot names, read from the slot's fields (R43, R212); none for a hole (R48). -/
def candC (r : CRaw) : Option Instr :=
  match r.op.toNat with
  | 1 => some (.cpy r.tt r.k r.rd r.ha)
  | 2 => some (.cpy2 r.tt r.k r.rd)
  | 3 => some (.cpyt r.tt r.k r.rd)
  | 4 => some (.crdt r.tt r.k r.rd r.t)
  | 5 => some (.cgat r.tt r.k r.rd)
  | 6 => some (.csct r.tt r.k r.rd)
  | 7 => some (.cfill r.tt r.k r.rd)
  | 8 => some (.csend r.tt r.k r.rd r.ha)
  | 9 => some (.cpull r.tt r.k r.rd)
  | 10 => some (.cred r.tt r.k)
  | 11 => some (.bankset r.tt r.k)
  | _ => none

/-- The instruction that the opcode of a Y slot names, read from the slot's fields (R43, R63, R184, R188, R268, R270, R280, R281); none for a hole (R48). -/
def candY (r : YRaw) : Option Instr :=
  match r.op.toNat with
  | 1 => some (.wadd r.tt (r.arg.extractLsb' 0 3) (r.arg.extractLsb' 3 3) (r.arg.extractLsb' 6 2) (r.arg.extractLsb' 8 6))
  | 2 => some (if r.arg.getLsbD 6 then .tlincC r.tt (r.arg.extractLsb' 0 6) (r.arg.extractLsb' 7 6) else .tlinc r.tt (r.arg.extractLsb' 7 6))
  | 3 => some (if r.arg.getLsbD 0 then .fenceRel r.tt (r.arg.extractLsb' 1 3) else .fenceAcq r.tt (r.arg.extractLsb' 1 3))
  | 4 => some (.drain r.tt)
  | 5 => some (if r.arg.getLsbD 12 then .flushAll r.tt else .flush r.tt (r.arg.extractLsb' 0 6) (r.arg.extractLsb' 6 6))
  | 6 => some (if r.arg.getLsbD 12 then .invalAll r.tt else .inval r.tt (r.arg.extractLsb' 0 6) (r.arg.extractLsb' 6 6))
  | 8 => some (.join r.tt (r.arg.extractLsb' 0 6))
  | 9 => some (.leave r.tt (r.arg.extractLsb' 0 6) (r.arg.extractLsb' 6 3))
  | 10 => some (.gnew r.tt (r.arg.extractLsb' 0 6))
  | 11 => some (.gfree r.tt (r.arg.extractLsb' 0 6))
  | 12 => some (.bar r.tt (r.arg.extractLsb' 0 6) (r.arg.extractLsb' 6 3))
  | 13 => some (.arrive r.tt (r.arg.extractLsb' 0 6) (r.arg.extractLsb' 6 3))
  | 16 => some (.signal r.tt)
  | 17 => some (.submit r.tt (r.arg.extractLsb' 0 6) (r.arg.extractLsb' 6 6))
  | 18 => some (.armctx r.tt (r.arg.extractLsb' 0 6))
  | 19 => some (.uarm r.tt (r.arg.extractLsb' 0 6) (r.arg.extractLsb' 6 6))
  | _ => none

/-- Accept a candidate when the fields are exactly those of its encoding (R24) and every value is admitted (R48). -/
def accept (r : Raw) (c : Option Instr) : Except DecodeError (Option Instr) :=
  match c with
  | none => .error .unassignedOpcode
  | some i => if rawOf i = r then (if i.wf then .ok (some i) else .error .reservedValue) else .error .unusedField

/-- A slot under opcode 0 is the no-operation when every operand bit is 0 (R24). -/
def nopOr (isNop operandsZero : Bool) (d : Except DecodeError (Option Instr)) : Except DecodeError (Option Instr) :=
  if isNop then (if operandsZero then .ok none else .error .operandUnderNop) else d

/-- The fields of one slot read as an instruction, as nothing, or refused. -/
def decodeRaw (r : Raw) : Except DecodeError (Option Instr) :=
  match r with
  | .s f => nopOr (f.op == 0) (f == ⟨f.tt, 0, 0, 0, 0, 0, 0, 0, 0, 0⟩) (accept r (candS f))
  | .v vu f => nopOr (f.op == 0) (f == ⟨f.tt, 0, 0, 0, 0, 0, 0⟩) (accept r (candV vu f))
  | .m f => nopOr (f.op == 0) (f == ⟨f.tt, 0, 0, 0, 0, 0, 0⟩) (accept r (candM f))
  | .l f => nopOr (f.op == 0) (f == ⟨f.tt, 0, 0⟩) (accept r (candL f))
  | .q f => nopOr (f.op == 0) (f == ⟨f.tt, 0, 0⟩) (accept r (candQ f))
  | .x f => nopOr (f.op == 0) (f == ⟨f.tt, 0, ⟨0, 0, 0, 0⟩, ⟨0, 0, 0, 0⟩⟩) (accept r (candX f))
  | .c f => nopOr (f.op == 0) (f == ⟨f.tt, 0, 0, 0, false, false⟩) (accept r (candC f))
  | .y f => nopOr (f.op == 0) (f == ⟨f.tt, 0, 0⟩) (accept r (candY f))
  | .event => .error .unassignedOpcode

/-! ## Slot words -/

/-- An S slot's 80 bits split into its fields (R20, R21). -/
def splitS (w : BitVec 80) : SRaw :=
  ⟨w.extractLsb' 0 8, w.extractLsb' 8 8, w.extractLsb' 16 6, w.extractLsb' 22 6, w.extractLsb' 28 6, w.extractLsb' 34 4,
    w.extractLsb' 38 4, w.extractLsb' 42 2, w.extractLsb' 44 4, w.extractLsb' 48 32⟩

/-- The 80 bits of an S slot (R20, R21). -/
def joinS (r : SRaw) : BitVec 80 :=
  r.imm ++ r.cond ++ r.pwt ++ r.pd1 ++ r.pd0 ++ r.sb ++ r.sa ++ r.sd ++ r.op ++ r.tt

/-- A V slot's 64 bits split into its fields (R20, R22). -/
def splitV (w : BitVec 64) : VRaw :=
  ⟨w.extractLsb' 0 8, w.extractLsb' 8 8, w.extractLsb' 16 10, w.extractLsb' 26 10, w.extractLsb' 36 10,
    w.extractLsb' 46 10, w.extractLsb' 56 8⟩

/-- The 64 bits of a V slot (R20, R22). -/
def joinV (r : VRaw) : BitVec 64 := r.md ++ r.vc ++ r.vb ++ r.va ++ r.vd ++ r.op ++ r.tt

/-- An M slot's 48 bits split into its fields (R223). -/
def splitM (w : BitVec 48) : MRaw :=
  ⟨w.extractLsb' 0 8, w.extractLsb' 8 8, w.extractLsb' 16 8, w.extractLsb' 24 8, w.extractLsb' 32 8, w.extractLsb' 40 4,
    w.extractLsb' 44 4⟩

/-- The 48 bits of an M slot (R223). -/
def joinM (r : MRaw) : BitVec 48 := r.fl ++ r.ms ++ r.nb ++ r.na ++ r.nd ++ r.op ++ r.tt

/-- An L slot's 48 bits split into its fields (R20). -/
def splitL (w : BitVec 48) : LRaw := ⟨w.extractLsb' 0 8, w.extractLsb' 8 8, w.extractLsb' 16 32⟩

/-- The 48 bits of an L slot (R20). -/
def joinL (r : LRaw) : BitVec 48 := r.arg ++ r.op ++ r.tt

/-- A Q slot's 48 bits split into its fields (R20). -/
def splitQ (w : BitVec 48) : QRaw := ⟨w.extractLsb' 0 8, w.extractLsb' 8 8, w.extractLsb' 16 32⟩

/-- The 48 bits of a Q slot (R20). -/
def joinQ (r : QRaw) : BitVec 48 := r.arg ++ r.op ++ r.tt

/-- An X slot's 64 bits split into its fields (R20, R23). -/
def splitX (w : BitVec 64) : XRaw :=
  ⟨w.extractLsb' 0 8, w.extractLsb' 8 4,
    ⟨w.extractLsb' 12 3, w.extractLsb' 15 10, w.extractLsb' 25 3, w.extractLsb' 28 10⟩,
    ⟨w.extractLsb' 38 3, w.extractLsb' 41 10, w.extractLsb' 51 3, w.extractLsb' 54 10⟩⟩

/-- The 64 bits of an X slot (R20, R23). -/
def joinX (r : XRaw) : BitVec 64 :=
  r.c1.dr ++ r.c1.df ++ r.c1.sr ++ r.c1.sf ++ r.c0.dr ++ r.c0.df ++ r.c0.sr ++ r.c0.sf ++ r.op ++ r.tt

/-- A C slot's 32 bits split into its fields (R212). -/
def splitC (w : BitVec 32) : CRaw :=
  ⟨w.extractLsb' 0 8, w.extractLsb' 8 6, w.extractLsb' 14 4, w.extractLsb' 18 2, w.getLsbD 20, w.getLsbD 21⟩

/-- The 32 bits of a C slot (R212). -/
def joinC (r : CRaw) : BitVec 32 :=
  (0#10) ++ BitVec.ofBool r.t ++ BitVec.ofBool r.ha ++ r.rd ++ r.k ++ r.op ++ r.tt

/-- A Y slot's 28 bits split into its fields (R20). -/
def splitY (w : BitVec 28) : YRaw := ⟨w.extractLsb' 0 8, w.extractLsb' 8 6, w.extractLsb' 14 14⟩

/-- The 28 bits of a Y slot (R20). -/
def joinY (r : YRaw) : BitVec 28 := r.arg ++ r.op ++ r.tt

/-- The word of one slot, with the slot it stands in (R20). -/
inductive SlotWord where
  | s (w : BitVec 80)
  | v (vu : VUnit) (w : BitVec 64)
  | m (w : BitVec 48)
  | l (w : BitVec 48)
  | q (w : BitVec 48)
  | x (w : BitVec 64)
  | c (w : BitVec 32)
  | y (w : BitVec 28)
  deriving DecidableEq, Repr

/-- A slot word decoded: nothing, an instruction, or an illegal encoding by name. -/
def decodeSlot (w : SlotWord) : Except DecodeError (Option Instr) :=
  match w with
  | .s w => decodeRaw (.s (splitS w))
  | .v vu w => decodeRaw (.v vu (splitV w))
  | .m w => decodeRaw (.m (splitM w))
  | .l w => decodeRaw (.l (splitL w))
  | .q w => decodeRaw (.q (splitQ w))
  | .x w => decodeRaw (.x (splitX w))
  | .c w => if w.extractLsb' 22 10 = 0 then decodeRaw (.c (splitC w)) else .error .unusedField
  | .y w => decodeRaw (.y (splitY w))

/-- The word of an instruction; none for an event, which no word encodes. -/
def encode (i : Instr) : Option SlotWord :=
  match rawOf i with
  | .s r => some (.s (joinS r))
  | .v vu r => some (.v vu (joinV r))
  | .m r => some (.m (joinM r))
  | .l r => some (.l (joinL r))
  | .q r => some (.q (joinQ r))
  | .x r => some (.x (joinX r))
  | .c r => some (.c (joinC r))
  | .y r => some (.y (joinY r))
  | .event => none

/-! ## Bundles -/

/-- The header of a bundle (R19). -/
structure Header where
  gap : BitVec 8
  ga : PReg
  gb : PReg
  gc : PReg
  wait : BitVec 8
  stop : Bool
  host : Bool
  pre : Bool
  yield : Bool
  form : BitVec 4
  deriving DecidableEq, Repr

/-- A decoded bundle: its header and what stands in each slot (R20). -/
structure Bundle where
  hdr : Header
  y : Option Instr
  s : Option Instr
  v0 : Option Instr
  v1 : Option Instr
  m : Option Instr
  l : Option Instr
  q : Option Instr
  x : Option Instr
  c : Option Instr
  deriving DecidableEq, Repr

/-- The operations of a bundle, in the order of their bits. -/
def Bundle.ops (b : Bundle) : List Instr :=
  [b.y, b.s, b.v0, b.v1, b.m, b.l, b.q, b.x, b.c].filterMap id

/-- The number of a list of bytes, lowest first (R5). -/
def littleEndian : List Byte → Nat
  | [] => 0
  | b :: bs => b.toNat + 256 * littleEndian bs

/-- The header's fields (R19). -/
def splitHeader (w : BitVec 512) : Header :=
  ⟨w.extractLsb' 0 8, w.extractLsb' 8 4, w.extractLsb' 12 4, w.extractLsb' 16 4, w.extractLsb' 20 8, w.getLsbD 28,
    w.getLsbD 29, w.getLsbD 30, w.getLsbD 31, w.extractLsb' 32 4⟩

/-- The header's 36 bits (R19). -/
def joinHeader (h : Header) : BitVec 36 :=
  h.form ++ BitVec.ofBool h.yield ++ BitVec.ofBool h.pre ++ BitVec.ofBool h.host ++ BitVec.ofBool h.stop ++ h.wait
    ++ h.gc ++ h.gb ++ h.ga ++ h.gap

/-- The nine slot words of a bundle (R20). -/
structure SlotWords where
  y : BitVec 28
  s : BitVec 80
  v0 : BitVec 64
  v1 : BitVec 64
  m : BitVec 48
  l : BitVec 48
  q : BitVec 48
  x : BitVec 64
  c : BitVec 32
  deriving DecidableEq, Repr

/-- The slots of a bundle (R20). -/
def splitBundle (w : BitVec 512) : SlotWords :=
  ⟨w.extractLsb' 36 28, w.extractLsb' 64 80, w.extractLsb' 144 64, w.extractLsb' 208 64, w.extractLsb' 272 48,
    w.extractLsb' 320 48, w.extractLsb' 368 48, w.extractLsb' 416 64, w.extractLsb' 480 32⟩

/-- The 512 bits of a bundle (R19, R20). -/
def joinBundle (h : Header) (t : SlotWords) : BitVec 512 :=
  t.c ++ t.x ++ t.q ++ t.l ++ t.m ++ t.v1 ++ t.v0 ++ t.s ++ t.y ++ joinHeader h

/-- The header values that are illegal whatever the state (R37). -/
def checkHeader (h : Header) (ops : Nat) : Option DecodeError :=
  if h.gap = 0 then some .zeroGap
  else if h.form.toNat > 1 then some .reservedForm
  else if h.form = 1 ∧ (h.stop ∨ h.host ∨ h.pre ∨ h.yield ∨ ops > 1) then some .badSingle
  else none

/-- A bundle of 512 bits decoded (R19 to R24, R36, R37, R48). -/
def decodeBits (w : BitVec 512) : Except DecodeError Bundle := do
  let t := splitBundle w
  let y ← decodeSlot (.y t.y)
  let s ← decodeSlot (.s t.s)
  let v0 ← decodeSlot (.v .v0 t.v0)
  let v1 ← decodeSlot (.v .v1 t.v1)
  let m ← decodeSlot (.m t.m)
  let l ← decodeSlot (.l t.l)
  let q ← decodeSlot (.q t.q)
  let x ← decodeSlot (.x t.x)
  let c ← decodeSlot (.c t.c)
  let b : Bundle := ⟨splitHeader w, y, s, v0, v1, m, l, q, x, c⟩
  match checkHeader b.hdr b.ops.length with
  | some e => .error e
  | none => .ok b

/-- The bytes of a bundle decoded: total on any bytes. -/
def decode (bytes : List Byte) : Except DecodeError Bundle :=
  if bytes.length = 64 then decodeBits (BitVec.ofNat 512 (littleEndian bytes)) else .error .notABundle

/-- The 64 bytes of 512 bits, byte 0 first. -/
def bundleBytes (w : BitVec 512) : List Byte :=
  (List.range 64).map (fun i => w.extractLsb' (8 * i) 8)

/-- A bundle that holds one C-slot value and nothing else but a gap of 1 and the FORM. -/
def tableBundle (w : Nat) : List Byte :=
  bundleBytes (joinBundle ⟨1, 0, 0, 0, 0, false, false, false, false, 0⟩ ⟨0, 0, 0, 0, 0, 0, 0, 0, BitVec.ofNat 32 w⟩)

/-- The instruction that the decoder reads from a C-slot value of spec/opcode_table.json: the rows that have bits are
the C slot's 32-bit values, and the bundle around one is laid out as the hardware stores it. -/
def decodeTableWord (nbits w : Nat) : Option Instr :=
  if nbits = 32 then
    match decode (tableBundle w) with
    | .ok b => b.c
    | .error _ => none
  else none

end Sys2Proof
end

