-- ==== Sys2Proof/Machine/Bits.lean ====
section
/-! DEFINITION. Bit fields, sign extension, lanes of a vector, bytes of a word (R5, R140) and small list helpers.
They stand here, directly under Machine, so that a repair can mend them. -/

namespace Sys2Proof.Machine

/-- Bits hi to lo of a natural number, as a natural number. -/
def bitsOf (w lo n : Nat) : Nat := w / 2 ^ lo % 2 ^ n

/-- Bit i of a natural number. -/
def bitAt (w i : Nat) : Bool := w / 2 ^ i % 2 == 1

/-- 1 for true, 0 for false. -/
def b2n (b : Bool) : Nat := if b then 1 else 0

/-- Lane i of a vector register (R140). -/
def lane (v : Vec) (i : Nat) : W32 := v.extractLsb' (32 * i) 32

/-- The n bits at position pos set: a mask over the bits of a vector register. -/
def maskAt (pos n : Nat) : Vec := BitVec.ofNat 1024 ((2 ^ n - 1) * 2 ^ pos)

/-- The bits of lane i. -/
def laneMask (i : Nat) : Vec := maskAt (32 * i) 32

/-- A vector from a function of the lane number (R86, R140). -/
def vecOf (f : Nat → W32) : Vec :=
  BitVec.ofNat 1024 ((List.range 32).foldl (fun acc i => acc + (f i).toNat * 2 ^ (32 * i)) 0)

/-- The mask of the lanes for which g holds. -/
def lanesMask (g : Nat → Bool) : Vec :=
  vecOf (fun i => if g i then BitVec.allOnes 32 else 0)

/-- A predicate from a function of the lane number (R90). -/
def predOf (f : Nat → Bool) : W32 :=
  BitVec.ofNat 32 ((List.range 32).foldl (fun acc i => acc + b2n (f i) * 2 ^ i) 0)

/-- Take the bits of new where mask is 1 and of old elsewhere (R94, R141). -/
def mergeBits {n : Nat} (old new mask : BitVec n) : BitVec n := (old &&& ~~~mask) ||| (new &&& mask)

/-- A 64-bit value placed in the low bits of a vector container (used for writes in flight). -/
def toVec {n : Nat} (v : BitVec n) : Vec := v.zeroExtend 1024

/-- The code of width w at position i of a vector (R140). -/
def codeAt (v : Vec) (w i : Nat) : Nat := bitsOf v.toNat (w * i) w

/-- The low n bytes of a natural number, lowest first (R5). -/
def bytesOf (n w : Nat) : List Byte :=
  (List.range n).map (fun i => BitVec.ofNat 8 (w / 2 ^ (8 * i)))

/-- The natural number of a list of bytes, lowest first (R5). -/
def natOfBytes : List Byte → Nat
  | [] => 0
  | b :: bs => b.toNat + 256 * natOfBytes bs

/-- A signed number of n bits from its two's complement (R5). -/
def signed (n w : Nat) : Int := if w % 2 ^ n < 2 ^ (n - 1) then (w % 2 ^ n : Nat) else (w % 2 ^ n : Nat) - (2 ^ n : Nat)

/-- The two's complement of an integer in n bits. -/
def unsignedOf (n : Nat) (i : Int) : Nat := (i % (2 ^ n : Nat)).toNat

/-- Division rounded up. -/
def ceilDiv (a b : Nat) : Nat := if b = 0 then 0 else (a + b - 1) / b

/-- The number of bits of a natural number: 0 for 0. -/
def bitLen (n : Nat) : Nat := if n = 0 then 0 else Nat.log2 n + 1

/-- Count of one bits in the low n bits. -/
def popCount : Nat → Nat → Nat
  | 0, _ => 0
  | n + 1, w => w % 2 + popCount n (w / 2)

/-- Position of the lowest one bit among the low n, or n. -/
def lowBit : Nat → Nat → Nat
  | 0, _ => 0
  | n + 1, w => if w % 2 = 1 then 0 else 1 + lowBit n (w / 2)

/-- Insert one element into a list kept in ascending order of a key; an equal key goes after. -/
def insertBy {α : Type} (key : α → Nat) (a : α) : List α → List α
  | [] => [a]
  | b :: bs => if key a < key b then a :: b :: bs else b :: insertBy key a bs

/-- The elements in ascending order of a key, equal keys in their old order. -/
def sortBy {α : Type} (key : α → Nat) (l : List α) : List α :=
  l.foldl (fun acc a => insertBy key a acc) []

/-- An element of a register file; d beyond its end. -/
def vget {α : Type} {n : Nat} (v : Vector α n) (i : Nat) (d : α) : α := v[i]?.getD d

/-- Set an element of a register file. -/
def putAt {α : Type} {n : Nat} (v : Vector α n) (i : Nat) (a : α) : Vector α n := v.setIfInBounds i a

/-- A finite map from Nat keys kept as a list in ascending key order. -/
abbrev AMap (α : Type) := List (Nat × α)

/-- The entry of a key. -/
def amGet {α : Type} (m : AMap α) (k : Nat) : Option α :=
  match m with
  | [] => none
  | (j, a) :: r => if j = k then some a else amGet r k

/-- The map with key k set to a; the keys stay ascending. -/
def amSet {α : Type} (m : AMap α) (k : Nat) (a : α) : AMap α :=
  match m with
  | [] => [(k, a)]
  | (j, b) :: r => if j = k then (k, a) :: r else if k < j then (k, a) :: (j, b) :: r else (j, b) :: amSet r k a

/-- The map without key k. -/
def amDel {α : Type} (m : AMap α) (k : Nat) : AMap α := m.filter (fun e => e.1 != k)

/-- The first element that satisfies p, with its position. -/
def findIdxOf {α : Type} (p : α → Bool) : List α → Option Nat
  | [] => none
  | a :: r => if p a then some 0 else (findIdxOf p r).map (· + 1)

/-- The least of a list of natural numbers. -/
def minOf : List Nat → Option Nat
  | [] => none
  | a :: r => match minOf r with
    | none => some a
    | some b => some (min a b)

/-- The greatest of a list of natural numbers, 0 for none. -/
def maxOf (l : List Nat) : Nat := l.foldl max 0

end Sys2Proof.Machine
end

