-- ==== Sys2Proof/Machine/Num.lean ====
section
/-! DEFINITION. Number formats and rounding (R101 to R114): codes read as exact dyadic numbers, one rounding of an
exact result to a format under the five modes, overflow and non-finite results, and FP32 arithmetic. -/

namespace Sys2Proof.Machine

/-- The format codes 0 to 11 of R47. -/
inductive Fmt where
  | fp32 | fp16 | bf16 | e4m3 | e5m2 | e2m1 | int8 | int4 | e8m0 | vq8 | int32 | fx
  deriving DecidableEq, Repr

/-- The format of a code of R47; 12 to 15 are reserved. -/
def fmtOfCode (c : Nat) : Option Fmt :=
  match c with
  | 0 => some .fp32 | 1 => some .fp16 | 2 => some .bf16 | 3 => some .e4m3 | 4 => some .e5m2 | 5 => some .e2m1
  | 6 => some .int8 | 7 => some .int4 | 8 => some .e8m0 | 9 => some .vq8 | 10 => some .int32 | 11 => some .fx
  | _ => none

/-- The code of a format (R47). -/
def Fmt.code : Fmt → Nat
  | .fp32 => 0 | .fp16 => 1 | .bf16 => 2 | .e4m3 => 3 | .e5m2 => 4 | .e2m1 => 5
  | .int8 => 6 | .int4 => 7 | .e8m0 => 8 | .vq8 => 9 | .int32 => 10 | .fx => 11

/-- Width of one code in bits (R101, R103, R104, R108). -/
def Fmt.bits : Fmt → Nat
  | .fp32 => 32 | .fp16 => 16 | .bf16 => 16 | .e4m3 => 8 | .e5m2 => 8 | .e2m1 => 4
  | .int8 => 8 | .int4 => 4 | .e8m0 => 8 | .vq8 => 16 | .int32 => 32 | .fx => 128

/-- Rounding modes (R109). -/
inductive RM where
  | rne | rz | ru | rd | sr
  deriving DecidableEq, Repr

/-- The mode of an RM code 1 to 5 (R46, R116); other codes read as RNE and cannot stand in FMT. -/
def rmOfCode (c : Nat) : RM :=
  match c with
  | 2 => .rz | 3 => .ru | 4 => .rd | 5 => .sr | _ => .rne

/-- SR taken as RNE, in every operation without a draw (R110). -/
def RM.noSr : RM → RM
  | .sr => .rne
  | m => m

/-- An exact dyadic number (-1)^neg · man · 2^exp; a zero keeps its sign. -/
structure Dy where
  neg : Bool
  man : Nat
  exp : Int
  deriving DecidableEq, Repr

/-- A value: NaN, an infinity, or a finite exact number. -/
inductive Val where
  | nan
  | inf (neg : Bool)
  | fin (d : Dy)
  deriving DecidableEq, Repr

/-- Plus zero. -/
def Val.zero : Val := .fin ⟨false, 0, 0⟩

def Val.isFinite : Val → Bool
  | .fin _ => true
  | _ => false

def Val.isZero : Val → Bool
  | .fin d => d.man == 0
  | _ => false

def Val.neg? : Val → Bool
  | .nan => false
  | .inf n => n
  | .fin d => d.neg

/-- The value with its sign inverted. -/
def Val.negate : Val → Val
  | .nan => .nan
  | .inf n => .inf (!n)
  | .fin d => .fin { d with neg := !d.neg }

/-- The magnitude. -/
def Val.mag : Val → Val
  | .nan => .nan
  | .inf _ => .inf false
  | .fin d => .fin { d with neg := false }

/-- A floating-point format's fields (R101). -/
structure FloatSpec where
  ebits : Nat
  fbits : Nat
  bias : Nat
  deriving DecidableEq, Repr

/-- The fields of the floating-point formats (R101); integer formats have none. -/
def Fmt.float? : Fmt → Option FloatSpec
  | .fp32 => some ⟨8, 23, 127⟩
  | .fp16 => some ⟨5, 10, 15⟩
  | .bf16 => some ⟨8, 7, 127⟩
  | .e4m3 => some ⟨4, 3, 7⟩
  | .e5m2 => some ⟨5, 2, 15⟩
  | .e2m1 => some ⟨2, 1, 1⟩
  | _ => none

/-- FP32, FP16, BF16 and E5M2 have infinities and NaNs with an all-ones exponent (R101, R102). -/
def Fmt.hasInf : Fmt → Bool
  | .fp32 | .fp16 | .bf16 | .e5m2 => true
  | _ => false

/-- The canonical NaN of a format; +0 or 0 where it has none (R101, R106, R112). -/
def Fmt.canonNaN : Fmt → Nat
  | .fp32 => 0x7FC00000 | .fp16 => 0x7E00 | .bf16 => 0x7FC0 | .e4m3 => 0x7F | .e5m2 => 0x7E
  | _ => 0

/-- The code of the largest finite magnitude, sign clear (R101, R103). -/
def Fmt.maxCode : Fmt → Nat
  | .fp32 => 0x7F7FFFFF | .fp16 => 0x7BFF | .bf16 => 0x7F7F | .e4m3 => 0x7E | .e5m2 => 0x7B | .e2m1 => 0x7
  | .int8 => 127 | .int4 => 7 | .int32 => 0x7FFFFFFF | _ => 0

/-- The code of plus infinity where there is one (R101). -/
def Fmt.infCode : Fmt → Nat
  | .fp32 => 0x7F800000 | .fp16 => 0x7C00 | .bf16 => 0x7F80 | .e5m2 => 0x7C | _ => 0

/-- The integer formats (R103). -/
def Fmt.isInt : Fmt → Bool
  | .int8 | .int4 | .int32 => true
  | _ => false

/-- A floating-point code read as a value (R102). -/
def decodeFloat (f : Fmt) (fs : FloatSpec) (c : Nat) : Val :=
  let s := bitAt c (fs.ebits + fs.fbits)
  let e := bitsOf c fs.fbits fs.ebits
  let fr := bitsOf c 0 fs.fbits
  let emax := 2 ^ fs.ebits - 1
  let sub : Val := .fin ⟨s, fr, 1 - (fs.bias : Int) - fs.fbits⟩
  let normal : Val := .fin ⟨s, 2 ^ fs.fbits + fr, (e : Int) - fs.bias - fs.fbits⟩
  if e = 0 then sub
  else if e < emax then normal
  else if f.hasInf then (if fr = 0 then .inf s else .nan)
  else if f = .e4m3 then (if fr = 7 then .nan else normal)
  else normal

/-- A code of any format but VQ8 and FX read as a value (R102, R103). -/
def decodeCode (f : Fmt) (c : Nat) : Val :=
  match f.float? with
  | some fs => decodeFloat f fs (c % 2 ^ f.bits)
  | none =>
    match f with
    | .e8m0 => if c % 256 = 255 then .nan else .fin ⟨false, 1, (c % 256 : Nat) - 127⟩
    | .int8 | .int4 | .int32 =>
      let i := signed f.bits c
      .fin ⟨decide (i < 0), i.natAbs, 0⟩
    | _ => .nan

/-- An exact or truncated magnitude: (q + δ)·2^exp with 0 ≤ δ < 1, and δ > 0 exactly when sticky. -/
structure Exact where
  neg : Bool
  q : Nat
  exp : Int
  sticky : Bool
  deriving DecidableEq, Repr

def Dy.toExact (d : Dy) : Exact := ⟨d.neg, d.man, d.exp, false⟩

/-- Whether the magnitude m + rem/2^sh (with sticky below it) rounds up to m + 1 (R109, R110); draw is the 16-bit
draw of SR. -/
def roundsUp (rm : RM) (neg : Bool) (m rem sh : Nat) (sticky : Bool) (draw : Nat) : Bool :=
  let inexact := rem != 0 || sticky
  let half := 2 ^ sh
  match rm with
  | .rz => false
  | .ru => !neg && inexact
  | .rd => neg && inexact
  | .rne => decide (2 * rem > half) || (decide (2 * rem = half) && (sticky || m % 2 == 1))
  | .sr =>
    -- f·2^16 > r + 1/2, with f counted from the lower neighbour (R110); compared times 2^(sh+1)
    let up := fun (num : Nat) => decide (num * 2 ^ 17 > (2 * draw + 1) * half)
    if !inexact then false
    else if neg then !(up (half - rem)) else up rem

/-- Round a magnitude to a multiple of 2^u; the result's man counts units of 2^u. -/
def roundAt (rm : RM) (draw : Nat) (x : Exact) (u : Int) : Dy :=
  if x.exp ≥ u then ⟨x.neg, x.q * 2 ^ (x.exp - u).toNat, u⟩
  else
    let sh := (u - x.exp).toNat
    let m := x.q / 2 ^ sh
    let rem := x.q % 2 ^ sh
    ⟨x.neg, if roundsUp rm x.neg m rem sh x.sticky draw then m + 1 else m, u⟩

/-- The exponent of the ulp of a magnitude q·2^exp ≠ 0 in a floating-point format, unbounded above (R131). -/
def ulpExp (fs : FloatSpec) (q : Nat) (exp : Int) : Int :=
  max (exp + (bitLen q : Int) - 1) (1 - (fs.bias : Int)) - fs.fbits

/-- Round to a floating-point format's precision with the exponent unbounded above (R109). -/
def roundFloat (fs : FloatSpec) (rm : RM) (draw : Nat) (x : Exact) : Dy :=
  if x.q = 0 && !x.sticky then ⟨x.neg, 0, 1 - (fs.bias : Int) - fs.fbits⟩
  else roundAt rm draw x (ulpExp fs (max x.q 1) x.exp)

/-- A magnitude compared with another: man·2^exp ≤ man'·2^exp'. -/
def magLe (m : Nat) (e : Int) (m' : Nat) (e' : Int) : Bool :=
  if e ≤ e' then decide (m ≤ m' * 2 ^ (e' - e).toNat) else decide (m * 2 ^ (e - e').toNat ≤ m')

/-- The code of a rounded finite value that lies within the format (R102). -/
def packFloat (fs : FloatSpec) (d : Dy) : Nat :=
  let s := b2n d.neg * 2 ^ (fs.ebits + fs.fbits)
  if d.man = 0 then s
  else
    -- bring the mantissa to exactly the format's ulp
    let e := d.exp + (bitLen d.man : Int) - 1
    let u := max e (1 - (fs.bias : Int)) - fs.fbits
    let m := if d.exp ≥ u then d.man * 2 ^ (d.exp - u).toNat else d.man / 2 ^ (u - d.exp).toNat
    let ef := if m < 2 ^ fs.fbits then 0 else (u + fs.fbits + fs.bias).toNat
    s + ef * 2 ^ fs.fbits + m % 2 ^ fs.fbits

/-- A code with the NF flag its making sets (R113). -/
structure Enc where
  code : Nat
  nf : Bool
  deriving DecidableEq, Repr

/-- The code of ±max of a float format, or the integer bound (R111). -/
def maxOfSign (f : Fmt) (neg : Bool) : Nat :=
  if f.isInt then (if neg then 2 ^ (f.bits - 1) else f.maxCode)
  else f.maxCode + b2n neg * 2 ^ (f.bits - 1)

/-- Whether a mode's overflow result is an infinity (R111). -/
def overflowIsInf (rm : RM) (neg : Bool) : Bool :=
  match rm with
  | .rne | .sr => true
  | .rz => false
  | .ru => !neg
  | .rd => neg

/-- The result of a finite overflow in a floating-point format; an infinity that the format has sets no flag by itself (R111). -/
def overflowFloat (f : Fmt) (rm : RM) (sat neg : Bool) : Enc :=
  if sat then ⟨maxOfSign f neg, false⟩
  else if overflowIsInf rm neg then
    if f.hasInf then ⟨f.infCode + b2n neg * 2 ^ (f.bits - 1), false⟩
    else if f = .e4m3 then ⟨f.canonNaN, true⟩
    else ⟨maxOfSign f neg, true⟩
  else ⟨maxOfSign f neg, false⟩

/-- A code that is a NaN or an infinity (R113, R247). -/
def codeNonFinite (f : Fmt) (c : Nat) : Bool := f.float?.isSome && !(decodeCode f c).isFinite

/-- A code that a lane receives, with the NF of R113: the rules of the encode name it, or the code is a NaN or an infinity. -/
def Enc.received (e : Enc) (f : Fmt) : Enc := ⟨e.code, e.nf || codeNonFinite f e.code⟩

/-- The code stored for a non-finite source (R112). -/
def encodeNonFinite (f : Fmt) (sat : Bool) (v : Val) : Enc :=
  match v with
  | .inf n =>
    if f.hasInf then ⟨f.infCode + b2n n * 2 ^ (f.bits - 1), true⟩
    else if f = .e4m3 then (if sat then ⟨maxOfSign f n, true⟩ else ⟨f.canonNaN, true⟩)
    else ⟨maxOfSign f n, true⟩
  | _ => ⟨f.canonNaN, true⟩

/-- Round an exact magnitude to a float format: the code and its flag (R109 to R111). -/
def encodeExactFloat (f : Fmt) (fs : FloatSpec) (rm : RM) (sat : Bool) (draw : Nat) (x : Exact) : Enc :=
  let d := roundFloat fs rm draw x
  match decodeFloat f fs f.maxCode with
  | .fin mx => if magLe d.man d.exp mx.man mx.exp then ⟨packFloat fs d, false⟩ else overflowFloat f rm sat x.neg
  | _ => ⟨0, false⟩

/-- Round an exact magnitude to an integer format, saturating with NF (R111). -/
def encodeExactInt (f : Fmt) (rm : RM) (draw : Nat) (x : Exact) : Enc :=
  let d := roundAt rm draw x 0
  let i : Int := if d.neg then -(d.man : Int) else d.man
  let lo : Int := -(2 ^ (f.bits - 1) : Nat)
  let hi : Int := (2 ^ (f.bits - 1) : Nat) - 1
  if i < lo then ⟨unsignedOf f.bits lo, true⟩
  else if i > hi then ⟨unsignedOf f.bits hi, true⟩
  else ⟨unsignedOf f.bits i, false⟩

/-- Encode a magnitude given exactly or with a sticky bit, without dither (R109 to R111). -/
def encodeExact (f : Fmt) (rm : RM) (sat : Bool) (draw : Nat) (x : Exact) : Enc :=
  match f.float? with
  | some fs => encodeExactFloat f fs rm sat draw x
  | none => encodeExactInt f rm draw x

/-- Encode a value without dither (R109 to R112). -/
def encodeVal (f : Fmt) (rm : RM) (sat : Bool) (draw : Nat) (v : Val) : Enc :=
  match v with
  | .fin d => encodeExact f rm sat draw d.toExact
  | _ => encodeNonFinite f sat v

/-- Whether a code of a float format is subnormal (R102, R114). -/
def isSubnormal (fs : FloatSpec) (c : Nat) : Bool :=
  bitsOf c fs.fbits fs.ebits == 0 && bitsOf c 0 fs.fbits != 0

/-- A code read with the subnormal rule of R114: flush replaces a subnormal by zero of its sign. -/
def decodeFlush (f : Fmt) (flush : Bool) (c : Nat) : Val :=
  match f.float? with
  | some fs =>
    if flush && isSubnormal fs c then .fin ⟨bitAt c (fs.ebits + fs.fbits), 0, 0⟩ else decodeFloat f fs (c % 2 ^ f.bits)
  | none => decodeCode f c

/-- A result written with the subnormal rule of R114. -/
def flushCode (f : Fmt) (flush : Bool) (c : Nat) : Nat :=
  match f.float? with
  | some fs => if flush && isSubnormal fs c then b2n (bitAt c (fs.ebits + fs.fbits)) * 2 ^ (fs.ebits + fs.fbits) else c
  | none => c

/-! ## Exact arithmetic -/

/-- Signed mantissa of a dyadic at exponent e ≤ its own. -/
def Dy.at (d : Dy) (e : Int) : Int :=
  let m : Int := (d.man * 2 ^ (d.exp - e).toNat : Nat)
  if d.neg then -m else m

/-- Exact sum; an exact zero of opposite values is +0, or −0 under RD (R109). -/
def dyAdd (rm : RM) (a b : Dy) : Dy :=
  if a.man = 0 && b.man = 0 then ⟨if a.neg == b.neg then a.neg else decide (rm = .rd), 0, min a.exp b.exp⟩
  else
    let e := min a.exp b.exp
    let s := a.at e + b.at e
    if s = 0 then ⟨decide (rm = .rd), 0, e⟩ else ⟨decide (s < 0), s.natAbs, e⟩

/-- Exact product. -/
def dyMul (a b : Dy) : Dy := ⟨a.neg != b.neg, a.man * b.man, a.exp + b.exp⟩

/-- Sum of values (R79). -/
def valAdd (rm : RM) (a b : Val) : Val :=
  match a, b with
  | .nan, _ => .nan
  | _, .nan => .nan
  | .inf x, .inf y => if x = y then .inf x else .nan
  | .inf x, .fin _ => .inf x
  | .fin _, .inf y => .inf y
  | .fin x, .fin y => .fin (dyAdd rm x y)

/-- Product of values (R79). -/
def valMul (a b : Val) : Val :=
  match a, b with
  | .nan, _ => .nan
  | _, .nan => .nan
  | .inf x, .inf y => .inf (x != y)
  | .inf x, .fin d => if d.man = 0 then .nan else .inf (x != d.neg)
  | .fin d, .inf y => if d.man = 0 then .nan else .inf (d.neg != y)
  | .fin x, .fin y => .fin (dyMul x y)

/-- Multiply by 2^k. -/
def valScale (v : Val) (k : Int) : Val :=
  match v with
  | .fin d => .fin { d with exp := d.exp + k }
  | w => w

/-- Signed comparison of finite dyadics: a < b, −0 = +0 (R77). -/
def dyLt (a b : Dy) : Bool :=
  let e := min a.exp b.exp
  decide (a.at e < b.at e)

def dyEq (a b : Dy) : Bool :=
  let e := min a.exp b.exp
  decide (a.at e = b.at e)

/-- a < b for values that are no NaN. -/
def valLt (a b : Val) : Bool :=
  match a, b with
  | .fin x, .fin y => dyLt x y
  | .inf n, .inf m => n && !m
  | .inf n, .fin _ => n
  | .fin _, .inf m => !m
  | _, _ => false

/-- a = b for values that are no NaN. -/
def valEq (a b : Val) : Bool :=
  match a, b with
  | .fin x, .fin y => dyEq x y
  | .inf n, .inf m => n == m
  | _, _ => false

/-- Integer square root by bits: the largest r below 2^i·2 with r² ≤ n, starting from r. -/
def isqrtFrom : Nat → Nat → Nat → Nat
  | 0, _, r => r
  | i + 1, n, r =>
    let r' := r + 2 ^ i
    isqrtFrom i n (if r' * r' ≤ n then r' else r)

def isqrt (n : Nat) : Nat := isqrtFrom (bitLen n / 2 + 1) n 0

/-- Quotient of magnitudes with a sticky bit, to at least 64 significant bits. -/
def divExact (neg : Bool) (a b : Dy) : Exact :=
  let k := 64 + bitLen b.man
  let n := a.man * 2 ^ k
  ⟨neg, n / b.man, a.exp - b.exp - k, decide (n % b.man ≠ 0)⟩

/-- Square root of a positive dyadic with a sticky bit. -/
def sqrtExact (a : Dy) : Exact :=
  let odd := decide (a.exp % 2 ≠ 0)
  let m := if odd then a.man * 2 else a.man
  let e := if odd then a.exp - 1 else a.exp
  let n := m * 2 ^ 128
  let r := isqrt n
  ⟨false, r, e / 2 - 64, decide (r * r ≠ n)⟩

/-- Reciprocal square root of a positive dyadic with a sticky bit. -/
def rsqrtExact (a : Dy) : Exact :=
  let odd := decide (a.exp % 2 ≠ 0)
  let m := if odd then a.man * 2 else a.man
  let e := if odd then a.exp - 1 else a.exp
  let k := 64 + bitLen m
  let r := isqrt (2 ^ (2 * k) / m)
  ⟨false, r, -(e / 2) - k, decide (r * r * m ≠ 2 ^ (2 * k))⟩

/-! ## FP32 arithmetic -/

/-- Value of an FP32 code with the subnormal rule of R114. -/
def f32In (flush : Bool) (c : W32) : Val := decodeFlush .fp32 flush c.toNat

/-- FP32 code of an exact magnitude, one rounding, FP32 not governed by SAT (R109, R111, R114, R150). -/
def f32OfExact (flush : Bool) (rm : RM) (x : Exact) : W32 :=
  BitVec.ofNat 32 (flushCode .fp32 flush (encodeExact .fp32 rm.noSr false 0 x).code)

/-- FP32 code of a value, one rounding (R109, R111, R112, R114). -/
def f32Out (flush : Bool) (rm : RM) (v : Val) : W32 :=
  match v with
  | .fin d => f32OfExact flush rm d.toExact
  | _ => BitVec.ofNat 32 (encodeNonFinite .fp32 false v).code

/-- NaN or infinity (R113). -/
def f32NonFinite (c : W32) : Bool := bitsOf c.toNat 23 8 == 255

def f32IsNaN (c : W32) : Bool := bitsOf c.toNat 23 8 == 255 && bitsOf c.toNat 0 23 != 0

/-- The canonical NaN of FP32 (R79). -/
def f32NaN : W32 := 0x7FC00000

def f32Add (flush : Bool) (rm : RM) (a b : W32) : W32 := f32Out flush rm (valAdd rm.noSr (f32In flush a) (f32In flush b))

def f32Sub (flush : Bool) (rm : RM) (a b : W32) : W32 :=
  f32Out flush rm (valAdd rm.noSr (f32In flush a) (f32In flush b).negate)

def f32Mul (flush : Bool) (rm : RM) (a b : W32) : W32 := f32Out flush rm (valMul (f32In flush a) (f32In flush b))

/-- a·b + c with one rounding (R78, R152). -/
def f32Fma (flush : Bool) (rm : RM) (a b c : W32) : W32 :=
  f32Out flush rm (valAdd rm.noSr (valMul (f32In flush a) (f32In flush b)) (f32In flush c))

/-- Quotient of two values, rounded once (R79, R153). -/
def f32DivVal (flush : Bool) (rm : RM) (a b : Val) : W32 :=
  match a, b with
  | .nan, _ => f32NaN
  | _, .nan => f32NaN
  | .inf _, .inf _ => f32NaN
  | .inf n, .fin d => f32Out flush rm (.inf (n != d.neg))
  | .fin d, .inf n => f32Out flush rm (.fin ⟨d.neg != n, 0, 0⟩)
  | .fin x, .fin y =>
    if y.man = 0 then (if x.man = 0 then f32NaN else f32Out flush rm (.inf (x.neg != y.neg)))
    else if x.man = 0 then f32Out flush rm (.fin ⟨x.neg != y.neg, 0, 0⟩)
    else f32OfExact flush rm (divExact (x.neg != y.neg) x y)

def f32Div (flush : Bool) (rm : RM) (a b : W32) : W32 := f32DivVal flush rm (f32In flush a) (f32In flush b)

/-- Square root (R79, R153). -/
def f32SqrtVal (flush : Bool) (rm : RM) (a : Val) : W32 :=
  match a with
  | .nan => f32NaN
  | .inf n => if n then f32NaN else f32Out flush rm (.inf false)
  | .fin d => if d.man = 0 then f32Out flush rm (.fin d) else if d.neg then f32NaN else f32OfExact flush rm (sqrtExact d)

def f32Sqrt (flush : Bool) (rm : RM) (a : W32) : W32 := f32SqrtVal flush rm (f32In flush a)

/-- Reciprocal square root (R153). -/
def f32Rsq (flush : Bool) (rm : RM) (a : W32) : W32 :=
  match f32In flush a with
  | .nan => f32NaN
  | .inf n => if n then f32NaN else 0
  | .fin d => if d.man = 0 then f32Out flush rm (.inf d.neg) else if d.neg then f32NaN else f32OfExact flush rm (rsqrtExact d)

/-- Reciprocal (R153). -/
def f32Rcp (flush : Bool) (rm : RM) (a : W32) : W32 := f32DivVal flush rm (.fin ⟨false, 1, 0⟩) (f32In flush a)

/-- The smaller or the larger, −0 below +0, one NaN gives the other operand (R79, R152). -/
def f32MinMax (isMax flush : Bool) (a b : W32) : W32 :=
  let a' := flushCode .fp32 flush a.toNat
  let b' := flushCode .fp32 flush b.toNat
  let va := decodeCode .fp32 a'
  let vb := decodeCode .fp32 b'
  if f32IsNaN a then (if f32IsNaN b then f32NaN else BitVec.ofNat 32 b')
  else if f32IsNaN b then BitVec.ofNat 32 a'
  else
    let aLess := valLt va vb || (valEq va vb && va.neg? && !vb.neg?)
    BitVec.ofNat 32 (if aLess == isMax then b' else a')

/-- Comparison conditions of FCMP (R46, R77). -/
def f32Cond (flush : Bool) (cond : Nat) (a b : W32) : Bool :=
  let va := f32In flush a
  let vb := f32In flush b
  let un := f32IsNaN a || f32IsNaN b
  match cond with
  | 0 => !un && valEq va vb
  | 1 => un || !valEq va vb
  | 2 => !un && valLt va vb
  | 3 => !un && (valLt va vb || valEq va vb)
  | 4 => !un && valLt vb va
  | 5 => !un && (valLt vb va || valEq va vb)
  | 6 => un
  | _ => !un

/-- floor(log2 |v|) of a finite non-zero value. -/
def floorLog2 (d : Dy) : Int := d.exp + (bitLen d.man : Int) - 1

/-- The EMAXF of R163 for formats 1 to 7. -/
def Fmt.emaxf : Fmt → Int
  | .fp16 => 15 | .bf16 => 127 | .e4m3 => 8 | .e5m2 => 15 | .e2m1 => 2 | .int8 => 6 | .int4 => 2 | _ => 0

/-- The E8M0 block scale of a value for an element format (R163), with its NF. -/
def blockScale (f : Fmt) (v : Val) : Enc :=
  match v with
  | .fin d =>
    if d.man = 0 then ⟨0, false⟩
    else
      let e := floorLog2 d - f.emaxf + 127
      ⟨(max 0 (min e 254)).toNat, false⟩
  | _ => ⟨255, true⟩

end Sys2Proof.Machine
end

