-- ==== Sys2Proof/Machine/Dither.lean ====
section
/-! DEFINITION. Dither frames, the key and the draw, encode and decode through a frame and a block scale, the VQ8
codebook, FMT and the scale words (R105 to R107, R116, R120, R126 to R133). -/

namespace Sys2Proof.Machine

/-- The seven words of a dither frame (R127). -/
structure Frame where
  seed : W64
  tag : W64
  base : W64
  size : W64
  n0 : W64
  len : W64
  pitch : W64
  deriving DecidableEq, Repr

/-- The frame of all zeros. -/
def Frame.zero : Frame := ⟨0, 0, 0, 0, 0, 0, 0⟩

/-- The constants of R130. -/
def mixC1 : W64 := 0x8F3C61D527A9B0E1
def mixC2 : W64 := 0xC6E71B935A4D2F87
def mixC3 : W64 := 0x9B1FE8C47D36A25B
def mixC4 : W64 := 0xE4A93D17B8526C0F

/-- The mix function (R130). -/
def mixh (s t n : W64) : W64 :=
  let h := s ^^^ (t * mixC1) ^^^ (n * mixC2)
  let h := (h ^^^ (h >>> 31)) * mixC3
  let h := (h ^^^ (h >>> 27)) * mixC4
  h ^^^ (h >>> 33)

/-- The tag as the mix function takes it (R127, R130). -/
def Frame.tagIn (f : Frame) : W64 := (f.tag.truncate 32).zeroExtend 64

/-- The key of an element: 0 to 15 (R130). -/
def Frame.key (f : Frame) (n : W64) : Nat := (mixh f.seed f.tagIn n).toNat / 2 ^ 60

/-- The offset d(n) in units of 1/32 ULP: an odd number from −15 to 15 (R130). -/
def Frame.offset (f : Frame) (n : W64) : Int := 2 * (f.key n : Int) + 1 - 16

/-- The 16-bit draw of stochastic rounding, under the effective seed (R130, R116). -/
def Frame.draw (f : Frame) (den : Bool) (n : W64) : Nat :=
  (mixh (if den then f.seed else 0) (f.tagIn + 0x100000000) n).toNat / 2 ^ 48

/-- The formats that dither applies to (R105). -/
def Fmt.dithers : Fmt → Bool
  | .e4m3 | .e5m2 | .e2m1 | .int8 | .int4 => true
  | _ => false

/-- The offset that applies to an operation: 0 where dither does not (R105, R116, R130). -/
def Frame.offsetFor (f : Frame) (den : Bool) (fmt : Fmt) (n : W64) : Int :=
  if fmt.dithers && den && f.seed != 0 then f.offset n else 0

/-- The SIZE code of a format's elements (R127); a quarter of a byte, as of VQ8, and 16 bytes have none. -/
def Fmt.sizeCode : Fmt → Nat
  | .e2m1 | .int4 => 0
  | .fp32 | .int32 => 4
  | .fp16 | .bf16 => 2
  | .fx | .vq8 => 16
  | _ => 1

/-- The limits that an address-based user checks (R127, R128). -/
def Frame.valid (f : Frame) (fmt : Fmt) : Bool :=
  let size := f.size.toNat % 16
  let len := f.len.toNat
  let rowBytes := if size = 0 then (len + 1) / 2 else len * size
  size == fmt.sizeCode && decide (1 ≤ len ∧ len < 2 ^ 32) && decide (rowBytes ≤ f.pitch.toNat)

/-- The logical index of the element at a byte address and half (R129); none is FRAME_RANGE. -/
def Frame.index (f : Frame) (a : W64) (h : Nat) : Option W64 :=
  if a.toNat < f.base.toNat then none
  else
    let off := a.toNat - f.base.toNat
    let row := off / f.pitch.toNat
    let rem := off % f.pitch.toNat
    let size := f.size.toNat % 16
    let col := if size = 0 then (2 * rem + h) % 2 ^ 64 else rem / size
    if size ≠ 0 ∧ rem % size ≠ 0 then none
    else if col ≥ f.len.toNat then none
    else some (BitVec.ofNat 64 (f.n0.toNat + row * f.len.toNat + col))

/-! ## FMT and the scale words -/

/-- The rounding mode FMT holds (R116). -/
def fmtRm (w : W32) : RM := rmOfCode (bitsOf w.toNat 0 3)
def fmtSat (w : W32) : Bool := w.getLsbD 3
def fmtNfte (w : W32) : Bool := w.getLsbD 4
def fmtDen (w : W32) : Bool := w.getLsbD 5
def fmtDleaf (w : W32) : Nat := bitsOf w.toNat 8 4
def fmtDdst (w : W32) : Nat := bitsOf w.toNat 12 4

/-- The initial value of FMT that a launch takes unless the image declares another (R117). -/
def fmtDefault : W32 := 0x00000221

/-- Every field of an FMT value is legal (R116). -/
def fmtLegal (w : Nat) : Bool :=
  let rm := bitsOf w 0 3
  decide (1 ≤ rm ∧ rm ≤ 5) && bitsOf w 6 2 == 0 && bitsOf w 16 16 == 0
    && (decide (bitsOf w 8 4 < 8) || bitsOf w 8 4 == 9) && decide (bitsOf w 12 4 < 8)

/-- The fields of an FMT value that a mask selects are legal: a field is selected where the mask has one of its bits (R81, R116;
DEDUCED, log 69). -/
def fmtLegalIn (w mask : Nat) : Bool :=
  let touched := fun (lo n : Nat) => bitsOf mask lo n != 0
  (!touched 0 3 || decide (1 ≤ bitsOf w 0 3 ∧ bitsOf w 0 3 ≤ 5)) && (!touched 6 2 || bitsOf w 6 2 == 0)
    && (!touched 16 16 || bitsOf w 16 16 == 0) && (!touched 8 4 || decide (bitsOf w 8 4 < 8) || bitsOf w 8 4 == 9)
    && (!touched 12 4 || decide (bitsOf w 12 4 < 8))

/-- A scale word in array mode (R120). -/
def scIsArray (w : W64) : Bool := w.getLsbD 0

/-- The bits that R120 requires to be 0 are 0. -/
def scLegal (w : W64) : Bool :=
  if scIsArray w then bitsOf w.toNat 1 5 == 0
  else bitsOf w.toNat 0 8 == 0 && bitsOf w.toNat 16 48 == 0

/-- A legal scale word in uniform mode (R120). -/
def scUniform (w : W64) : Bool := !scIsArray w && scLegal w

/-- The one scale of a uniform word (R120). -/
def scUni (w : W64) : Nat := bitsOf w.toNat 8 8

/-- The address of a block-scale array (R120). -/
def scArrayAddr (w : W64) : Nat := w.toNat / 64 * 64

/-- The scale that stands for 1.0. -/
def unitScale : Nat := 0x7F

/-! ## Encode and decode through a frame -/

/-- The code of a finite ordinal of a format: its signed position among the codes in order of value (R132). -/
def codeOfOrd (f : Fmt) (k : Int) : Nat :=
  if f.isInt then unsignedOf f.bits k else k.natAbs + (if k < 0 then 2 ^ (f.bits - 1) else 0)

/-- The least and the greatest finite ordinal of a format. -/
def ordLo (f : Fmt) : Int := if f.isInt then -(2 ^ (f.bits - 1) : Nat) else -(f.maxCode : Int)
def ordHi (f : Fmt) : Int := f.maxCode

/-- The exponent of the ULP of a non-zero code (R131). -/
def codeUlp (f : Fmt) (c : Nat) : Int :=
  match f.float? with
  | some fs => max ((bitsOf c fs.fbits fs.ebits : Nat) : Int) 1 - fs.bias - fs.fbits
  | none => 0

/-- The exponent of the ULP of a finite real (R131); the subnormal one for 0. -/
def realUlp (f : Fmt) (y : Dy) : Int :=
  match f.float? with
  | some fs => if y.man = 0 then 1 - (fs.bias : Int) - fs.fbits else ulpExp fs y.man y.exp
  | none => 0

/-- d · 2^u added to a value, d counted in 32nds. -/
def dyAddOffset (y : Dy) (d : Int) (u : Int) : Dy :=
  let e := min y.exp (u - 5)
  let s := y.at e + d * (2 ^ (u - 5 - e).toNat : Nat)
  ⟨if s = 0 then y.neg else decide (s < 0), s.natAbs, e⟩

/-- The value of a code, before the scale, through the offset d in 32nds of its ULP (R133). -/
def decOffset (f : Fmt) (c : Nat) (d : Int) : Val :=
  match decodeCode f c with
  | .fin v => if v.man = 0 then .fin v else .fin (dyAddOffset v (-d) (codeUlp f c))
  | w => w

/-- Decode of a code through an offset and a block scale (R106, R133). -/
def decScaled (f : Fmt) (c : Nat) (d : Int) (s : Nat) : Val :=
  if s % 256 = 255 then .nan else valScale (decOffset f c d) ((s % 256 : Nat) - 127)

/-- |y − dec(c)| of a candidate, counted at exponent e. -/
def candDist (f : Fmt) (y : Dy) (d : Int) (e : Int) (k : Int) : Nat :=
  match decOffset f (codeOfOrd f k) d with
  | .fin v => (y.at e - v.at e).natAbs
  | _ => 0

/-- Whether candidate a is preferred to b: nearer, then an even code, then the smaller magnitude (R132). -/
def candBetter (f : Fmt) (y : Dy) (d : Int) (e : Int) (a b : Int) : Bool :=
  let da := candDist f y d e a
  let db := candDist f y d e b
  if da ≠ db then decide (da < db)
  else
    let ea := codeOfOrd f a % 2
    let eb := codeOfOrd f b % 2
    if ea ≠ eb then decide (ea < eb) else decide (a.natAbs < b.natAbs)

/-- The best of a list of candidate ordinals. -/
def bestCand (f : Fmt) (y : Dy) (d : Int) (e : Int) : Int → List Int → Int
  | b, [] => b
  | b, a :: r => bestCand f y d e (if candBetter f y d e a b then a else b) r

/-- The ordinal of c0, the code nearest y + d·u, with the exponent unbounded above; none above the largest finite
value (R132). -/
def nearestOrd (f : Fmt) (y : Dy) (d : Int) : Option Int :=
  let t := if y.man = 0 then y else dyAddOffset y d (realUlp f y)
  match f.float? with
  | some fs =>
    let r := roundFloat fs .rne 0 t.toExact
    match decodeCode f f.maxCode with
    | .fin mx =>
      if magLe r.man r.exp mx.man mx.exp then
        let m := packFloat fs { r with neg := false }
        some (if r.neg then -(m : Int) else m)
      else none
    | _ => none
  | none =>
    let r := roundAt .rne 0 t.toExact 0
    let i := if r.neg then -(r.man : Int) else (r.man : Int)
    if ordLo f ≤ i ∧ i ≤ ordHi f then some i else none

/-- A dithered encode of a finite value (R132). -/
def encDither (f : Fmt) (rm : RM) (sat : Bool) (d : Int) (y : Dy) : Enc :=
  match nearestOrd f y d with
  | none =>
    let neg := (if y.man = 0 then y else dyAddOffset y d (realUlp f y)).neg
    if f.isInt then ⟨maxOfSign f neg, true⟩ else overflowFloat f rm sat neg
  | some c0 =>
    let cs := ([c0 + 1, c0 - 1, 0]).filter (fun k => decide (ordLo f ≤ k ∧ k ≤ ordHi f))
    let k := bestCand f y d (min y.exp (codeUlp f 0 - 5)) c0 cs
    if k = 0 then ⟨if y.neg && !f.isInt then 2 ^ (f.bits - 1) else 0, false⟩ else ⟨codeOfOrd f k, false⟩

/-- Encode of a value at an offset and through a block scale (R106, R132). Through s = 0xFF it sets NF, as R106 has it; R215 names for
CRDT's NONFINITE the cases of R111 and R112 alone, and the model raises it in this case too (DESIGN CHOICE, log 65). -/
def encScaled (f : Fmt) (rm : RM) (sat : Bool) (draw : Nat) (d : Int) (s : Nat) (v : Val) : Enc :=
  if s % 256 = 255 then ⟨f.canonNaN, true⟩
  else
    match valScale v (127 - (s % 256 : Nat)) with
    | .fin y => if d = 0 then encodeExact f rm sat draw y.toExact else encDither f rm sat d y
    | w => encodeNonFinite f sat w

/-- A code, of any bit width, read as FP32 with the given rounding (R106, R133). -/
def decToF32 (flush : Bool) (rm : RM) (f : Fmt) (c : Nat) (d : Int) (s : Nat) : W32 :=
  f32Out flush rm (decScaled f c d s)

/-! ## The VQ8 codebook -/

/-- Weight j of a VQ8 code through a row of the shell table, before the block scale (R107). -/
def vq8Weight (row : W32) (q j : Nat) : Dy :=
  let h := q % 2
  let sgn := fun i => bitsOf q (i + 1) 1
  let neg := (List.range 7).foldl (fun a i => a + sgn i) 0
  let s := if j < 7 then sgn j else neg % 2
  ⟨s == 1, 2 * bitsOf row.toNat (3 * j) 3 + h, -3⟩

end Sys2Proof.Machine
end

