-- ==== Sys2Proof/Machine/State.lean ====
section
/-! DEFINITION. The state of the machine: every piece of state the spec names (INVENTORY.md, State), as plain data, and
the state right after reset. Fields that are the model's own say so. -/

namespace Sys2Proof.Machine

/-- Why the machine stops with a fault. No step of this model raises one: every fault that the spec describes is a trap
that a context takes, a refusal that a register reports, or a drain, and each of these is a next state. -/
inductive Fault where
  /-- Raised by no step of the model; safe. -/
  | noFault
  deriving DecidableEq, Repr

/-- Why a step has no next state. -/
inductive Refusal where
  /-- An arm of exec that has no meaning yet; raised by exec alone; safe. -/
  | notModelled (mnemonic : String)
  /-- An event of the part is asked for in a state in which nothing makes it due; raised by the meanings of the events
  whose moment the spec fixes; safe: the part takes no such step there. -/
  | eventNotDue
  deriving DecidableEq, Repr

/-! ## Registers and writes in flight -/

/-- A place that an in-core result lands in: registers, predicates, staging words, CSRs (R23, R45, R90). Vector
registers are file-relative window positions (R59, R290). -/
inductive Dest where
  | x (n : Nat)
  | hx (n : Nat)
  | va (n : Nat)
  | vb (n : Nat)
  | lv (n : Nat)
  | qv (n : Nat)
  | la (n : Nat)
  | qa (n : Nat)
  | ms (n : Nat)
  | ds (n : Nat)
  | sc (n : Nat)
  | wt (n : Nat)
  | wc (n : Nat)
  | df (n k : Nat)
  | p (n : Nat)
  | csr (n : Nat)
  deriving DecidableEq, Repr

/-- Where a landing value comes from: an in-core result, a scheduled load, an LDC or LDCV, an atomic's old value. -/
inductive WSrc where
  | core
  | load
  | ldc
  | atomic
  deriving DecidableEq, Repr

/-- A write in flight (R27, R28, R290): its landing cycle, its place in program order, its destination, the bits it
changes and their value. Of a value from memory, arrive is the cycle at which the data arrive; none while an operation at
a bank or a home still has to supply it. trap holds the slot and lane that a NONFINITE of a flag write names when the trap
enable of its operation was set (R79, R287). -/
structure Write where
  id : Nat
  land : Nat
  seq : Nat
  dest : Dest
  mask : Vec
  value : Vec
  src : WSrc
  arrive : Option Nat
  trap : Option (Nat × Nat)
  handler : Bool
  deriving DecidableEq, Repr

/-- A loop level (R51); first and last are START and END. -/
structure Level where
  count : W32
  first : W64
  last : W64
  index : W32
  epi : BitVec 3
  prt : Bool
  rsz : BitVec 5
  rrb : BitVec 7
  il : Bool
  deriving DecidableEq, Repr

/-- A timeline counter (R264, R265): its value, the numbers taken, the completed numbers above the value. -/
structure Counter where
  value : Nat
  taken : Nat
  done : List Nat
  deriving DecidableEq, Repr

/-- A window of a vector register file: base and registers (R143, R144, R190). -/
structure Window where
  base : Nat
  regs : List Vec
  deriving DecidableEq, Repr

/-- The sizes of the four windows (R144, R190). -/
structure WinSizes where
  va : Nat
  vb : Nat
  lv : Nat
  qv : Nat
  deriving DecidableEq, Repr

/-- A pending completion trap (R286, R288): code, detail, the cycle of its event, its order among equals, whether a
handler bundle raised it, the slot and lane it names (R287), and the registers its entry writes beside TCAUSE, EPC and
TINFO. -/
structure PendTrap where
  code : Nat
  tinfo : W64
  cycle : Nat
  order : Nat
  handler : Bool
  slot : Nat
  lane : Nat
  grv : Option (W64 × BitVec 8)
  ov : Option (W64 × BitVec 8)
  deriving DecidableEq, Repr

/-- An issue fault of one slot (R286, R287). -/
structure IssueFault where
  code : Nat
  slot : Nat
  lane : Nat
  tinfo : W64
  deriving DecidableEq, Repr

/-- What taking a trap writes (R287): TCAUSE, TINFO, EPC, and the registers of its kind. -/
structure TrapEntry where
  tcause : W64
  tinfo : W64
  epc : W64
  grv : Option (W64 × BitVec 8)
  ov : Option (W64 × BitVec 8)
  deriving DecidableEq, Repr

/-- States of a context (R50); a FREE context is absent from its core's list. -/
inductive CtxState where
  | armed
  | bound
  | handler
  | closing
  deriving DecidableEq, Repr

/-- What holds a context's next bundle after a Y-slot operation (R271, R272). -/
inductive SyncKind where
  | drain
  | fence
  | flushAll
  | invalAll
  | flushRange (lo n : Nat)
  | invalRange (lo n : Nat)
  | snapst
  | snapld
  deriving DecidableEq, Repr

/-- The hold of a DRAIN, FENCE, FLUSH, INVAL, SNAPST or SNAPLD: what it does, its completion cycle, what must have
happened beside: 1 no write of the context is held at a bank or a unit, 2 no value of its loads is; and the cycles that follow
the last of these (R271). -/
structure SyncHold where
  kind : SyncKind
  till : Nat
  needs : Nat
  tail : Nat
  deriving DecidableEq, Repr

/-- The task that a context runs, as the launch names it (R70, R320, R384, R385); uid is the model's own number of it, by
which the contexts that it arms name their owner (R188). -/
structure Task where
  uid : Nat
  launch : Nat
  index : Nat
  taskId : W64
  tx : W32
  ty : W32
  tz : W32
  ex : W32
  ey : W32
  ez : W32
  queue : Nat
  codeLo : W64
  codeHi : W64
  handlerPc : Option W64
  liveTable : W64
  liveCount : Nat
  saveArea : W64
  fmt0 : W32
  win : WinSizes
  arrival : Bool
  signalled : Bool
  deriving DecidableEq, Repr

/-- Whether a pre-emption has been asked for or has landed (R298, R299). -/
inductive Preempt where
  | idle
  | requested (at_ : Nat)
  | landed (forced : Bool)
  deriving DecidableEq, Repr

/-- An entry of the snapshot buffer: a write with the offset d, and PD for an LDC whose destination stays pending
(R290, R292); the source of its value and its place in program order serve its replay (R28, R271, R291). -/
structure SnapEntry where
  dest : Dest
  mask : Vec
  value : Vec
  d : Nat
  arrive : Option Nat
  id : Nat
  pd : Bool
  src : WSrc
  seq : Nat
  deriving DecidableEq, Repr

/-- The issue group in progress: bundles issued in it and the registers they write (R34, R35). -/
structure Group where
  bundles : Nat
  written : List Dest
  deriving DecidableEq, Repr

/-- The vector windows, the scalar files and the staging words of a context. -/
structure Regs where
  x : Vector W64 64
  hx : Vector W64 8
  p : Vector W32 16
  la : Vector W64 16
  qa : Vector W64 16
  ms : Vector W64 16
  ds : Vector W64 16
  sc : Vector W64 16
  wt : Vector W64 8
  wc : Vector (BitVec 3) 8
  df : Vector Frame 8
  va : Window
  vb : Window
  lv : Window
  qv : Window
  deriving DecidableEq, Repr

/-- The control and status registers that a context holds (R70). -/
structure Csrs where
  fmt : W32
  nf : Bool
  fxhr : BitVec 9
  gf : W32
  bkc : W64
  bkv : W32
  bkn : BitVec 8
  grvseq : W64
  grvnode : BitVec 8
  tcause : W64
  epc : W64
  tinfo : W64
  ovstamp : W64
  ovcause : BitVec 8
  deriving DecidableEq, Repr

/-- A context that is not FREE (R49 to R51). -/
structure Ctx where
  st : CtxState
  cl : Bool
  task : Task
  /-- The task that armed an ARMED context (R188). -/
  owner : Option Nat
  regs : Regs
  csr : Csrs
  pc : W64
  levels : List Level
  baseIl : Bool
  counters : Vector Counter 8
  sfc0 : Option Nat
  lastIssue : Option Nat
  issueAt : Nat
  group : Group
  seq : Nat
  pend : List Write
  traps : List PendTrap
  masked : Bool
  waitSnap : Option TrapEntry
  replay : Option (List SnapEntry)
  /-- The destinations of snapshot entries with PD, pending until their replay (R290, R292). -/
  pending : List Dest
  /-- The TG numbers that have completed with a package release among their arrivals, not yet acquired (R65, R272). -/
  tgPackage : List Nat
  hold : Option SyncHold
  taskHold : Option SyncHold
  groups : List Nat
  preempt : Preempt
  closeFailed : Bool
  /-- The model's own, during one bundle: whether a slot moved the PC, the bundle's own guard. -/
  moved : Bool
  guard : Vector W32 3
  deriving DecidableEq, Repr

/-! ## Memory -/

/-- The modes of a bank (R172, R176); a retired bank has none of them (R366). -/
inductive BankMode where
  | cache
  | scratch
  | fifo
  | switching (old : Nat)
  | retired
  deriving DecidableEq, Repr

/-- A line of a cluster cache: way, physical line address, its 64 bytes, its dirty bytes, RRPV (R173). -/
structure Line where
  way : Nat
  addr : Nat
  data : BitVec 512
  dirty : BitVec 64
  rrpv : BitVec 2
  deriving DecidableEq, Repr

/-- A FIFO bank: its entries oldest first (R175). -/
structure Fifo where
  bank : Nat
  entries : List Vec
  deriving DecidableEq, Repr

/-- One byte to write: physical address, value, the bits written. -/
structure PByte where
  pa : Nat
  val : Byte
  mask : Byte
  deriving DecidableEq, Repr

/-- A BANKSET in progress on a cluster (R176): the banks still to switch and when the next one enters its mode. -/
structure BankRun where
  op : Nat
  core : Nat
  ctx : Nat
  tc : Nat
  first : Nat
  count : Nat
  mode : Nat
  next : Nat
  started : Bool
  nextAt : Nat
  deriving DecidableEq, Repr

/-- A cluster: its bank modes, its cache, its FIFO banks, its BANKSETs (R172 to R176), the cycle of the last binding in it
(R319), and for each bank the cycle at which the last BANKSET that names it started (R177). -/
structure Cluster where
  modes : List BankMode
  lines : List Line
  fifos : List Fifo
  runs : List BankRun
  lastBind : Option Nat
  switched : AMap Nat
  deriving DecidableEq, Repr

/-! ## Engines of a core -/

/-- What a copy command has taken of the memory at its start: its source bytes as it read them, the lines among them that its
cluster's cache did not hold, and the physical extents of its destination (R219). -/
structure CopyView where
  bytes : List PByte
  fetched : List Nat
  spans : List (Nat × Nat)
  deriving DecidableEq, Repr

/-- A command of the copy engine, captured at issue (R211 to R218): its staging words, reuse distance, CRDT's map, arrival
block, frames and scale words; of a CRED its place j among those of its group (R333). Freed is the cycle at which the last command
that it waited for completed (R218). From its start on it carries whether credits came late for it (R323), what it will write, as
virtual addresses with bytes and the bits written, its due cycle, what it has taken of the memory, and the fault it ends with: 1 to 3 the cause of a FABRIC_FAULT,
16 a REDUCE_FAULT (R335). -/
structure CopyCmd where
  id : Nat
  ctx : Nat
  handler : Bool
  opcode : Nat
  words : List W64
  rd : Nat
  tr : Bool
  arrive : Option (W64 × W64 × W64)
  number : Nat
  accepted : Nat
  fmt : W32
  frames : List Frame
  scales : List W64
  seq : Nat
  started : Option Nat
  freed : Nat
  starved : Bool
  due : Option Nat
  writes : List (Nat × List (Byte × Byte))
  nonfinite : Bool
  fault : Nat
  performed : Bool
  view : CopyView
  deriving DecidableEq, Repr

/-- A live node of the Grove, or one dropped and not yet freed (R221, R228, R242). -/
structure GNode where
  ctx : Nat
  id : Nat
  opcode : Nat
  na : Nat
  nb : Nat
  fl : Nat
  words : List W64
  fmt : W32
  fxhr : BitVec 9
  frame : Frame
  sc : W64
  done : List (Nat × Nat)
  dropped : Bool
  grown : Bool
  deriving DecidableEq, Repr

/-- Where a suspended demand continues (R245, R261): the node, whether its copy-in is done, its next step, UMAX and AMAX,
the triangle that a TTRSM holds in the array, the 64x64 tile and its K chunk. -/
structure GRecord where
  node : Nat
  copied : Bool
  step : Nat
  umax : Nat
  amax : Nat
  held : List (List W32)
  tile : Nat
  chunk : Nat
  deriving DecidableEq, Repr

/-- A demand: TFORCE, TSTORE or TCB (R222, R235 to R237), with what it captured at issue. After its start it carries the
nodes of its needed set (R261), its record while it is suspended, the node of a non-finite drain that it still has
to report (R247), and whether it waits behind a suspended demand or has been abandoned (R246, R261). -/
structure Demand where
  ctx : Nat
  handler : Bool
  tm : Nat
  opcode : Nat
  node : Nat
  words : List W64
  fmt : W32
  frame : Frame
  sc : W64
  accepted : Nat
  record : Option GRecord
  nodes : List Nat
  nonfinite : Option Nat
  parkedBehind : Option Nat
  abandoned : Bool
  deriving DecidableEq, Repr

/-- How a running demand comes to an end: it completes, or a fault suspends it with its code, sub-cause and node, what BKC
and BKV receive, and its record (R244, R245, R260, R263). -/
inductive GEnd where
  | completes
  | faults (code tinfo node : Nat) (bk : Option (W64 × Option W32)) (record : GRecord)
  deriving DecidableEq, Repr

/-- The start of a computing node within a run (R244): its cycle, the node, its suspension record, and how many of the run's
writes, remembered nodes, flags, growth reports and requests come before it. -/
structure GStage where
  at_ : Nat
  node : Nat
  writes : Nat
  remembered : Nat
  gfs : Nat
  grown : Nat
  requests : Nat
  nonfinite : Option Nat
  deriving DecidableEq, Repr

/-- The demand in evaluation: its finish, with the cycles late by which the slots of a channel delay it (R181), and its end, what
it writes there, the blocks of each node that become remembered (R236 to R240), the nodes that have reported growth, the values that GF takes with their cycles (R256), the shell table of a
TCB (R235), the cycles at which its solver nodes still send requests to the divide and square-root unit (R389), and the starts
of its computing nodes after the first (R244). -/
structure GRun where
  demand : Demand
  start : Nat
  finish : Nat
  late : Nat
  result : GEnd
  writes : List (Nat × List (Byte × Byte))
  remembered : List (Nat × List (Nat × Nat))
  grown : List Nat
  gfs : List (Nat × W32)
  shell : Option (List W32)
  requests : List Nat
  stages : List GStage
  deriving DecidableEq, Repr

/-- The spill buffer while a suspended demand holds it: its context, its TM number, and the accumulators of the interrupted
64x64 tile (R245). -/
structure Spill where
  ctx : Nat
  tm : Nat
  acc : List W32
  deriving DecidableEq, Repr

/-- An arrival waiting for an ARMED context (R189). -/
structure ArrivalRec where
  handlerPc : W64
  word : W64
  dst : W64
  len : W64
  performed : Nat
  deriving DecidableEq, Repr

/-- The snapshot buffer while a context holds it (R289). -/
structure SnapBuf where
  holder : Nat
  entries : List SnapEntry
  deriving DecidableEq, Repr

/-- A core: its contexts that are not FREE, its issue slot, its engines (R16, R147, R189, R211, R221, R222, R289). -/
structure Core where
  ctxs : AMap Ctx
  run : Option Nat
  lastYield : Nat
  snap : Option SnapBuf
  copies : List CopyCmd
  lastCopy : Option (Nat × Nat)
  nodes : List GNode
  demands : List Demand
  suspended : List Demand
  running : Option GRun
  freeAt : Nat
  spill : Option Spill
  shell : List W32
  arrivals : List ArrivalRec
  armedAt : AMap Nat
  lastDivide : Option Nat
  lastIssueCycle : Option Nat
  deriving DecidableEq, Repr

/-! ## Operations in flight of a partition -/

/-- What a load in flight has read for one lane: place and width in its destination, bytes, lane, addresses, the bytes' value so
far, whether it is extended with its sign to 64 bits, whether it is a FIFO's count, whether its line was in no way of the cluster cache at
issue, and whether what it has read is still to be put into the line that its miss has brought there (R173 to R175, R177, R201,
R209). -/
structure Reading where
  pos : Nat
  bits : Nat
  bytes : Nat
  lane : Nat
  pa : Nat
  va : W64
  raw : Nat
  sx : Bool
  count : Bool
  miss : Bool
  fill : Bool
  deriving DecidableEq, Repr

/-- A byte of a store that another cluster's bank checks: physical address, lane, virtual address (R177, R287). -/
structure RemoteByte where
  pa : Nat
  lane : Nat
  va : W64
  deriving DecidableEq, Repr

/-- The operation of the Q slot or of a HOST bundle that makes a write: its context, its issue cycle, whether it is a store (R209,
R278), and whether every other access finds it whole or not at all: an atomic (R207). -/
structure Writer where
  core : Nat
  ctx : Nat
  issued : Nat
  isStore : Bool
  whole : Bool
  deriving DecidableEq, Repr

/-- The kinds of operation in flight that complete on their own (model's own form of the access queue, R192, and of
the effects that other operations carry). -/
inductive OpKind where
  /-- A store (R198, R204, R205): its bytes, and for bytes in another cluster's banks their virtual addresses; entry is
  the value of an STV with every lane guarded, which a FIFO bank takes as one entry (R175, R177). -/
  | store (bytes : List PByte) (remote : List RemoteByte) (entry : Option Vec)
  /-- An atomic at its home (R207): value, new value of an ACAS, the write of its old value, its TA number. -/
  | atomic (opcode size pa : Nat) (va : W64) (unsig nr : Bool) (v new : W64) (wid ta : Nat)
  /-- The data of a load arriving: of a scheduled load with ta 0, else of an LDC or LDCV (R199, R200); reads holds what it has
  read, which a write that performs before then may change (R387) and another cluster's bank checks at the end (R177). -/
  | value (wid ta : Nat) (reads : List Reading)
  /-- The old value of an atomic landing (R207). -/
  | oldValue (wid ta : Nat) (v : Vec)
  /-- A pop that has reached its FIFO bank (R175). -/
  | pop (cluster bank wid ta lands : Nat) (mask : Vec)
  /-- Entries that reach a FIFO bank, at a virtual address (R175). -/
  | push (cluster bank : Nat) (va : W64) (entries : List Vec) (copy : Option Nat)
  /-- A check that an access has completed at its padded latency (R181). -/
  | padded (target : Nat)
  /-- The increment of TS by a TLINC, or with carried by a TLINC.c and its release (R268). -/
  | tsInc (target : Nat) (k : Nat) (carried : Bool)
  /-- An arrival or LEAVE that counts when its release completes: scope, the phase that was open at issue, and the cycles that the
  release takes once its writes have performed (R65, R271). -/
  | arrival (group : Nat) (leave : Bool) (scope phase tail : Nat)
  /-- A TG number that completes GBL after its phase, with the widest scope of the phase's arrivals (R65). -/
  | tg (number scope : Nat)
  /-- A SIGNAL, or the end of a task, that counts after its drain part (R280). -/
  | signal (launch index : Nat)
  /-- A SUBMIT on its way to its queue, before and after its release has completed, with the cycles that the release takes once
  its writes have performed (R271, R281). -/
  | submit (queue : Nat) (addr : W64) (tq : Nat) (released : Bool) (tail : Nat)
  /-- An arm on its way to its unit (R184, R337). -/
  | arm (w : Nat) (va : W64) (c rs step ta : Nat)
  /-- A contribution on its way to its unit (R185, R208). -/
  | contrib (w k : Nat) (vals : List W32) (ta : Nat)
  /-- The writes of an update rule, with the number of non-finite elements (R186, R187). -/
  | update (arm : Nat) (writes : List PByte) (nonfinite : Nat)
  /-- A carrier's arrival at a core (R189). -/
  | arrive (core : Nat) (rec : ArrivalRec) (copy : Option Nat)
  /-- A host ingress entry performing (R278). -/
  | ingress (entry : Nat) (bytes : List PByte) (th : Nat)
  /-- The flush part of a launch's release on a cluster, for COMPLETE or for SIGNALLED (R282, R318). -/
  | flush (launch cluster : Nat) (full : Bool)
  /-- A reduction's result reaching its participants (R333). -/
  | reduction (group seq : Nat)
  /-- The end of DESTROYING (R344). -/
  | destroyed
  /-- The end of a drain (R352). -/
  | drainEnd
  /-- A drain and reset that falls due, with the failing word of its device fault (R220, R352, R364). -/
  | drain (reason : Nat) (failing : Failing)
  deriving DecidableEq, Repr

/-- An operation in flight: its number, the cycle at which it is due (none while it is held), its context, its issue
cycle, whether a handler bundle issued it (R294) and whether it holds an entry of the access queue (R192). -/
structure Op where
  id : Nat
  due : Option Nat
  core : Nat
  ctx : Nat
  issued : Nat
  handler : Bool
  queued : Bool
  kind : OpKind
  deriving DecidableEq, Repr

/-! ## Partitions, queues, launches -/

/-- States of a partition (R343, R344). -/
inductive PState where
  | none
  | creating
  | running
  | draining
  | destroying
  deriving DecidableEq, Repr

/-- A group object (R61, R62): generation, members with whether each has arrived, phase, TG numbers waiting on it, and the
widest scope that an arrival or LEAVE of the open phase named (R65). -/
structure GroupObj where
  live : Bool
  gen : BitVec 20
  members : List (Nat × Nat × Bool)
  phase : Nat
  waiters : List (Nat × Nat × Nat)
  scope : Nat
  deriving DecidableEq, Repr

/-- An entry of the host ingress buffer: address, payload, byte mask, the arrived flag, and whether a HOST bundle has applied it
(R277, R278). -/
structure Ingress where
  id : Nat
  addr : W64
  bytes : List Byte
  mask : BitVec 64
  arrived : Bool
  applied : Bool
  deriving DecidableEq, Repr

/-- The kernel image of a launch, as its header declares it (R384). -/
structure Image where
  base : W64
  total : Nat
  entry : W64
  codeLo : W64
  codeHi : W64
  handlerPc : Option W64
  liveTable : W64
  liveCount : Nat
  fmt : W32
  win : WinSizes
  deriving DecidableEq, Repr

/-- A launch that has been accepted (R312 to R322). init holds the entries of its launch block; deps name the launches it
waits for, with whether for COMPLETE or only for SIGNALLED; base is the packet's PRIO, prio its effective priority e and since
the cycle from which its tasks have waited at that level, once its dependences hold (R319); extra counts the arrival handlers
that run as further tasks of it (R189), latched that SIGNALLED held when one of them started (R317); failAt is the cycle of the event that set its status; clusters are those on which a task of it ran, and
flushed those whose flush has been made, for COMPLETE or only for SIGNALLED (R318); completing from its completion on, and
done once the five steps of R322 have been made, after which it stays only for its dependants. -/
structure Launch where
  number : Nat
  queue : Nat
  tag : W32
  cr : Bool
  base : Nat
  prio : Nat
  image : Image
  init : List (Nat × Nat × W64)
  ex : W32
  ey : W32
  ez : W32
  compl : W64
  place : List (Nat × Nat × Nat)
  hulls : List (Int × Int × Bool)
  submitter : Option (Nat × Nat × Nat)
  deps : List (Nat × Bool)
  nextTask : Nat
  since : Option Nat
  bound : List (Nat × Nat × Nat)
  signalled : Nat
  extra : Nat
  latched : Bool
  status : Nat
  failAt : Nat
  failTask : W64
  failCause : W64
  failInfo : W64
  failEpc : W64
  tends : Nat
  clusters : List Nat
  /-- The clusters on which tasks of it came to run only after SIGNALLED held (R318). -/
  late : List Nat
  flushed : List (Nat × Bool)
  completing : Bool
  done : Bool
  stopped : Bool
  deriving DecidableEq, Repr

/-- A pre-empted task that waits to be restored (R301, R302): its number, the launch and index, the save area, the task,
what the image does not hold (its groups, the TG numbers whose package release it has yet to acquire, its pending traps, its
demands with the TM number of the one that holds the spill buffer, the ids of nodes that are dropped and not yet freed), in THR
its effective priority e and the cycle from which it waits at that level (R319), and in DET its core, context and START. -/
structure Saved where
  id : Nat
  launch : Nat
  index : Nat
  area : W64
  task : Task
  groups : List Nat
  tgPackage : List Nat
  traps : List PendTrap
  demands : List Demand
  spill : Option Nat
  dropped : List Nat
  prio : Nat
  since : Nat
  place : Option (Nat × Nat × Nat)
  deriving DecidableEq, Repr

/-- An arm of an update unit (R182, R184); waiting when no entry of the unit was free; handler when a handler bundle issued it
(R294). -/
structure Arm where
  id : Nat
  w : Nat
  va : W64
  c : Nat
  rs : Nat
  step : Nat
  core : Nat
  ctx : Nat
  ta : Nat
  held : List (Nat × List W32)
  waiting : Bool
  applying : Bool
  handler : Bool
  deriving DecidableEq, Repr

/-- What one participant has sent to the combiner of a reduction: its fragments in the order of R330, or its partial
(R331, R333), with its partition's mode, bin and PSTART (R340) and the cycle at which it counts as arriving (R341). -/
structure Share where
  participant : Nat
  n : Nat
  v : Nat
  ao : Bool
  lo : Nat
  cnt : Nat
  start : Nat
  hops : Nat
  lr : Nat
  det : Bool
  bin : Nat
  pstart : W64
  vals : List (List W32)
  arrived : Nat
  deriving DecidableEq, Repr

/-- A reduction in progress at the combiner of this partition (R333). -/
structure Reduction where
  group : Nat
  seq : Nat
  shares : List Share
  deriving DecidableEq, Repr

/-- One of the 16 rule sets (R183). -/
abbrev RuleSet := List W32

/-- The registers of R343 that the hypervisor sets before CREATE; badCfg and badGddr tell that a bit that must be 0 was
written as 1 in PCFG or above PGDDR. -/
structure PCfg where
  mask : BitVec 16
  det : Bool
  bin : BitVec 2
  sync : Bool
  badCfg : Bool
  badGddr : Bool
  slots : W64
  vc : List W64
  gddr : BitVec 16
  pstart : W64
  deriving DecidableEq, Repr

/-- The saturating counts of R343. -/
structure PCounts where
  updateErrors : W32
  updateNonFinite : W32
  ingressDiscards : W32
  doorbellDiscards : W32
  tlincDiscards : W32
  recordDrops : W32
  deriving DecidableEq, Repr

/-- A clock (R2, R347): its multiple of 100 MHz and the instant and cycle at which it took that value. -/
structure Clock where
  mult : Nat
  base : Nat
  cycle : Nat
  deriving DecidableEq, Repr

/-- A remote byte that a store or an atomic of a context has changed with no DRAIN, fence or acquire of the context after it, with
what it held before, whether something else has written it since, and the TA number of the atomic, 0 of a store (R207, R209, R269,
R387). -/
structure Undrained where
  core : Nat
  ctx : Nat
  pa : Nat
  old : Byte
  passed : Bool
  ta : Nat
  deriving DecidableEq, Repr

/-- A byte that has performed while a copy command, by its number, was at work, and that the command is to find or to leave: at place
0 one of its sources reads as the byte has left it, at place 1 its own write lies under it at the home, at place 2 in the cluster's
cache (R219, R387). -/
structure Met where
  copy : Nat
  place : Nat
  byte : PByte
  deriving DecidableEq, Repr

/-- A partition (R342, R343) with everything that its scope holds. ptime0 is the instant at which PTIME starts (R348). -/
structure Partition where
  cfg : PCfg
  st : PState
  perr : BitVec 8
  pevent : BitVec 4
  counts : PCounts
  rstcnt : W32
  pmeas : BitVec 384
  key : Option Nat
  clock : Clock
  ptime0 : Nat
  /-- The model's own: how many free values a DET partition has taken (R349; log 10). -/
  fresh : Nat
  /-- DET: the bursts of GDDR accesses on their way: channel and the cycle at which each must be served (R179, R181). -/
  slotUse : List (Nat × Nat)
  undrained : List Undrained
  ranges : List RangeEntry
  routes : List W64
  redGroups : List (List W64)
  redSeqs : List Nat
  rules : List RuleSet
  groups : AMap GroupObj
  ingress : List Ingress
  launches : List Launch
  launchCount : Nat
  saved : List Saved
  arms : List Arm
  contribs : List Op
  reductions : List Reduction
  tdisp : Bool
  ops : List Op
  /-- The credits left on the virtual channels whose link withholds some: 16 times the port plus the channel, and how many
  (R323). -/
  credits : AMap Nat
  met : List Met
  deriving DecidableEq, Repr

/-- States of a work queue (R309). -/
inductive QState where
  | disabled
  | active
  | error
  deriving DecidableEq, Repr

/-- A work queue's registers (R309, R351) and the service of its ring: timer is the partition cycle from which its watchdog
counts (R359), firstRead and nextRead instants of the reads of the slot at HEAD, fresh that the packet there has been found
fresh, submits the packets of SUBMITs with their place, core, context and TQ number (R281, R310, R311). -/
structure Queue where
  qbase : W64
  n : BitVec 4
  part : BitVec 4
  en : Bool
  src : Bool
  tail : W32
  head : W32
  st : QState
  err : BitVec 8
  compl : W32
  wdog : W32
  timer : Option Nat
  firstRead : Option Nat
  nextRead : Option Nat
  submits : List (Nat × Nat × Nat × Nat)
  fresh : Bool
  deriving DecidableEq, Repr

/-! ## The module -/

/-- A unit record of the flash (R368). -/
structure UnitRec where
  unit : ErrorUnit
  corrected : Nat
  uncorrected : Nat
  hours : List Nat
  lasting : Bool
  retired : Bool
  spares : Nat
  deriving DecidableEq, Repr

/-- Health, bring-up and field records (R363 to R371): beside the records of the units the flash holds histograms, the rows that
spare rows repair, the harvested cores and the trims. STIME is stime at the instant stime0 (R348). -/
structure Module where
  stage : Nat
  bootErr : BitVec 8
  hctlT : BitVec 8
  hctlW : BitVec 14
  hstat : BitVec 3
  hce : Nat
  hue : Nat
  hlife : Nat
  htemp : BitVec 16
  hpwr : BitVec 16
  hrsel : BitVec 16
  units : List UnitRec
  tempHist : AMap Nat
  powerHist : AMap Nat
  errDays : AMap Nat
  repairs : List (Nat × Nat)
  harvested : List Nat
  trims : List W64
  flashOk : Bool
  attested : BitVec 16
  hostErrors : Nat
  stime0 : Nat
  stime : Nat
  deriving DecidableEq, Repr

/-- An answer to an outside party (R279, R310, R326, R343, R356). -/
inductive Answer where
  | bytes (bs : List Byte)
  | refused
  | word (w : W64)
  | queueError (q : Nat) (error : Nat)
  | fabric (cause : Nat) (bs : List Byte)
  | sent (route : Nat) (addr : W64) (bs : List Byte) (arrive : Option (W64 × W64 × W64))
  | share (route group seq : Nat) (share : Share)
  | result (route group seq : Nat) (vals : Option (List W32))
  | signed (bs : List Byte)
  deriving DecidableEq, Repr

/-- The whole machine. -/
structure State where
  /-- The model's own: the present instant, in global time units. -/
  now : Nat
  /-- The model's own: how many free values have been taken. -/
  fresh : Nat
  /-- The model's own: the next operation's number. -/
  nextId : Nat
  /-- The model's own: the context whose slot operations act. -/
  cur : Nat × Nat
  /-- The model's own: outside events still to come, each with its instant. -/
  inputs : List (Nat × Instr)
  /-- The model's own: what the host will write into its own memory: instant, physical address, bytes (R166, R273). -/
  hostStores : List (Nat × Nat × List Byte)
  /-- The model's own: answers given to outside parties. -/
  outbox : List Answer
  module : Module
  mem : List Host.Cell
  parts : AMap Partition
  queues : AMap Queue
  clusters : AMap Cluster
  cores : AMap Core
  /-- What each core's clock had counted when its partition's clock started (R70); 0 where none is listed. -/
  cycles : AMap Nat
  deriving DecidableEq, Repr

/-! ## Reset values -/

/-- The counts at CREATE (R343). -/
def PCounts.zero : PCounts := ⟨0, 0, 0, 0, 0, 0⟩

/-- The configuration registers of a partition at module reset (log 6). -/
def PCfg.zero : PCfg := ⟨0, false, 0, false, false, false, 0, [0, 0, 0, 0], 0, 0⟩

/-- A partition in NONE, as after module reset (R371; log 6). -/
def Partition.absent : Partition :=
  { cfg := PCfg.zero, st := .none, perr := 0, pevent := 0, counts := PCounts.zero, rstcnt := 0, pmeas := 0, key := .none,
    clock := ⟨30, 0, 0⟩, ptime0 := 0, fresh := 0, slotUse := [], undrained := [], ranges := [],
    routes := [], redGroups := [], redSeqs := [], rules := [], groups := [], ingress := [], launches := [], launchCount := 0, saved := [], arms := [], contribs := [],
    reductions := [], tdisp := false, ops := [], credits := [], met := [] }

/-- A queue as after module reset (R309; log 6). -/
def Queue.reset : Queue :=
  { qbase := 0, n := 0, part := 0, en := false, src := false, tail := 0, head := 0, st := .disabled, err := 0, compl := 0,
    wdog := 0, timer := none, firstRead := none, nextRead := none, submits := [], fresh := false }

/-- A cluster whose banks are all in CACHE with no content (R172). -/
def Cluster.reset : Cluster := ⟨List.replicate 48 .cache, [], [], [], .none, []⟩

/-- A core with every context FREE and every engine idle. -/
def Core.idle : Core :=
  { ctxs := [], run := none, lastYield := 7, snap := none, copies := [], lastCopy := none, nodes := [], demands := [],
    suspended := [], running := none, freeAt := 0, spill := none, shell := [], arrivals := [], armedAt := [],
    lastDivide := none, lastIssueCycle := none }

/-- The module at reset (R365, R367, R371; log 6). -/
def Module.reset : Module :=
  { stage := 0, bootErr := 0, hctlT := 3, hctlW := 24, hstat := 0, hce := 0, hue := 0, hlife := 0,
    htemp := 0, hpwr := 0, hrsel := 0, units := [], tempHist := [], powerHist := [], errDays := [], repairs := [],
    harvested := [], trims := [], flashOk := true, attested := 0, hostErrors := 0, stime0 := 0, stime := 0 }

/-- The machine right after reset: bring-up has not run, no partition exists, memory lists nothing. -/
def State.reset : State :=
  { now := 0, fresh := 0, nextId := 0, cur := (0, 0), inputs := [], hostStores := [], outbox := [], module := Module.reset,
    mem := [], parts := [], queues := [], clusters := [], cores := [], cycles := [] }

end Sys2Proof.Machine
end

