-- ==== Sys2Proof/Machine/Memory.lean ====
section
/-! DEFINITION. Memory at the homes, its canonical form, the physical map, the cluster caches and the translation of
virtual addresses (R166, R168, R170, R173, R178, R180, R273). -/

namespace Sys2Proof.Machine

/-! ## Bytes at the homes -/

/-- What an address that memory does not list reads as (log 4). -/
def unlisted : Byte := 0

/-- The byte at a physical address. -/
def memGet : List Host.Cell → Nat → Byte
  | [], _ => unlisted
  | (a, b) :: r, k => if a = k then b else memGet r k

/-- Memory with one byte set; writing what an unlisted address reads as removes the entry. -/
def memPut : List Host.Cell → Nat → Byte → List Host.Cell
  | [], k, v => if v = unlisted then [] else [(k, v)]
  | (a, b) :: r, k, v =>
    if a < k then (a, b) :: memPut r k v
    else if a = k then (if v = unlisted then r else (k, v) :: r)
    else (if v = unlisted then (a, b) :: r else (k, v) :: (a, b) :: r)

/-- The canonical form: addresses strictly rising, no entry equal to what an unlisted address reads as. -/
def Memory.wf : List Host.Cell → Bool
  | [] => true
  | [(_, b)] => b != unlisted
  | (a, b) :: (a', b') :: r => b != unlisted && decide (a < a') && Memory.wf ((a', b') :: r)

/-- One masked byte written. -/
def memPutByte (m : List Host.Cell) (w : PByte) : List Host.Cell :=
  memPut m w.pa (if w.mask = 0xFF then w.val else mergeBits (memGet m w.pa) w.val w.mask)

/-- A list of bytes written in order: a later one stands over an earlier one. -/
def memWrite (m : List Host.Cell) (ws : List PByte) : List Host.Cell := ws.foldl memPutByte m

/-- Memory without the bytes of a range. -/
def memDrop (m : List Host.Cell) (lo n : Nat) : List Host.Cell :=
  m.filter (fun c => decide (c.1 < lo) || decide (lo + n ≤ c.1))

/-- n bytes from cells of addresses at or above a. -/
def blockFrom : Nat → Nat → List Host.Cell → List Byte
  | 0, _, _ => []
  | n + 1, a, [] => unlisted :: blockFrom n (a + 1) []
  | n + 1, a, (k, b) :: r => if k = a then b :: blockFrom n (a + 1) r else unlisted :: blockFrom n (a + 1) ((k, b) :: r)

/-- n bytes at a physical address. -/
def memBlock (m : List Host.Cell) (a n : Nat) : List Byte := blockFrom n a (m.dropWhile (fun c => decide (c.1 < a)))

/-- Whole bytes to write from an address on. -/
def bytesAt : Nat → List Byte → List PByte
  | _, [] => []
  | a, b :: bs => ⟨a, b, 0xFF⟩ :: bytesAt (a + 1) bs

/-! ## The physical map (R166, R178) -/

/-- Where a physical address has its home. -/
inductive Home where
  | gddr
  | host
  | sram (cluster bank offset : Nat)
  | none
  deriving DecidableEq, Repr

/-- The base of the SRAM windows. -/
def sramBase : Nat := 0x8000000000000

/-- The home of a physical address (R166). -/
def homeOf (pa : Nat) : Home :=
  if pa < 0x2000000000 then .gddr
  else if 0x4000000000000 ≤ pa ∧ pa < 0x8000000000000 then .host
  else if sramBase ≤ pa then
    let c := (pa - sramBase) / 0x2000000
    let o := (pa - sramBase) % 0x2000000
    if c < 16 ∧ o < 48 * 0x80000 then .sram c (o / 0x80000) (o % 0x80000) else .none
  else .none

/-- The region of a home, as one number (R166): an entry may not cross from one to another. -/
def regionOf (pa : Nat) : Option Nat :=
  match homeOf pa with
  | .gddr => some 0
  | .host => some 1
  | .sram c _ _ => some (2 + c)
  | .none => none

/-- The die of a GDDR address's home slice (R178). -/
def gddrDie (pa : Nat) : Nat := bitsOf pa 12 1

/-- The slice of a GDDR address, die·64 + slice (R178, R274). -/
def sliceOf (pa : Nat) : Nat := gddrDie pa * 64 + bitsOf pa 6 6

/-- Whether a physical address lies in a bank of the cluster (R174). -/
def isOwnSram (cluster pa : Nat) : Bool :=
  match homeOf pa with
  | .sram c _ _ => c == cluster
  | _ => false

/-- Whether a physical address lies in a bank of another cluster (R174). -/
def isOtherSram (cluster pa : Nat) : Bool :=
  match homeOf pa with
  | .sram c _ _ => c != cluster
  | _ => false

/-- The line of an address. -/
def lineOf (pa : Nat) : Nat := pa / 64 * 64

/-! ## Translation (R168, R170) -/

/-- Permission bits of R168. -/
inductive Perm where
  | lr | qw | cr | cw | mr | mw | at_ | uu | fb
  deriving DecidableEq, Repr

def Perm.bit : Perm → Nat
  | .lr => 0 | .qw => 1 | .cr => 2 | .cw => 3 | .mr => 4 | .mw => 5 | .at_ => 6 | .uu => 7 | .fb => 8

/-- The valid entry that maps an address (R170). -/
def findRange (t : List RangeEntry) (a : Nat) : Option RangeEntry :=
  t.find? (fun e => decide (e.vbase.toNat ≤ a ∧ a < e.vbase.toNat + e.len.toNat))

/-- A translated byte: its physical address and its entry's RES; or the code of the program error (R170, R286). -/
inductive Xlat where
  | ok (pa res : Nat)
  | fault (code : Nat)
  deriving DecidableEq, Repr

/-- Translate and check one byte (R170). -/
def translate (t : List RangeEntry) (perm : Perm) (a : Nat) : Xlat :=
  match findRange t a with
  | none => .fault 0x07
  | some e => if e.perm.getLsbD perm.bit then .ok (e.pbase.toNat + (a - e.vbase.toNat)) e.res.toNat else .fault 0x08

/-- The 64 KiB granules that an extent meets, each with the part of the extent in it: address and length. The entries of
a range table map whole granules (R168), so that one check of a piece checks each of its bytes. -/
def pieces : Nat → Nat → Nat → List (Nat × Nat)
  | 0, _, _ => []
  | fuel + 1, a, n =>
    if n = 0 then []
    else
      let k := min n (0x10000 - a % 0x10000)
      (a % 2 ^ 64, k) :: pieces fuel (a + k) (n - k)

/-- The pieces of an extent of n bytes. -/
def extentPieces (a n : Nat) : List (Nat × Nat) := pieces (n / 0x10000 + 2) a n

/-- An extent translated: its physical pieces with their RES, or the first failing address and code. -/
def translateExtent (t : List RangeEntry) (perm : Perm) : List (Nat × Nat) → Except (Nat × Nat) (List (Nat × Nat × Nat))
  | [] => .ok []
  | (a, n) :: r =>
    match translate t perm a with
    | .fault code => .error (code, a)
    | .ok pa res =>
      match translateExtent t perm r with
      | .error e => .error e
      | .ok l => .ok ((pa, n, res) :: l)

/-- The physical addresses of an extent, byte by byte, without a check; for extents already checked. -/
def physBytes (t : List RangeEntry) (a n : Nat) : List Nat :=
  (extentPieces a n).flatMap (fun p =>
    match findRange t p.1 with
    | none => []
    | some e => (List.range p.2).map (fun i => e.pbase.toNat + (p.1 - e.vbase.toNat) + i))

/-! ## The cluster cache (R173) -/

/-- The set index of a line (R173). -/
def setOf (pa : Nat) : Nat := bitsOf pa 6 13

/-- The ways of the cluster cache: its banks in CACHE (R173). -/
def cacheWays (c : Cluster) : List Nat := (List.range 48).filter (fun b => c.modes.getD b .cache == .cache)

/-- The line that a cluster's cache holds for an address; a leaving way serves until it is written back (R176). -/
def findLine (c : Cluster) (pa : Nat) : Option Line := c.lines.find? (fun l => l.addr == lineOf pa)

/-- A cluster with one line replaced. -/
def putLine (c : Cluster) (l : Line) : Cluster :=
  { c with lines := c.lines.map (fun x => if x.addr = l.addr then l else x) }

/-- The dirty bytes of a line, as bytes to write at the home. -/
def dirtyBytes (l : Line) : List PByte :=
  (List.range 64).filterMap (fun i =>
    if l.dirty.getLsbD i then some ⟨l.addr + i, l.data.extractLsb' (8 * i) 8, 0xFF⟩ else none)

/-- The number of a line's bytes read from the home. -/
def lineData (m : List Host.Cell) (a : Nat) : BitVec 512 := BitVec.ofNat 512 (natOfBytes (memBlock m a 64))

/-- Age the lines of a set until some line of a way in CACHE has RRPV 3; one of a leaving way is no victim and stays at 3 at most
(R173, R176). -/
def ageSet (ls : List Line) (set : Nat) (ways : List Nat) : List Line :=
  let top := maxOf ((ls.filter (fun l => setOf l.addr == set && ways.contains l.way)).map (fun l => l.rrpv.toNat))
  ls.map (fun l => if setOf l.addr = set then { l with rrpv := BitVec.ofNat 2 (min 3 (l.rrpv.toNat + (3 - top))) } else l)

/-- Memory and cluster after a line has been allocated in a CACHE way at the given RRPV: an empty way first, then the
victim of R173, written back when it is dirty. With no CACHE bank nothing is allocated. -/
def allocLine (m : List Host.Cell) (c : Cluster) (a rd : Nat) : List Host.Cell × Cluster :=
  let ways := cacheWays c
  let set := setOf a
  let used := (c.lines.filter (fun l => setOf l.addr == set)).map (fun l => l.way)
  let new := fun (w : Nat) => (⟨w, a, lineData m a, 0, BitVec.ofNat 2 rd⟩ : Line)
  match ways.find? (fun w => !used.contains w) with
  | some w => (m, { c with lines := c.lines ++ [new w] })
  | none =>
    match ways with
    | [] => (m, c)
    | _ =>
      let ls := ageSet c.lines set ways
      let cands := ls.filter (fun l => setOf l.addr == set && l.rrpv == 3 && ways.contains l.way)
      match minOf (cands.map (fun l => l.way)) with
      | none => (m, c)
      | some w =>
        let victim := cands.filter (fun l => l.way == w)
        let keep := ls.filter (fun l => !(setOf l.addr == set && l.way == w))
        (memWrite m (victim.flatMap dirtyBytes), { c with lines := keep ++ [new w] })

/-- Bring a GDDR or host line into the cache, or note a hit (R173). -/
def touchLine (m : List Host.Cell) (c : Cluster) (pa rd : Nat) : List Host.Cell × Cluster :=
  match findLine c pa with
  | some l => (m, putLine c { l with rrpv := 0 })
  | none => allocLine m c (lineOf pa) rd

/-- A byte of a GDDR or host address as a core of the cluster reads it (R273). -/
def cachedByte (m : List Host.Cell) (c : Cluster) (pa : Nat) : Byte :=
  match findLine c pa with
  | some l => l.data.extractLsb' (8 * (pa % 64)) 8
  | none => memGet m pa

/-- A masked byte put into a line. -/
def lineWith (l : Line) (w : PByte) (isDirty : Bool) : Line :=
  let i := w.pa % 64
  let mask : BitVec 512 := (w.mask.zeroExtend 512) <<< (8 * i)
  let val : BitVec 512 := (w.val.zeroExtend 512) <<< (8 * i)
  { l with data := mergeBits l.data val mask
           dirty := if isDirty then l.dirty ||| ((1 : BitVec 64) <<< i) else l.dirty }

/-- A core's write of one GDDR or host byte: in the cache where a line is, else at the home (R204, R273). -/
def cacheWriteByte (m : List Host.Cell) (c : Cluster) (w : PByte) : List Host.Cell × Cluster :=
  match findLine c w.pa with
  | some l => (m, putLine c (lineWith l w true))
  | none => (memPutByte m w, c)

/-- A core's writes of GDDR or host bytes: each line is allocated at RRPV 2 first (R173, R204). -/
def cacheWrite (m : List Host.Cell) (c : Cluster) (ws : List PByte) : List Host.Cell × Cluster :=
  let lines := (ws.map (fun w => lineOf w.pa)).eraseDups
  let mc := lines.foldl (fun (mc : List Host.Cell × Cluster) a => touchLine mc.1 mc.2 a 2) (m, c)
  ws.foldl (fun (mc : List Host.Cell × Cluster) w => cacheWriteByte mc.1 mc.2 w) mc

/-- Write back the dirty lines that satisfy p; drop them when inval is set (R271). -/
def flushLines (m : List Host.Cell) (c : Cluster) (p : Line → Bool) (inval : Bool) : List Host.Cell × Cluster :=
  let m' := memWrite m ((c.lines.filter p).flatMap dirtyBytes)
  let ls := if inval then c.lines.filter (fun l => !p l) else c.lines.map (fun l => if p l then { l with dirty := 0 } else l)
  (m', { c with lines := ls })

/-- Update a copy that a cluster's cache holds of bytes written at the home (R219). -/
def updateCopies (c : Cluster) (ws : List PByte) : Cluster :=
  ws.foldl (fun c w =>
    match findLine c w.pa with
    | some l => putLine c (lineWith l w false)
    | none => c) c

/-! ## Figures (R180, R181) -/

/-- The R180 figures of a home, by the partition clock's multiple of 100 MHz. -/
def figGddr (mult : Nat) : Nat := 90 * mult
def figHost (mult : Nat) : Nat := 200 * mult
def figHop (mult : Nat) : Nat := 40 * mult

/-- λ of a byte for a cluster (R180, R181). -/
def lambdaOf (mult cluster pa res : Nat) : Nat :=
  match homeOf pa with
  | .gddr => if res = 1 then (if gddrDie pa = cluster / 8 then 160 else 240) else figGddr mult
  | .host => figHost mult
  | .sram c _ _ => if c = cluster then 24 else if c / 8 = cluster / 8 then 160 else 240
  | .none => 24

end Sys2Proof.Machine
end

