-- ==== Sys2Proof/Machine/Ops.lean ====
section
/-! DEFINITION. The named operations over the state: access to its parts, time, registers and writes in flight, memory as a
context, an engine or an outside party reaches it, counters, completion traps, taking a trap and returning from one. -/

namespace Sys2Proof.Machine

/-! ## Parts of the state -/

def State.part (s : State) (p : Nat) : Partition := (amGet s.parts p).getD Partition.absent
def State.setPart (s : State) (p : Nat) (x : Partition) : State := { s with parts := amSet s.parts p x }
def State.queue (s : State) (q : Nat) : Queue := (amGet s.queues q).getD Queue.reset
def State.setQueue (s : State) (q : Nat) (x : Queue) : State := { s with queues := amSet s.queues q x }
def State.cluster (s : State) (c : Nat) : Cluster := (amGet s.clusters c).getD Cluster.reset
def State.setCluster (s : State) (c : Nat) (x : Cluster) : State := { s with clusters := amSet s.clusters c x }
def State.core (s : State) (k : Nat) : Core := (amGet s.cores k).getD Core.idle
def State.setCore (s : State) (k : Nat) (x : Core) : State := { s with cores := amSet s.cores k x }

/-- Apply a function to a part. -/
def State.onPart (s : State) (p : Nat) (f : Partition → Partition) : State := s.setPart p (f (s.part p))
def State.onQueue (s : State) (q : Nat) (f : Queue → Queue) : State := s.setQueue q (f (s.queue q))
def State.onCluster (s : State) (c : Nat) (f : Cluster → Cluster) : State := s.setCluster c (f (s.cluster c))
def State.onCore (s : State) (k : Nat) (f : Core → Core) : State := s.setCore k (f (s.core k))

/-- The window of n zero registers. -/
def Window.zero (base n : Nat) : Window := ⟨base, List.replicate n 0⟩

/-- Registers at bind: every one holds 0 (R11, R68, R91, R144). -/
def Regs.zero (bases sizes : WinSizes) : Regs :=
  { x := Vector.replicate 64 0, hx := Vector.replicate 8 0, p := Vector.replicate 16 0, la := Vector.replicate 16 0,
    qa := Vector.replicate 16 0, ms := Vector.replicate 16 0, ds := Vector.replicate 16 0, sc := Vector.replicate 16 0,
    wt := Vector.replicate 8 0, wc := Vector.replicate 8 0, df := Vector.replicate 8 Frame.zero,
    va := Window.zero bases.va sizes.va, vb := Window.zero bases.vb sizes.vb, lv := Window.zero bases.lv sizes.lv,
    qv := Window.zero bases.qv sizes.qv }

/-- Control and status registers at bind (R117; log 7). -/
def Csrs.zero (fmt : W32) : Csrs := ⟨fmt, false, 0, 0, 0, 0, 0, 0, 0, 0, 0, 0, 0, 0⟩

/-- A task of no launch; what a state without the named context reads as. -/
def Task.zero : Task :=
  ⟨0, 0, 0, 0, 0, 0, 0, 0, 0, 0, 0, 0, 0, none, 0, 0, 0, fmtDefault, ⟨0, 0, 0, 0⟩, false, false⟩

/-- A context that has just been bound to a task (R320). -/
def Ctx.fresh (t : Task) (pc : W64) (bases : WinSizes) (issueAt : Nat) : Ctx :=
  { st := .bound, cl := false, task := t, owner := none, regs := Regs.zero bases t.win, csr := Csrs.zero t.fmt0, pc := pc,
    levels := [], baseIl := false, counters := Vector.replicate 8 ⟨0, 0, []⟩, sfc0 := none, lastIssue := none,
    issueAt := issueAt, group := ⟨0, []⟩, seq := 0, pend := [], traps := [], masked := false, waitSnap := none,
    replay := none, pending := [], tgPackage := [], hold := none, taskHold := none, groups := [], preempt := .idle, closeFailed := false,
    moved := false, guard := Vector.replicate 3 0 }

/-- A context of a core, when it is not FREE. -/
def State.ctx? (s : State) (k c : Nat) : Option Ctx := amGet (s.core k).ctxs c

def State.ctx (s : State) (k c : Nat) : Ctx := (s.ctx? k c).getD (Ctx.fresh Task.zero 0 ⟨0, 0, 0, 0⟩ 0)

def State.setCtx (s : State) (k c : Nat) (x : Ctx) : State :=
  s.onCore k (fun r => { r with ctxs := amSet r.ctxs c x })

/-- Change a context that exists. -/
def State.onCtx (s : State) (k c : Nat) (f : Ctx → Ctx) : State :=
  match s.ctx? k c with
  | some x => s.setCtx k c (f x)
  | none => s

/-- The issuing context. -/
def State.me (s : State) : Ctx := s.ctx s.cur.1 s.cur.2

/-- Change the issuing context. -/
def State.onMe (s : State) (f : Ctx → Ctx) : State := s.setCtx s.cur.1 s.cur.2 (f s.me)

def State.myCore (s : State) : Core := s.core s.cur.1

/-- The offset of the core number that stands in a record for a context that exists no more, and of the number of a saved task
where it stands for its context. -/
def goneCore : Nat := 256

/-- The core number under which a group object keeps a saved task, by the task's number: beyond those of ended contexts (R66,
R301). -/
def savedCore (id : Nat) : Nat := 2 * goneCore + id

/-- The cluster of a core (R70). -/
def clusterOf (k : Nat) : Nat := k % goneCore / 16

/-- A context's number over the package, to order and to name it. -/
def ctxKey (k c : Nat) : Nat := k * 8 + c

/-- The partition that holds a cluster (R342). -/
def State.partOfCluster (s : State) (c : Nat) : Option Nat :=
  (s.parts.find? (fun e => e.2.st != .none && e.2.cfg.mask.getLsbD c)).map (·.1)

/-- The partition of a core; 16 stands for none. -/
def State.partOf (s : State) (k : Nat) : Nat := (s.partOfCluster (clusterOf k)).getD 16

def State.myPart (s : State) : Nat := s.partOf s.cur.1
def State.myP (s : State) : Partition := s.part s.myPart

/-! ## Time (R2, R321, R347, R348) -/

def Clock.period (c : Clock) : Nat := Config.unitsPerTick / (max c.mult 1)

/-- The cycle of a clock at an instant. -/
def Clock.at_ (c : Clock) (now : Nat) : Nat := c.cycle + (now - c.base) / c.period

/-- The instant at which a cycle begins. -/
def Clock.instant (c : Clock) (cycle : Nat) : Nat := c.base + (cycle - c.cycle) * c.period

/-- The partition cycle of the present instant. -/
def State.cyc (s : State) (p : Nat) : Nat := (s.part p).clock.at_ s.now

/-- The cycle at which the issuing bundle issues. -/
def State.t (s : State) : Nat := s.cyc s.myPart

def State.mult (s : State) (p : Nat) : Nat := (s.part p).clock.mult

def State.isDet (s : State) (p : Nat) : Bool := (s.part p).cfg.det

/-- STIME: reference ticks since the domain formed (R348). -/
def State.stime (s : State) : Nat := s.module.stime + (s.now - s.module.stime0) / Config.unitsPerTick

/-- The instant at which STIME equals a value not before its present one (R348). -/
def State.stimeInstant (s : State) (v : Nat) : Nat := s.module.stime0 + (v - s.module.stime) * Config.unitsPerTick

/-- Take a free value's number. -/
def State.tick (s : State) : Nat × State := (s.fresh, { s with fresh := s.fresh + 1 })

/-- Take the number of a free value that a register or a byte of a partition can show: in DET from the partition's own count,
so that nothing outside it acts on the value (R349; log 10). -/
def State.pick (s : State) (p : Nat) : Nat × State :=
  if s.isDet p then (2 * (s.part p).fresh, s.onPart p (fun x => { x with fresh := x.fresh + 1 }))
  else (2 * s.fresh + 1, { s with fresh := s.fresh + 1 })

/-- The duration of something whose figure a DET partition takes exactly and a THR partition as typical (R180). -/
def State.figure (s : State) (p fig : Nat) : Nat × State :=
  if s.isDet p then (fig, s) else (max 1 (Config.thrFigure fig s.fresh), { s with fresh := s.fresh + 1 })

/-- A delay that DET takes exactly and THR bounds above (R65, R187). -/
def State.within (s : State) (p bound : Nat) : Nat × State :=
  if s.isDet p then (bound, s) else (min bound (Config.thrWithin s.fresh), { s with fresh := s.fresh + 1 })

/-- A number for an operation in flight. -/
def State.newId (s : State) : Nat × State := (s.nextId, { s with nextId := s.nextId + 1 })

/-- A kind of operation that takes an entry of its core's access queue (R192). -/
def OpKind.takesEntry (k : OpKind) : Bool :=
  match k with
  | .store .. | .atomic .. | .value .. | .oldValue .. | .pop .. | .contrib .. => true
  | .push _ _ _ _ copy => copy == none
  | _ => false

/-- Put an operation in flight into a partition: handler tells whether a handler bundle issued it, queued whether it holds an
entry of the access queue. -/
def State.addOpAs (s : State) (p : Nat) (due : Option Nat) (core ctx issued : Nat) (handler queued : Bool) (kind : OpKind) : State :=
  { s.onPart p (fun x => { x with ops := x.ops ++ [⟨s.nextId, due, core, ctx, issued, handler, queued, kind⟩] }) with nextId := s.nextId + 1 }

/-- Put an operation of a context's present bundle in flight. -/
def State.addOp (s : State) (p : Nat) (due : Option Nat) (core ctx issued : Nat) (kind : OpKind) : State :=
  s.addOpAs p due core ctx issued ((s.ctx core ctx).st == .handler) kind.takesEntry kind

/-- Put an operation in flight that an earlier one of the same bundle leads to. -/
def State.follow (s : State) (p : Nat) (o : Op) (due : Option Nat) (kind : OpKind) : State :=
  s.addOpAs p due o.core o.ctx o.issued o.handler o.queued kind

/-- The operation in flight with a number. -/
def State.op? (s : State) (p id : Nat) : Option Op := (s.part p).ops.find? (fun o => o.id == id)

/-- The check of the padded time of an operation (R181). -/
def Op.pads (o : Op) (id : Nat) : Bool :=
  match o.kind with
  | .padded target => target == id
  | _ => false

/-- A partition without one operation, and without the check of its padded time. -/
def State.dropOp (s : State) (p id : Nat) : State :=
  s.onPart p (fun x => { x with ops := x.ops.filter (fun o => o.id != id && !o.pads id) })

/-- Set when an operation is due. -/
def State.setDue (s : State) (p id : Nat) (due : Option Nat) : State :=
  s.onPart p (fun x => { x with ops := x.ops.map (fun o => if o.id = id then { o with due := due } else o) })

/-- An answer to an outside party. -/
def State.answer (s : State) (a : Answer) : State := { s with outbox := s.outbox ++ [a] }

/-- A saturating count of R343, raised by 1. -/
def satInc (w : W32) : W32 := if w = 0xFFFFFFFF then w else w + 1

/-! ## Registers -/

def Window.get (w : Window) (n : Nat) : Vec := w.regs.getD n 0
def Window.put (w : Window) (n : Nat) (v : Vec) : Window := { w with regs := w.regs.set n v }
def Window.size (w : Window) : Nat := w.regs.length

/-- A word of a frame (R45, R127). -/
def Frame.word (f : Frame) (k : Nat) : W64 :=
  match k with
  | 0 => f.seed | 1 => f.tag | 2 => f.base | 3 => f.size | 4 => f.n0 | 5 => f.len | _ => f.pitch

/-- A word of a frame written. Of a TAG or SIZE word R45 and R127 have every reader ignore the bits above the field, and do not say what
an X copy or a save image reads back of them: the model keeps the whole word as it was written (DESIGN CHOICE, log 70). -/
def Frame.setWord (f : Frame) (k : Nat) (v : W64) : Frame :=
  match k with
  | 0 => { f with seed := v } | 1 => { f with tag := v } | 2 => { f with base := v } | 3 => { f with size := v }
  | 4 => { f with n0 := v } | 5 => { f with len := v } | _ => { f with pitch := v }

/-- A field of a loop level as its CSR holds it: f 0 COUNT, 1 START, 2 END, 3 INDEX, 4 LCTL (R70). -/
def Level.field (l : Level) (f : Nat) : W64 :=
  match f with
  | 0 => l.count.zeroExtend 64 | 1 => l.first | 2 => l.last | 3 => l.index.zeroExtend 64
  | _ => ((BitVec.ofBool l.il ++ l.rrb ++ l.rsz ++ BitVec.ofBool l.prt ++ l.epi : BitVec 17)).zeroExtend 64

def Level.setField (l : Level) (f : Nat) (v : W64) : Level :=
  match f with
  | 0 => { l with count := v.truncate 32 } | 1 => { l with first := v } | 2 => { l with last := v }
  | 3 => { l with index := v.truncate 32 }
  | _ => { l with epi := v.extractLsb' 0 3, prt := v.getLsbD 3, rsz := v.extractLsb' 4 5, rrb := v.extractLsb' 9 7,
                  il := v.getLsbD 16 }

/-- The issue mode in force: handler mode is interlocked (R33, R36). -/
def Ctx.il (x : Ctx) : Bool :=
  if x.st = .handler then true
  else match x.levels with
    | [] => x.baseIl
    | l :: _ => l.il

/-- LDEPTH set by a PUTC (R388): discard inner levels, or open new ones inside the innermost. -/
def Ctx.setDepth (x : Ctx) (v : Nat) : Ctx :=
  let d := x.levels.length
  if v ≤ d then { x with levels := x.levels.drop (d - v) }
  else
    let il := match x.levels with
      | [] => x.baseIl
      | l :: _ => l.il
    { x with levels := List.replicate (v - d) ⟨0, 0, 0, 0, 0, false, 0, 0, il⟩ ++ x.levels }

/-- The CSRs that a write in flight can change (R70, R71, R81). -/
def Ctx.csrValue (x : Ctx) (n : Nat) : W64 :=
  if n = 0x018 then x.csr.fmt.zeroExtend 64
  else if n = 0x019 then (BitVec.ofBool x.csr.nf).zeroExtend 64
  else if n = 0x020 then BitVec.ofNat 64 x.levels.length
  else if n = 0x021 then (BitVec.ofBool x.baseIl).zeroExtend 64
  else if 0x040 ≤ n ∧ n < 0x070 then
    match x.levels[(n - 0x040) / 8]? with
    | some l => l.field ((n - 0x040) % 8)
    | none => 0
  else if n = 0x100 then x.csr.tcause
  else if n = 0x101 then x.csr.epc
  else if n = 0x104 then x.csr.tinfo
  else if n = 0x124 then x.csr.fxhr.zeroExtend 64
  else 0

def Ctx.setCsr (x : Ctx) (n : Nat) (v : W64) : Ctx :=
  if n = 0x018 then { x with csr := { x.csr with fmt := v.truncate 32 } }
  else if n = 0x019 then { x with csr := { x.csr with nf := v.getLsbD 0 } }
  else if n = 0x020 then x.setDepth v.toNat
  else if n = 0x021 then { x with baseIl := v.getLsbD 0 }
  else if 0x040 ≤ n ∧ n < 0x070 then
    match x.levels[(n - 0x040) / 8]? with
    | some l => { x with levels := x.levels.set ((n - 0x040) / 8) (l.setField ((n - 0x040) % 8) v) }
    | none => x
  else if n = 0x100 then { x with csr := { x.csr with tcause := v } }
  else if n = 0x101 then { x with csr := { x.csr with epc := v } }
  else if n = 0x104 then { x with csr := { x.csr with tinfo := v } }
  else if n = 0x124 then { x with csr := { x.csr with fxhr := v.truncate 9 } }
  else x

/-- What a place holds, in a container of vector width (R45, R86). -/
def Ctx.read (x : Ctx) (d : Dest) : Vec :=
  match d with
  | .x n => toVec (vget x.regs.x n 0)
  | .hx n => toVec (vget x.regs.hx n 0)
  | .va n => x.regs.va.get n
  | .vb n => x.regs.vb.get n
  | .lv n => x.regs.lv.get n
  | .qv n => x.regs.qv.get n
  | .la n => toVec (vget x.regs.la n 0)
  | .qa n => toVec (vget x.regs.qa n 0)
  | .ms n => toVec (vget x.regs.ms n 0)
  | .ds n => toVec (vget x.regs.ds n 0)
  | .sc n => toVec (vget x.regs.sc n 0)
  | .wt n => toVec (vget x.regs.wt n 0)
  | .wc n => toVec (vget x.regs.wc n 0)
  | .df n k => toVec ((vget x.regs.df n Frame.zero).word k)
  | .p n => toVec (vget x.regs.p n 0)
  | .csr n => toVec (x.csrValue n)

/-- A 64-bit place. -/
def Ctx.read64 (x : Ctx) (d : Dest) : W64 := (x.read d).truncate 64

/-- Set a place to a value. -/
def Ctx.write (x : Ctx) (d : Dest) (v : Vec) : Ctx :=
  let w : W64 := v.truncate 64
  let r := x.regs
  match d with
  | .x n => { x with regs := { r with x := putAt r.x n w } }
  | .hx n => { x with regs := { r with hx := putAt r.hx n w } }
  | .va n => { x with regs := { r with va := r.va.put n v } }
  | .vb n => { x with regs := { r with vb := r.vb.put n v } }
  | .lv n => { x with regs := { r with lv := r.lv.put n v } }
  | .qv n => { x with regs := { r with qv := r.qv.put n v } }
  | .la n => { x with regs := { r with la := putAt r.la n w } }
  | .qa n => { x with regs := { r with qa := putAt r.qa n w } }
  | .ms n => { x with regs := { r with ms := putAt r.ms n w } }
  | .ds n => { x with regs := { r with ds := putAt r.ds n w } }
  | .sc n => { x with regs := { r with sc := putAt r.sc n w } }
  | .wt n => { x with regs := { r with wt := putAt r.wt n w } }
  | .wc n => { x with regs := { r with wc := putAt r.wc n (w.truncate 3) } }
  | .df n k => { x with regs := { r with df := putAt r.df n ((vget r.df n Frame.zero).setWord k w) } }
  | .p n => { x with regs := { r with p := putAt r.p n (v.truncate 32) } }
  | .csr n => x.setCsr n w

/-- Land a write: the bits of its mask change (R94, R141). -/
def Ctx.landWrite (x : Ctx) (d : Dest) (mask value : Vec) : Ctx := x.write d (mergeBits (x.read d) value mask)

/-- The name of an X register for a context: in handler mode x56 to x63 name the handler bank (R293). -/
def Ctx.xDest (x : Ctx) (n : Nat) : Dest := if x.st = .handler ∧ 56 ≤ n then .hx (n - 56) else .x n

/-- An X register as the issuing context reads it. -/
def Ctx.xr (x : Ctx) (n : XReg) : W64 := x.read64 (x.xDest n.toNat)

/-- Two places that R28 and R35 count as one: the two words of a wait register (R88). -/
def Dest.name (d : Dest) : Dest :=
  match d with
  | .wc n => .wt n
  | e => e

/-! ## Writes in flight -/

/-- Put a result in flight: latency, place, bits, value (R27, R28). -/
def State.pushAt (s : State) (land : Nat) (d : Dest) (mask value : Vec) (src : WSrc) (arrive : Option Nat)
    (trap : Option (Nat × Nat)) : State :=
  let s' := s.onMe (fun x =>
    { x with pend := x.pend ++ [⟨s.nextId, land, x.seq, d, mask, value, src, arrive, trap, x.st == .handler⟩] })
  { s' with nextId := s.nextId + 1 }

/-- An in-core result of latency lat. -/
def State.push (s : State) (lat : Nat) (d : Dest) (mask value : Vec) : State :=
  s.pushAt (s.t + lat) d mask value .core (some s.t) none

/-- A 64-bit result. -/
def State.push64 (s : State) (lat : Nat) (d : Dest) (v : W64) : State := s.push lat d (maskAt 0 64) (toVec v)

/-- The X result of a scalar instruction. -/
def State.pushX (s : State) (lat : Nat) (n : XReg) (v : W64) : State := s.push64 lat (s.me.xDest n.toNat) v

/-- NF set at the landing cycle, with the slot and lane that a NONFINITE names when the enable is set (R79, R113). -/
def State.pushNf (s : State) (lat : Nat) (nf nfte : Bool) (slot lane : Nat) : State :=
  if nf then s.pushAt (s.t + lat) (.csr 0x019) 1 1 .core (some s.t) (if nfte then some (slot, lane) else none) else s

/-! ## Counters (R264, R265) -/

/-- The numbers completed without a gap from v on. -/
def settle : Nat → Nat → List Nat → Nat × List Nat
  | 0, v, d => (v, d)
  | fuel + 1, v, d => if d.contains (v + 1) then settle fuel (v + 1) (d.filter (fun n => n != v + 1)) else (v, d)

/-- Complete a number: the value rises to the largest n whose numbers 1 to n have all completed (R265). -/
def Counter.complete (c : Counter) (n : Nat) : Counter :=
  let d := n :: c.done
  let r := settle d.length c.value d
  ⟨r.1, c.taken, r.2⟩

def Counter.take (c : Counter) : Counter := { c with taken := c.taken + 1 }

def Ctx.counter (x : Ctx) (i : Nat) : Counter := vget x.counters i ⟨0, 0, []⟩

def Ctx.onCounter (x : Ctx) (i : Nat) (f : Counter → Counter) : Ctx :=
  { x with counters := putAt x.counters i (f (x.counter i)) }

/-- The next number of a counter of the issuing context, taken at issue. -/
def State.takeNumber (s : State) (i : Nat) : Nat × State :=
  let n := (s.me.counter i).taken + 1
  (n, s.onMe (fun x => x.onCounter i Counter.take))

/-- Complete a number of a context's counter. -/
def State.complete (s : State) (k c i n : Nat) : State := s.onCtx k c (fun x => x.onCounter i (fun r => r.complete n))

/-- Ids of the counters (R46). -/
def ctrTM : Nat := 0
def ctrTC : Nat := 1
def ctrTF : Nat := 2
def ctrTA : Nat := 3
def ctrTG : Nat := 4
def ctrTH : Nat := 5
def ctrTS : Nat := 6
def ctrTQ : Nat := 7

/-- A wait register is satisfied (R89). -/
def Ctx.waitOk (x : Ctx) (i : Nat) : Bool :=
  decide ((vget x.regs.wt i 0).toNat ≤ (x.counter (vget x.regs.wc i 0).toNat).value)

/-! ## Completion traps (R285 to R288) -/

/-- The partition drains because of a double fault (R294, R344). -/
def State.doubleFault (s : State) (p : Nat) : State :=
  let s := s.onPart p (fun x => { x with pevent := x.pevent ||| 1 })
  s.addOp p (some (s.cyc p)) 0 0 (s.cyc p) (.drain 0 .none)

/-- A completion trap becomes pending on a context; one of a handler bundle that falls while traps are masked is a double
fault (R285, R288, R294). -/
def State.pendTrap (s : State) (k c : Nat) (tr : PendTrap) : State :=
  let x := s.ctx k c
  if tr.handler && x.st == .handler && x.masked then s.doubleFault (s.partOf k)
  else s.onCtx k c (fun x => { x with traps := x.traps ++ [tr] })

/-- Make a completion trap pending on a context: code, detail, slot, whether a handler bundle raised it, lane. -/
def State.raise (s : State) (k c code : Nat) (tinfo : W64) (slot : Nat) (handler : Bool) (lane : Nat := 0) : State :=
  let cy := s.cyc (s.partOf k)
  s.pendTrap k c ⟨code, tinfo, cy, 0, handler, slot, lane, none, none⟩

/-- NONFINITE (R79, R247): slot, lane, and for a Grove or copy cause what GRVSEQ and GRVNODE receive. -/
def State.raiseNonFinite (s : State) (k c slot lane : Nat) (handler : Bool) (grv : Option (W64 × BitVec 8)) : State :=
  let cy := s.cyc (s.partOf k)
  let order := (grv.map (fun g => g.1.toNat)).getD 0
  s.pendTrap k c ⟨0x86, 0, cy, order, handler, slot, lane, grv, none⟩

/-- SCHEDULE_OVERRUN with the stamp and the causes (R32). -/
def State.raiseOverrun (s : State) (k c cause : Nat) (handler : Bool) : State :=
  let cy := s.cyc (s.partOf k)
  let stamp := cy - ((s.ctx k c).sfc0.getD cy)
  s.pendTrap k c ⟨0x81, 0, cy, 0, handler, 15, 0, none, some (BitVec.ofNat 64 stamp, BitVec.ofNat 8 cause)⟩

/-- SCHEDULE_OVERRUN for an access that has missed its padded time (R181). -/
def State.raiseLate (s : State) (k c : Nat) (handler : Bool) : State := s.raiseOverrun k c 4 handler

/-- Whether trap a is taken before b: the lowest code, then the earlier event, then the lower TM number (R288). -/
def PendTrap.before (a b : PendTrap) : Bool :=
  if a.code ≠ b.code then decide (a.code < b.code)
  else if a.cycle ≠ b.cycle then decide (a.cycle < b.cycle)
  else decide (a.order < b.order)

/-- The trap that a boundary takes first, with the others. -/
def firstTrap : List PendTrap → Option (PendTrap × List PendTrap)
  | [] => none
  | a :: r =>
    match firstTrap r with
    | none => some (a, [])
    | some (b, q) => if b.before a then some (b, a :: q) else some (a, b :: q)

/-! ## Releases (R271, R272) -/

/-- An operation in flight that is a write of its context for DRAIN and FENCE (R271). -/
def Op.isWrite (o : Op) : Bool :=
  match o.kind with
  | .store .. | .atomic .. | .contrib .. => true
  | .push _ _ _ _ copy => copy.isNone
  | _ => false

/-- A write to host memory alone (R271): one that has a lane elsewhere performs all of it at its largest figure (R198). -/
def Op.isHost (o : Op) : Bool :=
  match o.kind with
  | .store bs .. => bs.all (fun b => homeOf b.pa == .host)
  | _ => false

/-- Wd: the latest cycle at which a write of the context performs; without the writes to host memory when noHost. -/
def State.wd (s : State) (k c : Nat) (noHost : Bool) : Nat :=
  maxOf (((s.part (s.partOf k)).ops.filter
    (fun o => o.core == k && o.ctx == c && o.isWrite && !(noHost && o.isHost))).map (fun o => o.due.getD 0))

/-- Ld: the latest cycle at which a value of the context's loads or atomics lands. -/
def State.ld (s : State) (k c : Nat) : Nat :=
  maxOf (((s.ctx k c).pend.filter (fun w => w.src != .core)).map (fun w => w.land))

/-- The flush or invalidation of a whole cluster cache: 16 + 4·Lc + λg (R271). -/
def State.flushCost (s : State) (k : Nat) : Nat :=
  16 + 4 * (8192 * (cacheWays (s.cluster (clusterOf k))).length) + figGddr (s.mult (s.partOf k))

/-- A FENCE.REL of a scope issued now, and every release that another operation carries: its completion cycle when every write
performs at its time, and the cycles of it that follow the last of its writes, which a write held up moves on (R65, R271,
R272). -/
def State.releaseAt (s : State) (k c scope : Nat) : (Nat × Nat) × State :=
  let t := s.cyc (s.partOf k)
  match scope with
  | 0 => ((t + 1, 0), s)
  | 1 | 2 => ((max (t + 1) (s.wd k c true), 0), s)
  | 3 =>
    let f := s.figure (s.partOf k) (s.flushCost k)
    ((max (t + 1) (s.wd k c true) + f.1, f.1), f.2)
  | _ =>
    let f := s.figure (s.partOf k) (s.flushCost k)
    ((max (t + 1) (s.wd k c false) + f.1, f.1), f.2)

/-- The cycles that a release still takes once its writes have performed. -/
def Op.releaseTail (o : Op) : Option Nat :=
  match o.kind with
  | .arrival _ _ _ _ tail => some tail
  | .submit _ _ _ released tail => if released then none else some tail
  | _ => none

/-- A release of the context issued at cycle t or later, of which a write has performed in cycle cy: it takes its cycles from then
on (R271, R272). -/
def Op.released (o : Op) (k c t cy : Nat) : Op :=
  match o.releaseTail with
  | some tail =>
    if o.core = k ∧ o.ctx = c ∧ t ≤ o.issued then { o with due := o.due.map (fun d => max d (cy + tail)) } else o
  | none => o

/-- The hold of a release, or of an acquire, whose last write has performed, or whose last value has landed, in cycle cy (R271). -/
def SyncHold.after (h : SyncHold) (needs cy : Nat) : SyncHold :=
  if h.needs = needs then { h with till := max h.till (cy + h.tail) } else h

/-- A write that was held at a bank or a unit has performed: the releases of its context that cover it take their cycles from now on
(R271, R272). -/
def State.heldWriteDone (s : State) (p : Nat) (o : Op) : State :=
  let cy := s.cyc p
  (s.onPart p (fun q => { q with ops := q.ops.map (fun r => r.released o.core o.ctx o.issued cy) })).onCtx o.core o.ctx (fun x =>
    { x with hold := x.hold.map (fun h => h.after 1 cy)
             taskHold := x.taskHold.map (fun h => if o.handler then h else h.after 1 cy) })

/-! ## Writes at the homes (R187) -/

/-- The bits of a write that later ones at its place leave to it. -/
def PByte.under (w : PByte) (bs : List PByte) : PByte :=
  { w with mask := bs.foldl (fun m b => if b.pa = w.pa then m &&& ~~~b.mask else m) w.mask }

/-- The writes of an update rule that has read its lines, under bytes that perform after that (R187). -/
def Op.under (o : Op) (bs : List PByte) : Op :=
  match o.kind with
  | .update arm ws n => { o with kind := .update arm (ws.map (fun w => w.under bs)) n }
  | _ => o

/-! ## Loads in flight that a write meets (R209, R278, R387; log 5) -/

/-- A local atomic that has not performed. -/
def Op.isLocalAtomic (o : Op) : Bool :=
  match o.kind with
  | .atomic _ _ pa .. => isOwnSram (clusterOf o.core) pa
  | _ => false

/-- An atomic acts on the byte at a physical address. -/
def Op.actsOn (o : Op) (pa : Nat) : Bool :=
  match o.kind with
  | .atomic _ n a .. => decide (a ≤ pa ∧ pa < a + n)
  | _ => false

/-- What a write of the operation that is still to perform leaves of a byte that something else writes to its place before. -/
def Op.shades (o : Op) (b : PByte) : PByte :=
  match o.kind with
  | .store bs .. => b.under bs
  | _ => if o.actsOn b.pa then { b with mask := 0 } else b

/-- A byte that something else writes, as a context comes upon it: in a bank of its own cluster its own writes issued before a cycle
and still pending stand over it (R209). -/
def State.shaded (s : State) (p k c before : Nat) (b : PByte) : PByte :=
  if isOwnSram (clusterOf k) b.pa then
    ((s.part p).ops.filter (fun o => o.core == k && o.ctx == c && decide (o.issued < before))).foldl (fun b o => o.shades b) b
  else b

/-- A local write of a context itself, which stands in the order of its accesses (R209). -/
def Writer.ownLocal (w : Writer) (k c pa : Nat) : Bool :=
  w.core == k && w.ctx == c && (w.isStore || w.whole) && isOwnSram (clusterOf k) pa

/-- The choice made of number n for byte i of a write, by the number of the operation that may meet it: the bytes of an atomic are
taken together (R207). -/
def meetsByte (n id : Nat) (w : Option Writer) (i : Nat) : Bool :=
  Config.raceByte n (Nat.pair id (if w.any (fun x => x.whole) then 0 else i))

/-- The bytes of a write, each with its number. -/
def numbered (bs : List PByte) : List (PByte × Nat) := bs.zip (List.range bs.length)

/-- The byte of a write within what a load has read. -/
def Reading.meets (r : Reading) (b : PByte) : Bool := !r.count && decide (r.pa ≤ b.pa ∧ b.pa < r.pa + r.bytes)

/-- A load takes a byte as the write leaves it. -/
def Reading.take (r : Reading) (b : PByte) : Reading :=
  let i := b.pa - r.pa
  let old : Byte := BitVec.ofNat 8 (bitsOf r.raw (8 * i) 8)
  { r with raw := r.raw - old.toNat * 256 ^ i + (mergeBits old b.val b.mask).toNat * 256 ^ i }

/-- The value of a load's destination from its readings (R201). -/
def Reading.value (r : Reading) : Nat :=
  (if r.sx then unsignedOf 64 (signed (8 * r.bytes) r.raw) else r.raw) * 2 ^ r.pos

def valueOf (rs : List Reading) : Vec := BitVec.ofNat 1024 ((rs.map Reading.value).foldl (· + ·) 0)

/-- The bits that they give. -/
def readMask (rs : List Reading) : Vec :=
  rs.foldl (fun m r => m ||| maskAt r.pos (if r.bits = 64 then 1024 else r.bits)) 0

/-- Whether a write at the homes, or in the cache of a cluster, performs at the place that serves a cluster's read of an address:
a line that was missing at the read's issue is read at its home (R273). -/
def State.servedAt (s : State) (cl : Nat) (cache : Option Nat) (miss : Bool) (pa : Nat) : Bool :=
  match cache with
  | some c => c == cl && !miss
  | none => miss || (findLine (s.cluster cl) pa).isNone

/-- The loads of a bundle come before its writes (R209, R278). -/
def Writer.sameBundle (w : Writer) (o : Op) : Bool := w.core == o.core && w.ctx == o.ctx && w.issued == o.issued

/-- What a lane of a load in flight of a partition makes of bytes that have performed: it may have been served before each of them or
after, a free choice of number n (R387); it meets no write of its own bundle, and no local write of its own context but those that it
had in its order at issue (R209). -/
def Reading.after (r : Reading) (s : State) (p : Nat) (o : Op) (w : Option Writer) (cache : Option Nat) (n : Nat) (bs : List PByte) :
    Reading :=
  (numbered bs).foldl (fun r e =>
    if r.meets e.1 && s.servedAt (clusterOf o.core) cache r.miss e.1.pa
        && !w.any (fun x => x.sameBundle o || x.ownLocal o.core o.ctx e.1.pa) && meetsByte n o.id w e.2
    then r.take (s.shaded p o.core o.ctx o.issued e.1) else r) r

/-- A lane whose line has changed in its cluster's cache, or has left it, puts nothing into it any more (R274, R276). -/
def Reading.unfill (r : Reading) (changed : Reading → Bool) : Reading := { r with fill := r.fill && !changed r }

/-- A load in flight of a partition after bytes have performed. -/
def Op.meets (o : Op) (s : State) (p : Nat) (w : Option Writer) (cache : Option Nat) (n : Nat) (bs : List PByte) : Op :=
  match o.kind with
  | .value wid ta rs => { o with kind := .value wid ta (rs.map (fun r =>
      (r.after s p o w cache n bs).unfill (fun r => cache == some (clusterOf o.core) && bs.any r.meets))) }
  | _ => o

/-- Some load in flight of a partition has read one of the bytes. -/
def Partition.readsAny (q : Partition) (bs : List PByte) : Bool :=
  q.ops.any (fun o => match o.kind with
    | .value _ _ rs => rs.any (fun r => bs.any r.meets)
    | _ => false)

/-! ## Copy commands at work that a write meets (R219, R387; log 5) -/

/-- The copy commands of a partition that are at work, started and with their cycle still to come, each with its core. -/
def State.copiesAtWork (s : State) (p : Nat) : List (Nat × CopyCmd) :=
  (s.cores.filter (fun e => s.partOf e.1 == p)).flatMap (fun e =>
    (e.2.copies.filter (fun c => c.started.isSome && c.due.all (fun d => decide (s.cyc p < d)) && !c.performed)).map (fun c => (e.1, c)))

/-- A byte that a command has read, and one that lies where it will write. -/
def CopyCmd.reads (c : CopyCmd) (pa : Nat) : Bool := c.view.bytes.any (fun b => b.pa == pa)
def CopyCmd.lands (c : CopyCmd) (pa : Nat) : Bool := c.view.spans.any (fun e => decide (e.1 ≤ pa ∧ pa < e.1 + e.2))

/-- What a command at work makes of bytes that have performed: of a source byte it takes the old value or the new one, and its own
write stands over the byte or lies under it, each by a free choice of number n. Its context's earlier local writes it has in its
order (R209, R219). -/
def CopyCmd.meets (c : CopyCmd) (s : State) (p k : Nat) (w : Option Writer) (cache : Option Nat) (n : Nat) (bs : List PByte) : List Met :=
  let cl := clusterOf k
  (numbered bs).flatMap (fun e =>
    let b := e.1
    let late := !w.any (fun x => x.ownLocal k c.ctx b.pa && decide (x.issued < c.accepted))
    let served := s.servedAt cl cache (cache.isNone && c.view.fetched.contains (lineOf b.pa)) b.pa
    (if late && c.reads b.pa && served && meetsByte n (Nat.pair c.id 0) w e.2 then [⟨c.id, 0, s.shaded p k c.ctx c.accepted b⟩] else [])
      ++ (if late && c.lands b.pa && cache.all (fun x => x == cl) && meetsByte n (Nat.pair c.id 1) w e.2 then
        [⟨c.id, if cache.isNone then 1 else 2, b⟩] else []))

/-- Some command at work reads, or will write, one of the bytes. -/
def State.copiesMeet (s : State) (p : Nat) (bs : List PByte) : Bool :=
  (s.copiesAtWork p).any (fun e => bs.any (fun b => e.2.reads b.pa || e.2.lands b.pa))

/-- The loads and the commands of one partition that are on their way come upon bytes. -/
def State.offer (s : State) (w : Option Writer) (cache : Option Nat) (bs : List PByte) (p : Nat) : State :=
  if (s.part p).readsAny bs || s.copiesMeet p bs then
    let n := s.pick p
    let met := (s.copiesAtWork p).flatMap (fun e => e.2.meets s p e.1 w cache n.1 bs)
    n.2.onPart p (fun q => { q with ops := q.ops.map (fun o => o.meets s p w cache n.1 bs), met := q.met ++ met })
  else s

/-- Bytes that an engine has settled to write from now on: what is on its way may come upon them before they all perform (R219,
R387). -/
def State.offerAll (s : State) (cache : Option Nat) (bs : List PByte) : State :=
  if bs.isEmpty then s else (s.parts.map (·.1)).foldl (fun s p => s.offer none cache bs p) s

/-- A noted byte that something else than a store of its context has written since (R269). -/
def Undrained.pass (u : Undrained) (s : State) (w : Option Writer) (cache : Option Nat) (bs : List PByte) : Undrained :=
  if !(w.any (fun x => x.isStore && x.core == u.core && x.ctx == u.ctx))
      && bs.any (fun b => b.pa == u.pa && s.servedAt (clusterOf u.core) cache false b.pa) then { u with passed := true }
  else u

/-- What the loads in flight, the commands at work and the notes of undrained bytes of one partition make of bytes that have
performed. -/
def State.noticePart (s : State) (w : Option Writer) (cache : Option Nat) (bs : List PByte) (p : Nat) : State :=
  if (s.part p).undrained.isEmpty then s.offer w cache bs p
  else (s.offer w cache bs p).onPart p (fun q => { q with undrained := q.undrained.map (fun u => u.pass s w cache bs) })

/-- Bytes have performed at their homes, or in the cache of a cluster. -/
def State.notice (s : State) (w : Option Writer) (cache : Option Nat) (bs : List PByte) : State :=
  if bs.isEmpty then s else (s.parts.map (·.1)).foldl (fun s p => s.noticePart w cache bs p) s

/-- Bytes that have performed at their homes: they stand over the results of the rules that read their lines before (R187), and
the loads in flight meet them (R387). -/
def State.stand (s : State) (bs : List PByte) (w : Option Writer := none) : State :=
  let s := s.notice w none bs
  { s with parts := s.parts.map (fun e => (e.1, { e.2 with ops := e.2.ops.map (fun o => o.under bs) })) }

/-- Bytes perform at their homes. -/
def State.writeHomes (s : State) (bs : List PByte) (w : Option Writer := none) : State :=
  { s.stand bs w with mem := memWrite s.mem bs }

/-! ## The slots of a channel (R179, R181; log 29) -/

/-- The channel of a GDDR address (R178). -/
def channelOf (pa : Nat) : Nat := bitsOf pa 8 5

/-- The bursts that a partition's slots of one channel serve in n cycles: four for each of its slots in each whole frame of 160 ns
(R179, R180). -/
def Partition.slotBursts (q : Partition) (n : Nat) : Nat :=
  4 * ((List.range 64).filter (fun i => q.cfg.slots.getLsbD i)).length * (n / (16 * max q.clock.mult 1))

/-- The bursts of one channel that are to be served from cycle cy on exceed what its slots serve by some cycle that is not before
d (R179). -/
def Partition.slotsExceeded (q : Partition) (cy d : Nat) (ds : List Nat) : Bool :=
  ds.any (fun e => decide (d ≤ e ∧ q.slotBursts (e - cy) < (ds.filter (fun x => decide (x ≤ e))).length))

/-- DET: an access takes one burst of its channel for each line of GDDR, to be served by cycle d; by how many cycles it misses that,
0 where the slots of every channel hold it (R179, R181; log 29). -/
def State.takeBursts (s : State) (p d : Nat) (lines : List Nat) : Nat × State :=
  if !s.isDet p || lines.isEmpty then (0, s)
  else
    let cy := s.cyc p
    let use := ((s.part p).slotUse.filter (fun e => decide (cy < e.2))) ++ lines.map (fun a => (channelOf a, d))
    let s1 := s.onPart p (fun q => { q with slotUse := use })
    if ((lines.map channelOf).eraseDups).any (fun c =>
        (s.part p).slotsExceeded cy d ((use.filter (fun e => e.1 == c)).map (·.2))) then
      let n := s1.pick p
      (1 + Config.slotDelay n.1, n.2)
    else (0, s1)

/-- A GDDR line of a range with RES 1 of a partition, which takes no burst of its channel (R169, R181). -/
def Partition.keptLine (q : Partition) (pa : Nat) : Bool :=
  q.ranges.any (fun e => e.res == 1 && decide (e.pbase.toNat ≤ pa ∧ pa < e.pbase.toNat + e.len.toNat))

/-- DET: the bursts, one for each line, of accesses that no bundle waits for: they take their channels' slots by the GDDR figure from
now, and one that is served late delays nothing but the accesses that share its channel (R179, R181; DESIGN CHOICE, log 29). -/
def State.useBursts (s : State) (p : Nat) (lines : List Nat) : State :=
  if !s.isDet p || lines.isEmpty then s
  else s.onPart p (fun q => { q with slotUse := q.slotUse ++ lines.map (fun a => (channelOf a, s.cyc p + figGddr (s.mult p))) })

/-- The bursts of the write-backs of lines of a cluster (R173, R179). -/
def State.backBursts (s : State) (c : Nat) (lines : List Nat) : State :=
  match s.partOfCluster c with
  | none => s
  | some p => s.useBursts p (lines.filter (fun a => homeOf a == .gddr && !(s.part p).keptLine a))

/-- What a cache has written back between two of its states: the dirty bytes of the lines that it holds dirty no more. -/
def writtenBack (old new : Cluster) : List PByte :=
  (old.lines.filter (fun l => l.dirty != 0 && !new.lines.any (fun n => n.addr == l.addr && n.dirty != 0))).flatMap dirtyBytes

/-- A load in flight of a cluster once lines have left its cache. -/
def Op.unfill (o : Op) (cl : Nat) (gone : List Nat) : Op :=
  match o.kind with
  | .value wid ta rs =>
    if clusterOf o.core = cl then { o with kind := .value wid ta (rs.map (fun r => r.unfill (fun r => gone.contains (lineOf r.pa)))) } else o
  | _ => o

/-- The lines that have left a cache between two of its states. -/
def linesGone (old new : Cluster) : List Nat :=
  (old.lines.filter (fun l => !new.lines.any (fun n => n.addr == l.addr))).map (fun l => l.addr)

/-- The cache of a cluster in its new state; the loads in flight put nothing into lines that have left it (R276). -/
def State.swapCache (s : State) (c : Nat) (new : Cluster) : State :=
  let gone := linesGone (s.cluster c) new
  (if gone.isEmpty then s
   else { s with parts := s.parts.map (fun e => (e.1, { e.2 with ops := e.2.ops.map (fun o => o.unfill c gone) })) }).setCluster c new

/-- Memory and a cluster's cache after accesses through the cache; what it has written back has performed at its home. -/
def State.throughCache (s : State) (c : Nat) (r : List Host.Cell × Cluster) : State :=
  let bs := writtenBack (s.cluster c) r.2
  { (s.backBursts c ((bs.map (fun (b : PByte) => lineOf b.pa)).eraseDups)).stand bs with mem := r.1 }.swapCache c r.2

/-- Write back, and with inval drop, the lines of a cluster's cache that satisfy p. -/
def State.flushCluster (s : State) (c : Nat) (p : Line → Bool) (inval : Bool) : State :=
  s.throughCache c (flushLines s.mem (s.cluster c) p inval)

/-! ## Runs, launches, the end of a task -/

/-- A context gives up the issue slot (R16). -/
def State.endRun (s : State) (k c : Nat) : State :=
  s.onCore k (fun r => if r.run = some c then { r with run := none, lastYield := c } else r)

/-- Change a launch of a partition. -/
def State.onLaunch (s : State) (p n : Nat) (f : Launch → Launch) : State :=
  s.onPart p (fun x => { x with launches := x.launches.map (fun l => if l.number = n then f l else l) })

/-- A launch gets a status other than OK at cycle cy, and binds no further task. The first event stands; in one cycle a trap
stands before a missed start, and of two traps that of the lower linear index (R322). -/
def Launch.fail (l : Launch) (cy status : Nat) (task cause info epc : W64) : Launch :=
  if l.status = 0 ∨ (l.failAt = cy ∧ status = 1 ∧ (l.status = 2 ∨ (l.status = 1 ∧ task.toNat < l.failTask.toNat))) then
    { l with status := status, failAt := cy, failTask := task, failCause := cause, failInfo := info, failEpc := epc, stopped := true }
  else { l with stopped := true }

/-- The implicit LEAVE of every group at package scope (R56, R63). -/
def State.leaveAll (s : State) (k c : Nat) : State :=
  (s.ctx k c).groups.foldl (fun s g =>
    let r := s.releaseAt k c 3
    r.2.addOp (s.partOf k) (some r.1.1) k c (s.cyc (s.partOf k)) (.arrival g true 3 0 r.1.2)) s

/-- The task's signal, counted after its drain part (R280). -/
def State.signalTask (s : State) (k c : Nat) : State :=
  let x := s.ctx k c
  if x.task.signalled then s
  else
    let p := s.partOf k
    let t := s.cyc p
    let s := s.setCtx k c { x with task := { x.task with signalled := true } }
    s.addOp p (some (max (t + 1) (s.wd k c false))) k c t (.signal x.task.launch x.task.index)

/-- The context passes to CLOSING: its loops are discarded, its groups left, its signal made; a FLUSH, INVAL or FENCE of its last
bundle goes on to its completion (R56, R271). -/
def State.toClosing (s : State) (k c : Nat) : State :=
  let s := (s.leaveAll k c).signalTask k c
  (s.onCtx k c (fun x => { x with st := .closing, levels := [] })).endRun k c

/-! ## Taking a trap and returning (R285 to R297) -/

/-- TCAUSE (R287). -/
def tcauseOf (cl : Bool) (lane slot code : Nat) : W64 :=
  BitVec.ofNat 64 (b2n cl * 2 ^ 63 + (lane % 32) * 2 ^ 12 + (slot % 16) * 2 ^ 8 + code % 256)

/-- A write that changes no bit and only carries the cycle of a NONFINITE. -/
def Write.onlyTrap (w : Write) : Bool := w.mask == 0 && w.trap.isSome

/-- What remains in flight of writes that become entries: a NONFINITE falls due at its operation's own landing cycle, at
which its entry changes nothing (R79, R285, R288, R290; log 59). -/
def trapsInFlight (ws : List Write) : List Write :=
  (ws.filter (fun w => w.trap.isSome)).map (fun w => { w with mask := 0 })

/-- The entries that the writes due at cycle c or later become, with those of an earlier trap that still await their replay, in
order of d and then in program order (R290, R291). -/
def snapEntries (x : Ctx) (c : Nat) : List SnapEntry :=
  let es := (x.pend.filter (fun w => !w.onlyTrap)).map (fun w =>
    (⟨w.dest, w.mask, w.value, if w.src = .ldc then 0 else w.land - c, w.arrive, w.id, w.src == .ldc, w.src, w.seq⟩ : SnapEntry))
  sortBy (fun e => e.d) (sortBy (fun e => e.seq) (x.replay.getD [] ++ es))

/-- The destinations that entries with PD keep pending (R290, R292). -/
def pendingOf (es : List SnapEntry) : List Dest := (es.filter (fun e => e.pd)).map (fun e => e.dest)

/-- The registers that taking a trap writes. -/
def Csrs.trapped (r : Csrs) (e : TrapEntry) : Csrs :=
  let r := { r with tcause := e.tcause, tinfo := e.tinfo, epc := e.epc }
  let r := match e.grv with
    | some g => { r with grvseq := g.1, grvnode := g.2 }
    | none => r
  match e.ov with
  | some o => { r with ovstamp := o.1, ovcause := o.2 }
  | none => r

/-- The context gains the snapshot buffer, its writes in flight become entries, and it enters HANDLER (R290, R293). -/
def State.capture (s : State) (k c : Nat) (e : TrapEntry) (pc : W64) : State :=
  let cy := s.cyc (s.partOf k)
  let x := s.ctx k c
  let s := s.setCtx k c { x with
    st := .handler, cl := x.cl || x.st == .closing, csr := x.csr.trapped e, pend := trapsInFlight x.pend, replay := none, masked := true, waitSnap := none,
    pc := pc, lastIssue := none, issueAt := cy + 8, group := ⟨0, []⟩, pending := x.pending ++ pendingOf (snapEntries x cy),
    taskHold := if x.st = .handler then x.taskHold else x.hold, hold := if x.st = .handler then x.hold else none }
  (s.onCore k (fun r => { r with snap := some ⟨c, snapEntries x cy⟩ })).endRun k c

/-- A task without a handler: the context closes and its launch fails as TRAP (R296); a task that has left BOUND by TEND has ended
by TEND all the same (R360). -/
def State.trapNoHandler (s : State) (k c : Nat) (e : TrapEntry) : State :=
  let x := s.ctx k c
  let s := s.setCtx k c { x with csr := x.csr.trapped e, closeFailed := x.closeFailed || x.st != .closing, waitSnap := none }
  let s := s.onLaunch (s.partOf k) x.task.launch (fun l => l.fail (s.cyc (s.partOf k)) 1 x.task.taskId e.tcause e.tinfo e.epc)
  if x.st = .closing then s else s.toClosing k c

/-- Taking an exception, in one place: the context's run ends, the snapshot buffer is taken and the context enters its
handler; without a handler it closes; while another context holds the buffer it waits in THR, and in DET the partition
drains (R285, R289, R290, R293, R294, R296, R297). -/
def State.takeTrap (s : State) (k c : Nat) (e : TrapEntry) : State :=
  let x := s.ctx k c
  match x.task.handlerPc with
  | none => s.trapNoHandler k c e
  | some pc =>
    match (s.core k).snap with
    | none => s.capture k c e pc
    | some b =>
      if b.holder = c then s.capture k c e pc
      else if s.isDet (s.partOf k) then s.doubleFault (s.partOf k)
      else (s.setCtx k c { x with waitSnap := some e }).endRun k c

/-- A completion trap taken at a boundary (R285, R288); EPC is 0 where the context is CLOSING, and a handler's re-entry names its
own bundle (R294, R297). -/
def State.takePending (s : State) (k c : Nat) (tr : PendTrap) (rest : List PendTrap) : State :=
  let x := s.ctx k c
  let closing := x.st == .closing || x.cl
  let epc := if x.st = .closing then 0 else x.pc
  let s := s.setCtx k c { x with traps := rest }
  s.takeTrap k c ⟨tcauseOf closing tr.lane tr.slot tr.code, tr.tinfo, epc, tr.grv, tr.ov⟩

/-- An issue fault of the issuing bundle (R285, R287): masked, it is a double fault (R294). -/
def State.takeFault (s : State) (k c : Nat) (f : IssueFault) (epc : W64) : State :=
  let x := s.ctx k c
  if x.st = .handler ∧ x.masked then s.doubleFault (s.partOf k)
  else s.takeTrap k c ⟨tcauseOf x.cl f.lane f.slot f.code, f.tinfo, epc, none, none⟩

/-- Entries put in flight again, each at r + d, at their own places in program order (R28, R291). -/
def replayWrites (es : List SnapEntry) (r : Nat) : List Write :=
  es.map (fun e => ⟨e.id, r + e.d, e.seq, e.dest, e.mask, e.value, e.src, e.arrive, none, false⟩)

/-- Return from the handler (R84, R291, R295, R297): the buffer is released, traps are unmasked, the entries wait for the
bundle at EPC; with CL set the context returns to CLOSING, its run ends and the entries land from h + 8 on. The bundle at EPC
may issue from h + 8 on, whatever its GAP, and in DET is due then (R29, R38, R295; DEDUCED, log 33). No destination stays pending for
an entry, also where SNAPREL has given the entries up and none is replayed: R290 keeps such a destination pending until its replay, and
R295 replays nothing there (DESIGN CHOICE, log 71). -/
def State.returnFromTrap (s : State) (k c : Nat) : State :=
  let x := s.ctx k c
  let h := s.cyc (s.partOf k)
  let held := match (s.core k).snap with
    | some b => if b.holder = c then some b.entries else none
    | none => none
  let s := match held with
    | some _ => s.onCore k (fun r => { r with snap := none })
    | none => s
  if x.cl then
    (s.onCtx k c (fun x => { x with st := .closing, cl := false, masked := false, hold := x.taskHold, taskHold := none,
                                    pending := [], pend := x.pend ++ replayWrites (held.getD []) (h + 8) })).endRun k c
  else
    s.onCtx k c (fun x => { x with st := .bound, masked := false, pc := x.csr.epc, lastIssue := none, issueAt := h + 8,
                                   group := ⟨0, []⟩, replay := held, pending := [], hold := x.taskHold,
                                   taskHold := none })

/-- A value from memory reaches the write, the snapshot entry or the entry awaiting replay that waits for it, at cycle cy:
the bits of mask take v; an acquire that waits for the context's values takes its cycles from there on (R199, R200, R271,
R290). -/
def State.fillValue (s : State) (k c id : Nat) (v mask : Vec) (cy : Nat) : State :=
  let fe := fun (e : SnapEntry) => if e.id = id then { e with value := mergeBits e.value v mask, arrive := some cy } else e
  let mine := fun (x : Ctx) => x.pend.any (fun w => w.id == id)
  let ofHandler := fun (x : Ctx) => x.pend.any (fun w => w.id == id && w.handler)
  let s := s.onCtx k c (fun x => { x with
    pend := x.pend.map (fun w =>
      if w.id = id then { w with value := mergeBits w.value v mask, arrive := some cy, land := max w.land cy } else w)
    replay := x.replay.map (fun es => es.map fe)
    hold := x.hold.map (fun h => if x.st = .handler ∧ !mine x then h else h.after 2 cy)
    taskHold := x.taskHold.map (fun h => if ofHandler x then h else h.after 2 cy) })
  s.onCore k (fun r => { r with snap := r.snap.map (fun b =>
    if b.holder = c then { b with entries := b.entries.map fe } else b) })

end Sys2Proof.Machine
end

