-- ==== Sys2Proof/Machine/Operands.lean ====
section
/-! DEFINITION. Operand forms: the guard, the registers that a slot names under windows, rotation and handler mode, and
for every slot operation the registers it reads and writes (R21 to R28, R31, R35, R59, R86, R92, R143 to R145, R293). -/

namespace Sys2Proof.Machine

/-! ## Guards (R92) -/

/-- The guard of a truth table in lane i, over the guard triple as read at issue. -/
def guardBit (g : Vector W32 3) (tt : TT) (i : Nat) : Bool :=
  tt.getLsbD (4 * b2n ((vget g 0 0).getLsbD i) + 2 * b2n ((vget g 1 0).getLsbD i) + b2n ((vget g 2 0).getLsbD i))

/-- The guard of the issuing bundle in lane i. -/
def State.on (s : State) (tt : TT) (i : Nat) : Bool := guardBit s.me.guard tt i

/-- The guard where lane 0 decides. -/
def State.lane0 (s : State) (tt : TT) : Bool := s.on tt 0

/-- Whether a per-lane form has a lane whose guard holds. -/
def State.anyLane (s : State) (tt : TT) : Bool := (List.range 32).any (s.on tt)

/-- The lanes whose guard holds. -/
def State.lanesOn (s : State) (tt : TT) : List Nat := (List.range 32).filter (s.on tt)

/-- The bits of the lanes whose guard holds. -/
def State.guardMask (s : State) (tt : TT) : Vec := lanesMask (s.on tt)

/-! ## Windows and rotation (R59, R143 to R145) -/

/-- The level that governs rotation: the innermost open one whose RSZ is above 0 (R59). -/
def Ctx.rotation (x : Ctx) : Option Level := x.levels.find? (fun l => l.rsz != 0)

/-- A file-relative register number renamed to its window position (R59). -/
def Ctx.rename (x : Ctx) (m : Nat) : Nat :=
  match x.rotation with
  | none => m
  | some l =>
    let n := 8 * l.rsz.toNat
    if m < n then (m + l.rrb.toNat) % n else m

/-- The register that a V-slot number names (R145). -/
def Ctx.vreg (x : Ctx) (v : VReg) : Dest :=
  if v.toNat < x.regs.va.size then .va (x.rename v.toNat) else .vb (x.rename (v.toNat - x.regs.va.size))

/-- A V-slot number beyond both windows (R145). -/
def Ctx.vregBad (x : Ctx) (v : VReg) : Bool := decide (x.regs.va.size + x.regs.vb.size ≤ v.toNat)

/-- The staging word of a number under file code 7 (R45). -/
def stagingDest (n : Nat) : Dest :=
  if n < 16 then .ms n
  else if n < 32 then .ds (n - 16)
  else if n < 48 then (if n % 2 = 0 then .wt ((n - 32) / 2) else .wc ((n - 32) / 2))
  else if n < 64 then .sc (n - 48)
  else .df ((n - 64) / 8) ((n - 64) % 8)

/-- The register that an X-slot descriptor names (R23, R44, R87). -/
def Ctx.fileReg (x : Ctx) (f : BitVec 3) (r : BitVec 10) : Dest :=
  match f.toNat with
  | 0 => x.xDest r.toNat
  | 1 => .va (x.rename r.toNat)
  | 2 => .vb (x.rename r.toNat)
  | 3 => .lv r.toNat
  | 4 => .qv r.toNat
  | 5 => .la r.toNat
  | 6 => .qa r.toNat
  | _ => stagingDest r.toNat

/-- A descriptor's register beyond its window (R25, R44). -/
def Ctx.fileBad (x : Ctx) (f : BitVec 3) (r : BitVec 10) : Bool :=
  match f.toNat with
  | 1 => decide (x.regs.va.size ≤ r.toNat)
  | 2 => decide (x.regs.vb.size ≤ r.toNat)
  | 3 => decide (x.regs.lv.size ≤ r.toNat)
  | 4 => decide (x.regs.qv.size ≤ r.toNat)
  | _ => false

/-! ## The registers of an operation -/

/-- The registers that an operation reads, those it names as destinations with the latency of their writes, those it
writes without naming them, and the numbers beyond the windows, as encoded (R25, R28, R31, R35). -/
structure RegUse where
  reads : List Dest
  writes : List (Dest × Nat)
  also : List (Dest × Nat)
  bad : List Nat
  deriving DecidableEq, Repr

def RegUse.empty : RegUse := ⟨[], [], [], []⟩

/-- An S-slot operation over X registers. -/
def useX (x : Ctx) (lat : Nat) (ds ss : List XReg) : RegUse :=
  ⟨ss.map (fun n => x.xDest n.toNat), ds.map (fun n => (x.xDest n.toNat, lat)), [], []⟩

/-- Reads of X registers with writes of predicates at latency 2 (R76, R95). -/
def useXP (x : Ctx) (ds : List PReg) (ss : List XReg) (ps : List PReg) : RegUse :=
  ⟨ss.map (fun n => x.xDest n.toNat) ++ ps.map (fun n => .p n.toNat), ds.map (fun n => (.p n.toNat, 2)), [], []⟩

/-- A V-slot operation over vector registers, with further registers that it reads. -/
def useV (x : Ctx) (lat : Nat) (ds ss : List VReg) (more : List Dest) : RegUse :=
  ⟨ss.map x.vreg ++ more, ds.map (fun v => (x.vreg v, lat)), [], ((ds ++ ss).filter x.vregBad).map (fun v => v.toNat)⟩

/-- A V-slot operation that writes predicates at latency 2. -/
def useVP (x : Ctx) (ds : List PReg) (ss : List VReg) (ps : List PReg) : RegUse :=
  ⟨ss.map x.vreg ++ ps.map (fun n => .p n.toNat), ds.map (fun n => (.p n.toNat, 2)), [],
    (ss.filter x.vregBad).map (fun v => v.toNat)⟩

/-- The words of a frame. -/
def frameDests (f : Nat) : List Dest := (List.range 7).map (fun k => .df f k)

/-- The words of a frame that a vector operation reads: SEED, TAG and N0 (R128). -/
def seedDests (f : Nat) : List Dest := [.df f 0, .df f 1, .df f 4]

/-- The SC word of a form with scale enable. -/
def scDests (se : Bool) (k : Nat) : List Dest := if se then [.sc k] else []

/-- One copy descriptor: source, destination, numbers beyond the windows. -/
def useCopy (x : Ctx) (c : CopyDesc) : RegUse :=
  if c.isEmpty then RegUse.empty
  else ⟨[x.fileReg c.sf c.sr], [(x.fileReg c.df c.dr, 2)], [],
    (if x.fileBad c.sf c.sr then [c.sr.toNat] else []) ++ (if x.fileBad c.df c.dr then [c.dr.toNat] else [])⟩

def RegUse.join (a b : RegUse) : RegUse :=
  ⟨a.reads ++ b.reads, a.writes ++ b.writes, a.also ++ b.also, a.bad ++ b.bad⟩

/-- The stage predicates that a LOOP with PRT sets at t + 1 (R57). -/
def useLoop (x : Ctx) (ss : List XReg) (prt : Bool) : RegUse :=
  ⟨ss.map (fun r => x.xDest r.toNat), [], if prt then (List.range 8).map (fun j => (.p (8 + j), 1)) else [], []⟩

end Sys2Proof.Machine
end

