-- ==== Sys2Proof/Machine/Flags.lean ====
section
/-! DEFINITION. The flag and the format of an operation: FLAGS.NF with its trap (R79, R113), the FMT that stands at issue
(R81, R116, R118), the subnormal rule (R33, R114) and the writes of a compare (R76, R93). -/

namespace Sys2Proof.Machine

/-- FMT as it stands at issue (R81, R118). -/
def State.fmt (s : State) : W32 := s.me.csr.fmt

/-- Subnormals flush in exposed mode (R33, R114). -/
def State.flushes (s : State) : Bool := !s.me.il

/-- The rounding mode of an operation without a coordinate: FMT's mode or the one of its RM field, SR as RNE (R78, R109,
R110, R150). -/
def State.rm (s : State) (rm : Nat) : RM :=
  if rm = 0 then (fmtRm s.fmt).noSr else (rmOfCode rm).noSr

/-- The first lane of a list in which a result sets NF (R287). -/
def firstNf (ls : List Nat) (f : Nat → Bool) : Option Nat := ls.find? f

/-- NF of a scalar result (R79). -/
def State.nfScalar (s : State) (lat : Nat) (nf : Bool) : State := s.pushNf lat nf (fmtNfte s.fmt) 1 0

/-- NF of a vector form: set when a lane that is written sets it; its NONFINITE names the lowest such lane (R150, R287). -/
def State.nfLanes (s : State) (lat slot : Nat) (ls : List Nat) (f : Nat → Bool) (nfte : Bool) : State :=
  match firstNf ls f with
  | some i => s.pushNf lat true nfte slot i
  | none => s

/-- What a compare writes in one lane of its pair: none for no write (R76, R93). -/
def pairWrite (type : Nat) (g c : Bool) : Option (Bool × Bool) :=
  match type with
  | 0 => if g then some (c, !c) else none
  | 1 => if g then some (c, !c) else some (false, false)
  | 2 => if g && !c then some (false, false) else none
  | _ => if g && c then some (true, true) else none

/-- The two predicate writes of a compare, lane by lane, at latency 2 (R93). -/
def State.pushPair (s : State) (pd0 pd1 : PReg) (w : Nat → Option (Bool × Bool)) : State :=
  let m := predOf (fun i => (w i).isSome)
  if m = 0 then s
  else
    let v0 := predOf (fun i => ((w i).map (·.1)).getD false)
    let v1 := predOf (fun i => ((w i).map (·.2)).getD false)
    (s.push 2 (.p pd0.toNat) (toVec m) (toVec v0)).push 2 (.p pd1.toNat) (toVec m) (toVec v1)

/-- An integer condition of R46. -/
def intCond {n : Nat} (cond : Nat) (a b : BitVec n) : Bool :=
  match cond with
  | 0 => a == b
  | 1 => a != b
  | 2 => a.slt b
  | 3 => a.sle b
  | 4 => b.slt a
  | 5 => b.sle a
  | 6 => a.ult b
  | 7 => a.ule b
  | 8 => b.ult a
  | 9 => b.ule a
  | 10 => a &&& b != 0
  | _ => a &&& b == 0

end Sys2Proof.Machine
end

