-- ==== Sys2Proof/Machine/Sem.lean ====
section
/-! DEFINITION. What an operation contributes to the issue of its bundle: its issue faults, what keeps it from being
accepted, and its effect; and the issue of one operation from these (R25, R29, R30, R32, R98, R287). -/

namespace Sys2Proof.Machine

/-- An operation as its slot sees the state at issue: the faults its values raise, the OVCAUSE bits of what cannot accept
it, the entries of the access queue that it takes (R192), and its effect on the state. -/
structure OpSem where
  faults : List IssueFault
  holds : Nat
  aq : Nat := 0
  effect : State → State

/-- OVCAUSE bits (R32). -/
def ovWait : Nat := 1
def ovInterlock : Nat := 2
def ovEngine : Nat := 4
def ovSync : Nat := 8
def ovSlot : Nat := 16

/-- An operation whose guard fails, or that does nothing. -/
def OpSem.idle : OpSem := ⟨[], 0, 0, id⟩

/-- An operation that cannot fault or be held. -/
def OpSem.pure (f : State → State) : OpSem := ⟨[], 0, 0, f⟩

/-- An operation under a guard decided by lane 0 (R92, R98). -/
def OpSem.guarded (s : State) (tt : TT) (o : OpSem) : OpSem := if s.lane0 tt then o else OpSem.idle

/-- An S-slot form that is legal in handler mode alone is an illegal encoding outside it, whatever its guard (R36, R71,
R84). -/
def OpSem.inHandler (s : State) (only : Bool) (o : OpSem) : OpSem :=
  if only && s.me.st != .handler then ⟨[⟨0x01, 1, 0, 0⟩], 0, 0, id⟩ else o

/-- An S-slot form that is illegal in a FORM 1 bundle, that is, in handler mode, whatever its guard (R36, R82, R83). -/
def OpSem.outsideHandler (s : State) (o : OpSem) : OpSem :=
  if s.me.st = .handler then ⟨[⟨0x01, 1, 0, 0⟩], 0, 0, id⟩ else o

/-- The numbers of the slots (R287). -/
def slotY : Nat := 0
def slotS : Nat := 1
def slotV (vu : VUnit) : Nat := match vu with
  | .v0 => 2
  | .v1 => 3
def slotM : Nat := 4
def slotL : Nat := 5
def slotQ : Nat := 6
def slotX : Nat := 7
def slotC : Nat := 8

/-- The contribution of a slot: the lowest code among its faults, at the lowest lane that raises it (R287). -/
def IssueFault.before (a b : IssueFault) : Bool :=
  if a.code ≠ b.code then decide (a.code < b.code)
  else if a.slot ≠ b.slot then decide (a.slot < b.slot)
  else decide (a.lane < b.lane)

/-- The fault that a bundle reports: the lowest code, then the lowest slot, then the lowest lane (R287). -/
def worst : List IssueFault → Option IssueFault
  | [] => none
  | a :: r =>
    match worst r with
    | none => some a
    | some b => some (if b.before a then b else a)

/-- ILLEGAL_REGISTER for each number beyond the windows, whatever the guard (R25, R98). -/
def windowFaults (slot : Nat) (bad : List Nat) : List IssueFault :=
  bad.map (fun n => ⟨0x02, slot, 0, BitVec.ofNat 64 n⟩)

/-- A DET bundle outside handler mode has a stamp at which it issues or overruns, the first after a handler too (R4, R26, R29, R32,
R36, R38; log 33). -/
def State.stamped (s : State) (k c : Nat) : Bool :=
  s.isDet (s.partOf k) && (s.ctx k c).st == .bound

/-- SCHEDULE_OVERRUN of a bundle that cannot issue at its stamp (R32, R285). -/
def State.overrun (s : State) (k c cause : Nat) : State :=
  let x := s.ctx k c
  let cy := s.cyc (s.partOf k)
  let stamp := cy - x.sfc0.getD cy
  s.takeTrap k c ⟨tcauseOf x.cl 0 15 0x81, 0, x.pc, none, some (BitVec.ofNat 64 stamp, BitVec.ofNat 8 cause)⟩

/-- The entries of a core's access queue in use: those of operations in flight, and of loads whose value is at hand and has not
landed (R192). -/
def State.accessEntries (s : State) (k : Nat) : Nat :=
  let p := s.part (s.partOf k)
  let cy := s.cyc (s.partOf k)
  let early := fun (x : Ctx) => (x.pend.filter (fun w => w.src == .load && w.arrive.isSome && decide (cy < w.land))).length
  ((p.ops ++ p.contribs).filter (fun o => o.core == k && o.queued)).length
    + ((s.core k).ctxs.map (fun e => early e.2)).foldl (· + ·) 0

/-- The hold of a full access queue (R192). -/
def State.queueHold (s : State) (k n : Nat) : Nat := if n ≠ 0 ∧ 64 < s.accessEntries k + n then ovEngine else 0

/-- One operation of one slot, as a bundle that holds no other. Without a stamp it waits first for what holds it; then a
fault is taken; at a stamp, what holds it overruns; else it has its effect (R25, R29, R30, R32, R285, R287). -/
def OpSem.run (o : OpSem) (slot : Nat) (bad : List Nat) (s : State) : Host.Outcome State Fault Refusal :=
  let held := o.holds ||| s.queueHold s.cur.1 o.aq
  if held ≠ 0 ∧ !s.stamped s.cur.1 s.cur.2 then .next s
  else
    match worst (windowFaults slot bad ++ o.faults) with
    | some f => .next (s.takeFault s.cur.1 s.cur.2 f s.me.pc)
    | none => if held = 0 then .next (o.effect s) else .next (s.overrun s.cur.1 s.cur.2 held)

end Sys2Proof.Machine
end

