-- ==== Sys2Proof/Machine/Scalar.lean ====
section
/-! DEFINITION. The S slot's integer, compare, floating-point and predicate operations (R73 to R80, R95). -/

namespace Sys2Proof.Machine

/-- A result of latency lat in X[xd], under lane 0 of the guard. -/
def aluX (s : State) (tt : TT) (lat : Nat) (xd : XReg) (v : W64) : OpSem :=
  .guarded s tt (.pure (fun r => r.pushX lat xd v))

/-- Quotients and remainders (R74). -/
def divS (a b : W64) : W64 := if b = 0 then BitVec.allOnes 64 else a.sdiv b
def divU (a b : W64) : W64 := if b = 0 then BitVec.allOnes 64 else a / b
def remS (a b : W64) : W64 := if b = 0 then a else a.srem b
def remU (a b : W64) : W64 := if b = 0 then a else a % b

/-- High halves of the 128-bit products (R73). -/
def mulHigh (a b : W64) : W64 := BitVec.ofInt 64 (a.toInt * b.toInt / 2 ^ 64)
def mulHighU (a b : W64) : W64 := BitVec.ofNat 64 (a.toNat * b.toNat / 2 ^ 64)

/-- A shift or rotate amount: the low six bits (R73). -/
def amount (b : W64) : Nat := b.toNat % 64

/-- Counts of leading and trailing zeros and of ones (R73). -/
def clz64 (a : W64) : W64 := BitVec.ofNat 64 (64 - bitLen a.toNat)
def ctz64 (a : W64) : W64 := BitVec.ofNat 64 (lowBit 64 a.toNat)
def popc64 (a : W64) : W64 := BitVec.ofNat 64 (popCount 64 a.toNat)

/-- The FP32 operand of an X register (R68). -/
def f32X (v : W64) : W32 := v.truncate 32

/-- A scalar FP32 result of latency lat, with NF (R68, R79). -/
def fpX (s : State) (tt : TT) (lat : Nat) (xd : XReg) (v : W32) : OpSem :=
  let nf := f32NonFinite v
  .guarded s tt (.pure (fun r => (r.pushX lat xd (v.zeroExtend 64)).nfScalar lat nf))

/-- FP32 to an unsigned 32-bit integer, saturating (R80). -/
def f32ToU32 (rm : RM) (v : Val) : Enc :=
  match v with
  | .nan => ⟨0, true⟩
  | .inf n => ⟨if n then 0 else 0xFFFFFFFF, true⟩
  | .fin d =>
    let r := roundAt rm 0 d.toExact 0
    if r.man = 0 then ⟨0, false⟩
    else if r.neg then ⟨0, true⟩
    else if r.man > 0xFFFFFFFF then ⟨0xFFFFFFFF, true⟩
    else ⟨r.man, false⟩

/-- The conversions of FCVT: the X result and NF (R80). -/
def fcvtValue (k : Nat) (flush : Bool) (rm : RM) (a : W32) : W64 × Bool :=
  match k with
  | 0 =>
    let e := encodeVal .int32 rm false 0 (f32In flush a)
    ((BitVec.ofNat 32 e.code).signExtend 64, e.nf)
  | 1 => ((f32Out flush rm (decodeCode .int32 a.toNat)).zeroExtend 64, false)
  | 2 =>
    let e := f32ToU32 rm (f32In flush a)
    ((BitVec.ofNat 32 e.code).zeroExtend 64, e.nf)
  | _ => ((f32Out flush rm (.fin ⟨false, a.toNat, 0⟩)).zeroExtend 64, false)

/-- PLUT over three predicates (R95). -/
def plut (table : BitVec 8) (a b c : W32) : W32 :=
  predOf (fun i => table.getLsbD (4 * b2n (a.getLsbD i) + 2 * b2n (b.getLsbD i) + b2n (c.getLsbD i)))

/-- A predicate as the issuing context reads it. -/
def State.pr (s : State) (n : PReg) : W32 := vget s.me.regs.p n.toNat 0


/-- ADD (R73). -/
def addSem (tt : TT) (xd : XReg) (xa : XReg) (xb : XReg) (s : State) : OpSem :=
  aluX s tt 1 xd ((s.me.xr xa) + (s.me.xr xb))

def execAdd (tt : TT) (xd : XReg) (xa : XReg) (xb : XReg) (s : State) : Host.Outcome State Fault Refusal :=
  (addSem tt xd xa xb s).run slotS [] s

/-- SUB (R73). -/
def subSem (tt : TT) (xd : XReg) (xa : XReg) (xb : XReg) (s : State) : OpSem :=
  aluX s tt 1 xd ((s.me.xr xa) - (s.me.xr xb))

def execSub (tt : TT) (xd : XReg) (xa : XReg) (xb : XReg) (s : State) : Host.Outcome State Fault Refusal :=
  (subSem tt xd xa xb s).run slotS [] s

/-- MUL (R73). -/
def mulSem (tt : TT) (xd : XReg) (xa : XReg) (xb : XReg) (s : State) : OpSem :=
  aluX s tt 3 xd ((s.me.xr xa) * (s.me.xr xb))

def execMul (tt : TT) (xd : XReg) (xa : XReg) (xb : XReg) (s : State) : Host.Outcome State Fault Refusal :=
  (mulSem tt xd xa xb s).run slotS [] s

/-- MULH (R73). -/
def mulhSem (tt : TT) (xd : XReg) (xa : XReg) (xb : XReg) (s : State) : OpSem :=
  aluX s tt 3 xd (mulHigh (s.me.xr xa) (s.me.xr xb))

def execMulh (tt : TT) (xd : XReg) (xa : XReg) (xb : XReg) (s : State) : Host.Outcome State Fault Refusal :=
  (mulhSem tt xd xa xb s).run slotS [] s

/-- MULHU (R73). -/
def mulhuSem (tt : TT) (xd : XReg) (xa : XReg) (xb : XReg) (s : State) : OpSem :=
  aluX s tt 3 xd (mulHighU (s.me.xr xa) (s.me.xr xb))

def execMulhu (tt : TT) (xd : XReg) (xa : XReg) (xb : XReg) (s : State) : Host.Outcome State Fault Refusal :=
  (mulhuSem tt xd xa xb s).run slotS [] s

/-- DIV (R73, R74). -/
def divSem (tt : TT) (xd : XReg) (xa : XReg) (xb : XReg) (s : State) : OpSem :=
  aluX s tt 12 xd (divS (s.me.xr xa) (s.me.xr xb))

def execDiv (tt : TT) (xd : XReg) (xa : XReg) (xb : XReg) (s : State) : Host.Outcome State Fault Refusal :=
  (divSem tt xd xa xb s).run slotS [] s

/-- DIVU (R73, R74). -/
def divuSem (tt : TT) (xd : XReg) (xa : XReg) (xb : XReg) (s : State) : OpSem :=
  aluX s tt 12 xd (divU (s.me.xr xa) (s.me.xr xb))

def execDivu (tt : TT) (xd : XReg) (xa : XReg) (xb : XReg) (s : State) : Host.Outcome State Fault Refusal :=
  (divuSem tt xd xa xb s).run slotS [] s

/-- REM (R73, R74). -/
def remSem (tt : TT) (xd : XReg) (xa : XReg) (xb : XReg) (s : State) : OpSem :=
  aluX s tt 12 xd (remS (s.me.xr xa) (s.me.xr xb))

def execRem (tt : TT) (xd : XReg) (xa : XReg) (xb : XReg) (s : State) : Host.Outcome State Fault Refusal :=
  (remSem tt xd xa xb s).run slotS [] s

/-- REMU (R73, R74). -/
def remuSem (tt : TT) (xd : XReg) (xa : XReg) (xb : XReg) (s : State) : OpSem :=
  aluX s tt 12 xd (remU (s.me.xr xa) (s.me.xr xb))

def execRemu (tt : TT) (xd : XReg) (xa : XReg) (xb : XReg) (s : State) : Host.Outcome State Fault Refusal :=
  (remuSem tt xd xa xb s).run slotS [] s

/-- AND (R73). -/
def andSem (tt : TT) (xd : XReg) (xa : XReg) (xb : XReg) (s : State) : OpSem :=
  aluX s tt 1 xd ((s.me.xr xa) &&& (s.me.xr xb))

def execAnd (tt : TT) (xd : XReg) (xa : XReg) (xb : XReg) (s : State) : Host.Outcome State Fault Refusal :=
  (andSem tt xd xa xb s).run slotS [] s

/-- OR (R73). -/
def orSem (tt : TT) (xd : XReg) (xa : XReg) (xb : XReg) (s : State) : OpSem :=
  aluX s tt 1 xd ((s.me.xr xa) ||| (s.me.xr xb))

def execOr (tt : TT) (xd : XReg) (xa : XReg) (xb : XReg) (s : State) : Host.Outcome State Fault Refusal :=
  (orSem tt xd xa xb s).run slotS [] s

/-- XOR (R73). -/
def xorSem (tt : TT) (xd : XReg) (xa : XReg) (xb : XReg) (s : State) : OpSem :=
  aluX s tt 1 xd ((s.me.xr xa) ^^^ (s.me.xr xb))

def execXor (tt : TT) (xd : XReg) (xa : XReg) (xb : XReg) (s : State) : Host.Outcome State Fault Refusal :=
  (xorSem tt xd xa xb s).run slotS [] s

/-- ANDN (R73). -/
def andnSem (tt : TT) (xd : XReg) (xa : XReg) (xb : XReg) (s : State) : OpSem :=
  aluX s tt 1 xd ((s.me.xr xa) &&& ~~~(s.me.xr xb))

def execAndn (tt : TT) (xd : XReg) (xa : XReg) (xb : XReg) (s : State) : Host.Outcome State Fault Refusal :=
  (andnSem tt xd xa xb s).run slotS [] s

/-- SHL (R73). -/
def shlSem (tt : TT) (xd : XReg) (xa : XReg) (xb : XReg) (s : State) : OpSem :=
  aluX s tt 1 xd ((s.me.xr xa) <<< amount (s.me.xr xb))

def execShl (tt : TT) (xd : XReg) (xa : XReg) (xb : XReg) (s : State) : Host.Outcome State Fault Refusal :=
  (shlSem tt xd xa xb s).run slotS [] s

/-- SHR (R73). -/
def shrSem (tt : TT) (xd : XReg) (xa : XReg) (xb : XReg) (s : State) : OpSem :=
  aluX s tt 1 xd ((s.me.xr xa) >>> amount (s.me.xr xb))

def execShr (tt : TT) (xd : XReg) (xa : XReg) (xb : XReg) (s : State) : Host.Outcome State Fault Refusal :=
  (shrSem tt xd xa xb s).run slotS [] s

/-- SAR (R73). -/
def sarSem (tt : TT) (xd : XReg) (xa : XReg) (xb : XReg) (s : State) : OpSem :=
  aluX s tt 1 xd ((s.me.xr xa).sshiftRight (amount (s.me.xr xb)))

def execSar (tt : TT) (xd : XReg) (xa : XReg) (xb : XReg) (s : State) : Host.Outcome State Fault Refusal :=
  (sarSem tt xd xa xb s).run slotS [] s

/-- ROL (R73). -/
def rolSem (tt : TT) (xd : XReg) (xa : XReg) (xb : XReg) (s : State) : OpSem :=
  aluX s tt 1 xd ((s.me.xr xa).rotateLeft (amount (s.me.xr xb)))

def execRol (tt : TT) (xd : XReg) (xa : XReg) (xb : XReg) (s : State) : Host.Outcome State Fault Refusal :=
  (rolSem tt xd xa xb s).run slotS [] s

/-- MIN (R73). -/
def minSem (tt : TT) (xd : XReg) (xa : XReg) (xb : XReg) (s : State) : OpSem :=
  aluX s tt 1 xd (if (s.me.xr xa).slt (s.me.xr xb) then (s.me.xr xa) else (s.me.xr xb))

def execMin (tt : TT) (xd : XReg) (xa : XReg) (xb : XReg) (s : State) : Host.Outcome State Fault Refusal :=
  (minSem tt xd xa xb s).run slotS [] s

/-- MAX (R73). -/
def maxSem (tt : TT) (xd : XReg) (xa : XReg) (xb : XReg) (s : State) : OpSem :=
  aluX s tt 1 xd (if (s.me.xr xa).slt (s.me.xr xb) then (s.me.xr xb) else (s.me.xr xa))

def execMax (tt : TT) (xd : XReg) (xa : XReg) (xb : XReg) (s : State) : Host.Outcome State Fault Refusal :=
  (maxSem tt xd xa xb s).run slotS [] s

/-- MINU (R73). -/
def minuSem (tt : TT) (xd : XReg) (xa : XReg) (xb : XReg) (s : State) : OpSem :=
  aluX s tt 1 xd (if (s.me.xr xa).ult (s.me.xr xb) then (s.me.xr xa) else (s.me.xr xb))

def execMinu (tt : TT) (xd : XReg) (xa : XReg) (xb : XReg) (s : State) : Host.Outcome State Fault Refusal :=
  (minuSem tt xd xa xb s).run slotS [] s

/-- MAXU (R73). -/
def maxuSem (tt : TT) (xd : XReg) (xa : XReg) (xb : XReg) (s : State) : OpSem :=
  aluX s tt 1 xd (if (s.me.xr xa).ult (s.me.xr xb) then (s.me.xr xb) else (s.me.xr xa))

def execMaxu (tt : TT) (xd : XReg) (xa : XReg) (xb : XReg) (s : State) : Host.Outcome State Fault Refusal :=
  (maxuSem tt xd xa xb s).run slotS [] s

/-- CLZ (R73). -/
def clzSem (tt : TT) (xd : XReg) (xa : XReg) (s : State) : OpSem :=
  aluX s tt 1 xd (clz64 (s.me.xr xa))

def execClz (tt : TT) (xd : XReg) (xa : XReg) (s : State) : Host.Outcome State Fault Refusal :=
  (clzSem tt xd xa s).run slotS [] s

/-- CTZ (R73). -/
def ctzSem (tt : TT) (xd : XReg) (xa : XReg) (s : State) : OpSem :=
  aluX s tt 1 xd (ctz64 (s.me.xr xa))

def execCtz (tt : TT) (xd : XReg) (xa : XReg) (s : State) : Host.Outcome State Fault Refusal :=
  (ctzSem tt xd xa s).run slotS [] s

/-- POPC (R73). -/
def popcSem (tt : TT) (xd : XReg) (xa : XReg) (s : State) : OpSem :=
  aluX s tt 1 xd (popc64 (s.me.xr xa))

def execPopc (tt : TT) (xd : XReg) (xa : XReg) (s : State) : Host.Outcome State Fault Refusal :=
  (popcSem tt xd xa s).run slotS [] s

/-- SEXT (R73). -/
def sextSem (tt : TT) (xd : XReg) (xa : XReg) (s : State) : OpSem :=
  aluX s tt 1 xd ((f32X (s.me.xr xa)).signExtend 64)

def execSext (tt : TT) (xd : XReg) (xa : XReg) (s : State) : Host.Outcome State Fault Refusal :=
  (sextSem tt xd xa s).run slotS [] s

/-- ZEXT (R73). -/
def zextSem (tt : TT) (xd : XReg) (xa : XReg) (s : State) : OpSem :=
  aluX s tt 1 xd ((f32X (s.me.xr xa)).zeroExtend 64)

def execZext (tt : TT) (xd : XReg) (xa : XReg) (s : State) : Host.Outcome State Fault Refusal :=
  (zextSem tt xd xa s).run slotS [] s

/-- MOVI (R73). -/
def moviSem (tt : TT) (xd : XReg) (imm : W32) (s : State) : OpSem :=
  aluX s tt 1 xd (imm.signExtend 64)

def execMovi (tt : TT) (xd : XReg) (imm : W32) (s : State) : Host.Outcome State Fault Refusal :=
  (moviSem tt xd imm s).run slotS [] s

/-- MOVH reads its own destination (R73, R75). -/
def movhSem (tt : TT) (xd : XReg) (imm : W32) (s : State) : OpSem :=
  aluX s tt 1 xd (imm ++ f32X (s.me.xr xd))

def execMovh (tt : TT) (xd : XReg) (imm : W32) (s : State) : Host.Outcome State Fault Refusal :=
  (movhSem tt xd imm s).run slotS [] s

/-- CMP (R76). Lane 0 of the guard stands for every lane. -/
def cmpSem (tt : TT) (pd0 : PReg) (pd1 : PReg) (pwt : BitVec 2) (cond : BitVec 4) (xa : XReg) (xb : XReg) (s : State) : OpSem :=
  let c := intCond cond.toNat (s.me.xr xa) (s.me.xr xb)
  let g := s.lane0 tt
  .pure (fun r => r.pushPair pd0 pd1 (fun _ => pairWrite pwt.toNat g c))

def execCmp (tt : TT) (pd0 : PReg) (pd1 : PReg) (pwt : BitVec 2) (cond : BitVec 4) (xa : XReg) (xb : XReg) (s : State) : Host.Outcome State Fault Refusal :=
  (cmpSem tt pd0 pd1 pwt cond xa xb s).run slotS [] s

/-- FCMP (R76, R77). Lane 0 of the guard stands for every lane. -/
def fcmpSem (tt : TT) (pd0 : PReg) (pd1 : PReg) (pwt : BitVec 2) (cond : BitVec 4) (xa : XReg) (xb : XReg) (s : State) : OpSem :=
  let c := f32Cond s.flushes cond.toNat (f32X (s.me.xr xa)) (f32X (s.me.xr xb))
  let g := s.lane0 tt
  .pure (fun r => r.pushPair pd0 pd1 (fun _ => pairWrite pwt.toNat g c))

def execFcmp (tt : TT) (pd0 : PReg) (pd1 : PReg) (pwt : BitVec 2) (cond : BitVec 4) (xa : XReg) (xb : XReg) (s : State) : Host.Outcome State Fault Refusal :=
  (fcmpSem tt pd0 pd1 pwt cond xa xb s).run slotS [] s

/-- FADD (R78, R79). -/
def faddSem (tt : TT) (xd : XReg) (xa : XReg) (xb : XReg) (s : State) : OpSem :=
  fpX s tt 4 xd (f32Add s.flushes (s.rm 0) (f32X (s.me.xr xa)) (f32X (s.me.xr xb)))

def execFadd (tt : TT) (xd : XReg) (xa : XReg) (xb : XReg) (s : State) : Host.Outcome State Fault Refusal :=
  (faddSem tt xd xa xb s).run slotS [] s

/-- FSUB (R78, R79). -/
def fsubSem (tt : TT) (xd : XReg) (xa : XReg) (xb : XReg) (s : State) : OpSem :=
  fpX s tt 4 xd (f32Sub s.flushes (s.rm 0) (f32X (s.me.xr xa)) (f32X (s.me.xr xb)))

def execFsub (tt : TT) (xd : XReg) (xa : XReg) (xb : XReg) (s : State) : Host.Outcome State Fault Refusal :=
  (fsubSem tt xd xa xb s).run slotS [] s

/-- FMUL (R78, R79). -/
def fmulSem (tt : TT) (xd : XReg) (xa : XReg) (xb : XReg) (s : State) : OpSem :=
  fpX s tt 4 xd (f32Mul s.flushes (s.rm 0) (f32X (s.me.xr xa)) (f32X (s.me.xr xb)))

def execFmul (tt : TT) (xd : XReg) (xa : XReg) (xb : XReg) (s : State) : Host.Outcome State Fault Refusal :=
  (fmulSem tt xd xa xb s).run slotS [] s

/-- FFMA (R78, R79). -/
def ffmaSem (tt : TT) (xd : XReg) (xa : XReg) (xb : XReg) (s : State) : OpSem :=
  fpX s tt 4 xd (f32Fma s.flushes (s.rm 0) (f32X (s.me.xr xa)) (f32X (s.me.xr xb)) (f32X (s.me.xr xd)))

def execFfma (tt : TT) (xd : XReg) (xa : XReg) (xb : XReg) (s : State) : Host.Outcome State Fault Refusal :=
  (ffmaSem tt xd xa xb s).run slotS [] s

/-- FDIV (R78, R79). -/
def fdivSem (tt : TT) (xd : XReg) (xa : XReg) (xb : XReg) (s : State) : OpSem :=
  fpX s tt 12 xd (f32Div s.flushes (s.rm 0) (f32X (s.me.xr xa)) (f32X (s.me.xr xb)))

def execFdiv (tt : TT) (xd : XReg) (xa : XReg) (xb : XReg) (s : State) : Host.Outcome State Fault Refusal :=
  (fdivSem tt xd xa xb s).run slotS [] s

/-- FMIN (R78, R79). -/
def fminSem (tt : TT) (xd : XReg) (xa : XReg) (xb : XReg) (s : State) : OpSem :=
  fpX s tt 4 xd (f32MinMax false s.flushes (f32X (s.me.xr xa)) (f32X (s.me.xr xb)))

def execFmin (tt : TT) (xd : XReg) (xa : XReg) (xb : XReg) (s : State) : Host.Outcome State Fault Refusal :=
  (fminSem tt xd xa xb s).run slotS [] s

/-- FMAX (R78, R79). -/
def fmaxSem (tt : TT) (xd : XReg) (xa : XReg) (xb : XReg) (s : State) : OpSem :=
  fpX s tt 4 xd (f32MinMax true s.flushes (f32X (s.me.xr xa)) (f32X (s.me.xr xb)))

def execFmax (tt : TT) (xd : XReg) (xa : XReg) (xb : XReg) (s : State) : Host.Outcome State Fault Refusal :=
  (fmaxSem tt xd xa xb s).run slotS [] s

/-- FSQRT (R78, R79). -/
def fsqrtSem (tt : TT) (xd : XReg) (xa : XReg) (s : State) : OpSem :=
  fpX s tt 12 xd (f32Sqrt s.flushes (s.rm 0) (f32X (s.me.xr xa)))

def execFsqrt (tt : TT) (xd : XReg) (xa : XReg) (s : State) : Host.Outcome State Fault Refusal :=
  (fsqrtSem tt xd xa s).run slotS [] s

/-- FCVT (R80). -/
def fcvtSem (tt : TT) (xd : XReg) (xa : XReg) (cond : BitVec 4) (s : State) : OpSem :=
  let v := fcvtValue cond.toNat s.flushes (s.rm 0) (f32X (s.me.xr xa))
  .guarded s tt (.pure (fun r => (r.pushX 3 xd v.1).nfScalar 3 v.2))

def execFcvt (tt : TT) (xd : XReg) (xa : XReg) (cond : BitVec 4) (s : State) : Host.Outcome State Fault Refusal :=
  (fcvtSem tt xd xa cond s).run slotS [] s

/-- PLUT in the S slot: all 32 lanes or none (R95). -/
def plutSem (tt : TT) (pd : PReg) (pa : PReg) (pb : PReg) (pc : PReg) (table : BitVec 8) (s : State) : OpSem :=
  let v := plut table (s.pr pa) (s.pr pb) (s.pr pc)
  .guarded s tt (.pure (fun r => r.push 2 (.p pd.toNat) (maskAt 0 32) (toVec v)))

def execPlut (tt : TT) (pd : PReg) (pa : PReg) (pb : PReg) (pc : PReg) (table : BitVec 8) (s : State) : Host.Outcome State Fault Refusal :=
  (plutSem tt pd pa pb pc table s).run slotS [] s

end Sys2Proof.Machine
end

