-- ==== Sys2Proof/Machine/Control.lean ====
section
/-! DEFINITION. Control transfer, hardware loops, the end of a task, MODE and TRAP (R52 to R60, R82, R83), with the
advance of a loop at its END bundle (R58, R59, R99). -/

namespace Sys2Proof.Machine

/-! ## Transfers (R52, R54) -/

/-- A transfer's target lies in the code range, whose end may be 2^64, and is aligned (R52, R384). -/
def Ctx.targetOk (x : Ctx) (a : W64) : Bool :=
  decide (a - x.task.codeLo < x.task.codeHi - x.task.codeLo) && a.extractLsb' 0 6 == 0

/-- BAD_TARGET of a slot S transfer. -/
def badTarget (a : W64) : List IssueFault := [⟨0x03, slotS, 0, a⟩]

/-- LOOP_STACK_FAULT, with LDEPTH as TINFO (R286). -/
def Ctx.loopFault (x : Ctx) : List IssueFault := [⟨0x04, slotS, 0, BitVec.ofNat 64 x.levels.length⟩]

/-- The issuing context goes on at an address: the bundle transfers control. -/
def State.goTo (s : State) (a : W64) : State := s.onMe (fun x => { x with pc := a, moved := true })

/-- The target of a signed bundle offset (R54). -/
def Ctx.relative (x : Ctx) (ofs : W32) : W64 := x.pc + 64 * ofs.signExtend 64

/-- The link value: the next bundle's address and LDEPTH (R54). -/
def Ctx.link (x : Ctx) : W64 := (x.pc + 64) ||| BitVec.ofNat 64 x.levels.length

/-- A transfer to a target, with an optional link register. -/
def transfer (s : State) (tt : TT) (target : W64) (link : Option XReg) : OpSem :=
  let v := s.me.link
  .guarded s tt
    { faults := if s.me.targetOk target then [] else badTarget target
      holds := 0
      effect := fun r =>
        (match link with
          | some d => r.pushX 1 d v
          | none => r).goTo target }

/-- BR (R54). -/
def brSem (tt : TT) (ofs : W32) (s : State) : OpSem := transfer s tt (s.me.relative ofs) none

def execBr (tt : TT) (ofs : W32) (s : State) : Host.Outcome State Fault Refusal := (brSem tt ofs s).run slotS [] s

/-- BRX (R54). -/
def brxSem (tt : TT) (xa : XReg) (s : State) : OpSem := transfer s tt (s.me.xr xa) none

def execBrx (tt : TT) (xa : XReg) (s : State) : Host.Outcome State Fault Refusal := (brxSem tt xa s).run slotS [] s

/-- CALL (R54). -/
def callSem (tt : TT) (xd : XReg) (ofs : W32) (s : State) : OpSem := transfer s tt (s.me.relative ofs) (some xd)

def execCall (tt : TT) (xd : XReg) (ofs : W32) (s : State) : Host.Outcome State Fault Refusal :=
  (callSem tt xd ofs s).run slotS [] s

/-- CALLX (R54). -/
def callxSem (tt : TT) (xd xa : XReg) (s : State) : OpSem := transfer s tt (s.me.xr xa) (some xd)

def execCallx (tt : TT) (xd xa : XReg) (s : State) : Host.Outcome State Fault Refusal :=
  (callxSem tt xd xa s).run slotS [] s

/-- RET closes the levels opened since the call. BAD_TARGET for a register with bits 5:3 set names the register as it stands: the
spec says no more than the target address (R54, R286; DESIGN CHOICE, log 68). -/
def retSem (tt : TT) (xa : XReg) (s : State) : OpSem :=
  let v := s.me.xr xa
  let target := v &&& ~~~(63 : W64)
  let depth := bitsOf v.toNat 0 3
  .guarded s tt
    { faults :=
        (if bitsOf v.toNat 3 3 ≠ 0 then badTarget v else if s.me.targetOk target then [] else badTarget target)
          ++ (if s.me.levels.length < depth then s.me.loopFault else [])
      holds := 0
      effect := fun r => (r.onMe (fun x => { x with levels := x.levels.drop (x.levels.length - depth) })).goTo target }

def execRet (tt : TT) (xa : XReg) (s : State) : Host.Outcome State Fault Refusal := (retSem tt xa s).run slotS [] s

/-! ## Loops (R57 to R60) -/

/-- The total number of iterations of a level (R57). -/
def Level.total (l : Level) : Nat := if l.count = 0 then 0 else l.count.toNat + l.epi.toNat

/-- The level that a LOOP opens (R33, R57). -/
def Ctx.newLevel (x : Ctx) (count : W32) (eofs : BitVec 16) (rsz : BitVec 5) (prt : Bool) (epi : BitVec 3) : Level :=
  let il := match x.levels with
    | [] => x.baseIl
    | l :: _ => l.il
  ⟨count, x.pc + 64, x.pc + 64 * eofs.zeroExtend 64, 0, epi, prt, rsz, 0, il⟩

/-- Whether a level may be opened (R57). -/
def Ctx.mayOpen (x : Ctx) (last : W64) : Bool :=
  match x.levels with
  | [] => true
  | l :: _ => decide (x.levels.length < 6) && x.pc != l.last && decide (last < l.last)

/-- P8 set and P9 to P15 cleared at t + 1 (R57). -/
def State.stagePredicates (s : State) : State :=
  ((List.range 7).foldl (fun r j => r.push 1 (.p (9 + j)) (maskAt 0 32) 0) (s.push 1 (.p 8) (maskAt 0 32) (maskAt 0 32)))

/-- LOOP and LOOPX; one that skips its body transfers control to END + 64 (R34, R52, R57). -/
def openLoop (s : State) (tt : TT) (count : W32) (eofs : BitVec 16) (rsz : BitVec 5) (prt : Bool) (epi : BitVec 3) :
    OpSem :=
  let x := s.me
  let l := x.newLevel count eofs rsz prt epi
  let n := 8 * rsz.toNat
  .guarded s tt
    { faults :=
        (if x.regs.va.size < n ∨ x.regs.vb.size < n then [⟨0x02, slotS, 0, BitVec.ofNat 64 (n - 1)⟩] else [])
          ++ (if x.mayOpen l.last then [] else x.loopFault)
          ++ (if l.total = 0 ∧ !x.targetOk (l.last + 64) then badTarget (l.last + 64) else [])
      holds := 0
      effect := fun r =>
        if l.total = 0 then r.goTo (l.last + 64)
        else
          let r := r.onMe (fun x => { x with levels := l :: x.levels })
          if prt then r.stagePredicates else r }

def loopSem (tt : TT) (count eofs : BitVec 16) (rsz : BitVec 5) (prt : Bool) (epi : BitVec 3) (s : State) : OpSem :=
  openLoop s tt (count.zeroExtend 32) eofs rsz prt epi

def execLoop (tt : TT) (count eofs : BitVec 16) (rsz : BitVec 5) (prt : Bool) (epi : BitVec 3) (s : State) :
    Host.Outcome State Fault Refusal :=
  (loopSem tt count eofs rsz prt epi s).run slotS [] s

/-- LOOPX takes its count from X[xa][31:0] (R57). -/
def loopxSem (tt : TT) (xa : XReg) (eofs : BitVec 16) (rsz : BitVec 5) (prt : Bool) (epi : BitVec 3) (s : State) : OpSem :=
  openLoop s tt (f32X (s.me.xr xa)) eofs rsz prt epi

def execLoopx (tt : TT) (xa : XReg) (eofs : BitVec 16) (rsz : BitVec 5) (prt : Bool) (epi : BitVec 3) (s : State) :
    Host.Outcome State Fault Refusal :=
  (loopxSem tt xa eofs rsz prt epi s).run slotS [] s

/-- LBRK, a transfer to END + 64 (R34, R52, R60). -/
def lbrkSem (tt : TT) (s : State) : OpSem :=
  match s.me.levels with
  | [] => .guarded s tt ⟨s.me.loopFault, 0, 0, id⟩
  | l :: rest => .guarded s tt
    { faults := if s.me.targetOk (l.last + 64) then [] else badTarget (l.last + 64)
      holds := 0
      effect := fun r => (r.onMe (fun x => { x with levels := rest })).goTo (l.last + 64) }

def execLbrk (tt : TT) (s : State) : Host.Outcome State Fault Refusal := (lbrkSem tt s).run slotS [] s

/-- LIDX (R60). -/
def lidxSem (tt : TT) (xd : XReg) (level : BitVec 3) (s : State) : OpSem :=
  match s.me.levels[level.toNat]? with
  | none => .guarded s tt ⟨s.me.loopFault, 0, 0, id⟩
  | some l => .guarded s tt (.pure (fun r => r.pushX 1 xd (l.index.zeroExtend 64)))

def execLidx (tt : TT) (xd : XReg) (level : BitVec 3) (s : State) : Host.Outcome State Fault Refusal :=
  (lidxSem tt xd level s).run slotS [] s

/-- The shift of the stage predicates at an END bundle, landing at e + 1 (R58, R99); p as read at the bundle's issue. -/
def State.shiftPredicates (s : State) (p : Vector W32 16) (p8 : Bool) : State :=
  let s := (List.range 7).foldl
    (fun r j => r.push 1 (.p (15 - j)) (maskAt 0 32) (toVec (vget p (14 - j) 0))) s
  s.push 1 (.p 8) (maskAt 0 32) (if p8 then maskAt 0 32 else 0)

/-- The next RRB of a level that goes round (R58). -/
def Level.nextRrb (l : Level) : BitVec 7 :=
  let n := 8 * l.rsz.toNat
  if n = 0 then l.rrb else BitVec.ofNat 7 ((l.rrb.toNat + n - 1) % n)

/-- A write in flight once the innermost level has closed: a PUTC in its END bundle has named its level as the levels stood at its
issue, so that one of the closed level is lost and one of an outer level still reaches it (R388). -/
def Write.levelClosed (w : Write) : Option Write :=
  match w.dest with
  | .csr n =>
    if 0x040 ≤ n ∧ n < 0x048 then none
    else if 0x048 ≤ n ∧ n < 0x070 then some { w with dest := .csr (n - 8) }
    else some w
  | _ => some w

/-- The loop-end rule at a bundle at a, which transferred no control (R58); whether the loop went round. INDEX has 32 bits (R51),
and T may pass 2^32 with a COUNT near it and an EPI: the spec does not say what INDEX + 1 is then, and here it wraps to 0
(DESIGN CHOICE, log 63). -/
def State.loopEnd (s : State) (a : W64) (p : Vector W32 16) : State × Bool :=
  match s.me.levels with
  | [] => (s, false)
  | l :: rest =>
    if a ≠ l.last then (s, false)
    else if l.index.toNat + 1 < l.total then
      let i := l.index + 1
      let s := s.onMe (fun x => { x with levels := { l with index := i, rrb := l.nextRrb } :: rest, pc := l.first })
      (if l.prt then s.shiftPredicates p (decide (i < l.count)) else s, true)
    else (s.onMe (fun x => { x with levels := rest, pc := l.last + 64, pend := x.pend.filterMap Write.levelClosed }), false)

/-! ## The end of a task, MODE, TRAP -/

/-- TEND: the context passes to CLOSING at once (R56). R50 names TEND for BOUND alone; a handler's TEND closes its context too, and
its snapshot entries are dropped when the context becomes FREE (DESIGN CHOICE, log 63). -/
def tendSem (tt : TT) (s : State) : OpSem :=
  .guarded s tt (.pure (fun r => (r.toClosing r.cur.1 r.cur.2).onMe (fun x => { x with moved := true })))

def execTend (tt : TT) (s : State) : Host.Outcome State Fault Refusal := (tendSem tt s).run slotS [] s

/-- MODE writes IL of the innermost open level, or of the base level (R33, R82). -/
def Ctx.setIl (x : Ctx) (il : Bool) : Ctx :=
  match x.levels with
  | [] => { x with baseIl := il }
  | l :: rest => { x with levels := { l with il := il } :: rest }

def modeSem (tt : TT) (il : Bool) (s : State) : OpSem :=
  .outsideHandler s (.guarded s tt (.pure (fun r => r.onMe (fun x => x.setIl il))))

def execMode (tt : TT) (il : Bool) (s : State) : Host.Outcome State Fault Refusal := (modeSem tt il s).run slotS [] s

/-- TRAP makes SOFTWARE_TRAP pending (R83). -/
def trapSem (tt : TT) (code : BitVec 16) (s : State) : OpSem :=
  .outsideHandler s (.guarded s tt (.pure (fun r => r.raise r.cur.1 r.cur.2 0x89 (code.zeroExtend 64) slotS false)))

def execTrap (tt : TT) (code : BitVec 16) (s : State) : Host.Outcome State Fault Refusal :=
  (trapSem tt code s).run slotS [] s

end Sys2Proof.Machine
end

