-- ==== Sys2Proof/Machine/Csr.lean ====
section
/-! DEFINITION. The control and status registers and the format register (R69 to R72, R81, R116, R388). -/

namespace Sys2Proof.Machine

/-- The entries that the issuing context holds in the snapshot buffer (R70, R289). -/
def State.snapCount (s : State) : Nat :=
  match s.myCore.snap with
  | some b => if b.holder = s.cur.2 then b.entries.length else 0
  | none => 0

/-- The schedule-frame counter: cycles since the task's first bundle (R16, R26). -/
def State.sfc (s : State) : Nat :=
  match s.me.sfc0 with
  | some c => s.t - c
  | none => 0

/-- A window register (R70). -/
def Window.csr (w : Window) : W64 := BitVec.ofNat 64 (w.base + w.size * 0x10000)

/-- GF: the growth factor of the context's latest TLU demand, as far as its steps have ended (R256). -/
def State.gf (s : State) (k c : Nat) : W32 :=
  let old := (s.ctx k c).csr.gf
  match (s.core k).running with
  | none => old
  | some g =>
    if g.demand.ctx = c then
      ((g.gfs.filter (fun e => decide (e.1 ≤ s.cyc (s.partOf k)))).getLast?.map (·.2)).getD old
    else old

/-- A CSR as it stands at issue (R70, R388). -/
def State.csr (s : State) (n : Nat) : W64 :=
  let x := s.me
  let k := s.cur.1
  match n with
  | 0x000 => BitVec.ofNat 64 s.cur.2
  | 0x001 => BitVec.ofNat 64 k
  | 0x002 => BitVec.ofNat 64 (clusterOf k)
  | 0x003 => BitVec.ofNat 64 (clusterOf k / 8)
  | 0x004 => BitVec.ofNat 64 s.myPart
  | 0x005 => (BitVec.ofBool (s.isDet s.myPart)).zeroExtend 64
  | 0x006 => BitVec.ofNat 64 (100 * s.mult s.myPart)
  | 0x008 => x.task.taskId
  | 0x009 => x.task.tx.zeroExtend 64
  | 0x00A => x.task.ty.zeroExtend 64
  | 0x00B => x.task.tz.zeroExtend 64
  | 0x00C => x.task.ex.zeroExtend 64
  | 0x00D => x.task.ey.zeroExtend 64
  | 0x00E => x.task.ez.zeroExtend 64
  | 0x00F => BitVec.ofNat 64 x.task.queue
  | 0x010 => BitVec.ofNat 64 s.sfc
  | 0x011 => BitVec.ofNat 64 ((amGet s.cycles k).getD 0 + s.t)
  | 0x012 => x.pc
  | 0x080 => x.regs.va.csr
  | 0x081 => x.regs.vb.csr
  | 0x082 => x.regs.lv.csr
  | 0x083 => x.regs.qv.csr
  | 0x102 => x.csr.ovstamp
  | 0x103 => x.csr.ovcause.zeroExtend 64
  | 0x110 => x.csr.grvseq
  | 0x111 => x.csr.grvnode.zeroExtend 64
  | 0x120 => x.csr.bkc
  | 0x121 => x.csr.bkv.zeroExtend 64
  | 0x122 => x.csr.bkn.zeroExtend 64
  | 0x123 => (s.gf k s.cur.2).zeroExtend 64
  | 0x140 => BitVec.ofNat 64 s.snapCount
  | _ => if 0x130 ≤ n ∧ n < 0x138 then BitVec.ofNat 64 (x.counter (n - 0x130)).value else x.csrValue n

/-- GETC (R71). -/
def getcSem (tt : TT) (xd : XReg) (csr : BitVec 12) (s : State) : OpSem := aluX s tt 1 xd (s.csr csr.toNat)

def execGetc (tt : TT) (xd : XReg) (csr : BitVec 12) (s : State) : Host.Outcome State Fault Refusal :=
  (getcSem tt xd csr s).run slotS [] s

/-- The limits of a loop-level register (R51, R71). -/
def Ctx.levelValueOk (x : Ctx) (f : Nat) (v : W64) : Bool :=
  match f with
  | 0 => decide (v.toNat < 2 ^ 32)
  | 1 => v.extractLsb' 0 6 == 0
  | 2 => v.extractLsb' 0 6 == 0
  | 3 => decide (v.toNat < 2 ^ 32)
  | _ =>
    let rsz := bitsOf v.toNat 4 5
    let rrb := bitsOf v.toNat 9 7
    decide (v.toNat < 2 ^ 17 ∧ rsz ≤ 16 ∧ 8 * rsz ≤ x.regs.va.size ∧ 8 * rsz ≤ x.regs.vb.size)
      && (if rsz = 0 then decide (rrb = 0) else decide (rrb < 8 * rsz))

/-- A PUTC value keeps the limits of R51, R71, R256 and R388. -/
def Ctx.putcOk (x : Ctx) (n : Nat) (v : W64) : Bool :=
  if n = 0x019 ∨ n = 0x021 then decide (v.toNat < 2)
  else if n = 0x020 then decide (v.toNat ≤ 6)
  else if n = 0x124 then decide (v.toNat < 512)
  else if 0x040 ≤ n ∧ n < 0x070 then
    decide ((n - 0x040) / 8 < x.levels.length) && x.levelValueOk ((n - 0x040) % 8) v
  else true

/-- PUTC (R71, R72, R388). -/
def putcSem (tt : TT) (csr : BitVec 12) (xa : XReg) (s : State) : OpSem :=
  let v := s.me.xr xa
  .inHandler s (csrHandlerOnly csr.toNat) (.guarded s tt
    { faults := if s.me.putcOk csr.toNat v then [] else [⟨0x05, slotS, 0, 0⟩]
      holds := 0
      effect := fun r => r.push64 1 (.csr csr.toNat) v })

def execPutc (tt : TT) (csr : BitVec 12) (xa : XReg) (s : State) : Host.Outcome State Fault Refusal :=
  (putcSem tt csr xa s).run slotS [] s

/-- FMT once every FMTSET in flight has landed (R81). -/
def Ctx.fmtAhead (x : Ctx) : W32 :=
  (sortBy (fun w => w.land) (x.pend.filter (fun w => w.dest == .csr 0x018))).foldl
    (fun f w => mergeBits f (w.value.truncate 32) (w.mask.truncate 32)) x.csr.fmt

/-- FMTSET: the merge lands at t + 4; a reserved code in a field that the mask selects raises BAD_CONTROL, whatever the others hold
(R81, R116). -/
def fmtsetSem (tt : TT) (xa : XReg) (mask : W32) (s : State) : OpSem :=
  let v := f32X (s.me.xr xa)
  .guarded s tt
    { faults := if fmtLegalIn (mergeBits s.me.fmtAhead v mask).toNat mask.toNat then [] else [⟨0x05, slotS, 0, 0⟩]
      holds := 0
      effect := fun r => r.push 4 (.csr 0x018) (toVec mask) (toVec v) }

def execFmtset (tt : TT) (xa : XReg) (mask : W32) (s : State) : Host.Outcome State Fault Refusal :=
  (fmtsetSem tt xa mask s).run slotS [] s

end Sys2Proof.Machine
end

