-- ==== Sys2Proof/Machine/Vector.lean ====
section
/-! DEFINITION. The vector slots: integer and floating-point lanes, compares, divide and square root, classes, lane moves,
conversions, packing, reductions, the dither forms, PLUT and PMOV (R93 to R96, R139 to R165). -/

namespace Sys2Proof.Machine

/-- The vector that a V-slot number names, as read at issue. -/
def State.vec (s : State) (v : VReg) : Vec := s.me.read (s.me.vreg v)

/-- The numbers of a V slot that lie beyond both windows (R145). -/
def State.badV (s : State) (vs : List VReg) : List Nat := (vs.filter s.me.vregBad).map (fun v => v.toNat)

/-- A vector result in the lanes whose guard holds (R150, R165). -/
def vecOp (s : State) (tt : TT) (lat : Nat) (vd : VReg) (f : Nat → W32) : OpSem :=
  let d := s.me.vreg vd
  let m := s.guardMask tt
  let v := vecOf f
  if s.anyLane tt then .pure (fun r => r.push lat d m v) else .idle

/-- A vector result with NF lane by lane (R150). -/
def vecNf (s : State) (vu : VUnit) (tt : TT) (lat : Nat) (vd : VReg) (f : Nat → W32 × Bool) : OpSem :=
  let d := s.me.vreg vd
  let m := s.guardMask tt
  let v := vecOf (fun i => (f i).1)
  let ls := s.lanesOn tt
  let nfte := fmtNfte s.fmt
  if s.anyLane tt then .pure (fun r => (r.push lat d m v).nfLanes lat (slotV vu) ls (fun i => (f i).2) nfte) else .idle

/-- A floating-point vector result: NF where a written lane is NaN or infinite (R150). -/
def vecFp (s : State) (vu : VUnit) (tt : TT) (lat : Nat) (vd : VReg) (f : Nat → W32) : OpSem :=
  vecNf s vu tt lat vd (fun i => (f i, f32NonFinite (f i)))

/-! ## Integer sub-lanes (R151) -/

/-- The sub-lane width of a W code. -/
def subWidth (w : Nat) : Nat := match w with
  | 0 => 32
  | 1 => 16
  | _ => 8

/-- A lane made sub-lane by sub-lane. -/
def subLanes (n : Nat) (f : Nat → Nat) : W32 :=
  BitVec.ofNat 32 ((List.range (32 / n)).foldl (fun acc j => acc + f j % 2 ^ n * 2 ^ (n * j)) 0)

/-- Sub-lane j of a lane. -/
def subLane (n : Nat) (a : W32) (j : Nat) : Nat := bitsOf a.toNat (n * j) n

/-- A two-operand integer form. -/
def vecInt2 (s : State) (tt : TT) (vd va vb : VReg) (w : BitVec 2) (f : Nat → Nat → Nat → Nat) : OpSem :=
  let n := subWidth w.toNat
  let a := s.vec va
  let b := s.vec vb
  vecOp s tt 2 vd (fun i => subLanes n (fun j => f n (subLane n (lane a i) j) (subLane n (lane b i) j)))

/-- A one-operand integer form. -/
def vecInt1 (s : State) (tt : TT) (vd va : VReg) (w : BitVec 2) (f : Nat → Nat → Nat) : OpSem :=
  let n := subWidth w.toNat
  let a := s.vec va
  vecOp s tt 2 vd (fun i => subLanes n (fun j => f n (subLane n (lane a i) j)))

/-- Clamp an integer to a range. -/
def clampInt (lo hi i : Int) : Int := max lo (min hi i)

/-- ADD and SUB under SATI; u and v are the exact unsigned and signed results (R151). -/
def satInt (n sati : Nat) (u v : Int) : Nat :=
  match sati with
  | 0 => unsignedOf n u
  | 1 => unsignedOf n (clampInt (-(2 ^ (n - 1) : Nat)) ((2 ^ (n - 1) : Nat) - 1) v)
  | _ => (clampInt 0 ((2 ^ n : Nat) - 1) u).toNat

def subAdd (sati n a b : Nat) : Nat := satInt n sati ((a : Int) + b) (signed n a + signed n b)
def subSub (sati n a b : Nat) : Nat := satInt n sati ((a : Int) - b) (signed n a - signed n b)
def subMulh (n a b : Nat) : Nat := unsignedOf n (signed n a * signed n b / (2 ^ n : Nat))
def subSar (n a b : Nat) : Nat := unsignedOf n (signed n a / (2 ^ (b % n) : Nat))

/-! ## Packed codes (R140) -/

/-- The bits of a list of code positions of width w. -/
def codesMask (w : Nat) (ps : List Nat) : Vec := BitVec.ofNat 1024 (ps.foldl (fun acc i => acc + (2 ^ w - 1) * 2 ^ (w * i)) 0)

/-- Codes placed at positions of width w. -/
def codesVec (w : Nat) (cs : List (Nat × Nat)) : Vec :=
  BitVec.ofNat 1024 (cs.foldl (fun acc c => acc + c.2 % 2 ^ w * 2 ^ (w * c.1)) 0)

/-- A write of codes at positions of vd, with NF (R141, R158). codes holds lane, position, code and NF. -/
def vecCodes (s : State) (vu : VUnit) (tt : TT) (lat : Nat) (vd : VReg) (w : Nat) (f : Nat → List (Nat × Enc)) : OpSem :=
  let d := s.me.vreg vd
  let ls := s.lanesOn tt
  let cs := ls.flatMap f
  let m := codesMask w (cs.map (·.1))
  let v := codesVec w (cs.map (fun c => (c.1, c.2.code)))
  let nfte := fmtNfte s.fmt
  if s.anyLane tt then
    .pure (fun r => (r.push lat d m v).nfLanes lat (slotV vu) ls (fun i => (f i).any (fun c => c.2.nf)) nfte)
  else .idle

/-- The formats whose subnormals flush in exposed mode (R114). -/
def Fmt.isWide (f : Fmt) : Bool := f == .fp32 || f == .fp16 || f == .bf16

/-- The fmt field as a format. -/
def fmt4 (f : BitVec 4) : Fmt := (fmtOfCode f.toNat).getD .fp32

/-! ## Classes (R154, R155) -/

/-- The class mask of an FP32 code. -/
def fclass (a : W32) : W32 :=
  let s := a.getLsbD 31
  let e := bitsOf a.toNat 23 8
  let f := bitsOf a.toNat 0 23
  if e = 255 then (if f ≠ 0 then 256 else if s then 1 else 128)
  else if e = 0 then (if f = 0 then (if s then 8 else 16) else if s then 4 else 32)
  else if s then 2 else 64

/-- The non-finite test of VNFIN on a lane. -/
def laneNonFinite (fmt : Nat) (a : W32) : Bool :=
  match fmt with
  | 0 => f32NonFinite a
  | 1 => bitsOf a.toNat 10 5 == 31 || bitsOf a.toNat 26 5 == 31
  | _ => bitsOf a.toNat 7 8 == 255 || bitsOf a.toNat 23 8 == 255

/-! ## Conversions and reductions (R157 to R164) -/

/-- VCVT of one lane (R157). -/
def vcvtLane (flush sat : Bool) (rm : RM) (sf df : Fmt) (a : W32) : W32 × Bool :=
  let v := decodeFlush sf flush (a.toNat % 2 ^ sf.bits)
  let e := Enc.received (if df = .fp32 then encodeVal .fp32 rm false 0 v else encodeVal df rm sat 0 v) df
  (BitVec.ofNat 32 (flushCode df flush e.code), e.nf)

/-- The encode of VPACK, without dither and scale (R158). -/
def packLane (flush sat : Bool) (rm : RM) (f : Fmt) (a : W32) : Enc :=
  if f.isInt then encodeVal f .rne false 0 (decodeCode .int32 a.toNat) else
    let e := (encodeVal f rm sat 0 (f32In flush a)).received f
    ⟨if f.isWide then flushCode f flush e.code else e.code, e.nf⟩

/-- The decode of VUNPK (R159). -/
def unpackCode (flush : Bool) (f : Fmt) (c : Nat) : W32 × Bool :=
  if f.isInt then (BitVec.ofInt 32 (signed f.bits c), false)
  else
    let v := if f.isWide then decodeFlush f flush c else decodeCode f c
    let r := BitVec.ofNat 32 (encodeVal .fp32 .rne false 0 v).code
    (if f = .bf16 then BitVec.ofNat 32 (flushCode .fp32 flush r.toNat) else r, f32NonFinite r)

/-- One level of the pairwise tree (R160). -/
def pairUp {α : Type} (op : α → α → α) : List α → List α
  | a :: b :: r => op a b :: pairUp op r
  | l => l

/-- The pairwise tree over 32 leaves (R160). -/
def vredTree (op : W32 → W32 → W32) (a : Vec) : W32 :=
  let t0 := (List.range 32).map (lane a)
  (pairUp op (pairUp op (pairUp op (pairUp op (pairUp op t0))))).headD 0

/-- VRED's operations (R160). -/
def vredOp (flush : Bool) (k : Nat) : W32 → W32 → W32 :=
  match k with
  | 0 => fun a b => a + b
  | 1 => f32Add flush .rne
  | 2 => f32MinMax true flush
  | _ => f32MinMax false flush

/-- The exact sum of four byte products (R161). -/
def dot4 (f : Fmt) (a b : W32) : Val :=
  (List.range 4).foldl (fun acc j =>
    valAdd .rne acc (valMul (decodeCode f (subLane 8 a j)) (decodeCode f (subLane 8 b j)))) Val.zero

/-- VDOT4 of one lane (R161). -/
def dot4Lane (flush : Bool) (f : Fmt) (a b c : W32) : W32 × Bool :=
  if f.isInt then
    let t := (List.range 4).foldl (fun (acc : Int) j => acc + signed 8 (subLane 8 a j) * signed 8 (subLane 8 b j)) 0
    (c + BitVec.ofInt 32 t, false)
  else
    let t := dot4 f a b
    let r := match t with
      | .nan => f32NaN
      | t => if t.isZero then f32Out flush .rne (f32In flush c) else f32Out flush .rne (valAdd .rne (f32In flush c) t)
    (r, f32NonFinite r)

/-- The largest magnitude of 32 lanes; NaN when a lane is NaN (R162). -/
def amaxOf (flush : Bool) (a : Vec) : W32 :=
  let ls := (List.range 32).map (lane a)
  if ls.any f32IsNaN then f32NaN
  else
    BitVec.ofNat 32 ((ls.map (fun l => flushCode .fp32 flush (l.toNat % 2 ^ 31))).foldl max 0)

/-- VSRND of one lane (R164). -/
def vsrndLane (flush sat : Bool) (fr : Frame) (den : Bool) (f : Fmt) (i : Nat) (a : W32) : W32 × Bool :=
  let e := (encodeVal f .sr sat (fr.draw den (fr.n0 + BitVec.ofNat 64 i)) (f32In flush a)).received f
  let v := decodeCode f e.code
  (BitVec.ofNat 32 (encodeVal .fp32 .rne false 0 v).code, e.nf)

/-- A frame as read at issue. -/
def State.frame (s : State) (f : Nat) : Frame := vget s.me.regs.df f Frame.zero

/-- The block scale that a form with scale enable uses, and whether its SC word is one of uniform mode (R120, R139). -/
def State.scale (s : State) (se : Bool) (k : Nat) : Nat := if se then scUni (vget s.me.regs.sc k 0) else unitScale
def State.scaleOk (s : State) (se : Bool) (k : Nat) : Bool := !se || scUniform (vget s.me.regs.sc k 0)

/-- BAD_CONTROL of a vector slot's SC word, when a lane's guard holds (R98, R120, R139). -/
def OpSem.withScale (o : OpSem) (s : State) (vu : VUnit) (tt : TT) (se : Bool) (k : Nat) : OpSem :=
  if s.anyLane tt && !s.scaleOk se k then { o with faults := ⟨0x05, slotV vu, 0, 0⟩ :: o.faults } else o

/-- VDITH of one lane (R141). -/
def vdithLane (fr : Frame) (den : Bool) (f : Fmt) (a : W32) : W32 :=
  let d := fr.offsetFor den f (fr.n0 + a.zeroExtend 64)
  f32Out false .rne (.fin ⟨decide (d < 0), d.natAbs, -5⟩)

/-- VQENC of one lane (R141). -/
def vqencLane (flush sat : Bool) (rm : RM) (fr : Frame) (den : Bool) (f : Fmt) (sc i : Nat) (a : W32) : Enc :=
  let e := (encScaled f rm (sat && f != .fp32) 0 (fr.offsetFor den f (fr.n0 + BitVec.ofNat 64 i)) sc (f32In flush a)).received f
  ⟨if f.isWide then flushCode f flush e.code else e.code, e.nf⟩

/-- VQDEC of one code (R141). -/
def vqdecLane (flush : Bool) (rm : RM) (fr : Frame) (den : Bool) (f : Fmt) (sc i : Nat) (c : Nat) : W32 :=
  let c := if f.isWide then flushCode f flush c else c
  decToF32 flush rm f c (fr.offsetFor den f (fr.n0 + BitVec.ofNat 64 i)) sc


/-- FABS and FNEG: the sign changed, subnormals flushed, a NaN canonical (R152). -/
def f32SignOp (flush inv : Bool) (a : W32) : W32 :=
  if f32IsNaN a then f32NaN
  else
    let c := BitVec.ofNat 32 (flushCode .fp32 flush a.toNat)
    if inv then c ^^^ 0x80000000 else c &&& 0x7FFFFFFF

/-- A divide takes the core's unit for its issue cycle when a lane's guard holds (R147). -/
def OpSem.takesDivider (o : OpSem) (s : State) (tt : TT) : OpSem :=
  if s.anyLane tt then
    { o with effect := fun r =>
        let r := o.effect r
        r.onCore r.cur.1 (fun c => { c with lastDivide := some r.t }) }
  else o

/-! ## Meanings -/

/-- ADD in a vector slot (R151). -/
def vAddSem (_vu : VUnit) (tt : TT) (vd va vb : VReg) (w sati : BitVec 2) (s : State) : OpSem :=
  vecInt2 s tt vd va vb w (subAdd sati.toNat)

def execVAdd (vu : VUnit) (tt : TT) (vd va vb : VReg) (w sati : BitVec 2) (s : State) : Host.Outcome State Fault Refusal :=
  (vAddSem vu tt vd va vb w sati s).run (slotV vu) (s.badV [vd, va, vb]) s

/-- SUB in a vector slot (R151). -/
def vSubSem (_vu : VUnit) (tt : TT) (vd va vb : VReg) (w sati : BitVec 2) (s : State) : OpSem :=
  vecInt2 s tt vd va vb w (subSub sati.toNat)

def execVSub (vu : VUnit) (tt : TT) (vd va vb : VReg) (w sati : BitVec 2) (s : State) : Host.Outcome State Fault Refusal :=
  (vSubSem vu tt vd va vb w sati s).run (slotV vu) (s.badV [vd, va, vb]) s

/-- MUL in a vector slot (R151). -/
def vMulSem (_vu : VUnit) (tt : TT) (vd va vb : VReg) (w : BitVec 2) (s : State) : OpSem :=
  vecInt2 s tt vd va vb w (fun _ a b => a * b)

def execVMul (vu : VUnit) (tt : TT) (vd va vb : VReg) (w : BitVec 2) (s : State) : Host.Outcome State Fault Refusal :=
  (vMulSem vu tt vd va vb w s).run (slotV vu) (s.badV [vd, va, vb]) s

/-- MULH in a vector slot (R151). -/
def vMulhSem (_vu : VUnit) (tt : TT) (vd va vb : VReg) (w : BitVec 2) (s : State) : OpSem :=
  vecInt2 s tt vd va vb w (subMulh)

def execVMulh (vu : VUnit) (tt : TT) (vd va vb : VReg) (w : BitVec 2) (s : State) : Host.Outcome State Fault Refusal :=
  (vMulhSem vu tt vd va vb w s).run (slotV vu) (s.badV [vd, va, vb]) s

/-- MULHU in a vector slot (R151). -/
def vMulhuSem (_vu : VUnit) (tt : TT) (vd va vb : VReg) (w : BitVec 2) (s : State) : OpSem :=
  vecInt2 s tt vd va vb w (fun n a b => a * b / 2 ^ n)

def execVMulhu (vu : VUnit) (tt : TT) (vd va vb : VReg) (w : BitVec 2) (s : State) : Host.Outcome State Fault Refusal :=
  (vMulhuSem vu tt vd va vb w s).run (slotV vu) (s.badV [vd, va, vb]) s

/-- AND in a vector slot (R151). -/
def vAndSem (_vu : VUnit) (tt : TT) (vd va vb : VReg) (w : BitVec 2) (s : State) : OpSem :=
  vecInt2 s tt vd va vb w (fun _ a b => a &&& b)

def execVAnd (vu : VUnit) (tt : TT) (vd va vb : VReg) (w : BitVec 2) (s : State) : Host.Outcome State Fault Refusal :=
  (vAndSem vu tt vd va vb w s).run (slotV vu) (s.badV [vd, va, vb]) s

/-- OR in a vector slot (R151). -/
def vOrSem (_vu : VUnit) (tt : TT) (vd va vb : VReg) (w : BitVec 2) (s : State) : OpSem :=
  vecInt2 s tt vd va vb w (fun _ a b => a ||| b)

def execVOr (vu : VUnit) (tt : TT) (vd va vb : VReg) (w : BitVec 2) (s : State) : Host.Outcome State Fault Refusal :=
  (vOrSem vu tt vd va vb w s).run (slotV vu) (s.badV [vd, va, vb]) s

/-- XOR in a vector slot (R151). -/
def vXorSem (_vu : VUnit) (tt : TT) (vd va vb : VReg) (w : BitVec 2) (s : State) : OpSem :=
  vecInt2 s tt vd va vb w (fun _ a b => a ^^^ b)

def execVXor (vu : VUnit) (tt : TT) (vd va vb : VReg) (w : BitVec 2) (s : State) : Host.Outcome State Fault Refusal :=
  (vXorSem vu tt vd va vb w s).run (slotV vu) (s.badV [vd, va, vb]) s

/-- ANDN in a vector slot (R151). -/
def vAndnSem (_vu : VUnit) (tt : TT) (vd va vb : VReg) (w : BitVec 2) (s : State) : OpSem :=
  vecInt2 s tt vd va vb w (fun n a b => a &&& (2 ^ n - 1 - b))

def execVAndn (vu : VUnit) (tt : TT) (vd va vb : VReg) (w : BitVec 2) (s : State) : Host.Outcome State Fault Refusal :=
  (vAndnSem vu tt vd va vb w s).run (slotV vu) (s.badV [vd, va, vb]) s

/-- SHL in a vector slot (R151). -/
def vShlSem (_vu : VUnit) (tt : TT) (vd va vb : VReg) (w : BitVec 2) (s : State) : OpSem :=
  vecInt2 s tt vd va vb w (fun n a b => a * 2 ^ (b % n))

def execVShl (vu : VUnit) (tt : TT) (vd va vb : VReg) (w : BitVec 2) (s : State) : Host.Outcome State Fault Refusal :=
  (vShlSem vu tt vd va vb w s).run (slotV vu) (s.badV [vd, va, vb]) s

/-- SHR in a vector slot (R151). -/
def vShrSem (_vu : VUnit) (tt : TT) (vd va vb : VReg) (w : BitVec 2) (s : State) : OpSem :=
  vecInt2 s tt vd va vb w (fun n a b => a / 2 ^ (b % n))

def execVShr (vu : VUnit) (tt : TT) (vd va vb : VReg) (w : BitVec 2) (s : State) : Host.Outcome State Fault Refusal :=
  (vShrSem vu tt vd va vb w s).run (slotV vu) (s.badV [vd, va, vb]) s

/-- SAR in a vector slot (R151). -/
def vSarSem (_vu : VUnit) (tt : TT) (vd va vb : VReg) (w : BitVec 2) (s : State) : OpSem :=
  vecInt2 s tt vd va vb w (subSar)

def execVSar (vu : VUnit) (tt : TT) (vd va vb : VReg) (w : BitVec 2) (s : State) : Host.Outcome State Fault Refusal :=
  (vSarSem vu tt vd va vb w s).run (slotV vu) (s.badV [vd, va, vb]) s

/-- MIN in a vector slot (R151). -/
def vMinSem (_vu : VUnit) (tt : TT) (vd va vb : VReg) (w : BitVec 2) (s : State) : OpSem :=
  vecInt2 s tt vd va vb w (fun n a b => if signed n a < signed n b then a else b)

def execVMin (vu : VUnit) (tt : TT) (vd va vb : VReg) (w : BitVec 2) (s : State) : Host.Outcome State Fault Refusal :=
  (vMinSem vu tt vd va vb w s).run (slotV vu) (s.badV [vd, va, vb]) s

/-- MAX in a vector slot (R151). -/
def vMaxSem (_vu : VUnit) (tt : TT) (vd va vb : VReg) (w : BitVec 2) (s : State) : OpSem :=
  vecInt2 s tt vd va vb w (fun n a b => if signed n a < signed n b then b else a)

def execVMax (vu : VUnit) (tt : TT) (vd va vb : VReg) (w : BitVec 2) (s : State) : Host.Outcome State Fault Refusal :=
  (vMaxSem vu tt vd va vb w s).run (slotV vu) (s.badV [vd, va, vb]) s

/-- MINU in a vector slot (R151). -/
def vMinuSem (_vu : VUnit) (tt : TT) (vd va vb : VReg) (w : BitVec 2) (s : State) : OpSem :=
  vecInt2 s tt vd va vb w (fun _ a b => min a b)

def execVMinu (vu : VUnit) (tt : TT) (vd va vb : VReg) (w : BitVec 2) (s : State) : Host.Outcome State Fault Refusal :=
  (vMinuSem vu tt vd va vb w s).run (slotV vu) (s.badV [vd, va, vb]) s

/-- MAXU in a vector slot (R151). -/
def vMaxuSem (_vu : VUnit) (tt : TT) (vd va vb : VReg) (w : BitVec 2) (s : State) : OpSem :=
  vecInt2 s tt vd va vb w (fun _ a b => max a b)

def execVMaxu (vu : VUnit) (tt : TT) (vd va vb : VReg) (w : BitVec 2) (s : State) : Host.Outcome State Fault Refusal :=
  (vMaxuSem vu tt vd va vb w s).run (slotV vu) (s.badV [vd, va, vb]) s

/-- CLZ in a vector slot (R151). -/
def vClzSem (_vu : VUnit) (tt : TT) (vd va : VReg) (w : BitVec 2) (s : State) : OpSem :=
  vecInt1 s tt vd va w (fun n a => n - bitLen a)

def execVClz (vu : VUnit) (tt : TT) (vd va : VReg) (w : BitVec 2) (s : State) : Host.Outcome State Fault Refusal :=
  (vClzSem vu tt vd va w s).run (slotV vu) (s.badV [vd, va]) s

/-- POPC in a vector slot (R151). -/
def vPopcSem (_vu : VUnit) (tt : TT) (vd va : VReg) (w : BitVec 2) (s : State) : OpSem :=
  vecInt1 s tt vd va w (fun n a => popCount n a)

def execVPopc (vu : VUnit) (tt : TT) (vd va : VReg) (w : BitVec 2) (s : State) : Host.Outcome State Fault Refusal :=
  (vPopcSem vu tt vd va w s).run (slotV vu) (s.badV [vd, va]) s

/-- ABS in a vector slot (R151). -/
def vAbsSem (_vu : VUnit) (tt : TT) (vd va : VReg) (w : BitVec 2) (s : State) : OpSem :=
  vecInt1 s tt vd va w (fun n a => (signed n a).natAbs)

def execVAbs (vu : VUnit) (tt : TT) (vd va : VReg) (w : BitVec 2) (s : State) : Host.Outcome State Fault Refusal :=
  (vAbsSem vu tt vd va w s).run (slotV vu) (s.badV [vd, va]) s

/-- CMP in a vector slot (R93). -/
def vCmpSem (_vu : VUnit) (tt : TT) (pd0 pd1 : PReg) (pwt : BitVec 2) (cond : BitVec 4) (va vb : VReg) (s : State) : OpSem :=
  let a := s.vec va
  let b := s.vec vb
  let w := fun i => pairWrite pwt.toNat (s.on tt i) (intCond cond.toNat (lane a i) (lane b i))
  .pure (fun r => r.pushPair pd0 pd1 w)

def execVCmp (vu : VUnit) (tt : TT) (pd0 pd1 : PReg) (pwt : BitVec 2) (cond : BitVec 4) (va vb : VReg) (s : State) : Host.Outcome State Fault Refusal :=
  (vCmpSem vu tt pd0 pd1 pwt cond va vb s).run (slotV vu) (s.badV [va, vb]) s

/-- FCMP in a vector slot (R93). -/
def vFcmpSem (_vu : VUnit) (tt : TT) (pd0 pd1 : PReg) (pwt : BitVec 2) (cond : BitVec 4) (va vb : VReg) (s : State) : OpSem :=
  let a := s.vec va
  let b := s.vec vb
  let w := fun i => pairWrite pwt.toNat (s.on tt i) (f32Cond s.flushes cond.toNat (lane a i) (lane b i))
  .pure (fun r => r.pushPair pd0 pd1 w)

def execVFcmp (vu : VUnit) (tt : TT) (pd0 pd1 : PReg) (pwt : BitVec 2) (cond : BitVec 4) (va vb : VReg) (s : State) : Host.Outcome State Fault Refusal :=
  (vFcmpSem vu tt pd0 pd1 pwt cond va vb s).run (slotV vu) (s.badV [va, vb]) s

/-- FADD in a vector slot (R152). -/
def vFaddSem (vu : VUnit) (tt : TT) (vd va vb : VReg) (rm : BitVec 3) (s : State) : OpSem :=
  let a := s.vec va
  let b := s.vec vb
  vecFp s vu tt 4 vd (fun i => f32Add s.flushes (s.rm rm.toNat) (lane a i) (lane b i))

def execVFadd (vu : VUnit) (tt : TT) (vd va vb : VReg) (rm : BitVec 3) (s : State) : Host.Outcome State Fault Refusal :=
  (vFaddSem vu tt vd va vb rm s).run (slotV vu) (s.badV [vd, va, vb]) s

/-- FSUB in a vector slot (R152). -/
def vFsubSem (vu : VUnit) (tt : TT) (vd va vb : VReg) (rm : BitVec 3) (s : State) : OpSem :=
  let a := s.vec va
  let b := s.vec vb
  vecFp s vu tt 4 vd (fun i => f32Sub s.flushes (s.rm rm.toNat) (lane a i) (lane b i))

def execVFsub (vu : VUnit) (tt : TT) (vd va vb : VReg) (rm : BitVec 3) (s : State) : Host.Outcome State Fault Refusal :=
  (vFsubSem vu tt vd va vb rm s).run (slotV vu) (s.badV [vd, va, vb]) s

/-- FMUL in a vector slot (R152). -/
def vFmulSem (vu : VUnit) (tt : TT) (vd va vb : VReg) (rm : BitVec 3) (s : State) : OpSem :=
  let a := s.vec va
  let b := s.vec vb
  vecFp s vu tt 4 vd (fun i => f32Mul s.flushes (s.rm rm.toNat) (lane a i) (lane b i))

def execVFmul (vu : VUnit) (tt : TT) (vd va vb : VReg) (rm : BitVec 3) (s : State) : Host.Outcome State Fault Refusal :=
  (vFmulSem vu tt vd va vb rm s).run (slotV vu) (s.badV [vd, va, vb]) s

/-- FFMA in a vector slot (R152). -/
def vFfmaSem (vu : VUnit) (tt : TT) (vd va vb vc : VReg) (rm : BitVec 3) (s : State) : OpSem :=
  let a := s.vec va
  let b := s.vec vb
  let c := s.vec vc
  vecFp s vu tt 4 vd (fun i => f32Fma s.flushes (s.rm rm.toNat) (lane a i) (lane b i) (lane c i))

def execVFfma (vu : VUnit) (tt : TT) (vd va vb vc : VReg) (rm : BitVec 3) (s : State) : Host.Outcome State Fault Refusal :=
  (vFfmaSem vu tt vd va vb vc rm s).run (slotV vu) (s.badV [vd, va, vb, vc]) s

/-- FMIN in a vector slot (R152). -/
def vFminSem (vu : VUnit) (tt : TT) (vd va vb : VReg) (s : State) : OpSem :=
  let a := s.vec va
  let b := s.vec vb
  vecFp s vu tt 4 vd (fun i => f32MinMax false s.flushes (lane a i) (lane b i))

def execVFmin (vu : VUnit) (tt : TT) (vd va vb : VReg) (s : State) : Host.Outcome State Fault Refusal :=
  (vFminSem vu tt vd va vb s).run (slotV vu) (s.badV [vd, va, vb]) s

/-- FMAX in a vector slot (R152). -/
def vFmaxSem (vu : VUnit) (tt : TT) (vd va vb : VReg) (s : State) : OpSem :=
  let a := s.vec va
  let b := s.vec vb
  vecFp s vu tt 4 vd (fun i => f32MinMax true s.flushes (lane a i) (lane b i))

def execVFmax (vu : VUnit) (tt : TT) (vd va vb : VReg) (s : State) : Host.Outcome State Fault Refusal :=
  (vFmaxSem vu tt vd va vb s).run (slotV vu) (s.badV [vd, va, vb]) s

/-- FABS (R152). -/
def vFabsSem (vu : VUnit) (tt : TT) (vd va : VReg) (s : State) : OpSem :=
  let a := s.vec va
  vecFp s vu tt 4 vd (fun i => f32SignOp s.flushes false (lane a i))

def execVFabs (vu : VUnit) (tt : TT) (vd va : VReg) (s : State) : Host.Outcome State Fault Refusal :=
  (vFabsSem vu tt vd va s).run (slotV vu) (s.badV [vd, va]) s

/-- FNEG (R152). -/
def vFnegSem (vu : VUnit) (tt : TT) (vd va : VReg) (s : State) : OpSem :=
  let a := s.vec va
  vecFp s vu tt 4 vd (fun i => f32SignOp s.flushes true (lane a i))

def execVFneg (vu : VUnit) (tt : TT) (vd va : VReg) (s : State) : Host.Outcome State Fault Refusal :=
  (vFnegSem vu tt vd va s).run (slotV vu) (s.badV [vd, va]) s

/-- VFCLASS (R154). -/
def vfclassSem (_vu : VUnit) (tt : TT) (vd va : VReg) (s : State) : OpSem :=
  let a := s.vec va
  vecOp s tt 2 vd (fun i => fclass (lane a i))

def execVfclass (vu : VUnit) (tt : TT) (vd va : VReg) (s : State) : Host.Outcome State Fault Refusal :=
  (vfclassSem vu tt vd va s).run (slotV vu) (s.badV [vd, va]) s

/-- VNFIN (R155). -/
def vnfinSem (vu : VUnit) (tt : TT) (pd0 pd1 : PReg) (pwt : BitVec 2) (va : VReg) (fmt : BitVec 4) (s : State) : OpSem :=
  let a := s.vec va
  let c := fun i => laneNonFinite fmt.toNat (lane a i)
  let w := fun i => pairWrite pwt.toNat (s.on tt i) (c i)
  let nf := (s.lanesOn tt).any c
  .pure (fun r => (r.pushPair pd0 pd1 w).pushNf 2 nf false (slotV vu) 0)

def execVnfin (vu : VUnit) (tt : TT) (pd0 pd1 : PReg) (pwt : BitVec 2) (va : VReg) (fmt : BitVec 4) (s : State) : Host.Outcome State Fault Refusal :=
  (vnfinSem vu tt pd0 pd1 pwt va fmt s).run (slotV vu) (s.badV [va]) s

/-- VFDIV (R153). -/
def vfdivSem (vu : VUnit) (tt : TT) (vd va vb : VReg) (rm : BitVec 3) (s : State) : OpSem :=
  let a := s.vec va
  let b := s.vec vb
  (vecFp s vu tt 12 vd (fun i => f32Div s.flushes (s.rm rm.toNat) (lane a i) (lane b i))).takesDivider s tt

def execVfdiv (vu : VUnit) (tt : TT) (vd va vb : VReg) (rm : BitVec 3) (s : State) : Host.Outcome State Fault Refusal :=
  (vfdivSem vu tt vd va vb rm s).run (slotV vu) (s.badV [vd, va, vb]) s

/-- VFSQRT (R153). -/
def vfsqrtSem (vu : VUnit) (tt : TT) (vd va : VReg) (rm : BitVec 3) (s : State) : OpSem :=
  let a := s.vec va
  (vecFp s vu tt 12 vd (fun i => f32Sqrt s.flushes (s.rm rm.toNat) (lane a i))).takesDivider s tt

def execVfsqrt (vu : VUnit) (tt : TT) (vd va : VReg) (rm : BitVec 3) (s : State) : Host.Outcome State Fault Refusal :=
  (vfsqrtSem vu tt vd va rm s).run (slotV vu) (s.badV [vd, va]) s

/-- VFRSQ (R153). -/
def vfrsqSem (vu : VUnit) (tt : TT) (vd va : VReg) (rm : BitVec 3) (s : State) : OpSem :=
  let a := s.vec va
  (vecFp s vu tt 12 vd (fun i => f32Rsq s.flushes (s.rm rm.toNat) (lane a i))).takesDivider s tt

def execVfrsq (vu : VUnit) (tt : TT) (vd va : VReg) (rm : BitVec 3) (s : State) : Host.Outcome State Fault Refusal :=
  (vfrsqSem vu tt vd va rm s).run (slotV vu) (s.badV [vd, va]) s

/-- VFRCP (R153). -/
def vfrcpSem (vu : VUnit) (tt : TT) (vd va : VReg) (rm : BitVec 3) (s : State) : OpSem :=
  let a := s.vec va
  (vecFp s vu tt 12 vd (fun i => f32Rcp s.flushes (s.rm rm.toNat) (lane a i))).takesDivider s tt

def execVfrcp (vu : VUnit) (tt : TT) (vd va : VReg) (rm : BitVec 3) (s : State) : Host.Outcome State Fault Refusal :=
  (vfrcpSem vu tt vd va rm s).run (slotV vu) (s.badV [vd, va]) s

/-- VLANE (R156). -/
def vlaneSem (_vu : VUnit) (tt : TT) (vd va : VReg) (lane_ : BitVec 5) (s : State) : OpSem :=
  let a := s.vec va
  let d := s.me.vreg vd
  if s.on tt lane_.toNat then .pure (fun r => r.push 2 d (laneMask lane_.toNat) (vecOf (fun _ => lane a 0))) else .idle

def execVlane (vu : VUnit) (tt : TT) (vd va : VReg) (lane_ : BitVec 5) (s : State) : Host.Outcome State Fault Refusal :=
  (vlaneSem vu tt vd va lane_ s).run (slotV vu) (s.badV [vd, va]) s

/-- VBCAST (R156). -/
def vbcastSem (_vu : VUnit) (tt : TT) (vd va : VReg) (lane_ : BitVec 5) (s : State) : OpSem :=
  let a := s.vec va
  vecOp s tt 2 vd (fun _ => lane a lane_.toNat)

def execVbcast (vu : VUnit) (tt : TT) (vd va : VReg) (lane_ : BitVec 5) (s : State) : Host.Outcome State Fault Refusal :=
  (vbcastSem vu tt vd va lane_ s).run (slotV vu) (s.badV [vd, va]) s

/-- VPERM (R156). -/
def vpermSem (_vu : VUnit) (tt : TT) (vd va vb : VReg) (s : State) : OpSem :=
  let a := s.vec va
  let b := s.vec vb
  vecOp s tt 2 vd (fun i => if (lane b i).toNat < 32 then lane a (lane b i).toNat else 0)

def execVperm (vu : VUnit) (tt : TT) (vd va vb : VReg) (s : State) : Host.Outcome State Fault Refusal :=
  (vpermSem vu tt vd va vb s).run (slotV vu) (s.badV [vd, va, vb]) s

/-- VSLIDE (R156). -/
def vslideSem (_vu : VUnit) (tt : TT) (vd va vb : VReg) (amount_ : BitVec 5) (down : Bool) (s : State) : OpSem :=
  let a := s.vec va
  let b := s.vec vb
  let k := amount_.toNat
  vecOp s tt 2 vd (fun i =>
    if down then (if i + k < 32 then lane a (i + k) else lane b (i + k - 32))
    else if k ≤ i then lane a (i - k) else lane b (32 - k + i))

def execVslide (vu : VUnit) (tt : TT) (vd va vb : VReg) (amount_ : BitVec 5) (down : Bool) (s : State) : Host.Outcome State Fault Refusal :=
  (vslideSem vu tt vd va vb amount_ down s).run (slotV vu) (s.badV [vd, va, vb]) s

/-- VPACK (R158). -/
def vpackSem (vu : VUnit) (tt : TT) (vd va vb : VReg) (fmt : BitVec 4) (s : State) : OpSem :=
  let a := s.vec va
  let b := s.vec vb
  let f := fmt4 fmt
  let enc := packLane s.flushes (fmtSat s.fmt) (s.rm 0) f
  vecCodes s vu tt 3 vd f.bits (fun i => [(i, enc (lane a i)), (32 + i, enc (lane b i))])

def execVpack (vu : VUnit) (tt : TT) (vd va vb : VReg) (fmt : BitVec 4) (s : State) : Host.Outcome State Fault Refusal :=
  (vpackSem vu tt vd va vb fmt s).run (slotV vu) (s.badV [vd, va, vb]) s

/-- VUNPK (R159). -/
def vunpkSem (vu : VUnit) (tt : TT) (vd va : VReg) (fmt : BitVec 4) (part : BitVec 2) (s : State) : OpSem :=
  let a := s.vec va
  let f := fmt4 fmt
  vecNf s vu tt 3 vd (fun i => unpackCode s.flushes f (codeAt a f.bits (32 * part.toNat + i)))

def execVunpk (vu : VUnit) (tt : TT) (vd va : VReg) (fmt : BitVec 4) (part : BitVec 2) (s : State) : Host.Outcome State Fault Refusal :=
  (vunpkSem vu tt vd va fmt part s).run (slotV vu) (s.badV [vd, va]) s

/-- VCVT (R157). -/
def vcvtSem (vu : VUnit) (tt : TT) (vd va : VReg) (sfmt dfmt : BitVec 4) (rm : BitVec 3) (s : State) : OpSem :=
  let a := s.vec va
  vecNf s vu tt 3 vd (fun i => vcvtLane s.flushes (fmtSat s.fmt) (s.rm rm.toNat) (fmt4 sfmt) (fmt4 dfmt) (lane a i))

def execVcvt (vu : VUnit) (tt : TT) (vd va : VReg) (sfmt dfmt : BitVec 4) (rm : BitVec 3) (s : State) : Host.Outcome State Fault Refusal :=
  (vcvtSem vu tt vd va sfmt dfmt rm s).run (slotV vu) (s.badV [vd, va]) s

/-- VRED (R160): every lane takes part. -/
def vredSem (vu : VUnit) (tt : TT) (vd va : VReg) (red : BitVec 2) (s : State) : OpSem :=
  let t := vredTree (vredOp s.flushes red.toNat) (s.vec va)
  if red.toNat = 0 then vecOp s tt 6 vd (fun _ => t) else vecFp s vu tt 10 vd (fun _ => t)

def execVred (vu : VUnit) (tt : TT) (vd va : VReg) (red : BitVec 2) (s : State) : Host.Outcome State Fault Refusal :=
  (vredSem vu tt vd va red s).run (slotV vu) (s.badV [vd, va]) s

/-- VDOT4 (R161). -/
def vdot4Sem (vu : VUnit) (tt : TT) (vd va vb vc : VReg) (fmt : BitVec 4) (s : State) : OpSem :=
  let a := s.vec va
  let b := s.vec vb
  let c := s.vec vc
  vecNf s vu tt 4 vd (fun i => dot4Lane s.flushes (fmt4 fmt) (lane a i) (lane b i) (lane c i))

def execVdot4 (vu : VUnit) (tt : TT) (vd va vb vc : VReg) (fmt : BitVec 4) (s : State) : Host.Outcome State Fault Refusal :=
  (vdot4Sem vu tt vd va vb vc fmt s).run (slotV vu) (s.badV [vd, va, vb, vc]) s

/-- VAMAX (R162): every lane takes part. -/
def vamaxSem (vu : VUnit) (tt : TT) (vd va : VReg) (s : State) : OpSem :=
  let m := amaxOf s.flushes (s.vec va)
  vecFp s vu tt 6 vd (fun _ => m)

def execVamax (vu : VUnit) (tt : TT) (vd va : VReg) (s : State) : Host.Outcome State Fault Refusal :=
  (vamaxSem vu tt vd va s).run (slotV vu) (s.badV [vd, va]) s

/-- VEXPO (R163). -/
def vexpoSem (vu : VUnit) (tt : TT) (vd va : VReg) (fmt : BitVec 4) (s : State) : OpSem :=
  let a := s.vec va
  let e := fun i => blockScale (fmt4 fmt) (f32In s.flushes (lane a i))
  vecNf s vu tt 3 vd (fun i => (BitVec.ofNat 32 (e i).code, (e i).nf))

def execVexpo (vu : VUnit) (tt : TT) (vd va : VReg) (fmt : BitVec 4) (s : State) : Host.Outcome State Fault Refusal :=
  (vexpoSem vu tt vd va fmt s).run (slotV vu) (s.badV [vd, va]) s

/-- VSRND (R164). -/
def vsrndSem (vu : VUnit) (tt : TT) (vd va : VReg) (frame : BitVec 3) (fmt : BitVec 4) (s : State) : OpSem :=
  let a := s.vec va
  vecNf s vu tt 3 vd (fun i =>
    vsrndLane s.flushes (fmtSat s.fmt) (s.frame frame.toNat) (fmtDen s.fmt) (fmt4 fmt) i (lane a i))

def execVsrnd (vu : VUnit) (tt : TT) (vd va : VReg) (frame : BitVec 3) (fmt : BitVec 4) (s : State) : Host.Outcome State Fault Refusal :=
  (vsrndSem vu tt vd va frame fmt s).run (slotV vu) (s.badV [vd, va]) s

/-- VDITH (R141). -/
def vdithSem (_vu : VUnit) (tt : TT) (vd va : VReg) (frame : BitVec 3) (fmt : BitVec 4) (s : State) : OpSem :=
  let a := s.vec va
  vecOp s tt 3 vd (fun i => vdithLane (s.frame frame.toNat) (fmtDen s.fmt) (fmt4 fmt) (lane a i))

def execVdith (vu : VUnit) (tt : TT) (vd va : VReg) (frame : BitVec 3) (fmt : BitVec 4) (s : State) : Host.Outcome State Fault Refusal :=
  (vdithSem vu tt vd va frame fmt s).run (slotV vu) (s.badV [vd, va]) s

/-- VQENC (R139, R141). -/
def vqencSem (vu : VUnit) (tt : TT) (vd va : VReg) (frame : BitVec 3) (sc : BitVec 4) (se : Bool) (fmt : BitVec 4) (s : State) : OpSem :=
  let a := s.vec va
  let f := fmt4 fmt
  let enc := vqencLane s.flushes (fmtSat s.fmt) (s.rm 0) (s.frame frame.toNat) (fmtDen s.fmt) f (s.scale se sc.toNat)
  (vecCodes s vu tt 3 vd f.bits (fun i => [(i, enc i (lane a i))])).withScale s vu tt se sc.toNat

def execVqenc (vu : VUnit) (tt : TT) (vd va : VReg) (frame : BitVec 3) (sc : BitVec 4) (se : Bool) (fmt : BitVec 4) (s : State) : Host.Outcome State Fault Refusal :=
  (vqencSem vu tt vd va frame sc se fmt s).run (slotV vu) (s.badV [vd, va]) s

/-- VQDEC (R139, R141). -/
def vqdecSem (vu : VUnit) (tt : TT) (vd va : VReg) (frame : BitVec 3) (sc : BitVec 4) (se : Bool) (fmt : BitVec 4) (s : State) : OpSem :=
  let a := s.vec va
  let f := fmt4 fmt
  let dec := vqdecLane s.flushes (s.rm 0) (s.frame frame.toNat) (fmtDen s.fmt) f (s.scale se sc.toNat)
  (vecFp s vu tt 3 vd (fun i => dec i (codeAt a f.bits i))).withScale s vu tt se sc.toNat

def execVqdec (vu : VUnit) (tt : TT) (vd va : VReg) (frame : BitVec 3) (sc : BitVec 4) (se : Bool) (fmt : BitVec 4) (s : State) : Host.Outcome State Fault Refusal :=
  (vqdecSem vu tt vd va frame sc se fmt s).run (slotV vu) (s.badV [vd, va]) s

/-- PLUT in a vector slot, lane by lane (R95). -/
def vPlutSem (_vu : VUnit) (tt : TT) (pd pa pb pc : PReg) (table : BitVec 8) (s : State) : OpSem :=
  let v := plut table (s.pr pa) (s.pr pb) (s.pr pc)
  let m := predOf (s.on tt)
  if s.anyLane tt then .pure (fun r => r.push 2 (.p pd.toNat) (toVec m) (toVec v)) else .idle

def execVPlut (vu : VUnit) (tt : TT) (pd pa pb pc : PReg) (table : BitVec 8) (s : State) : Host.Outcome State Fault Refusal :=
  (vPlutSem vu tt pd pa pb pc table s).run (slotV vu) [] s

/-- PMOV to a predicate (R96). -/
def pmovToPredicateSem (_vu : VUnit) (tt : TT) (pd : PReg) (va : VReg) (s : State) : OpSem :=
  let a := s.vec va
  let v := predOf (fun i => lane a i != 0)
  let m := predOf (s.on tt)
  if s.anyLane tt then .pure (fun r => r.push 2 (.p pd.toNat) (toVec m) (toVec v)) else .idle

def execPmovToPredicate (vu : VUnit) (tt : TT) (pd : PReg) (va : VReg) (s : State) : Host.Outcome State Fault Refusal :=
  (pmovToPredicateSem vu tt pd va s).run (slotV vu) (s.badV [va]) s

/-- PMOV to a vector register (R96). -/
def pmovToVectorSem (_vu : VUnit) (tt : TT) (vd : VReg) (pa : PReg) (s : State) : OpSem :=
  vecOp s tt 2 vd (fun i => if (s.pr pa).getLsbD i then BitVec.allOnes 32 else 0)

def execPmovToVector (vu : VUnit) (tt : TT) (vd : VReg) (pa : PReg) (s : State) : Host.Outcome State Fault Refusal :=
  (pmovToVectorSem vu tt vd pa s).run (slotV vu) (s.badV [vd]) s

end Sys2Proof.Machine
end

