-- ==== Sys2Proof/Machine/Node.lean ====
section
/-! DEFINITION. Grove nodes as data: shape and region words, leaf source ranges, block-scale arrays and the alias check
(R121, R224, R225, R229, R243). -/

namespace Sys2Proof.Machine

/-- A shape word's fields (R224). -/
structure Shape where
  rows : Nat
  cols : Nat
  pitch : Nat
  fmt : Nat
  dflt : Bool
  fr : Nat
  fe : Bool
  sck : Nat
  se : Bool
  deriving DecidableEq, Repr

/-- The fields of a shape word (R224). -/
def shapeOf (w : W64) : Shape :=
  let n := w.toNat
  ⟨bitsOf n 0 13, bitsOf n 13 13, bitsOf n 26 20, bitsOf n 46 4, bitAt n 50, bitsOf n 51 3, bitAt n 54, bitsOf n 55 4,
    bitAt n 59⟩

/-- A region word's fields (R225). -/
structure Region where
  row0 : Nat
  rows : Nat
  col0 : Nat
  cols : Nat
  deriving DecidableEq, Repr

def regionOf64 (w : W64) : Region :=
  let n := w.toNat
  ⟨bitsOf n 0 13, bitsOf n 13 13, bitsOf n 26 13, bitsOf n 39 13⟩

/-- The limits of a region word (R225). -/
def regionLegal (w : W64) : Bool :=
  let r := regionOf64 w
  decide (r.row0 ≤ 4095 ∧ r.col0 ≤ 4095 ∧ 1 ≤ r.rows ∧ r.rows ≤ 4096 ∧ 1 ≤ r.cols ∧ r.cols ≤ 4096)
    && bitsOf w.toNat 52 12 == 0

/-- Bytes of a row of n elements of a format (R224). -/
def rowBytesOf (f : Fmt) (n : Nat) : Nat :=
  match f with
  | .e2m1 | .int4 => (n + 1) / 2
  | .vq8 => n / 4
  | f => n * (f.bits / 8)

/-- The format that a shape word names, under the captured FMT: DLEAF for a leaf, DDST for a destination (R116, R224). -/
def Shape.format (h : Shape) (fmt : W32) (leaf : Bool) : Option Fmt :=
  fmtOfCode (if h.dflt then (if leaf then fmtDleaf fmt else fmtDdst fmt) else h.fmt)

/-- The byte span of a tile (R229). -/
def Shape.span (h : Shape) (f : Fmt) : Nat := (h.rows - 1) * h.pitch + rowBytesOf f h.cols

/-- The byte address and half of an element of a tile (R224). -/
def Shape.elemAddr (h : Shape) (f : Fmt) (base i j : Nat) : Nat × Nat :=
  match f with
  | .e2m1 | .int4 => (base + i * h.pitch + j / 2, j % 2)
  | .vq8 => (base + i * h.pitch + 2 * (j / 8), 0)
  | f => (base + i * h.pitch + j * (f.bits / 8), 0)

/-- The logical index of an element (R129, R224). -/
def Shape.elemIndex (h : Shape) (f : Fmt) (fr : Frame) (base i j : Nat) : Option W64 :=
  if h.fe then
    let a := h.elemAddr f base i j
    fr.index (BitVec.ofNat 64 a.1) a.2
  else some (BitVec.ofNat 64 (i * h.cols + j))

/-! ## Nodes -/

/-- A captured word of a node. -/
def GNode.word (n : GNode) (i : Nat) : W64 := n.words.getD i 0

def opTDEF : Nat := 1
def opTVIEW : Nat := 7

/-- A node's base and shape words: of the source for a leaf, of the destination for a computing node. -/
def GNode.base (n : GNode) : Nat := (n.word 0).toNat
def GNode.shape (n : GNode) : Shape := shapeOf (n.word 1)

/-- The format of a node's codes (R224). -/
def GNode.format (n : GNode) : Fmt := (n.shape.format n.fmt (n.opcode == opTDEF)).getD .fp32

/-- A leaf's source range and the checked bytes of its block-scale array: address and length (R121, R229, R243). Where FE is set
and the tile's first or last element has no index under its frame, R121 names no bytes of the array: none is checked then
(DESIGN CHOICE, log 63). -/
def GNode.checked (n : GNode) : List (Nat × Nat) :=
  if n.opcode = opTDEF then
    let h := n.shape
    let f := n.format
    let src := (n.base, h.span f)
    if h.se && scIsArray n.sc then
      let lo := h.elemIndex f n.frame n.base 0 0
      let hi := h.elemIndex f n.frame n.base (h.rows - 1) (h.cols - 1)
      match lo, hi with
      | some a, some b =>
        let a := a.toNat / 32
        let b := b.toNat / 32
        [src, (scArrayAddr n.sc + a, b + 1 - a)]
      | _, _ => [src]
    else [src]
  else []

/-- A node that owns a destination buffer: every kind but leaves and views (R233, R234). -/
def GNode.computes (n : GNode) : Bool := n.opcode != opTDEF && n.opcode != opTVIEW

/-- The destination buffer of a computing node (R234): its whole span, with the bytes between its rows, as R229 has it of a leaf
(DESIGN CHOICE, log 66). -/
def GNode.buffer (n : GNode) : Nat × Nat := (n.base, n.shape.span n.format)

/-- The first address of an extent that lies in a list of ranges. -/
def firstOverlap (rs : List (Nat × Nat)) (a n : Nat) : Option Nat :=
  minOf (rs.filterMap (fun r => if a < r.1 + r.2 ∧ r.1 < a + n then some (max a r.1) else none))

/-- The checked ranges of every live node of a core, of every context; a dropped node's stay until it is freed (R242,
R243). -/
def Core.checkedRanges (c : Core) : List (Nat × Nat) := c.nodes.flatMap GNode.checked

/-- ALIAS_HAZARD of a write of n bytes at a virtual address: the first overlapping address (R243). -/
def State.aliasHit (s : State) (a : W64) (n : Nat) : Option Nat := firstOverlap s.myCore.checkedRanges a.toNat n

end Sys2Proof.Machine
end

