-- ==== Sys2Proof/Machine/Access.lean ====
section
/-! DEFINITION. How the L and Q slots reach memory: address and bank checks, what a read sees, the figure of an access
(R170, R174, R175, R177, R180, R181, R197, R198, R209). -/

namespace Sys2Proof.Machine

/-- A lane's access: lane, virtual and physical address, RES of its entry. -/
structure LaneAcc where
  lane : Nat
  va : W64
  pa : Nat
  res : Nat
  deriving DecidableEq, Repr

/-- The range table of the issuing context's partition. -/
def State.ranges (s : State) : List RangeEntry := s.myP.ranges

def BankMode.isScratch (m : BankMode) : Bool := m == .scratch
def BankMode.isFifo (m : BankMode) : Bool := m == .fifo

/-- The mode of a code of BANKSET (R176). -/
def bankModeOf (n : Nat) : BankMode :=
  match n with
  | 0 => .cache
  | 1 => .scratch
  | _ => .fifo

/-- The mode of an own-cluster bank as an access issued at a cycle sees it: one issued before the start of the BANKSET that
switches the bank sees the old mode; after the switch nothing is left of that (R176, R177). -/
def State.seesMode (s : State) (c b issued : Nat) : Option BankMode :=
  let x := s.cluster c
  let m := x.modes.getD b .cache
  if issued < (amGet x.switched b).getD 0 then
    match m with
    | .switching o => some (bankModeOf o)
    | _ => none
  else some m

/-- Whether a push of an access of a cluster, issued at a cycle, finds a bank in FIFO (R175, R177). -/
def State.fifoFor (s : State) (cl issued c b : Nat) : Bool :=
  if c = cl then s.seesMode c b issued == some .fifo else ((s.cluster c).modes.getD b .cache).isFifo

/-- The mode of the bank of an SRAM address, with the offset in the bank's window. -/
def State.bankAt (s : State) (pa : Nat) : Option (BankMode × Nat) :=
  match homeOf pa with
  | .sram c b o => some ((s.cluster c).modes.getD b .cache, o)
  | _ => none

/-- BANK_MODE of an access to an own-cluster bank: what the mode and the offset allow (R177). -/
def State.bankRefuses (s : State) (k pa : Nat) (allowed : BankMode → Nat → Bool) : Bool :=
  isOwnSram (clusterOf k) pa && (match s.bankAt pa with
    | some (m, o) => !allowed m o
    | none => false)

/-- The physical extents of a virtual extent: base and length. -/
def physExtents (t : List RangeEntry) (a n : Nat) : List (Nat × Nat) :=
  t.filterMap (fun e =>
    let lo := max a e.vbase.toNat
    let hi := min (a + n) (e.vbase.toNat + e.len.toNat)
    if lo < hi then some (e.pbase.toNat + (lo - e.vbase.toNat), hi - lo) else none)

/-- The first byte of n physical bytes that belongs to the kernel image of a launch that has not completed (R357). -/
def Partition.imageByte (q : Partition) (pa n : Nat) : Option Nat :=
  let es := (q.launches.filter (fun l => !l.completing)).flatMap (fun l => physExtents q.ranges l.image.base.toNat l.image.total)
  minOf ((es.filter (fun e => decide (max pa e.1 < min (pa + n) (e.1 + e.2)))).map (fun e => max pa e.1))

/-- A Q or C write to a byte of a kernel image in use raises PERMISSION_FAULT (R357). -/
def State.imageFaults (s : State) (slot lane : Nat) (a : W64) (n : Nat) : List IssueFault :=
  match findRange s.ranges a.toNat with
  | none => []
  | some e =>
    let pa := e.pbase.toNat + (a.toNat - e.vbase.toNat)
    match s.myP.imageByte pa n with
    | some b => [⟨0x08, slot, lane, a + BitVec.ofNat 64 (b - pa)⟩]
    | none => []

/-- The issue faults of one lane: alignment, translation and permission, bank mode (R197). -/
def State.laneFaults (s : State) (slot : Nat) (perm : Perm) (size : Nat) (allowed : BankMode → Nat → Bool) (i : Nat)
    (a : W64) : List IssueFault :=
  (if a.toNat % size = 0 then [] else [⟨0x06, slot, i, a⟩]) ++
  match translate s.ranges perm a.toNat with
  | .fault code => [⟨code, slot, i, a⟩]
  | .ok pa _ => if s.bankRefuses s.cur.1 pa allowed then [⟨0x09, slot, i, a⟩] else []

/-- The lanes that translate. -/
def State.laneAccs (s : State) (perm : Perm) (ls : List (Nat × W64)) : List LaneAcc :=
  ls.filterMap (fun l =>
    match translate s.ranges perm l.2.toNat with
    | .ok pa res => some ⟨l.1, l.2, pa, res⟩
    | .fault _ => none)

/-- λ of an operation: the largest figure of its lanes (R198). -/
def State.lambda (s : State) (accs : List LaneAcc) : Nat :=
  maxOf (accs.map (fun a => lambdaOf (s.mult s.myPart) (clusterOf s.cur.1) a.pa a.res))

/-- A byte with pending writes laid over it. -/
def overlayByte (ov : List PByte) (pa : Nat) (b : Byte) : Byte :=
  ov.foldl (fun b w => if w.pa = pa then mergeBits b w.val w.mask else b) b

/-- A byte as a core reads it: GDDR and host bytes through its cluster's cache, SRAM bytes at their bank (R174, R273). -/
def State.coreByte (s : State) (k pa : Nat) : Byte :=
  match homeOf pa with
  | .gddr | .host => cachedByte s.mem (s.cluster (clusterOf k)) pa
  | _ => memGet s.mem pa

/-- The new contents of n bytes under an atomic (R207). -/
def atomicNew (opcode n : Nat) (unsig : Bool) (old v new : Nat) : Nat :=
  let w := 8 * n
  match opcode with
  | 0x10 => (old + v) % 2 ^ w
  | 0x11 => (f32Add false .rne (BitVec.ofNat 32 old) (BitVec.ofNat 32 v)).toNat
  | 0x12 => if unsig then min old v else if signed w old ≤ signed w v then old else v
  | 0x13 => if unsig then max old v else if signed w old ≤ signed w v then v else old
  | 0x14 => old ||| v
  | 0x15 => old &&& v
  | 0x16 => v
  | _ => if old = v then new else old

/-- The local writes of an operation, each with the cycle from which it stands: a byte that a later local atomic touches performs
just before that atomic (R209). -/
def Op.localWrites (o : Op) (atomics : List Op) : List (Nat × PByte) :=
  match o.kind with
  | .store bs .. => (bs.filter (fun b => isOwnSram (clusterOf o.core) b.pa)).map (fun b =>
      (((atomics.filter (fun q => decide (o.id < q.id) && q.actsOn b.pa)).map (fun q => q.due.getD 0)).foldl min (o.due.getD 0), b))
  | _ => []

/-- The bytes that a pending local atomic will write, over what the pending writes before it leave. -/
def State.atomicOver (s : State) (o : Op) (ov : List PByte) : List PByte :=
  match o.kind with
  | .atomic opcode n pa _ unsig _ v new _ _ =>
    let old := natOfBytes ((List.range n).map (fun i => overlayByte ov (pa + i) (memGet s.mem (pa + i))))
    let m := 2 ^ (8 * n)
    bytesAt pa (bytesOf n (atomicNew opcode n unsig old (v.toNat % m) (new.toNat % m)))
  | _ => []

/-- A write that a read comes upon: the cycle at which it performs, its operation, whether the read may find it or not, and the
bytes, which it finds together, or the atomic that computes them (R207, R209, R387). -/
structure Upcoming where
  due : Nat
  id : Nat
  free : Bool
  what : List PByte ⊕ Op
  deriving DecidableEq, Repr

/-- Writes in the order in which they perform. -/
def inOrder (us : List Upcoming) : List Upcoming := sortBy (fun u => u.due) (sortBy (fun u => u.id) us)

/-- What writes lay over the bytes that stand, one after another: of those that a read may find or not, the ones that the choice of
number n takes. -/
def State.laidOver (s : State) (n : Nat) (us : List Upcoming) : List PByte :=
  (us.zip (List.range us.length)).foldl (fun ov e =>
    if e.1.free && !Config.raceByte n e.2 then ov
    else
      match e.1.what with
      | .inl bs => ov ++ bs
      | .inr o => ov ++ s.atomicOver o ov) []

/-- The local writes and atomics that a context's bundles before a cycle issued and that have yet to perform (R209, R219, R240). -/
def State.ownWrites (s : State) (k c t : Nat) : List Upcoming :=
  let mine := (s.part (s.partOf k)).ops.filter (fun o => o.core == k && o.ctx == c && decide (o.issued < t))
  let atomics := mine.filter Op.isLocalAtomic
  mine.flatMap (fun o => (o.localWrites atomics).map (fun e => ⟨e.1, o.id, false, .inl [e.2]⟩))
    ++ atomics.map (fun o => ⟨o.due.getD 0, o.id, false, .inr o⟩)

/-- The bytes that they still have to write, in the order in which they perform. -/
def State.pendingBefore (s : State) (k c t : Nat) : List PByte := s.laidOver 0 (inOrder (s.ownWrites k c t))

/-- The local writes of the issuing context that a load of its present bundle sees (R209). -/
def State.pendingLocal (s : State) (k c : Nat) : List PByte := s.pendingBefore k c (s.cyc (s.partOf k) + 1)

/-- n bytes as the issuing context reads them, as a number (R5, R209). -/
def State.readWord (s : State) (ov : List PByte) (k pa n : Nat) : Nat :=
  natOfBytes ((List.range n).map (fun i => overlayByte ov (pa + i) (s.coreByte k (pa + i))))

/-- The lines of GDDR and host addresses that loads look up in the cluster cache (R173, R201). -/
def State.touchLines (s : State) (k rd : Nat) (pas : List Nat) : State :=
  let lines := ((pas.filter (fun pa => homeOf pa == .gddr || homeOf pa == .host)).map lineOf).eraseDups
  lines.foldl (fun s a => s.throughCache (clusterOf k) (touchLine s.mem (s.cluster (clusterOf k)) a rd)) s

/-- Reads that hit lines of a cluster's cache set their RRPV to 0, and bring in nothing (R173). -/
def State.noteHits (s : State) (k : Nat) (lines : List Nat) : State :=
  if lines.isEmpty then s
  else s.onCluster (clusterOf k) (fun x => { x with lines := x.lines.map (fun l => if lines.contains l.addr then { l with rrpv := 0 } else l) })

/-- A post-increment: the base register takes its new value at t + 1, when lane 0's guard holds (R196). -/
def postInc (am lane0 : Bool) (d : Dest) (v : W64) : State → State :=
  fun r => if am && lane0 then r.push64 1 d v else r

/-- The physical bytes of a write to virtual addresses. -/
def State.physWrite (s : State) (p a : Nat) (bs : List (Byte × Byte)) : List PByte :=
  ((physBytes (s.part p).ranges a bs.length).zip bs).map (fun e => ⟨e.1, e.2.1, e.2.2⟩)

/-! ## Writes that nothing orders with a read (R209, R219, R387; log 5) -/

/-- Those writes of groups that the read finds performed: a free choice, group by group, of number n. -/
def chosenBytes (n : Nat) (gs : List (List PByte)) : List PByte :=
  ((gs.zip (List.range gs.length)).filter (fun e => Config.raceByte n e.2)).flatMap (·.1)

/-- The choice made for groups, with the state in which it has been made. -/
def State.choose (s : State) (p : Nat) (gs : List (List PByte)) : List PByte × State :=
  match gs with
  | [] => ([], s)
  | _ =>
    let n := s.pick p
    (chosenBytes n.1 gs, n.2)

/-- Every byte by itself. -/
def singles (bs : List PByte) : List (List PByte) := bs.map (fun b => [b])

/-- The bytes of addresses that undrained stores and atomics of the context have replaced, as they were before; those of one atomic
together (R207, R209). -/
def State.replaced (s : State) (k c : Nat) (within : Nat → Bool) : List (List PByte) :=
  let us := (s.part (s.partOf k)).undrained.filter (fun u => u.core == k && u.ctx == c && within u.pa)
  let byte := fun (u : Undrained) => (⟨u.pa, u.old, 0xFF⟩ : PByte)
  ((us.filter (fun u => u.ta != 0)).map (fun u => u.ta)).eraseDups.map (fun ta => (us.filter (fun u => u.ta == ta)).map byte)
    ++ singles ((us.filter (fun u => u.ta == 0)).map byte)

/-- A DRAIN, a fence or the acquire of a counter wait of the context has passed its remote writes: their order with its later
reads is no longer open (R209, R387). -/
def Partition.drained (q : Partition) (k c : Nat) : Partition :=
  { q with undrained := q.undrained.filter (fun u => !(u.core == k && u.ctx == c)) }

/-- The acquire of a wait on TA, for a number, passes the remote atomics up to that number, and of the other remote writes those
alone that another write has passed at their place: the values of the acquired operations may follow them (R200, R207, R209, R269;
log 5). -/
def Partition.drainedPassed (q : Partition) (k c ta : Nat) : Partition :=
  { q with undrained := q.undrained.filter (fun u =>
      !(u.core == k && u.ctx == c && (u.passed || (u.ta != 0 && decide (u.ta ≤ ta))))) }

/-- A write that an engine's read by cycle till may find performed: one in flight due by then, or held. -/
def Op.performsBy (o : Op) (till : Nat) : Bool :=
  match o.due with
  | some d => decide (d ≤ till)
  | none => true

/-- The context's own local writes that its engines read at their places in its order (R209, R219, R240). -/
def Op.ownLocal (o : Op) (k c since : Nat) : Bool := o.core == k && o.ctx == c && decide (o.issued < since)

/-- A read of another cluster's bank that its mode refuses (R177). -/
def State.readRefused (s : State) (k pa : Nat) : Bool :=
  isOtherSram (clusterOf k) pa && (match s.bankAt pa with
    | some (m, _) => !m.isScratch
    | none => false)

/-- A byte that a cluster reads at its home. -/
def State.readAtHome (s : State) (cl pa : Nat) : Bool :=
  isOtherSram cl pa || isOwnSram cl pa || (findLine (s.cluster cl) pa).isNone

/-- What an operation of the partition still writes at the place that serves a read of an engine of core k, where the read may find
it: a store to GDDR or host memory performs in its own cluster's cache, the rest at their homes (R273); an atomic performs whole
(R207). The context's own local writes issued before cycle since are no part of it. -/
def State.opRacing (s : State) (o : Op) (k c since till : Nat) (within : Nat → Bool) : List Upcoming :=
  let cl := clusterOf k
  let open_ := fun (b : PByte) => !(o.ownLocal k c since && isOwnSram cl b.pa) && !s.readRefused k b.pa
  let up := fun (x : List PByte ⊕ Op) => (⟨o.due.getD till, o.id, true, x⟩ : Upcoming)
  let bytes := fun (bs : List PByte) (f : PByte → Bool) => (bs.filter (fun b => within b.pa && open_ b && f b)).map (fun b => up (.inl [b]))
  match o.kind with
  | .store bs .. => bytes bs (fun b => clusterOf o.core == cl || !(homeOf b.pa == .gddr || homeOf b.pa == .host))
  | .ingress _ bs _ => bytes bs (fun b => s.readAtHome cl b.pa)
  | .update _ bs _ => bytes bs (fun b => s.readAtHome cl b.pa)
  | .atomic .. =>
    let bs := s.atomicOver o []
    if bs.any (fun b => within b.pa) && bs.all (fun b => s.readAtHome cl b.pa && open_ b) then [up (.inr o)] else []
  | _ => []

/-- What the engines of a core still write in extents that satisfy a test; the payload of a CSEND goes to its peer's memory (R326). -/
def State.stillWrites (s : State) (p k : Nat) (meets : Nat × Nat → Bool) : List PByte :=
  let r := s.core k
  let ws := (r.copies.flatMap (fun c => if c.performed || c.opcode == 8 then [] else c.writes)) ++ (match r.running with
    | some g => g.writes
    | none => [])
  ((ws.filter (fun w => (physExtents (s.part p).ranges w.1 w.2.length).any meets)).flatMap (fun w => s.physWrite p w.1 w.2))

/-- What the engines of a partition still write of the bytes between lo and hi that satisfy a test, at the places that serve a
cluster's read (R219, R273). -/
def State.enginesRacing (s : State) (p cl lo hi : Nat) (within : Nat → Bool) : List PByte :=
  s.cores.flatMap (fun e =>
    if s.partOf e.1 = p then
      (s.stillWrites p e.1 (fun x => decide (x.1 ≤ hi ∧ lo < x.1 + x.2))).filter (fun b =>
        within b.pa && (clusterOf e.1 == cl || s.readAtHome cl b.pa))
    else [])

/-- The writes that a read of an engine of core k by cycle till comes upon, between lo and hi, in the order in which they perform:
those that it may find, which are what an undrained write of the context has replaced, what is in flight and due by then, and what
engines write; and its context's own local writes of bundles before cycle since, which it finds. -/
def State.racing (s : State) (k c since till lo hi : Nat) : List Upcoming :=
  let p := s.partOf k
  let within := fun (pa : Nat) => decide (lo ≤ pa ∧ pa ≤ hi)
  let first := (s.replaced k c within).map (fun g => (⟨0, 0, true, .inl g⟩ : Upcoming))
  let far := ((s.part p).ops.filter (fun o => o.performsBy till)).flatMap (fun o => s.opRacing o k c since till within)
  let last := ((s.enginesRacing p (clusterOf k) lo hi within).filter (fun b => !s.readRefused k b.pa)).map
    (fun b => (⟨till, 0, true, .inl [b]⟩ : Upcoming))
  first ++ inOrder (s.ownWrites k c since ++ far) ++ last

/-! ## The bursts of an access (R169, R181; log 29) -/

/-- The GDDR lines, of ranges with RES 0, among physical addresses with their RES (R169, R181). -/
def burstLines (accs : List (Nat × Nat)) : List Nat :=
  ((accs.filter (fun a => homeOf a.1 == .gddr && a.2 != 1)).map (fun a => lineOf a.1)).eraseDups

/-- The bursts of an access of the issuing context, by its GDDR figure (R180, R181). -/
def State.takeSlots (s : State) (accs : List (Nat × Nat)) : Nat × State :=
  s.takeBursts s.myPart (s.t + figGddr (s.mult s.myPart)) (burstLines accs)

/-- An access on its way, due at a cycle; one that its channel's slots delay overruns at that cycle (R181). -/
def State.addAccess (s : State) (due delay : Nat) (kind : OpKind) : State :=
  let r := s.addOp s.myPart (some (due + delay)) s.cur.1 s.cur.2 s.t kind
  if delay = 0 then r else r.addOp s.myPart (some due) s.cur.1 s.cur.2 s.t (.padded s.nextId)

/-- In interlocked mode a value from memory whose landing is free, due within its published cycle pub, lands after every earlier
write in flight to its destination (R31, R200, R207). -/
def State.afterPending (s : State) (d : Dest) (due pub : Nat) : Nat :=
  if s.me.il then
    max due (min pub (maxOf ((s.me.pend.filter (fun w => w.dest == d && !w.onlyTrap)).map (fun w => w.land + 1))))
  else due

/-- The count of a FIFO bank at the 0x40 offset of its window (R175). -/
def State.fifoCount (s : State) (c b : Nat) : Nat :=
  match (s.cluster c).fifos.find? (fun f => f.bank == b) with
  | some f => f.entries.length
  | none => 0

/-- The count as the issuing context reads it: in its own cluster with its own earlier pushes that have yet to enter (R175,
R209). -/
def State.ownCount (s : State) (c b : Nat) : Nat :=
  if c = clusterOf s.cur.1 then
    min 4096 (s.fifoCount c b + ((s.myP.ops.filter (fun o => o.core == s.cur.1 && o.ctx == s.cur.2)).map (fun o =>
      match o.kind with
      | .push c' b' _ es none => if c' = c ∧ b' = b then es.length else 0
      | _ => 0)).foldl (· + ·) 0)
  else s.fifoCount c b

end Sys2Proof.Machine
end

