-- ==== Sys2Proof/Machine/Launches.lean ====
section
/-! DEFINITION. Launches as the scheduler sees them: their tasks, dependences, readiness and deferred flushes (R282, R314 to
R319). -/

namespace Sys2Proof.Machine

/-- The tasks of a launch (R314). -/
def Launch.total (l : Launch) : Nat := l.ex.toNat * l.ey.toNat * l.ez.toNat

/-- SIGNALLED: every task has signalled or ended, arrival handlers among them; it holds from then on (R189, R317). -/
def Launch.allSignalled (l : Launch) : Bool := l.latched || decide (l.total + l.extra ≤ l.signalled)

/-- The launch still has a task that it has not bound and will bind (R319, R321). -/
def Launch.unbound (l : Launch) : Bool := !l.stopped && !l.completing && decide (l.nextTask < l.total)

def Partition.launch? (q : Partition) (n : Nat) : Option Launch := q.launches.find? (fun l => l.number == n)

/-- The event that a dependence waits for has come: COMPLETE of a launch that has not failed, or SIGNALLED, which holds from then on
whatever becomes of the launch (R317, R318). -/
def Launch.holds (l : Launch) (full : Bool) : Bool :=
  (l.status == 0 && l.completing) || (!full && l.allSignalled)

/-- A dependence holds (R317). -/
def Partition.depHolds (q : Partition) (d : Nat × Bool) : Bool :=
  match q.launch? d.1 with
  | some l => l.holds d.2
  | none => true

/-- Every dependence of a launch holds (R317). -/
def Partition.depsHold (q : Partition) (l : Launch) : Bool := l.deps.all q.depHolds

/-- Launches whose dependences have come to hold are ready from cycle cy on (R319). -/
def Partition.stampReady (q : Partition) (cy : Nat) : Partition :=
  { q with launches := q.launches.map (fun l => if l.since.isNone && q.depsHold l then { l with since := some cy } else l) }

/-! ## Deferred flushes (R282, R318) -/

/-- A flush of a launch for an event, COMPLETE or SIGNALLED alone, has been made on a cluster; one for COMPLETE covers SIGNALLED
(R318). -/
def Launch.flushMade (l : Launch) (c : Nat) (full : Bool) : Bool :=
  l.flushed.any (fun e => e.1 == c && (e.2 || !full))

/-- A flush of a launch on a cluster is under way for an event, or for COMPLETE. -/
def Partition.flushing (q : Partition) (n c : Nat) (full : Bool) : Bool :=
  q.ops.any (fun o => match o.kind with
    | .flush m d f => m == n && d == c && (f || !full)
    | _ => false)

/-- The clusters on which tasks of a launch had run by an event: for SIGNALLED without those that came later (R318). -/
def Launch.ranOn (l : Launch) (full : Bool) : List Nat := if full then l.clusters else l.clusters.filter (fun c => !l.late.contains c)

/-- A task of a launch comes to run on a cluster (R318). -/
def Launch.runsOn (l : Launch) (c : Nat) : Launch :=
  if l.clusters.contains c then l
  else { l with clusters := l.clusters ++ [c], late := if l.allSignalled then l.late ++ [c] else l.late }

/-- The clusters of a launch whose flush for an event is still to be made. -/
def Launch.unflushed (l : Launch) (full : Bool) : List Nat := (l.ranOn full).filter (fun c => !l.flushMade c full)

/-- The flushes that a task of a launch needs before it is bound on a cluster: of the launches it depends on none of whose tasks
ran there, each for the event that it waits for (R282, R318). -/
def Partition.flushNeeds (q : Partition) (l : Launch) (cluster : Nat) : List (Launch × Bool) :=
  (l.deps.filterMap (fun d => (q.launch? d.1).map (fun m => (m, d.2)))).filter (fun m =>
    !(m.1.ranOn m.2).contains cluster && !(m.1.unflushed m.2).isEmpty)

/-- The flush of a launch for an event begins on a cluster, unless one that serves is under way; from the launch's completion on it
is the flush of COMPLETE (R271, R282, R318). -/
def State.startFlush (s : State) (p : Nat) (l : Launch) (full : Bool) (c : Nat) : State :=
  if (s.part p).flushing l.number c full then s
  else
    let f := s.figure p (s.flushCost (16 * c))
    f.2.addOp p (some (s.cyc p + f.1)) 0 0 (s.cyc p) (.flush l.number c l.completing)

/-- The flush of a launch for an event begins on every cluster that still needs it. -/
def State.startFlushes (s : State) (p : Nat) (l : Launch) (full : Bool) : State :=
  (l.unflushed full).foldl (fun s c => s.startFlush p l full c) s

/-- A flush of a launch for an event is still to begin on some cluster. -/
def Partition.flushIdle (q : Partition) (l : Launch) (full : Bool) : Bool := (l.unflushed full).any (fun c => !q.flushing l.number c full)

/-- DET: the flushes of launches whose event has come for a waiting launch with a task placed in another cluster, and for a saved
task that its restore block places so; they begin at once (R302, R318, R321; log 14). -/
def Partition.earlyFlushes (q : Partition) : List (Launch × Bool) :=
  if q.cfg.det then
    (q.launches.filter Launch.unbound).flatMap (fun l => l.deps.filterMap (fun d =>
      match q.launch? d.1 with
      | some m => if m.holds d.2 ∧ l.place.any (fun t => !(m.ranOn d.2).contains (clusterOf t.1)) then some (m, d.2) else none
      | none => none))
      ++ q.saved.flatMap (fun v => match v.place, q.launch? v.launch with
        | some (k, _, _), some l => q.flushNeeds l (clusterOf k)
        | _, _ => [])
  else []

/-- What follows when an event of a launch has come: dependants become ready, and in DET the flushes that they need begin. -/
def State.settleLaunches (s : State) (p : Nat) : State :=
  let s1 := s.onPart p (fun q => q.stampReady (s.cyc p))
  (s1.part p).earlyFlushes.foldl (fun s l => s.startFlushes p l.1 l.2) s1

end Sys2Proof.Machine
end

