-- ==== Sys2Proof/Machine/Load.lean ====
section
/-! DEFINITION. The L slot: loads, prefetch and address arithmetic (R190 to R203). -/

namespace Sys2Proof.Machine

/-- A load as its form describes it: destination, guarded lanes with their addresses, bytes per lane, sign extension,
whether it is LD or LDC (lane 0 alone, written as a scalar), whether it is cached (R200), its reuse distance, and for LDV
and LDCV the address that may pop a FIFO (R175). -/
structure LoadSpec where
  lvd : BitVec 7
  lanes : List (Nat × W64)
  bytes : Nat
  sx : Bool
  scalar : Bool
  cached : Bool
  rd : Nat
  head : Option W64
  deriving DecidableEq, Repr

/-- The own-cluster FIFO bank that a load pops (R175, R201). -/
def State.popBank (s : State) (l : LoadSpec) : Option (Nat × Nat) :=
  match l.head with
  | none => none
  | some a =>
    match translate s.ranges .lr a.toNat with
    | .fault _ => none
    | .ok pa _ =>
      match homeOf pa with
      | .sram c b o => if c = clusterOf s.cur.1 ∧ o = 0 ∧ ((s.cluster c).modes.getD b .cache).isFifo then some (c, b) else none
      | _ => none

/-- The bank modes that a load allows (R175, R177). -/
def LoadSpec.allowed (l : LoadSpec) (pops : Bool) (m : BankMode) (o : Nat) : Bool :=
  if pops then m.isFifo else m.isScratch || (m.isFifo && l.scalar && l.bytes == 8 && o == 0x40)

/-- The bytes that a lane reads, as a number. -/
def State.laneRaw (s : State) (ov : List PByte) (l : LoadSpec) (a : LaneAcc) : Nat :=
  match s.bankAt a.pa with
  | some (.fifo, 0x40) =>
    (match homeOf a.pa with
      | .sram c b _ => s.ownCount c b
      | _ => 0)
  | _ => s.readWord ov s.cur.1 a.pa l.bytes

/-- Whether a line of GDDR or host memory is in no way of the issuing core's cluster cache. -/
def State.misses (s : State) (pa : Nat) : Bool :=
  (homeOf pa == .gddr || homeOf pa == .host) && (findLine (s.cluster (clusterOf s.cur.1)) pa).isNone

/-- What a lane of a load reads at issue. -/
def State.laneReading (s : State) (ov : List PByte) (l : LoadSpec) (a : LaneAcc) : Reading :=
  { pos := if l.scalar then 0 else 32 * a.lane, bits := if l.scalar then 64 else 32, bytes := l.bytes, lane := a.lane, pa := a.pa,
    va := a.va, raw := s.laneRaw ov l a, sx := l.scalar && l.sx,
    count := l.scalar && l.bytes == 8 && (match s.bankAt a.pa with
      | some (_, o) => o == 0x40
      | none => false), miss := s.misses a.pa, fill := false }

/-- What a load reads at issue, with writes laid over what stands at the places that serve it (R201, R209). -/
def State.readings (s : State) (l : LoadSpec) (ov : List PByte) : List Reading :=
  (s.laneAccs .lr l.lanes).map (s.laneReading ov l)

/-- The value of a load's destination as it stands at issue. -/
def State.loadValue (s : State) (l : LoadSpec) (ov : List PByte) : Vec := valueOf (s.readings l ov)

/-- The bits of its destination that a load writes (R201). -/
def LoadSpec.mask (l : LoadSpec) : Vec :=
  if l.scalar then maskAt 0 1024 else lanesMask (fun i => l.lanes.any (fun e => e.1 == i))

/-- Whether a line of the lane is in the issuing core's cluster cache. -/
def State.hits (s : State) (a : LaneAcc) : Bool :=
  (homeOf a.pa == .gddr || homeOf a.pa == .host) && (findLine (s.cluster (clusterOf s.cur.1)) a.pa).isSome

/-- The published figure of a load: λ, and in THR for LDC and LDCV 160 where the cluster cache has the line (R198 to
R200). -/
def State.loadFigure (s : State) (l : LoadSpec) : Nat :=
  let accs := s.laneAccs .lr l.lanes
  if l.cached && !s.isDet s.myPart then
    maxOf (accs.map (fun a => if s.hits a then 160 else lambdaOf (s.mult s.myPart) (clusterOf s.cur.1) a.pa a.res))
  else s.lambda accs

/-- The bytes that lanes of a load read. -/
def lanesRead (n : Nat) (accs : List LaneAcc) (pa : Nat) : Bool := accs.any (fun a => decide (a.pa ≤ pa ∧ pa < a.pa + n))

/-- What a load of the issuing context finds laid over the bytes that stand, as it happens: what engines are writing, its own pending
local writes over that, and what an undrained write of its context has replaced (R209, R219, R387; log 5). -/
def State.loadOverlay (s : State) (n : Nat) (accs : List LaneAcc) : List PByte × State :=
  let k := s.cur.1
  let lo := (minOf (accs.map (fun a => a.pa))).getD 0
  let hi := maxOf (accs.map (fun a => a.pa + n))
  let new := s.choose s.myPart (singles (s.enginesRacing s.myPart (clusterOf k) lo hi (lanesRead n accs)))
  let old := new.2.choose s.myPart (s.replaced k s.cur.2 (fun pa => !isOwnSram (clusterOf k) pa && lanesRead n accs pa))
  (new.1 ++ s.pendingLocal k s.cur.2 ++ old.1, old.2)

/-- What lanes have read that their misses have brought into the cluster cache: it is still to be put there (R173). -/
def State.toFill (s : State) (rs : List Reading) : List Reading :=
  rs.map (fun r => { r with fill := r.miss && (findLine (s.cluster (clusterOf s.cur.1)) r.pa).isSome })

/-- A load puts its value in flight, landing at t + λ when the data has arrived by then (R198 to R201). It takes what it finds at its
places at issue; of a write that performs at the place that serves it before the data arrive it then takes either value (R209, R387;
log 5). -/
def State.startLoad (s : State) (l : LoadSpec) : State :=
  let k := s.cur.1
  let fig := s.loadFigure l
  let t := s.t
  let ta := if l.cached then s.takeNumber ctrTA else (0, s)
  let s1 := ta.2
  let wid := s1.nextId
  let src : WSrc := if l.cached then .ldc else .load
  match s.popBank l with
  | some (c, b) =>
    let s2 := s1.pushAt (t + fig) (.lv l.lvd.toNat) l.mask 0 src none none
    let s3 := s2.addOp s.myPart (some t) k s.cur.2 t (.pop c b wid ta.1 (t + fig) l.mask)
    if s.isDet s.myPart then s3.addOp s.myPart (some (t + fig)) k s.cur.2 t (.padded (wid + 1)) else s3
  | none =>
    let accs := s.laneAccs .lr l.lanes
    let ov := s1.loadOverlay l.bytes accs
    let f := (ov.2.touchLines k l.rd (accs.map (fun a => a.pa))).figure s.myPart fig
    let rs := f.2.toFill (s.readings l ov.1)
    let g := f.2.takeSlots (accs.map (fun a => (a.pa, a.res)))
    let due := if l.cached then s.afterPending (.lv l.lvd.toNat) (t + f.1) (t + fig) else t + f.1
    let land := if l.cached then due else t + fig
    (g.2.pushAt land (.lv l.lvd.toNat) l.mask (valueOf rs) src none none).addAccess due g.1 (.value wid ta.1 rs)

/-- A load's contribution to its bundle; post is its post-increment. -/
def loadSem (s : State) (l : LoadSpec) (post : State → State) : OpSem :=
  let pops := (s.popBank l).isSome
  { faults := l.lanes.flatMap (fun e => s.laneFaults slotL .lr l.bytes (l.allowed pops) e.1 e.2)
    holds := 0
    aq := if l.lanes.isEmpty then 0 else 1
    effect := fun r => post (if l.lanes.isEmpty then r else r.startLoad l) }

/-- The window check of LV numbers (R190). -/
def State.badLv (s : State) (ns : List (BitVec 7)) : List Nat :=
  (ns.filter (fun n => decide (s.me.regs.lv.size ≤ n.toNat))).map (fun n => n.toNat)

/-- LA[n] as read at issue. -/
def State.la (s : State) (n : AReg) : W64 := vget s.me.regs.la n.toNat 0
def State.qa (s : State) (n : AReg) : W64 := vget s.me.regs.qa n.toNat 0

/-- A vector of LV or QV as read at issue. -/
def State.lv (s : State) (n : BitVec 7) : Vec := s.me.regs.lv.get n.toNat
def State.qv (s : State) (n : BitVec 6) : Vec := s.me.regs.qv.get n.toNat

/-- The address of a form with an AM bit (R196). -/
def addrOf (am : Bool) (b : W64) (ofs : W64) : W64 := if am then b else b + ofs

/-- Lane i of a form whose lanes lie 4 bytes apart. -/
def stepLanes (ls : List Nat) (a : W64) : List (Nat × W64) := ls.map (fun i => (i, a + BitVec.ofNat 64 (4 * i)))

/-- Lane 0 alone. -/
def lane0Only (g : Bool) (a : W64) : List (Nat × W64) := if g then [(0, a)] else []

/-- LD and LDC (R201). -/
def ldSpec (tt : TT) (lvd : BitVec 7) (lab : AReg) (am : Bool) (ofs : BitVec 15) (sz : BitVec 2) (sx : Bool)
    (rd : BitVec 2) (cached : Bool) (s : State) : LoadSpec :=
  ⟨lvd, lane0Only (s.lane0 tt) (addrOf am (s.la lab) (ofs.signExtend 64)), 2 ^ sz.toNat, sx, true, cached, rd.toNat, none⟩

/-- LDV and LDCV (R201). -/
def ldvSpec (tt : TT) (lvd : BitVec 7) (lab : AReg) (am : Bool) (ofs : BitVec 15) (rd : BitVec 2) (cached : Bool)
    (s : State) : LoadSpec :=
  let a := addrOf am (s.la lab) (ofs.signExtend 64)
  ⟨lvd, stepLanes (s.lanesOn tt) a, 4, false, false, cached, rd.toNat, some a⟩

/-- LDS (R196, R201). -/
def ldsSpec (tt : TT) (lvd : BitVec 7) (lab las : AReg) (ofs : BitVec 15) (rd : BitVec 2) (s : State) : LoadSpec :=
  let a := s.la lab + ofs.signExtend 64
  ⟨lvd, (s.lanesOn tt).map (fun i => (i, a + BitVec.ofNat 64 i * s.la las)), 4, false, false, false, rd.toNat, none⟩

/-- LDG (R196, R201). -/
def ldgSpec (tt : TT) (lvd : BitVec 7) (lab : AReg) (lvi : BitVec 7) (ofs : BitVec 12) (rd : BitVec 2) (s : State) :
    LoadSpec :=
  let a := s.la lab + ofs.signExtend 64
  let ix := s.lv lvi
  ⟨lvd, (s.lanesOn tt).map (fun i => (i, a + (lane ix i).zeroExtend 64)), 4, false, false, false, rd.toNat, none⟩

/-- The post-increment of an L form (R196). -/
def State.laPost (s : State) (tt : TT) (lab : AReg) (am : Bool) (ofs : BitVec 15) : State → State :=
  postInc am (s.lane0 tt) (.la lab.toNat) (s.la lab + ofs.signExtend 64)

/-- LD. -/
def ldSem (tt : TT) (lvd : BitVec 7) (lab : AReg) (am : Bool) (ofs : BitVec 15) (sz : BitVec 2) (sx : Bool)
    (rd : BitVec 2) (s : State) : OpSem :=
  loadSem s (ldSpec tt lvd lab am ofs sz sx rd false s) (s.laPost tt lab am ofs)

def execLd (tt : TT) (lvd : BitVec 7) (lab : AReg) (am : Bool) (ofs : BitVec 15) (sz : BitVec 2) (sx : Bool)
    (rd : BitVec 2) (s : State) : Host.Outcome State Fault Refusal :=
  (ldSem tt lvd lab am ofs sz sx rd s).run slotL (s.badLv [lvd]) s

/-- LDV. -/
def ldvSem (tt : TT) (lvd : BitVec 7) (lab : AReg) (am : Bool) (ofs : BitVec 15) (rd : BitVec 2) (s : State) : OpSem :=
  loadSem s (ldvSpec tt lvd lab am ofs rd false s) (s.laPost tt lab am ofs)

def execLdv (tt : TT) (lvd : BitVec 7) (lab : AReg) (am : Bool) (ofs : BitVec 15) (rd : BitVec 2) (s : State) :
    Host.Outcome State Fault Refusal :=
  (ldvSem tt lvd lab am ofs rd s).run slotL (s.badLv [lvd]) s

/-- LDS. -/
def ldsSem (tt : TT) (lvd : BitVec 7) (lab las : AReg) (ofs : BitVec 15) (rd : BitVec 2) (s : State) : OpSem :=
  loadSem s (ldsSpec tt lvd lab las ofs rd s) id

def execLds (tt : TT) (lvd : BitVec 7) (lab las : AReg) (ofs : BitVec 15) (rd : BitVec 2) (s : State) :
    Host.Outcome State Fault Refusal :=
  (ldsSem tt lvd lab las ofs rd s).run slotL (s.badLv [lvd]) s

/-- LDG. -/
def ldgSem (tt : TT) (lvd : BitVec 7) (lab : AReg) (lvi : BitVec 7) (ofs : BitVec 12) (rd : BitVec 2) (s : State) :
    OpSem :=
  loadSem s (ldgSpec tt lvd lab lvi ofs rd s) id

def execLdg (tt : TT) (lvd : BitVec 7) (lab : AReg) (lvi : BitVec 7) (ofs : BitVec 12) (rd : BitVec 2) (s : State) :
    Host.Outcome State Fault Refusal :=
  (ldgSem tt lvd lab lvi ofs rd s).run slotL (s.badLv [lvd, lvi]) s

/-- LDC (R200). -/
def ldcSem (tt : TT) (lvd : BitVec 7) (lab : AReg) (am : Bool) (ofs : BitVec 15) (sz : BitVec 2) (sx : Bool)
    (rd : BitVec 2) (s : State) : OpSem :=
  loadSem s (ldSpec tt lvd lab am ofs sz sx rd true s) (s.laPost tt lab am ofs)

def execLdc (tt : TT) (lvd : BitVec 7) (lab : AReg) (am : Bool) (ofs : BitVec 15) (sz : BitVec 2) (sx : Bool)
    (rd : BitVec 2) (s : State) : Host.Outcome State Fault Refusal :=
  (ldcSem tt lvd lab am ofs sz sx rd s).run slotL (s.badLv [lvd]) s

/-- LDCV (R200). -/
def ldcvSem (tt : TT) (lvd : BitVec 7) (lab : AReg) (am : Bool) (ofs : BitVec 15) (rd : BitVec 2) (s : State) : OpSem :=
  loadSem s (ldvSpec tt lvd lab am ofs rd true s) (s.laPost tt lab am ofs)

def execLdcv (tt : TT) (lvd : BitVec 7) (lab : AReg) (am : Bool) (ofs : BitVec 15) (rd : BitVec 2) (s : State) :
    Host.Outcome State Fault Refusal :=
  (ldcvSem tt lvd lab am ofs rd s).run slotL (s.badLv [lvd]) s

/-- The GDDR lines that a PREF brings in, those of the bytes a to a + 64·n − 1 that pass every check (R202). -/
def State.prefLines (s : State) (a : W64) (n : Nat) : List Nat :=
  let first := a - BitVec.ofNat 64 (a.toNat % 64)
  (List.range (n + if a.toNat % 64 = 0 then 0 else 1)).filterMap (fun i =>
    match translate s.ranges .lr (first + BitVec.ofNat 64 (64 * i)).toNat with
    | .ok pa _ => if homeOf pa = .gddr then some pa else none
    | .fault _ => none)

/-- PREF: no cache effect in DET, never a fault (R202). -/
def prefSem (tt : TT) (lines : BitVec 4) (lab : AReg) (am : Bool) (ofs : BitVec 15) (rd : BitVec 2) (s : State) : OpSem :=
  let pas := s.prefLines (addrOf am (s.la lab) (ofs.signExtend 64)) (lines.toNat + 1)
  .guarded s tt (.pure (fun r =>
    s.laPost tt lab am ofs (if s.isDet s.myPart then r else r.touchLines s.cur.1 rd.toNat pas)))

def execPref (tt : TT) (lines : BitVec 4) (lab : AReg) (am : Bool) (ofs : BitVec 15) (rd : BitVec 2) (s : State) :
    Host.Outcome State Fault Refusal :=
  (prefSem tt lines lab am ofs rd s).run slotL [] s

/-- LAADD (R203). -/
def laaddSem (tt : TT) (lad laa : AReg) (imm : BitVec 24) (s : State) : OpSem :=
  let v := s.la laa + imm.signExtend 64
  .guarded s tt (.pure (fun r => r.push64 1 (.la lad.toNat) v))

def execLaadd (tt : TT) (lad laa : AReg) (imm : BitVec 24) (s : State) : Host.Outcome State Fault Refusal :=
  (laaddSem tt lad laa imm s).run slotL [] s

/-- LAMOV: lanes 1 and 0 of an LV register (R203). -/
def lamovSem (tt : TT) (lad : AReg) (lvs : BitVec 7) (s : State) : OpSem :=
  let v : W64 := (s.lv lvs).truncate 64
  .guarded s tt (.pure (fun r => r.push64 1 (.la lad.toNat) v))

def execLamov (tt : TT) (lad : AReg) (lvs : BitVec 7) (s : State) : Host.Outcome State Fault Refusal :=
  (lamovSem tt lad lvs s).run slotL (s.badLv [lvs]) s

end Sys2Proof.Machine
end

