-- ==== Sys2Proof/Machine/Store.lean ====
section
/-! DEFINITION. The Q slot: plain and quantising stores, atomics, contributions and address arithmetic (R190 to R198, R203
to R209). -/

namespace Sys2Proof.Machine

/-- The window check of QV numbers (R190). -/
def State.badQv (s : State) (ns : List (BitVec 6)) : List Nat :=
  (ns.filter (fun n => decide (s.me.regs.qv.size ≤ n.toNat))).map (fun n => n.toNat)

/-- A piece of a store: lane, virtual address, bytes, each with the bits written. -/
structure Piece where
  lane : Nat
  va : W64
  bytes : List (Byte × Byte)
  deriving DecidableEq, Repr

/-- A whole-byte piece. -/
def Piece.whole (lane : Nat) (va : W64) (n w : Nat) : Piece := ⟨lane, va, (bytesOf n w).map (fun b => (b, 0xFF))⟩

/-- A store as its form describes it: the pieces of the lanes whose guard holds, the access size that aligns them, and for
STV the address that may push a FIFO with the entry it pushes when every lane's guard holds (R175). -/
structure StoreSpec where
  pieces : List Piece
  align : Nat
  head : Option (W64 × Option Vec)
  deriving DecidableEq, Repr

/-- The FIFO bank that an STV addresses at offset 0 (R175). -/
def State.pushBank (s : State) (st : StoreSpec) : Option (Nat × Nat) :=
  match st.head with
  | none => none
  | some (a, _) =>
    match translate s.ranges .qw a.toNat with
    | .fault _ => none
    | .ok pa _ =>
      match homeOf pa with
      | .sram c b o => if o = 0 ∧ ((s.cluster c).modes.getD b .cache).isFifo then some (c, b) else none
      | _ => none

/-- The bank modes that a store allows (R175, R177). -/
def StoreSpec.allowed (st : StoreSpec) (pushes : Bool) (m : BankMode) (_ : Nat) : Bool :=
  if pushes then m.isFifo && (match st.head with
    | some (_, some _) => true
    | _ => false)
  else m.isScratch

/-- ALIAS_HAZARD of a piece (R197, R243). -/
def State.aliasFaults (s : State) (slot : Nat) (p : Piece) : List IssueFault :=
  match s.aliasHit p.va p.bytes.length with
  | some a => [⟨0x0D, slot, p.lane, BitVec.ofNat 64 a⟩]
  | none => []

/-- The issue faults of a store's pieces (R197). -/
def State.storeFaults (s : State) (st : StoreSpec) : List IssueFault :=
  let pushes := (s.pushBank st).any (fun b => b.1 == clusterOf s.cur.1)
  st.pieces.flatMap (fun p =>
    s.laneFaults slotQ .qw st.align (st.allowed pushes) p.lane p.va
      ++ s.imageFaults slotQ p.lane p.va p.bytes.length ++ s.aliasFaults slotQ p)

/-- The physical bytes of a piece. -/
def pieceBytes (p : Piece) (pa : Nat) : List PByte :=
  (List.range p.bytes.length).map (fun i =>
    let b := p.bytes.getD i (0, 0)
    ⟨pa + i, b.1, b.2⟩)

/-- The physical addresses of a store's pieces. -/
def State.piecePas (s : State) (ps : List Piece) : List (Piece × Nat × Nat) :=
  ps.filterMap (fun p =>
    match translate s.ranges .qw p.va.toNat with
    | .ok pa res => some (p, pa, res)
    | .fault _ => none)

/-- An operation in flight that reaches a bank of its context's own cluster (R209). -/
def Op.reachesOwn (o : Op) : Bool :=
  match o.kind with
  | .store bs .. => bs.any (fun b => isOwnSram (clusterOf o.core) b.pa)
  | .push c .. => c == clusterOf o.core
  | _ => o.isLocalAtomic

/-- The cycle at which a write performs: in THR a local one not before the context's earlier local ones, as local accesses reach
their bank in issue order; remote ones are not ordered (R209). -/
def State.localOrder (s : State) (own : Bool) (due : Nat) : Nat :=
  if s.isDet s.myPart || !own then due
  else max due (maxOf ((s.myP.ops.filter (fun o => o.core == s.cur.1 && o.ctx == s.cur.2 && o.isWrite && o.reachesOwn)).map
    (fun o => o.due.getD 0)))

/-- A piece as another cluster's bank checks it (R177, R287). -/
def remoteOf (e : Piece × Nat × Nat) : RemoteByte := ⟨e.2.1, e.1.lane, e.1.va⟩

/-- A store on its way: it performs at t + extra + λ, later where its channel's slots do not hold it (R181, R198); the
block-scale byte of a QSTB is written before its codes (R206). -/
def State.startStore (s : State) (st : StoreSpec) (more : List Piece) (extra : Nat) : State :=
  let k := s.cur.1
  let t := s.t
  let pas := s.piecePas st.pieces
  let fig := maxOf (pas.map (fun e => lambdaOf (s.mult s.myPart) (clusterOf k) e.2.1 e.2.2))
  let f := s.figure s.myPart fig
  let due := f.2.localOrder (pas.any (fun e => isOwnSram (clusterOf k) e.2.1)) (t + extra + f.1)
  let g := f.2.takeSlots (pas.map (fun e => e.2))
  match s.pushBank st, st.head with
  | some (c, b), some (a, some v) =>
    if c = clusterOf k then
      let r := f.2.addOp s.myPart (some due) k s.cur.2 t (.push c b a [v] none)
      if s.isDet s.myPart then r.addOp s.myPart (some due) k s.cur.2 t (.padded f.2.nextId) else r
    else g.2.addAccess due g.1 (.store (pas.flatMap (fun e => pieceBytes e.1 e.2.1)) (pas.map remoteOf) (some v))
  | _, head =>
    let all := s.piecePas more ++ pas
    let far := (all.filter (fun e => isOtherSram (clusterOf k) e.2.1)).map remoteOf
    g.2.addAccess due g.1 (.store (all.flatMap (fun e => pieceBytes e.1 e.2.1)) far (head.bind (fun h => h.2)))

/-- A store's contribution to its bundle. -/
def storeSem (s : State) (st : StoreSpec) (post : State → State) : OpSem :=
  { faults := s.storeFaults st
    holds := 0
    aq := if st.pieces.isEmpty then 0 else 1
    effect := fun r => post (if st.pieces.isEmpty then r else r.startStore st [] 0) }

/-- The post-increment of a Q form (R196). -/
def State.qaPost (s : State) (tt : TT) (qab : AReg) (am : Bool) (inc : W64) : State → State :=
  postInc am (s.lane0 tt) (.qa qab.toNat) (s.qa qab + inc)

/-- ST (R204). -/
def stSpec (tt : TT) (qvs : BitVec 6) (qab : AReg) (am : Bool) (ofs : BitVec 18) (sz : BitVec 2) (s : State) : StoreSpec :=
  let a := addrOf am (s.qa qab) (ofs.signExtend 64)
  let n := 2 ^ sz.toNat
  ⟨if s.lane0 tt then [Piece.whole 0 a n (s.qv qvs).toNat] else [], n, none⟩

def stSem (tt : TT) (qvs : BitVec 6) (qab : AReg) (am : Bool) (ofs : BitVec 18) (sz : BitVec 2) (s : State) : OpSem :=
  storeSem s (stSpec tt qvs qab am ofs sz s) (s.qaPost tt qab am (ofs.signExtend 64))

def execSt (tt : TT) (qvs : BitVec 6) (qab : AReg) (am : Bool) (ofs : BitVec 18) (sz : BitVec 2) (s : State) :
    Host.Outcome State Fault Refusal :=
  (stSem tt qvs qab am ofs sz s).run slotQ (s.badQv [qvs]) s

/-- The 32-bit pieces of the guarded lanes at their addresses. -/
def lanePieces (v : Vec) (ls : List (Nat × W64)) : List Piece := ls.map (fun e => Piece.whole e.1 e.2 4 (lane v e.1).toNat)

/-- STV (R204). -/
def stvSpec (tt : TT) (qvs : BitVec 6) (qab : AReg) (am : Bool) (ofs : BitVec 18) (s : State) : StoreSpec :=
  let a := addrOf am (s.qa qab) (ofs.signExtend 64)
  let v := s.qv qvs
  let ls := s.lanesOn tt
  ⟨lanePieces v (stepLanes ls a), 4, some (a, if ls.length = 32 then some v else none)⟩

def stvSem (tt : TT) (qvs : BitVec 6) (qab : AReg) (am : Bool) (ofs : BitVec 18) (s : State) : OpSem :=
  storeSem s (stvSpec tt qvs qab am ofs s) (s.qaPost tt qab am (ofs.signExtend 64))

def execStv (tt : TT) (qvs : BitVec 6) (qab : AReg) (am : Bool) (ofs : BitVec 18) (s : State) :
    Host.Outcome State Fault Refusal :=
  (stvSem tt qvs qab am ofs s).run slotQ (s.badQv [qvs]) s

/-- STS (R196, R204). -/
def stsSpec (tt : TT) (qvs : BitVec 6) (qab qas : AReg) (ofs : BitVec 18) (s : State) : StoreSpec :=
  let a := s.qa qab + ofs.signExtend 64
  ⟨lanePieces (s.qv qvs) ((s.lanesOn tt).map (fun i => (i, a + BitVec.ofNat 64 i * s.qa qas))), 4, none⟩

def stsSem (tt : TT) (qvs : BitVec 6) (qab qas : AReg) (ofs : BitVec 18) (s : State) : OpSem :=
  storeSem s (stsSpec tt qvs qab qas ofs s) id

def execSts (tt : TT) (qvs : BitVec 6) (qab qas : AReg) (ofs : BitVec 18) (s : State) :
    Host.Outcome State Fault Refusal :=
  (stsSem tt qvs qab qas ofs s).run slotQ (s.badQv [qvs]) s

/-- SCAT (R196, R204). -/
def scatSpec (tt : TT) (qvs : BitVec 6) (qab : AReg) (qvi : BitVec 6) (ofs : BitVec 16) (s : State) : StoreSpec :=
  let a := s.qa qab + ofs.signExtend 64
  let ix := s.qv qvi
  ⟨lanePieces (s.qv qvs) ((s.lanesOn tt).map (fun i => (i, a + (lane ix i).zeroExtend 64))), 4, none⟩

def scatSem (tt : TT) (qvs : BitVec 6) (qab : AReg) (qvi : BitVec 6) (ofs : BitVec 16) (s : State) : OpSem :=
  storeSem s (scatSpec tt qvs qab qvi ofs s) id

def execScat (tt : TT) (qvs : BitVec 6) (qab : AReg) (qvi : BitVec 6) (ofs : BitVec 16) (s : State) :
    Host.Outcome State Fault Refusal :=
  (scatSem tt qvs qab qvi ofs s).run slotQ (s.badQv [qvs, qvi]) s

/-! ## Quantising stores (R205, R206) -/

/-- A format whose elements are half-bytes. -/
def Fmt.isHalf (f : Fmt) : Bool := f.bits == 4

/-- The store length of 32 elements (R196). -/
def qstLength (f : Fmt) : Nat := 4 * f.bits

/-- Address and half of lane i (R196). -/
def qstAddr (f : Fmt) (a : W64) (i : Nat) : W64 × Nat :=
  if f.isHalf then (a + BitVec.ofNat 64 (i / 2), i % 2) else (a + BitVec.ofNat 64 (i * (f.bits / 8)), 0)

/-- A code at its place: whole bytes, or one half of a byte (R205). -/
def codePiece (f : Fmt) (a : W64) (i c : Nat) : Piece :=
  let e := qstAddr f a i
  if f.isHalf then ⟨i, e.1, [(BitVec.ofNat 8 (c % 16 * 16 ^ e.2), BitVec.ofNat 8 (15 * 16 ^ e.2))]⟩
  else Piece.whole i e.1 (f.bits / 8) c

/-- A quantising store: frame, format, start address, block scale (R205). -/
structure Quant where
  fmt : Fmt
  frame : Frame
  addr : W64
  scale : Nat
  deriving DecidableEq, Repr

/-- The code of lane i (R132, R205): RM from FMT with SR drawing from the frame, subnormals honoured. -/
def State.quantCode (s : State) (q : Quant) (v : Vec) (i : Nat) : Enc :=
  let e := qstAddr q.fmt q.addr i
  let n := (q.frame.index e.1 e.2).getD 0
  let den := fmtDen s.fmt
  encScaled q.fmt (fmtRm s.fmt) (fmtSat s.fmt) (q.frame.draw den n) (q.frame.offsetFor den q.fmt n) q.scale
    (f32In false (lane v i))

/-- FRAME_RANGE of the lanes whose guard holds (R129). -/
def State.frameFaults (q : Quant) (ls : List Nat) : List IssueFault :=
  ls.flatMap (fun i =>
    let e := qstAddr q.fmt q.addr i
    match q.frame.index e.1 e.2 with
    | some _ => []
    | none => [⟨0x0A, slotQ, i, e.1⟩])

/-- A quantising store's contribution to its bundle; more is the block-scale byte of QSTB, whole are the faults of the
whole operation (R205, R206). -/
def quantSem (s : State) (tt : TT) (q : Quant) (v : Vec) (more : List Piece) (whole : List IssueFault)
    (post : State → State) : OpSem :=
  let ls := s.lanesOn tt
  let cs := ls.map (fun i => (i, s.quantCode q v i))
  let st : StoreSpec := ⟨cs.map (fun c => codePiece q.fmt q.addr c.1 c.2.code), if q.fmt.isHalf then 1 else q.fmt.bits / 8, none⟩
  let nf := fun i => cs.any (fun c => c.1 == i && c.2.nf)
  let frameOk := q.frame.valid q.fmt
  if ls.isEmpty then .pure post
  else
    { faults := (if frameOk then State.frameFaults q ls else [⟨0x05, slotQ, 0, 0⟩]) ++ whole ++ s.storeFaults st
      holds := 0
      aq := 1
      effect := fun r => post ((r.startStore st more 3).nfLanes 3 slotQ ls nf (fmtNfte s.fmt)) }

/-- The start address of a quantising store and its post-increment (R196). -/
def State.quantAddr (s : State) (f : Fmt) (qab : AReg) (am : Bool) (ofs : BitVec 9) : W64 × W64 :=
  let inc := ofs.signExtend 64 * BitVec.ofNat 64 (qstLength f)
  (addrOf am (s.qa qab) inc, inc)

/-- QST (R205). -/
def qstSem (tt : TT) (qvs : BitVec 6) (qab : AReg) (am : Bool) (ofs : BitVec 9) (frame : BitVec 3) (fmt sc : BitVec 4)
    (se : Bool) (s : State) : OpSem :=
  let f := fmt4 fmt
  let a := s.quantAddr f qab am ofs
  quantSem s tt ⟨f, s.frame frame.toNat, a.1, s.scale se sc.toNat⟩ (s.qv qvs) []
    (if s.scaleOk se sc.toNat then [] else [⟨0x05, slotQ, 0, 0⟩]) (s.qaPost tt qab am a.2)

def execQst (tt : TT) (qvs : BitVec 6) (qab : AReg) (am : Bool) (ofs : BitVec 9) (frame : BitVec 3) (fmt sc : BitVec 4)
    (se : Bool) (s : State) : Host.Outcome State Fault Refusal :=
  (qstSem tt qvs qab am ofs frame fmt sc se s).run slotQ (s.badQv [qvs]) s

/-- The block scale of QSTB: the VEXPO rule on the largest magnitude of all lanes, subnormals honoured (R206). -/
def qstbScale (f : Fmt) (v : Vec) : Nat := (blockScale f (f32In false (amaxOf false v))).code

/-- QSTB (R206). Where its first address has no index under the frame, FRAME_RANGE names lane 0 also when that lane's guard fails:
R129 tests guarded lanes alone, and R206 computes n0 whatever the guard (DESIGN CHOICE, log 68). -/
def qstbSem (tt : TT) (qvs : BitVec 6) (qab : AReg) (am : Bool) (ofs : BitVec 9) (frame : BitVec 3) (fmt sc : BitVec 4)
    (s : State) : OpSem :=
  let f := fmt4 fmt
  let fr := s.frame frame.toNat
  let a := s.quantAddr f qab am ofs
  let w := vget s.me.regs.sc sc.toNat 0
  let v := s.qv qvs
  let e := qstbScale f v
  let n0 := fr.index a.1 0
  let n := (n0.getD 0).toNat
  let b : W64 := BitVec.ofNat 64 (scArrayAddr w + n / 32)
  let piece := Piece.whole 0 b 1 e
  let whole : List IssueFault :=
    if !(scIsArray w && scLegal w) then [⟨0x05, slotQ, 0, 0⟩]
    else match n0 with
      | none => if fr.valid f then [⟨0x0A, slotQ, 0, a.1⟩] else []
      | some _ =>
        if n % 32 ≠ 0 then [⟨0x05, slotQ, 0, 0⟩]
        else s.laneFaults slotQ .qw 1 (fun m _ => m.isScratch) 0 b ++ s.imageFaults slotQ 0 b 1 ++ s.aliasFaults slotQ piece
  quantSem s tt ⟨f, fr, a.1, e⟩ v [piece] whole (s.qaPost tt qab am a.2)

def execQstb (tt : TT) (qvs : BitVec 6) (qab : AReg) (am : Bool) (ofs : BitVec 9) (frame : BitVec 3) (fmt sc : BitVec 4)
    (s : State) : Host.Outcome State Fault Refusal :=
  (qstbSem tt qvs qab am ofs frame fmt sc s).run slotQ (s.badQv [qvs]) s

/-! ## Atomics and contributions (R207, R208) -/

/-- The issue faults of an atomic (R197). -/
def State.atomicFaults (s : State) (a : W64) (n : Nat) : List IssueFault :=
  (match translate s.ranges .at_ a.toNat with
    | .ok pa _ => if homeOf pa = .host then [⟨0x08, slotQ, 0, a⟩] else []
    | .fault _ => [])
  ++ s.laneFaults slotQ .at_ n (fun m _ => m.isScratch) 0 a ++ s.imageFaults slotQ 0 a n
  ++ (match s.aliasHit a n with
    | some h => [⟨0x0D, slotQ, 0, BitVec.ofNat 64 h⟩]
    | none => [])

/-- An atomic on its way: performed at the home at t + λ; its old value lands at t + λ + 8 (R198, R207). -/
def State.startAtomic (s : State) (opcode n : Nat) (a : W64) (unsig nr : Bool) (v new : W64) (qvd : BitVec 6) : State :=
  let k := s.cur.1
  let t := s.t
  match translate s.ranges .at_ a.toNat with
  | .fault _ => s
  | .ok pa res =>
    let fig := lambdaOf (s.mult s.myPart) (clusterOf k) pa res
    let f := s.figure s.myPart fig
    let ta := f.2.takeNumber ctrTA
    let s1 := ta.2
    let free := if nr then t + f.1 else s.afterPending (.qv qvd.toNat) (t + f.1 + 8) (t + fig + 8) - 8
    let due := s1.localOrder (isOwnSram (clusterOf k) pa) free
    let g := s1.takeSlots [(pa, res)]
    let wid := g.2.nextId
    let s2 := if nr then g.2 else g.2.pushAt (due + 8) (.qv qvd.toNat) (maskAt 0 1024) 0 .atomic none none
    s2.addAccess due g.1 (.atomic opcode n pa a unsig nr v new wid ta.1)

/-- An atomic's contribution to its bundle. -/
def atomicSem (s : State) (tt : TT) (opcode : Nat) (qvs qvd : BitVec 6) (qab : AReg) (ofs : BitVec 13) (big nr unsig : Bool) :
    OpSem :=
  let n := if big then 8 else 4
  let a := s.qa qab + ofs.signExtend 64
  let q := s.qv qvs
  let v : W64 := if big then q.extractLsb' 0 64 else (lane q 0).zeroExtend 64
  let new : W64 := if big then q.extractLsb' 64 64 else (lane q 2).zeroExtend 64
  .guarded s tt
    { faults := s.atomicFaults a n
      holds := 0
      aq := 1
      effect := fun r => r.startAtomic opcode n a unsig nr v new qvd }

/-- AADD (R207). -/
def aaddSem (tt : TT) (qvs qvd : BitVec 6) (qab : AReg) (ofs : BitVec 13) (sz : BitVec 1) (nr : Bool) (s : State) : OpSem :=
  atomicSem s tt 0x10 qvs qvd qab ofs (sz == 1) nr false

def execAadd (tt : TT) (qvs qvd : BitVec 6) (qab : AReg) (ofs : BitVec 13) (sz : BitVec 1) (nr : Bool) (s : State) :
    Host.Outcome State Fault Refusal :=
  (aaddSem tt qvs qvd qab ofs sz nr s).run slotQ (s.badQv (if nr then [qvs] else [qvs, qvd])) s

/-- AFADD (R207). -/
def afaddSem (tt : TT) (qvs qvd : BitVec 6) (qab : AReg) (ofs : BitVec 13) (nr : Bool) (s : State) : OpSem :=
  atomicSem s tt 0x11 qvs qvd qab ofs false nr false

def execAfadd (tt : TT) (qvs qvd : BitVec 6) (qab : AReg) (ofs : BitVec 13) (nr : Bool) (s : State) :
    Host.Outcome State Fault Refusal :=
  (afaddSem tt qvs qvd qab ofs nr s).run slotQ (s.badQv (if nr then [qvs] else [qvs, qvd])) s

/-- AMIN (R207). -/
def aminSem (tt : TT) (qvs qvd : BitVec 6) (qab : AReg) (ofs : BitVec 13) (sz : BitVec 1) (nr u : Bool) (s : State) : OpSem :=
  atomicSem s tt 0x12 qvs qvd qab ofs (sz == 1) nr u

def execAmin (tt : TT) (qvs qvd : BitVec 6) (qab : AReg) (ofs : BitVec 13) (sz : BitVec 1) (nr u : Bool) (s : State) :
    Host.Outcome State Fault Refusal :=
  (aminSem tt qvs qvd qab ofs sz nr u s).run slotQ (s.badQv (if nr then [qvs] else [qvs, qvd])) s

/-- AMAX (R207). -/
def amaxSem (tt : TT) (qvs qvd : BitVec 6) (qab : AReg) (ofs : BitVec 13) (sz : BitVec 1) (nr u : Bool) (s : State) : OpSem :=
  atomicSem s tt 0x13 qvs qvd qab ofs (sz == 1) nr u

def execAmax (tt : TT) (qvs qvd : BitVec 6) (qab : AReg) (ofs : BitVec 13) (sz : BitVec 1) (nr u : Bool) (s : State) :
    Host.Outcome State Fault Refusal :=
  (amaxSem tt qvs qvd qab ofs sz nr u s).run slotQ (s.badQv (if nr then [qvs] else [qvs, qvd])) s

/-- AOR (R207). -/
def aorSem (tt : TT) (qvs qvd : BitVec 6) (qab : AReg) (ofs : BitVec 13) (sz : BitVec 1) (nr : Bool) (s : State) : OpSem :=
  atomicSem s tt 0x14 qvs qvd qab ofs (sz == 1) nr false

def execAor (tt : TT) (qvs qvd : BitVec 6) (qab : AReg) (ofs : BitVec 13) (sz : BitVec 1) (nr : Bool) (s : State) :
    Host.Outcome State Fault Refusal :=
  (aorSem tt qvs qvd qab ofs sz nr s).run slotQ (s.badQv (if nr then [qvs] else [qvs, qvd])) s

/-- AAND (R207). -/
def aandSem (tt : TT) (qvs qvd : BitVec 6) (qab : AReg) (ofs : BitVec 13) (sz : BitVec 1) (nr : Bool) (s : State) : OpSem :=
  atomicSem s tt 0x15 qvs qvd qab ofs (sz == 1) nr false

def execAand (tt : TT) (qvs qvd : BitVec 6) (qab : AReg) (ofs : BitVec 13) (sz : BitVec 1) (nr : Bool) (s : State) :
    Host.Outcome State Fault Refusal :=
  (aandSem tt qvs qvd qab ofs sz nr s).run slotQ (s.badQv (if nr then [qvs] else [qvs, qvd])) s

/-- AXCHG (R207). -/
def axchgSem (tt : TT) (qvs qvd : BitVec 6) (qab : AReg) (ofs : BitVec 13) (sz : BitVec 1) (nr : Bool) (s : State) : OpSem :=
  atomicSem s tt 0x16 qvs qvd qab ofs (sz == 1) nr false

def execAxchg (tt : TT) (qvs qvd : BitVec 6) (qab : AReg) (ofs : BitVec 13) (sz : BitVec 1) (nr : Bool) (s : State) :
    Host.Outcome State Fault Refusal :=
  (axchgSem tt qvs qvd qab ofs sz nr s).run slotQ (s.badQv (if nr then [qvs] else [qvs, qvd])) s

/-- ACAS (R207). -/
def acasSem (tt : TT) (qvs qvd : BitVec 6) (qab : AReg) (ofs : BitVec 13) (sz : BitVec 1) (nr : Bool) (s : State) : OpSem :=
  atomicSem s tt 0x17 qvs qvd qab ofs (sz == 1) nr false

def execAcas (tt : TT) (qvs qvd : BitVec 6) (qab : AReg) (ofs : BitVec 13) (sz : BitVec 1) (nr : Bool) (s : State) :
    Host.Outcome State Fault Refusal :=
  (acasSem tt qvs qvd qab ofs sz nr s).run slotQ (s.badQv (if nr then [qvs] else [qvs, qvd])) s

/-- The issue faults of a CONTRIB to the line at a (R197). -/
def State.contribFaults (s : State) (a : W64) : List IssueFault :=
  (match translate s.ranges .uu a.toNat with
    | .ok pa _ => if homeOf pa = .gddr then [] else [⟨0x08, slotQ, 0, a⟩]
    | .fault _ => [])
  ++ s.laneFaults slotQ .uu 64 (fun _ _ => true) 0 a
  ++ (match s.aliasHit a 64 with
    | some h => [⟨0x0D, slotQ, 0, BitVec.ofNat 64 h⟩]
    | none => [])

/-- The L2 figure of a GDDR address's home die (R180, R198). -/
def l2Figure (cluster pa : Nat) : Nat := if gddrDie pa = cluster / 8 then 160 else 240

/-- An arm or a contribution on its way to the update unit of a line. -/
def Op.toUnit (o : Op) (slice : Nat) : Bool :=
  match o.kind with
  | .arm w .. => sliceOf w == slice
  | .contrib w .. => sliceOf w == slice
  | _ => false

/-- The latest cycle at which an arm or a contribution of the issuing context, issued by cycle t, reaches the unit of a line
(R337). -/
def State.unitOrder (s : State) (w t : Nat) : Nat :=
  maxOf ((s.myP.ops.filter (fun o => o.core == s.cur.1 && o.ctx == s.cur.2 && decide (o.issued ≤ t) && o.toUnit (sliceOf w))).map
    (fun o => o.due.getD 0))

/-- CONTRIB: in THR it reaches its unit within its figure, in issue order (R208, R337). -/
def contribSem (tt : TT) (qvs : BitVec 6) (qab qak : AReg) (ofs : BitVec 17) (h : Bool) (s : State) : OpSem :=
  let a := s.qa qab + ofs.signExtend 64
  let idx := (s.qa qak).toNat
  let q := s.qv qvs
  let vals := (List.range 16).map (fun i => lane q (i + if h then 16 else 0))
  .guarded s tt
    { faults := s.contribFaults a
      holds := 0
      aq := 1
      effect := fun r =>
        match translate s.ranges .uu a.toNat with
        | .fault _ => r
        | .ok pa _ =>
          let f := r.within r.myPart (l2Figure (clusterOf r.cur.1) pa)
          let ta := f.2.takeNumber ctrTA
          let due := max (r.t + f.1) (r.unitOrder pa (r.t - 1) + 1)
          ta.2.addOp r.myPart (some due) r.cur.1 r.cur.2 r.t (.contrib pa idx vals ta.1) }

def execContrib (tt : TT) (qvs : BitVec 6) (qab qak : AReg) (ofs : BitVec 17) (h : Bool) (s : State) :
    Host.Outcome State Fault Refusal :=
  (contribSem tt qvs qab qak ofs h s).run slotQ (s.badQv [qvs]) s

/-- QAADD (R203). -/
def qaaddSem (tt : TT) (qad qaa : AReg) (imm : BitVec 24) (s : State) : OpSem :=
  let v := s.qa qaa + imm.signExtend 64
  .guarded s tt (.pure (fun r => r.push64 1 (.qa qad.toNat) v))

def execQaadd (tt : TT) (qad qaa : AReg) (imm : BitVec 24) (s : State) : Host.Outcome State Fault Refusal :=
  (qaaddSem tt qad qaa imm s).run slotQ [] s

end Sys2Proof.Machine
end

