-- ==== Sys2Proof/Machine/MemEvents.lean ====
section
/-! DEFINITION. What comes about after issue: results that land, loads that arrive, stores, atomics and FIFO accesses that
perform (R27, R28, R79, R174 to R177, R198 to R209). -/

namespace Sys2Proof.Machine

/-- The answer where nothing makes an event due. -/
def notDue : Host.Outcome State Fault Refusal := .refused .eventNotDue

/-- An operation in flight whose cycle has come. -/
def State.dueOp (s : State) (p id : Nat) : Option Op :=
  match s.op? p id with
  | none => none
  | some o =>
    match o.due with
    | none => none
    | some d => if d ≤ s.cyc p then some o else none

/-! ## RESULT_LANDS (R27, R28, R79, R94) -/

/-- A write whose value is at hand lands at a cycle. -/
def Write.lands (w : Write) (cy : Nat) : Bool :=
  decide (w.land ≤ cy) && (match w.arrive with
    | some a => decide (a ≤ cy)
    | none => false)

/-- The writes that land, in the order of R28: by landing cycle, then by program order. -/
def Ctx.landing (x : Ctx) (cy : Nat) : List Write :=
  sortBy (fun w => w.land) (sortBy (fun w => w.seq) (x.pend.filter (fun w => w.lands cy)))

/-- NONFINITE of the flag writes that carry the trap enable and are due (R79); each is raised once. -/
def State.raiseDue (s : State) (k c : Nat) : State :=
  let cy := s.cyc (s.partOf k)
  let x := s.ctx k c
  let ws := (x.landing cy).filter (fun w => w.trap.isSome)
  let quiet := fun (w : Write) => if w.lands cy then { w with trap := none } else w
  if ws.isEmpty then s
  else
    ws.foldl (fun s w => s.raiseNonFinite k c (w.trap.getD (0, 0)).1 (w.trap.getD (0, 0)).2 w.handler none)
      (s.setCtx k c { x with pend := x.pend.map quiet })

/-- The context with every write landed whose cycle has come (R28). -/
def Ctx.landed (x : Ctx) (cy : Nat) : Ctx :=
  (x.landing cy).foldl (fun (x : Ctx) w => x.landWrite w.dest w.mask w.value) { x with pend := x.pend.filter (fun w => !w.lands cy) }

/-- Land every write of a context whose cycle has come. -/
def State.landResults (s : State) (k c : Nat) : State :=
  let s := s.raiseDue k c
  s.onCtx k c (fun x => x.landed (s.cyc (s.partOf k)))

def execResultLands (core ctx : Nat) (s : State) : Host.Outcome State Fault Refusal :=
  match s.ctx? core ctx with
  | none => notDue
  | some x => if (x.landing (s.cyc (s.partOf core))).isEmpty then notDue else .next (s.landResults core ctx)

/-! ## Loads (R177, R199, R200) -/

/-- A read of another cluster's bank that the bank's mode refuses (R177). -/
def State.remoteRefused (s : State) (k : Nat) (r : Reading) : Bool :=
  isOtherSram (clusterOf k) r.pa && (match s.bankAt r.pa with
    | some (m, o) => !(m.isScratch || (m.isFifo && r.count && o == 0x40))
    | none => false)

/-- The bytes that a load has read of a line which its miss has brought into the cluster cache, and which has been there unchanged
since: the line came with what the load took (R173, R387). -/
def Reading.filled (r : Reading) : List PByte :=
  if r.fill then bytesAt r.pa (bytesOf r.bytes r.raw) else []

/-- A cluster whose clean copies hold bytes. -/
def fillClean (c : Cluster) (bs : List PByte) : Cluster :=
  updateCopies c (bs.filter (fun b => match findLine c b.pa with
    | some l => !l.dirty.getLsbD (b.pa % 64)
    | none => false))

/-- The data of a load arrive: refused bits read as zeros and raise BANK_MODE (R177, R199, R200). -/
def State.loadArrives (s : State) (p : Nat) (o : Op) (wid ta : Nat) (reads : List Reading) : State :=
  let bad := reads.filter (s.remoteRefused o.core)
  let v := valueOf (reads.filter (fun r => !s.remoteRefused o.core r))
  let s := (s.dropOp p o.id).fillValue o.core o.ctx wid v (readMask reads) (s.cyc p)
  let s := s.onCluster (clusterOf o.core) (fun x => fillClean x (reads.flatMap Reading.filled))
  let s := match bad with
    | [] => s
    | r :: _ => s.raise o.core o.ctx 0x82 r.va slotL o.handler r.lane
  if ta = 0 then s else s.complete o.core o.ctx ctrTA ta

def execLoadValueLands (p id : Nat) (s : State) : Host.Outcome State Fault Refusal :=
  match s.dueOp p id with
  | none => notDue
  | some o =>
    match o.kind with
    | .value wid ta reads => if ta = 0 then .next (s.loadArrives p o wid ta reads) else notDue
    | _ => notDue

def execLdcLands (p id : Nat) (s : State) : Host.Outcome State Fault Refusal :=
  match s.dueOp p id with
  | none => notDue
  | some o =>
    match o.kind with
    | .value wid ta reads => if ta = 0 then notDue else .next (s.loadArrives p o wid ta reads)
    | _ => notDue

/-! ## Stores (R173, R174, R177, R204) -/

/-- Whether a bank takes a store's bytes: in SCRATCH, or still leaving it (R176, R177). -/
def State.bankTakes (s : State) (pa : Nat) : Bool :=
  match s.bankAt pa with
  | some (m, _) => m.isScratch || m == .switching 1
  | none => true

/-- An own-cluster write at a bank takes effect in SCRATCH as it sees it: in the old mode when it was issued before a BANKSET's
start (R177); elsewhere the bank decides. -/
def State.takesFrom (s : State) (cl issued pa : Nat) : Bool :=
  match homeOf pa with
  | .sram c b _ => if c = cl then s.seesMode c b issued == some .scratch else s.bankTakes pa
  | _ => true

/-- A store into another cluster's bank is refused unless the bank is in SCRATCH (R177). -/
def State.storeRefused (s : State) (k pa : Nat) : Bool :=
  isOtherSram (clusterOf k) pa && (match s.bankAt pa with
    | some (m, _) => !m.isScratch
    | none => false)

/-- The writer that an operation is. -/
def Op.writer (o : Op) (isStore whole : Bool) : Writer := ⟨o.core, o.ctx, o.issued, isStore, whole⟩

/-- Bytes of a store issued at a cycle performed: at their banks, or in the cluster cache of the core (R174, R204). -/
def State.performBytes (s : State) (o : Op) (bs : List PByte) : State :=
  let cl := clusterOf o.core
  let w := o.writer true false
  let isMem := fun (b : PByte) => homeOf b.pa == .gddr || homeOf b.pa == .host
  let r := cacheWrite s.mem (s.cluster cl) (bs.filter isMem)
  let there := fun (b : PByte) => (findLine r.2 b.pa).isSome
  let s := ((s.throughCache cl r).notice w cl (bs.filter (fun b => isMem b && there b))).stand (bs.filter (fun b => isMem b && !there b)) w
  s.writeHomes (bs.filter (fun b => !isMem b && s.takesFrom cl o.issued b.pa)) w

/-- A remote byte that the store's context has stored to before with nothing that drained it between: either value may stay (R209). -/
def State.reorders (s : State) (p : Nat) (o : Op) (pa : Nat) : Bool :=
  (s.part p).undrained.any (fun u => u.core == o.core && u.ctx == o.ctx && u.pa == pa && u.ta == 0)

/-- The notes of what remote bytes held before a store, or the atomic of a TA number, of their context (R209, R387). -/
def State.noteUndrained (s : State) (p : Nat) (o : Op) (ta : Nat) (pas : List Nat) : State :=
  if (s.ctx? o.core o.ctx).isSome then
    s.onPart p (fun q => { q with undrained := q.undrained ++ pas.map (fun pa => ⟨o.core, o.ctx, pa, s.coreByte o.core pa, false, ta⟩) })
  else s

/-- The bytes of a store performed, with what the remote ones held before noted for the context's later reads (R209, R387). -/
def State.performRemote (s : State) (p : Nat) (o : Op) (bs : List PByte) : State :=
  let cl := clusterOf o.core
  let far := bs.filter (fun b => !isOwnSram cl b.pa)
  let open_ := far.filter (fun b => s.reorders p o b.pa)
  let n := if open_.isEmpty then (0, s) else s.pick p
  let late := if open_.isEmpty then [] else (chosenBytes n.1 (singles open_)).map (fun b => b.pa)
  (n.2.noteUndrained p o 0 (far.map (fun b => b.pa))).performBytes o (bs.filter (fun b => !late.contains b.pa))

/-- A store performs: an STV that finds a FIFO at offset 0 becomes a push; refused bytes are discarded and raise BANK_MODE;
the rest are written (R175, R177, R204). -/
def State.performStore (s : State) (p : Nat) (o : Op) (bs : List PByte) (remote : List RemoteByte) (entry : Option Vec) :
    State :=
  let s := s.dropOp p o.id
  let pushAt := match entry, bs with
    | some v, b :: _ =>
      (match homeOf b.pa with
        | .sram c n off => if off = 0 ∧ s.fifoFor (clusterOf o.core) o.issued c n then some (c, n, v) else none
        | _ => none)
    | _, _ => none
  match pushAt with
  | some (c, n, v) =>
    let r := s.follow p o (some (s.cyc p)) (.push c n ((remote.head?.map (·.va)).getD 0) [v] none)
    if s.isDet p then r.addOpAs p (some (s.cyc p)) o.core o.ctx o.issued o.handler false (.padded s.nextId) else r
  | none =>
    let bad := remote.filter (fun r => s.storeRefused o.core r.pa)
    let s1 := s.performRemote p o (bs.filter (fun b => !s.storeRefused o.core b.pa))
    match bad with
    | [] => s1
    | r :: _ => s1.raise o.core o.ctx 0x82 r.va slotQ o.handler r.lane

def execStorePerforms (p id : Nat) (s : State) : Host.Outcome State Fault Refusal :=
  match s.dueOp p id with
  | none => notDue
  | some o =>
    match o.kind with
    | .store bs remote entry => .next (s.performStore p o bs remote entry)
    | _ => notDue

/-! ## Atomics (R207, R209) -/

/-- The earlier local writes of the context to the bytes of a local atomic perform just before it (R209). -/
def State.hurryStores (s : State) (p : Nat) (o : Op) (pa n : Nat) : State :=
  let hit := fun (b : PByte) => decide (pa ≤ b.pa ∧ b.pa < pa + n)
  let mine := fun (q : Op) => q.core == o.core && q.ctx == o.ctx && decide (q.id < o.id)
  let ops := sortBy (fun (q : Op) => q.due.getD 0) ((s.part p).ops.filter mine)
  let s := ops.foldl (fun (s : State) q =>
    match q.kind with
    | .store bs .. => s.writeHomes (bs.filter hit) (q.writer true false)
    | _ => s) s
  s.onPart p (fun x => { x with ops := x.ops.map (fun q =>
    match q.kind with
    | .store bs r e => if mine q then { q with kind := .store (bs.filter (fun b => !hit b)) r e } else q
    | _ => q) })

/-- Complete an atomic with the old value it found: at once without a return, else when the value lands (R207). -/
def State.endAtomic (s : State) (p : Nat) (o : Op) (nr : Bool) (wid ta old : Nat) : State :=
  if nr then s.complete o.core o.ctx ctrTA ta
  else s.follow p o (some (s.cyc p + 8)) (.oldValue wid ta (BitVec.ofNat 1024 old))

/-- The remote bytes of an atomic that its cluster reads at their home: a line of GDDR that is in its cache it does not change
(R207, R209). -/
def State.farBytes (s : State) (cl pa n : Nat) : List Nat :=
  ((List.range n).map (fun i => pa + i)).filter (fun a => !isOwnSram cl a && (findLine (s.cluster cl) a).isNone)

/-- An atomic performs at its home, as a whole (R177, R207); what a remote one has replaced is noted (R209). -/
def State.performAtomic (s : State) (p : Nat) (o : Op) (opcode n pa : Nat) (va : W64) (unsig nr : Bool) (v new : W64)
    (wid ta : Nat) : State :=
  let s := s.dropOp p o.id
  if s.storeRefused o.core pa then
    (s.raise o.core o.ctx 0x82 va slotQ o.handler).endAtomic p o nr wid ta 0
  else
    let s := if isOwnSram (clusterOf o.core) pa then s.hurryStores p o pa n else s
    let old := natOfBytes (memBlock s.mem pa n)
    let m := 2 ^ (8 * n)
    let r := atomicNew opcode n unsig old (v.toNat % m) (new.toNat % m)
    ((s.noteUndrained p o ta (s.farBytes (clusterOf o.core) pa n)).writeHomes (bytesAt pa (bytesOf n r)) (o.writer false true)).endAtomic
      p o nr wid ta old

/-- The old value of an atomic lands and its TA number completes (R207). -/
def State.oldValueLands (s : State) (p : Nat) (o : Op) (wid ta : Nat) (v : Vec) : State :=
  ((s.dropOp p o.id).fillValue o.core o.ctx wid v (maskAt 0 1024) (s.cyc p)).complete o.core o.ctx ctrTA ta

def execAtomicPerforms (p id : Nat) (s : State) : Host.Outcome State Fault Refusal :=
  match s.dueOp p id with
  | none => notDue
  | some o =>
    match o.kind with
    | .atomic opcode n pa va unsig nr v new wid ta => .next (s.performAtomic p o opcode n pa va unsig nr v new wid ta)
    | .oldValue wid ta v => .next (s.oldValueLands p o wid ta v)
    | _ => notDue

/-! ## FIFO banks (R175) -/

/-- A pop of a bank. -/
def Op.popsBank (o : Op) (c b : Nat) : Bool :=
  match o.kind with
  | .pop c' b' .. => c' == c && b' == b
  | _ => false

/-- A push into a bank. -/
def Op.pushesBank (o : Op) (c b : Nat) : Bool :=
  match o.kind with
  | .push c' b' .. => c' == c && b' == b
  | _ => false

/-- An operation held at its bank: last in the order in which they reached it, or still at its place (R175). -/
def State.holdOp (s : State) (p : Nat) (o : Op) : State :=
  let held : Op := { o with due := none }
  let place := fun (ops : List Op) =>
    if o.due.isNone then ops.map (fun q => if q.id = o.id then o else q) else ops.filter (fun q => q.id != o.id) ++ [held]
  s.onPart p (fun x => { x with ops := place x.ops })

/-- The first operation of a kind that is held at its bank. -/
def State.firstHeld (s : State) (p : Nat) (f : Op → Bool) : Option Op :=
  (s.part p).ops.find? (fun q => f q && q.due.isNone)

/-- Whether an operation is next at its bank: the first of those held, or newly arrived where none is held. -/
def State.nextAtBank (s : State) (p : Nat) (o : Op) (f : Op → Bool) : Bool :=
  match s.firstHeld p f with
  | none => true
  | some q => q.id == o.id

/-- The entries of a FIFO bank, oldest first. -/
def State.fifoEntries (s : State) (c b : Nat) : List Vec :=
  match (s.cluster c).fifos.find? (fun f => f.bank == b) with
  | some f => f.entries
  | none => []

/-- A read of the count of a FIFO bank by a core of another cluster. -/
def Reading.counts (r : Reading) (cl c b : Nat) : Bool :=
  r.count && c != cl && (match homeOf r.pa with
    | .sram c' b' _ => c' == c && b' == b
    | _ => false)

/-- A load in flight of another cluster that reads the count of a bank may find it as it becomes (R175, R387). -/
def Op.recount (o : Op) (c b count n : Nat) : Op :=
  match o.kind with
  | .value wid ta rs => { o with kind := .value wid ta (rs.map (fun r =>
      if r.counts (clusterOf o.core) c b && Config.raceByte n 0 then { r with raw := count } else r)) }
  | _ => o

def Op.readsCount (o : Op) (c b : Nat) : Bool :=
  match o.kind with
  | .value _ _ rs => rs.any (fun r => r.counts (clusterOf o.core) c b)
  | _ => false

/-- The entries of a FIFO bank change. -/
def State.setFifo (s : State) (c b : Nat) (es : List Vec) : State :=
  let s1 := s.onCluster c (fun x => { x with fifos := x.fifos.filter (fun f => f.bank != b) ++ [⟨b, es⟩] })
  match s1.partOfCluster c with
  | none => s1
  | some p =>
    if (s1.part p).ops.any (fun o => o.readsCount c b) then
      let n := s1.pick p
      n.2.onPart p (fun q => { q with ops := q.ops.map (fun o => o.recount c b es.length n.1) })
    else s1

/-- A pop at its bank: it takes the oldest entry, or is held; the value of an LDCV lands, and its number completes, no earlier
than its figure (R175, R200). A pop that is held while its bank leaves FIFO stays held until the bank is in FIFO again and has an
entry: the spec does not say what becomes of it (DESIGN CHOICE, log 63). -/
def State.servePop (s : State) (p : Nat) (o : Op) (c b wid ta lands : Nat) (mask : Vec) : State :=
  match s.fifoEntries c b with
  | [] => s.holdOp p o
  | e :: es =>
    if s.nextAtBank p o (fun q => q.popsBank c b) then
      let s1 := (s.dropOp p o.id).setFifo c b es
      if ta = 0 then s1.fillValue o.core o.ctx wid e mask (s.cyc p)
      else
        let due := max lands (s.cyc p)
        (s1.fillValue o.core o.ctx wid e mask due).follow p o (some due) (.value wid ta [])
    else s.holdOp p o

/-- An operation that has reached its bank: due now or held there. -/
def State.reachedOp (s : State) (p id : Nat) : Option Op :=
  match s.op? p id with
  | none => none
  | some o =>
    match o.due with
    | none => some o
    | some d => if d ≤ s.cyc p then some o else none

def execFifoPopServed (p id : Nat) (s : State) : Host.Outcome State Fault Refusal :=
  match s.reachedOp p id with
  | none => notDue
  | some o =>
    match o.kind with
    | .pop c b wid ta lands mask => .next (s.servePop p o c b wid ta lands mask)
    | _ => notDue

/-- The arrival that a carrier makes once its payload has performed: from now on (R189). -/
def State.carried (s : State) (p : Nat) (copy : Option Nat) : State :=
  match copy with
  | none => s
  | some _ => s.onPart p (fun x => { x with ops := x.ops.map (fun q =>
    match q.kind with
    | .arrive core r c => if c = copy then { q with kind := .arrive core { r with performed := s.cyc p } c } else q
    | _ => q) })

/-- The releases of a context after a push of a Q-slot operation that was held has entered (R271). -/
def State.pushDone (s : State) (p : Nat) (o : Op) (copy : Option Nat) : State :=
  if copy.isNone && o.due.isNone then s.heldWriteDone p o else s

/-- A push at its bank: the entries that find room enter, in order; the rest are held. A push of another cluster into a
bank that has left FIFO is discarded and raises BANK_MODE; one of the bank's own cluster, issued before the BANKSET's start, sees
the old mode while the bank is SWITCHING, and its entries go with the rest (R175 to R177); a copy's arrival follows its last. -/
def State.enterPush (s : State) (p : Nat) (o : Op) (c b : Nat) (va : W64) (es : List Vec) (copy : Option Nat) : State :=
  if !s.fifoFor (clusterOf o.core) o.issued c b then
    let s := s.dropOp p o.id
    let s := s.pushDone p o copy
    if c = clusterOf o.core then s else s.raise o.core o.ctx 0x82 va (if copy.isSome then slotC else slotQ) o.handler
  else if !s.nextAtBank p o (fun q => q.pushesBank c b) then s.holdOp p o
  else
    let have_ := s.fifoEntries c b
    let room := 4096 - have_.length
    let s1 := s.setFifo c b (have_ ++ es.take room)
    match es.drop room with
    | [] => ((s1.dropOp p o.id).pushDone p o copy).carried p copy
    | rest => s1.holdOp p { o with kind := .push c b va rest copy }

def execFifoPushEnters (p id : Nat) (s : State) : Host.Outcome State Fault Refusal :=
  match s.reachedOp p id with
  | none => notDue
  | some o =>
    match o.kind with
    | .push c b va es copy => .next (s.enterPush p o c b va es copy)
    | _ => notDue

end Sys2Proof.Machine
end

