-- ==== Sys2Proof/Machine/Exchange.lean ====
section
/-! DEFINITION. The X slot: copies between the register files (R85 to R88). -/

namespace Sys2Proof.Machine

/-- The bits that a copy writes and the value it gives them, by form (R86). -/
def copyWrite (form : Nat) (c : CopyDesc) (src : Vec) : Vec × Vec :=
  match form with
  | 1 => (if fileIsVector c.df then maskAt 0 1024 else maskAt 0 64, src)
  | 2 => (maskAt 0 1024, vecOf (fun _ => lane src 0))
  | _ => (maskAt 0 64, src &&& maskAt 0 64)

/-- One descriptor's write, at latency 2 (R87). -/
def copyEffect (x : Ctx) (form : Nat) (c : CopyDesc) : State → State :=
  if c.isEmpty then id
  else
    let w := copyWrite form c (x.read (x.fileReg c.sf c.sr))
    let d := x.fileReg c.df c.dr
    fun r => r.push 2 d w.1 w.2

/-- Both descriptors of a bundle (R86, R87). -/
def copySemOf (form : Nat) (tt : TT) (c0 c1 : CopyDesc) (s : State) : OpSem :=
  let e0 := copyEffect s.me form c0
  let e1 := copyEffect s.me form c1
  .guarded s tt (.pure (fun r => e1 (e0 r)))

/-- The numbers beyond the windows (R25, R44). -/
def State.badCopy (s : State) (c0 c1 : CopyDesc) : List Nat := (useCopy s.me c0).bad ++ (useCopy s.me c1).bad

/-- COPY. -/
def copySem (tt : TT) (c0 c1 : CopyDesc) (s : State) : OpSem := copySemOf 1 tt c0 c1 s

def execCopy (tt : TT) (c0 c1 : CopyDesc) (s : State) : Host.Outcome State Fault Refusal :=
  (copySem tt c0 c1 s).run slotX (s.badCopy c0 c1) s

/-- COPYB. -/
def copybSem (tt : TT) (c0 c1 : CopyDesc) (s : State) : OpSem := copySemOf 2 tt c0 c1 s

def execCopyb (tt : TT) (c0 c1 : CopyDesc) (s : State) : Host.Outcome State Fault Refusal :=
  (copybSem tt c0 c1 s).run slotX (s.badCopy c0 c1) s

/-- COPYL. -/
def copylSem (tt : TT) (c0 c1 : CopyDesc) (s : State) : OpSem := copySemOf 3 tt c0 c1 s

def execCopyl (tt : TT) (c0 c1 : CopyDesc) (s : State) : Host.Outcome State Fault Refusal :=
  (copylSem tt c0 c1 s).run slotX (s.badCopy c0 c1) s

/-- COPYP. -/
def copypSem (tt : TT) (c0 c1 : CopyDesc) (s : State) : OpSem := copySemOf 4 tt c0 c1 s

def execCopyp (tt : TT) (c0 c1 : CopyDesc) (s : State) : Host.Outcome State Fault Refusal :=
  (copypSem tt c0 c1 s).run slotX (s.badCopy c0 c1) s

end Sys2Proof.Machine
end

