-- ==== Sys2Proof/Machine/Copy.lean ====
section
/-! DEFINITION. The C slot: the commands of the copy engine, their extents, checks, start and completion (R176, R189, R210
to R219, R325 to R327). -/

namespace Sys2Proof.Machine

/-! ## Commands and their extents (R212 to R215, R332) -/

def opCPY : Nat := 1
def opCPY2 : Nat := 2
def opCPYT : Nat := 3
def opCRDT : Nat := 4
def opCGAT : Nat := 5
def opCSCT : Nat := 6
def opCFILL : Nat := 7
def opCSEND : Nat := 8
def opCPULL : Nat := 9
def opCRED : Nat := 10
def opBANKSET : Nat := 11

/-- Staging word i of a command, its low and its high half. -/
def CopyCmd.word (c : CopyCmd) (i : Nat) : Nat := (c.words.getD i 0).toNat
def CopyCmd.low (c : CopyCmd) (i : Nat) : Nat := bitsOf (c.word i) 0 32
def CopyCmd.high (c : CopyCmd) (i : Nat) : Nat := bitsOf (c.word i) 32 32

/-- CRDT's control word (R213). -/
def CopyCmd.sfmt (c : CopyCmd) : Fmt := (fmtOfCode (bitsOf (c.word 3) 8 4)).getD .fp32
def CopyCmd.dfmt (c : CopyCmd) : Fmt := (fmtOfCode (bitsOf (c.word 3) 12 4)).getD .fp32
def CopyCmd.srcFrame (c : CopyCmd) : Frame := c.frames.getD 0 Frame.zero
def CopyCmd.dstFrame (c : CopyCmd) : Frame := c.frames.getD 1 Frame.zero
def CopyCmd.srcScale (c : CopyCmd) : Nat := if bitAt (c.word 3) 20 then scUni (c.scales.getD 0 0) else unitScale
def CopyCmd.dstScale (c : CopyCmd) : Nat := if bitAt (c.word 3) 28 then scUni (c.scales.getD 1 0) else unitScale

/-- CGAT's and CSCT's element length and bound (R213, R214). -/
def CopyCmd.elem (c : CopyCmd) : Nat := 2 ^ bitsOf (c.word 3) 32 2
def CopyCmd.bound (c : CopyCmd) : Nat := if c.low 4 = 0 then c.low 3 else c.low 4

/-- CRED's word w3 (R332). -/
def CopyCmd.redN (c : CopyCmd) : Nat := c.low 3
def CopyCmd.redV (c : CopyCmd) : Nat := bitsOf (c.word 3) 32 13
def CopyCmd.redGroup (c : CopyCmd) : Nat := bitsOf (c.word 3) 48 4
def CopyCmd.redAo (c : CopyCmd) : Bool := bitAt (c.word 3) 52

/-- Rows of n bytes, a pitch apart: address and length of each. -/
def rowExtents (base rows pitch n : Nat) : List (Nat × Nat) :=
  (List.range rows).map (fun r => ((base + r * pitch) % 2 ^ 64, n))

/-- Rows and columns of the destination of a CRDT (R215). -/
def CopyCmd.dstRows (c : CopyCmd) : Nat := if c.tr then c.low 2 else c.high 2
def CopyCmd.dstCols (c : CopyCmd) : Nat := if c.tr then c.high 2 else c.low 2

/-- The local source extents; of a CGAT the elements below LIM (R214 to R216, R325, R332). -/
def CopyCmd.srcs (c : CopyCmd) : List (Nat × Nat) :=
  match c.opcode with
  | 1 => [(c.word 0, c.low 2)]
  | 2 => rowExtents (c.word 0) (c.high 2) (c.word 3) (c.low 2)
  | 3 => rowExtents (c.word 0) (c.high 2) (c.word 3) (c.low 2 * bitsOf (c.word 5) 0 4)
  | 4 => rowExtents (c.word 0) (c.high 2) c.srcFrame.pitch.toNat (rowBytesOf c.sfmt (c.low 2))
  | 5 => [(c.word 0, c.bound * c.elem)]
  | 6 => [(c.word 0, c.low 3 * c.elem)]
  | 8 => [(c.word 0, c.low 2)]
  | 10 => if c.high 2 = 0 then [] else [(c.word 0, 4 * c.redV * c.high 2)]
  | _ => []

/-- The index list of CGAT and CSCT. -/
def CopyCmd.list (c : CopyCmd) : List (Nat × Nat) :=
  if c.opcode = opCGAT ∨ c.opcode = opCSCT then [(c.word 2, 4 * c.low 3)] else []

/-- The local destination extents; of a CSCT the elements below LIM. -/
def CopyCmd.dsts (c : CopyCmd) : List (Nat × Nat) :=
  match c.opcode with
  | 1 => [(c.word 1, c.low 2)]
  | 2 => rowExtents (c.word 1) (c.high 2) (c.word 4) (c.low 2)
  | 3 => rowExtents (c.word 1) (c.low 2) (c.word 4) (c.high 2 * bitsOf (c.word 5) 0 4)
  | 4 => rowExtents (c.word 1) c.dstRows c.dstFrame.pitch.toNat (rowBytesOf c.dfmt c.dstCols)
  | 5 => [(c.word 1, c.low 3 * c.elem)]
  | 6 => [(c.word 1, c.bound * c.elem)]
  | 7 => [(c.word 0, c.low 1)]
  | 9 => [(c.word 1, c.low 2)]
  | 10 => [(c.word 1, 4 * c.redV)]
  | _ => []

/-- An extent without a wrap at 2^64. -/
def splitExtent (e : Nat × Nat) : List (Nat × Nat) :=
  if e.1 + e.2 ≤ 2 ^ 64 then [e] else [(e.1, 2 ^ 64 - e.1), (0, e.1 + e.2 - 2 ^ 64)]

/-- Two lists of extents share a byte. -/
def extentsMeet (a b : List (Nat × Nat)) : Bool :=
  let b := b.flatMap splitExtent
  (a.flatMap splitExtent).any (fun x => b.any (fun y => decide (x.1 < y.1 + y.2 ∧ y.1 < x.1 + x.2)))

/-- The data beats of a command (R218). -/
def CopyCmd.beatsOf (c : CopyCmd) : Nat :=
  match c.opcode with
  | 1 => ceilDiv (c.low 2) 64
  | 2 => c.high 2 * ceilDiv (c.low 2) 64
  | 3 => 2 * ceilDiv (c.high 2 * c.low 2 * bitsOf (c.word 5) 0 4) 64
  | 4 => 2 * ceilDiv (c.high 2 * c.low 2 * max c.sfmt.bits c.dfmt.bits) 512
  | 5 => c.low 3 + ceilDiv (4 * c.low 3) 64
  | 6 => c.low 3 + ceilDiv (4 * c.low 3) 64
  | 7 => ceilDiv (c.low 1) 64
  | 8 => 4 * (ceilDiv (c.low 2) 256 + 1)
  | 9 => 4 * (ceilDiv (c.low 2) 256 + 1)
  | 10 => ceilDiv (4 * c.redV * c.high 2) 64
  | _ => 0

/-! ## Checks at issue (R176, R212, R213, R216, R217, R325, R332) -/

/-- The route table's word of a number (R324). -/
def Partition.route (p : Partition) (r : Nat) : W64 := p.routes.getD r 0
def routeHops (w : W64) : Nat := bitsOf w.toNat 41 3
def routePort (w : W64) : Nat := bitsOf w.toNat 33 4
def routeVc (w : W64) : Nat := bitsOf w.toNat 29 4

/-- A word of a reduction-group entry (R331). -/
def Partition.redWord (p : Partition) (g i : Nat) : Nat := ((p.redGroups.getD g []).getD i 0).toNat
def Partition.redP (p : Partition) (g : Nat) : Nat := bitsOf (p.redWord g 0) 0 7
def Partition.redSelf (p : Partition) (g : Nat) : Nat := bitsOf (p.redWord g 0) 8 6
def Partition.redRoot (p : Partition) (g : Nat) : Nat := bitsOf (p.redWord g 0) 16 6
def Partition.redRoute (p : Partition) (g i : Nat) : Nat := bitsOf (p.redWord g (1 + i)) 0 6
def Partition.redCore (p : Partition) (g i : Nat) : Nat := bitsOf (p.redWord g (1 + i)) 8 8

/-- BAD_CONTROL of a CRED (R332). -/
def CopyCmd.badRed (c : CopyCmd) (p : Partition) (k : Nat) : Bool :=
  let g := c.redGroup
  decide (c.redN = 0 ∨ 2 ^ 31 < c.redN ∨ c.redV = 0 ∨ 4096 < c.redV ∨ c.redN < c.low 2 + c.high 2)
    || bitsOf (c.word 3) 45 3 != 0 || bitsOf (c.word 3) 53 11 != 0
    || decide (p.redP g ≤ p.redSelf g ∨ p.redP g ≤ p.redRoot g) || p.redCore g (p.redSelf g) != k
    || (p.redSelf g != p.redRoot g && p.route (p.redRoute g (p.redRoot g)) == 0)

/-- BAD_CONTROL of CSEND's and CPULL's words (R325). -/
def CopyCmd.badRoute (c : CopyCmd) (p : Partition) : Bool :=
  c.high 2 != 0 || c.low 2 == 0 || decide (2 ^ 24 < c.low 2) || bitsOf (c.word 3) 6 58 != 0
    || p.route (bitsOf (c.word 3) 0 6) == 0

/-- BAD_CONTROL of CRDT's control word, scale words and frames (R213). -/
def CopyCmd.badCrdt (c : CopyCmd) : Bool :=
  let w := c.word 3
  decide (2 ^ 32 ≤ c.low 2 * c.high 2) || bitAt w 3 || bitAt w 7 || bitsOf w 21 3 != 0 || bitsOf w 29 35 != 0
    || decide (8 ≤ bitsOf w 8 4 ∨ 8 ≤ bitsOf w 12 4)
    || (bitAt w 20 && !scUniform (c.scales.getD 0 0)) || (bitAt w 28 && !scUniform (c.scales.getD 1 0))
    || !c.srcFrame.valid c.sfmt || !c.dstFrame.valid c.dfmt

/-- BAD_CONTROL of a form's own words (R176, R213, R325, R332). -/
def CopyCmd.badWords (c : CopyCmd) (p : Partition) (k : Nat) : Bool :=
  match c.opcode with
  | 1 => c.high 2 != 0 || c.low 2 == 0
  | 2 => c.low 2 == 0 || c.high 2 == 0
  | 3 => c.low 2 == 0 || c.high 2 == 0 || decide (2 ^ 32 ≤ c.low 2 * c.high 2)
      || !(c.word 5 == 1 || c.word 5 == 2 || c.word 5 == 4)
  | 4 => c.low 2 == 0 || c.high 2 == 0 || c.badCrdt
  | 5 => c.low 3 == 0 || bitsOf (c.word 3) 34 30 != 0 || c.high 4 != 0
  | 6 => c.low 3 == 0 || bitsOf (c.word 3) 34 30 != 0 || c.high 4 != 0
  | 7 => c.high 1 != 0 || c.low 1 == 0
  | 8 => c.badRoute p
  | 9 => c.badRoute p
  | 10 => c.badRed p k
  | _ =>
    let w := c.word 0
    decide (bitsOf w 16 2 = 3 ∨ bitsOf w 8 6 = 0 ∨ 48 < bitsOf w 0 6 + bitsOf w 8 6)
      || bitsOf w 6 2 != 0 || bitsOf w 14 2 != 0 || bitsOf w 18 46 != 0

/-- The partition of a core is this one. -/
def State.inPartition (s : State) (p k : Nat) : Bool := (s.part p).cfg.mask.getLsbD (clusterOf k) && decide (k < 256)

/-- BAD_CONTROL of an arrival block (R217). -/
def State.badArrive (s : State) (c : CopyCmd) : Bool :=
  match c.arrive with
  | none => false
  | some (_, _, tgt) => bitsOf tgt.toNat 8 56 != 0 || (c.opcode == opCPY && !s.inPartition s.myPart tgt.toNat)

/-- BAD_CONTROL (R213, R217): a word's value, or a source extent that overlaps the command's own destination. The index list of a
CGAT is no source extent here, and one that overlaps the destination is accepted: R213 does not say which of the two it is (DESIGN
CHOICE, log 65). -/
def State.badCommand (s : State) (c : CopyCmd) : Bool :=
  c.badWords s.myP s.cur.1 || s.badArrive c
    || (c.opcode != opCSCT && c.opcode != opCFILL && extentsMeet c.srcs c.dsts)
    || (c.opcode == opBANKSET && (List.range (bitsOf (c.word 0) 8 6)).any (fun i =>
      (s.cluster (clusterOf s.cur.1)).modes.getD (bitsOf (c.word 0) 0 6 + i) .cache == .retired))

/-- The route of a fabric command; none of a command that leaves over no port (R325, R331). -/
def CopyCmd.routeOf (c : CopyCmd) (q : Partition) : Option W64 :=
  if c.opcode = opCSEND ∨ c.opcode = opCPULL then some (q.route (bitsOf (c.word 3) 0 6))
  else if c.opcode = opCRED ∧ q.redSelf c.redGroup ≠ q.redRoot c.redGroup then some (q.route (q.redRoute c.redGroup (q.redRoot c.redGroup)))
  else none

/-- The port of a fabric command carries nothing: its peer is not attested (R356). -/
def State.portShut (s : State) (p : Nat) (c : CopyCmd) : Bool :=
  match c.routeOf (s.part p) with
  | none => false
  | some w => !s.module.attested.getLsbD (routePort w)

/-- A fabric command waits: its channel has no credit, or its port carries nothing (R323, R356). -/
def State.lacksCredits (s : State) (p : Nat) (c : CopyCmd) : Bool :=
  match c.routeOf (s.part p) with
  | none => false
  | some w => s.portShut p c || amGet (s.part p).credits (16 * routePort w + routeVc w) == some 0

/-- A fabric command takes a credit of its channel where its link withholds them (R323). -/
def Partition.takeCredit (q : Partition) (c : CopyCmd) : Partition :=
  match c.routeOf q with
  | none => q
  | some w =>
    match amGet q.credits (16 * routePort w + routeVc w) with
    | none => q
    | some n => { q with credits := amSet q.credits (16 * routePort w + routeVc w) (n - 1) }

/-- The FIFO bank that a write of n bytes at a virtual address pushes: at offset 0 of a bank that the writer finds in FIFO, 128·k
bytes (R175). -/
def State.fifoTarget (s : State) (fifo : Nat → Nat → Bool) (p a n : Nat) : Option (Nat × Nat) :=
  if n % 128 ≠ 0 ∨ 0x80000 < n then none
  else
    match findRange (s.part p).ranges a with
    | none => none
    | some e =>
      match homeOf (e.pbase.toNat + (a - e.vbase.toNat)) with
      | .sram c b o => if o = 0 ∧ fifo c b then some (c, b) else none
      | _ => none

/-- The forms whose destination extents may push a FIFO bank (R175). -/
def CopyCmd.mayPush (c : CopyCmd) : Bool := c.opcode != opCSCT && c.opcode != opCRED

/-- The issue faults of an extent: each piece translated and checked, and its bank when the cluster owns it (R216). -/
def State.extentFaults (s : State) (slot : Nat) (perm : Perm) (pushes : Bool) (e : Nat × Nat) : List IssueFault :=
  (extentPieces e.1 e.2).flatMap (fun p =>
    let a : W64 := BitVec.ofNat 64 p.1
    match translate s.ranges perm p.1 with
    | .fault code => [⟨code, slot, 0, a⟩]
    | .ok pa _ =>
      (if !pushes && s.bankRefuses s.cur.1 pa (fun m _ => m.isScratch) then [⟨0x09, slot, 0, a⟩] else [])
        ++ (if perm = .qw ∨ perm = .cw then s.imageFaults slot 0 a p.2 else []))

/-- ALIAS_HAZARD of an extent that an operation writes (R121, R243). -/
def State.extentAlias (s : State) (slot : Nat) (e : Nat × Nat) : List IssueFault :=
  (splitExtent e).flatMap (fun x =>
    match s.aliasHit (BitVec.ofNat 64 x.1) x.2 with
    | some h => [⟨0x0D, slot, 0, BitVec.ofNat 64 h⟩]
    | none => [])

/-- Address and half of an element of a row of a format. -/
def crdtElem (f : Fmt) (base pitch r j : Nat) : W64 × Nat :=
  let a := base + r * pitch
  if f.bits = 4 then (BitVec.ofNat 64 (a + j / 2), j % 2) else (BitVec.ofNat 64 (a + j * (f.bits / 8)), 0)

/-- The source element, and the destination element, of place (r, j) of the destination (R215). -/
def CopyCmd.srcElem (c : CopyCmd) (r j : Nat) : W64 × Nat :=
  if c.tr then crdtElem c.sfmt (c.word 0) c.srcFrame.pitch.toNat j r
  else crdtElem c.sfmt (c.word 0) c.srcFrame.pitch.toNat r j

def CopyCmd.dstElem (c : CopyCmd) (r j : Nat) : W64 × Nat := crdtElem c.dfmt (c.word 1) c.dstFrame.pitch.toNat r j

/-- FRAME_RANGE of a CRDT's elements (R129, R216). -/
def CopyCmd.frameFaults (c : CopyCmd) : List IssueFault :=
  if c.opcode = opCRDT then
    (List.range c.dstRows).flatMap (fun r => (List.range c.dstCols).flatMap (fun j =>
      let a := c.srcElem r j
      let b := c.dstElem r j
      (if (c.srcFrame.index a.1 a.2).isSome then [] else [⟨0x0A, slotC, 0, a.1⟩])
        ++ (if (c.dstFrame.index b.1 b.2).isSome then [] else [⟨0x0A, slotC, 0, b.1⟩])))
  else []

/-- The issue faults of a command (R213, R216, R217). Where several bytes fail with one code TINFO names the first of them in the
order sources, index list, destinations, of each extent its lowest piece first: R216 says "the address" and no more (DESIGN CHOICE,
log 65). -/
def State.copyFaults (s : State) (c : CopyCmd) : List IssueFault :=
  if s.badCommand c then [⟨0x05, slotC, 0, 0⟩]
  else
    (c.srcs ++ c.list).flatMap (s.extentFaults slotC .cr false)
      ++ c.dsts.flatMap (fun e => s.extentFaults slotC .cw (c.mayPush && (s.fifoTarget (s.fifoFor (clusterOf s.cur.1) s.t) s.myPart e.1 e.2).any (fun b => b.1 == clusterOf s.cur.1)) e)
      ++ c.dsts.flatMap (s.extentAlias slotC)
      ++ c.frameFaults

/-! ## Acceptance (R88, R211, R212, R218) -/

/-- The staging words that a form reads (R212). -/
def copyWords (opcode : Nat) : Nat :=
  match opcode with
  | 1 => 3 | 2 => 5 | 3 => 6 | 4 => 4 | 5 => 5 | 6 => 5 | 7 => 3 | 8 => 4 | 9 => 4 | 10 => 4 | _ => 1

/-- A command as the issuing bundle captures it. -/
def State.command (s : State) (opcode : Nat) (k : BitVec 4) (rd : Nat) (ha tr : Bool) : CopyCmd :=
  let w := fun i => vget s.me.regs.ds (k.toNat + i) 0
  let n := copyWords opcode
  let c3 := (w 3).toNat
  { id := s.nextId, ctx := s.cur.2, handler := s.me.st == .handler, opcode := opcode, words := (List.range n).map w, rd := rd,
    tr := tr, arrive := if ha then some (w n, w (n + 1), w (n + 2)) else none, number := 0, accepted := s.t, fmt := s.fmt,
    frames := if opcode = opCRDT then [vget s.me.regs.df (bitsOf c3 0 3) Frame.zero, vget s.me.regs.df (bitsOf c3 4 3) Frame.zero] else [],
    scales := if opcode = opCRDT then [vget s.me.regs.sc (bitsOf c3 16 4) 0, vget s.me.regs.sc (bitsOf c3 24 4) 0] else [],
    seq := 0, started := none, freed := 0, starved := false, due := none, writes := [], nonfinite := false, fault := 0, performed := false,
    view := ⟨[], [], []⟩ }

/-- The counter that numbers a form (R218). -/
def copyCounter (opcode : Nat) : Nat := if opcode = opCSEND ∨ opcode = opCPULL ∨ opcode = opCRED then ctrTF else ctrTC

/-- A group's next place in its order of reductions (R333). -/
def Partition.redSeq (p : Partition) (g : Nat) : Nat := p.redSeqs.getD g 0
def Partition.nextRed (p : Partition) (g : Nat) : Partition :=
  { p with redSeqs := (List.range 16).map (fun i => if i = g then p.redSeq i + 1 else p.redSeq i) }

/-- A command enters the queue with its number (R211, R218). -/
def State.acceptCopy (s : State) (c : CopyCmd) : State :=
  let r := s.takeNumber (copyCounter c.opcode)
  let id := r.2.nextId
  let seq := if c.opcode = opCRED then s.myP.redSeq c.redGroup else 0
  let s1 := r.2.onCore s.cur.1 (fun x => { x with copies := x.copies ++ [{ c with id := id, number := r.1, seq := seq }] })
  let s2 := if c.opcode = opCRED then s1.onPart s.myPart (fun x => x.nextRed c.redGroup) else s1
  { s2 with nextId := id + 1 }

/-- A C-slot command's contribution to its bundle. -/
def copyCmdSem (s : State) (tt : TT) (opcode : Nat) (k : BitVec 4) (rd : Nat) (ha tr : Bool) : OpSem :=
  let c := s.command opcode k rd ha tr
  .guarded s tt
    { faults := s.copyFaults c
      holds := if 16 ≤ s.myCore.copies.length then ovEngine else 0
      effect := fun r => r.acceptCopy c }

/-- CPY (R214). -/
def cpySem (tt : TT) (k : BitVec 4) (rd : BitVec 2) (ha : Bool) (s : State) : OpSem := copyCmdSem s tt opCPY k rd.toNat ha false

def execCpy (tt : TT) (k : BitVec 4) (rd : BitVec 2) (ha : Bool) (s : State) : Host.Outcome State Fault Refusal :=
  (cpySem tt k rd ha s).run slotC [] s

/-- CPY2 (R214). -/
def cpy2Sem (tt : TT) (k : BitVec 4) (rd : BitVec 2) (s : State) : OpSem := copyCmdSem s tt opCPY2 k rd.toNat false false

def execCpy2 (tt : TT) (k : BitVec 4) (rd : BitVec 2) (s : State) : Host.Outcome State Fault Refusal :=
  (cpy2Sem tt k rd s).run slotC [] s

/-- CPYT (R214). -/
def cpytSem (tt : TT) (k : BitVec 4) (rd : BitVec 2) (s : State) : OpSem := copyCmdSem s tt opCPYT k rd.toNat false false

def execCpyt (tt : TT) (k : BitVec 4) (rd : BitVec 2) (s : State) : Host.Outcome State Fault Refusal :=
  (cpytSem tt k rd s).run slotC [] s

/-- CRDT (R215). -/
def crdtSem (tt : TT) (k : BitVec 4) (rd : BitVec 2) (tr : Bool) (s : State) : OpSem :=
  copyCmdSem s tt opCRDT k rd.toNat false tr

def execCrdt (tt : TT) (k : BitVec 4) (rd : BitVec 2) (tr : Bool) (s : State) : Host.Outcome State Fault Refusal :=
  (crdtSem tt k rd tr s).run slotC [] s

/-- CGAT (R214). -/
def cgatSem (tt : TT) (k : BitVec 4) (rd : BitVec 2) (s : State) : OpSem := copyCmdSem s tt opCGAT k rd.toNat false false

def execCgat (tt : TT) (k : BitVec 4) (rd : BitVec 2) (s : State) : Host.Outcome State Fault Refusal :=
  (cgatSem tt k rd s).run slotC [] s

/-- CSCT (R214). -/
def csctSem (tt : TT) (k : BitVec 4) (rd : BitVec 2) (s : State) : OpSem := copyCmdSem s tt opCSCT k rd.toNat false false

def execCsct (tt : TT) (k : BitVec 4) (rd : BitVec 2) (s : State) : Host.Outcome State Fault Refusal :=
  (csctSem tt k rd s).run slotC [] s

/-- CFILL (R214). -/
def cfillSem (tt : TT) (k : BitVec 4) (rd : BitVec 2) (s : State) : OpSem := copyCmdSem s tt opCFILL k rd.toNat false false

def execCfill (tt : TT) (k : BitVec 4) (rd : BitVec 2) (s : State) : Host.Outcome State Fault Refusal :=
  (cfillSem tt k rd s).run slotC [] s

/-- CSEND (R325, R326). -/
def csendSem (tt : TT) (k : BitVec 4) (rd : BitVec 2) (ha : Bool) (s : State) : OpSem :=
  copyCmdSem s tt opCSEND k rd.toNat ha false

def execCsend (tt : TT) (k : BitVec 4) (rd : BitVec 2) (ha : Bool) (s : State) : Host.Outcome State Fault Refusal :=
  (csendSem tt k rd ha s).run slotC [] s

/-- CPULL (R325, R326). -/
def cpullSem (tt : TT) (k : BitVec 4) (rd : BitVec 2) (s : State) : OpSem := copyCmdSem s tt opCPULL k rd.toNat false false

def execCpull (tt : TT) (k : BitVec 4) (rd : BitVec 2) (s : State) : Host.Outcome State Fault Refusal :=
  (cpullSem tt k rd s).run slotC [] s

/-- CRED (R332, R333). -/
def credSem (tt : TT) (k : BitVec 4) (s : State) : OpSem := copyCmdSem s tt opCRED k 0 false false

def execCred (tt : TT) (k : BitVec 4) (s : State) : Host.Outcome State Fault Refusal := (credSem tt k s).run slotC [] s

/-- BANKSET (R176). -/
def banksetSem (tt : TT) (k : BitVec 4) (s : State) : OpSem := copyCmdSem s tt opBANKSET k 0 false false

def execBankset (tt : TT) (k : BitVec 4) (s : State) : Host.Outcome State Fault Refusal := (banksetSem tt k s).run slotC [] s

end Sys2Proof.Machine
end

