-- ==== Sys2Proof/Machine/Engine.lean ====
section
/-! DEFINITION. The copy engine at work: when a command starts, what it reads, when it completes and what it writes; the
switching of banks (R176, R177, R189, R215, R218, R219, R273, R326, R327). -/

namespace Sys2Proof.Machine

/-! ## What a command reads (R177, R209, R219, R273) -/

/-- The physical address of a byte that has been checked. -/
def State.physOf (s : State) (p a : Nat) : Option Nat :=
  (findRange (s.part p).ranges (a % 2 ^ 64)).map (fun e => e.pbase.toNat + (a % 2 ^ 64 - e.vbase.toNat))

/-- The byte at a virtual address as an engine of a core reads it, zero where it is refused, with writes that the read finds laid
over it. -/
def State.engineByte (s : State) (k : Nat) (ov : List PByte) (a : Nat) : Byte :=
  match s.physOf (s.partOf k) a with
  | none => 0
  | some pa => overlayByte ov pa (if s.readRefused k pa then 0 else s.coreByte k pa)

/-- n bytes from a virtual address. -/
def State.engineBytes (s : State) (k : Nat) (ov : List PByte) (a n : Nat) : List Byte :=
  (List.range n).map (fun i => s.engineByte k ov (a + i))

/-- A little-endian number at a virtual address. -/
def State.engineNat (s : State) (k : Nat) (ov : List PByte) (a n : Nat) : Nat := natOfBytes (s.engineBytes k ov a n)

/-- A code of a format at a virtual address and half (R224). -/
def State.engineCode (s : State) (k : Nat) (ov : List PByte) (f : Fmt) (a h : Nat) : Nat :=
  if f.bits = 4 then bitsOf (s.engineByte k ov a).toNat (4 * h) 4 else s.engineNat k ov a (f.bits / 8)

/-- The physical pieces of extents: virtual address, physical address, length and RES. -/
def State.physPieces (s : State) (p : Nat) (es : List (Nat × Nat)) : List (Nat × Nat × Nat × Nat) :=
  (es.flatMap (fun e => extentPieces e.1 e.2)).filterMap (fun q =>
    (findRange (s.part p).ranges q.1).map (fun e => (q.1, e.pbase.toNat + (q.1 - e.vbase.toNat), q.2, e.res.toNat)))

/-- The R180 figure of the slowest byte of extents, under R181 (R218). -/
def State.extentFigure (s : State) (k : Nat) (es : List (Nat × Nat)) : Nat :=
  let m := s.mult (s.partOf k)
  maxOf ((s.physPieces (s.partOf k) es).flatMap (fun q =>
    (List.range (q.2.2.1 / 4096 + 2)).filterMap (fun i =>
      let a := if i = 0 then q.2.1 else q.2.1 / 4096 * 4096 + 4096 * i
      if a < q.2.1 + q.2.2.1 then some (lambdaOf m (clusterOf k) a q.2.2.2) else none)))

/-- The lines of those pieces of extents that satisfy a test of their physical address and RES. -/
def State.linesWhere (s : State) (p : Nat) (f : Nat → Nat → Bool) (es : List (Nat × Nat)) : List Nat :=
  ((s.physPieces p es).filter (fun q => f q.2.1 q.2.2.2)).flatMap (fun q =>
    (List.range ((q.2.1 % 64 + q.2.2.1 + 63) / 64)).map (fun i => lineOf q.2.1 + 64 * i))

/-- The lines of source extents are looked up: those of GDDR are allocated at RRPV := RD, those of host memory only hit (R173,
R219). -/
def State.touchSources (s : State) (k rd : Nat) (es : List (Nat × Nat)) : State :=
  let lines := fun (h : Home) => s.linesWhere (s.partOf k) (fun pa _ => homeOf pa == h) es
  (s.touchLines k rd (lines .gddr)).noteHits k (lines .host)

/-- The source extents that a command reads: of a CGAT the elements that its list names (R214). -/
def State.readExtents (s : State) (k : Nat) (ov : List PByte) (c : CopyCmd) : List (Nat × Nat) :=
  (if c.opcode = opCGAT then
    (List.range (c.low 3)).filterMap (fun i =>
      let x := s.engineNat k ov (c.word 2 + 4 * i) 4
      if x < c.bound then some ((c.word 0 + x * c.elem) % 2 ^ 64, c.elem) else none)
  else c.srcs) ++ c.list

/-- The writes laid over extents that an engine reads by cycle till: its context's own local writes of bundles before cycle since,
and those that the read happens to find of the others whose order with it is open (R219, R240, R387). -/
def State.engineOverlay (s : State) (k c since till : Nat) (es : List (Nat × Nat)) : List PByte × State :=
  let ps := s.physPieces (s.partOf k) es
  let us := s.racing k c since till ((minOf (ps.map (fun q => q.2.1))).getD 0) (maxOf (ps.map (fun q => q.2.1 + q.2.2.1)))
  if us.any (fun u => u.free) then
    let n := s.pick (s.partOf k)
    (s.laidOver n.1 us, n.2)
  else (s.laidOver 0 us, s)

/-- The GDDR lines, of ranges with RES 0, of extents: each takes a burst of its channel (R169, R179, R181). -/
def State.extentLines (s : State) (p : Nat) (es : List (Nat × Nat)) : List Nat :=
  s.linesWhere p (fun pa res => homeOf pa == .gddr && res != 1) es

/-- The bursts of an engine's work for a context, to be served by its published cycle; by how many cycles it misses that, with the
check of that cycle put in flight: it overruns there (R38, R179, R181). -/
def State.engineBursts (s : State) (k c d id : Nat) (handler : Bool) (lines : List Nat) : Nat × State :=
  let p := s.partOf k
  let g := s.takeBursts p d lines
  (g.1, if g.1 = 0 then g.2 else g.2.addOpAs p (some d) k c (s.cyc p) handler false (.padded id))

/-- The first virtual address of extents at which another cluster's bank refuses a read (R177). -/
def State.refusedAt (s : State) (k : Nat) (es : List (Nat × Nat)) : Option Nat :=
  ((s.physPieces (s.partOf k) es).find? (fun q => s.readRefused k q.2.1)).map (·.1)

/-! ## What a command writes (R214, R215) -/

/-- Whole bytes. -/
def wholeBytes (bs : List Byte) : List (Byte × Byte) := bs.map (fun b => (b, 0xFF))

/-- Codes of a row, packed: bytes with the bits that are written. -/
def packCodes (f : Fmt) (cs : List Nat) : List (Byte × Byte) :=
  if f.bits = 4 then
    (List.range ((cs.length + 1) / 2)).map (fun i =>
      let lo := cs.getD (2 * i) 0
      let hi := cs.getD (2 * i + 1) 0
      (BitVec.ofNat 8 (lo % 16 + 16 * (hi % 16)), if 2 * i + 1 < cs.length then 0xFF else 0x0F))
  else cs.flatMap (fun c => wholeBytes (bytesOf (f.bits / 8) c))

/-- The code that CRDT writes at place (r, j) of the destination (R215). -/
def State.crdtCode (s : State) (k : Nat) (ov : List PByte) (c : CopyCmd) (r j : Nat) : Enc :=
  let a := c.srcElem r j
  let b := c.dstElem r j
  let den := fmtDen c.fmt
  let n := (c.srcFrame.index a.1 a.2).getD 0
  let m := (c.dstFrame.index b.1 b.2).getD 0
  let v := decScaled c.sfmt (s.engineCode k ov c.sfmt a.1.toNat a.2) (c.srcFrame.offsetFor den c.sfmt n) c.srcScale
  encScaled c.dfmt (fmtRm c.fmt) (fmtSat c.fmt) (c.dstFrame.draw den m) (c.dstFrame.offsetFor den c.dfmt m) c.dstScale v

/-- The writes of a command that reads locally, each a virtual address with its bytes, in order (R214, R215). Destination rows are
written one after another, in ascending order, also where a pitch below the row's bytes lets the rows of one command overlap: the
spec states an order for CSCT alone, and gives CPYT's and CRDT's loops over source rows and columns (DESIGN CHOICE, log 65). -/
def State.copyData (s : State) (k : Nat) (ov : List PByte) (c : CopyCmd) : List (Nat × List (Byte × Byte)) × Bool :=
  let bytes := fun a n => wholeBytes (s.engineBytes k ov a n)
  match c.opcode with
  | 1 => ([(c.word 1, bytes (c.word 0) (c.low 2))], false)
  | 2 => ((c.srcs.zip c.dsts).map (fun e => (e.2.1, bytes e.1.1 e.1.2)), false)
  | 3 =>
    let n := bitsOf (c.word 5) 0 4
    ((List.range (c.low 2)).map (fun j => ((c.word 1 + j * c.word 4) % 2 ^ 64,
      (List.range (c.high 2)).flatMap (fun r => bytes (c.word 0 + r * c.word 3 + j * n) n))), false)
  | 4 =>
    let rows := (List.range c.dstRows).map (fun r => (List.range c.dstCols).map (s.crdtCode k ov c r))
    ((c.dsts.zip rows).map (fun e => (e.1.1, packCodes c.dfmt (e.2.map (fun x => x.code)))), rows.any (fun r => r.any (fun x => x.nf)))
  | 5 => ([(c.word 1, (List.range (c.low 3)).flatMap (fun i =>
      let x := s.engineNat k ov (c.word 2 + 4 * i) 4
      if x < c.bound then bytes (c.word 0 + x * c.elem) c.elem else wholeBytes (List.replicate c.elem 0)))], false)
  | 6 => ((List.range (c.low 3)).filterMap (fun i =>
      let x := s.engineNat k ov (c.word 2 + 4 * i) 4
      if x < c.bound then some ((c.word 1 + x * c.elem) % 2 ^ 64, bytes (c.word 0 + i * c.elem) c.elem) else none), false)
  | 7 => ([(c.word 0, (List.range (c.low 1)).map (fun j => (BitVec.ofNat 8 (bitsOf (c.word 2) (8 * (j % 8)) 8), 0xFF)))], false)
  | 8 => ([(c.word 1, bytes (c.word 0) (c.low 2))], false)
  | _ => ([], false)

/-! ## COPY_START (R176, R218, R327) -/

/-- The first command of a core's engine that has not started, with those accepted before it. -/
def nextCopy : List CopyCmd → Option (List CopyCmd × CopyCmd)
  | [] => none
  | c :: r =>
    match c.started with
    | none => some ([], c)
    | some _ => (nextCopy r).map (fun x => (c :: x.1, x.2))

/-- A completion that a command waits for (R218). -/
def CopyCmd.waitsFor (c e : CopyCmd) : Bool :=
  e.opcode == opBANKSET || extentsMeet e.dsts (c.srcs ++ c.list ++ c.dsts) || extentsMeet (e.srcs ++ e.list) c.dsts

/-- The cycle from which the first waiting command may start, when no completion holds it (R218). -/
def Core.copyStartAt (r : Core) : Option Nat :=
  match nextCopy r.copies with
  | none => none
  | some (before, c) =>
    if before.any c.waitsFor then none
    else some (max (max (c.accepted + 1) c.freed) (match r.lastCopy with
      | some (t, beats) => t + 16 + beats
      | none => 0))

/-- A command has completed: those behind it on its engine that waited for it may start from now on (R218). -/
def State.freeBehind (s : State) (k : Nat) (e : CopyCmd) : State :=
  let t := s.cyc (s.partOf k)
  s.onCore k (fun r => { r with copies := r.copies.map (fun c =>
    if c.started.isNone ∧ e.id < c.id ∧ c.waitsFor e then { c with freed := t } else c) })

/-- A command of a core changed. -/
def State.onCopy (s : State) (k id : Nat) (f : CopyCmd → CopyCmd) : State :=
  s.onCore k (fun r => { r with copies := r.copies.map (fun c => if c.id = id then f c else c) })

/-- The cost of a command from its start (R218, R327). -/
def State.copyCost (s : State) (k : Nat) (c : CopyCmd) : Nat :=
  let m := s.mult (s.partOf k)
  let lr := s.extentFigure k (c.srcs ++ c.list)
  let lw := s.extentFigure k c.dsts
  let b := c.beatsOf
  let h := routeHops ((s.part (s.partOf k)).route (bitsOf (c.word 3) 0 6)) * figHop m
  match c.opcode with
  | 4 => 16 + lr + b + 3 + lw
  | 5 => 16 + 2 * lr + b + lw
  | 6 => 16 + 2 * lr + b + lw
  | 7 => 16 + b + lw
  | 8 => 16 + lr + b + h + figGddr m + h
  | 9 => 16 + h + figGddr m + b + h + lw
  | _ => 16 + lr + b + lw

/-- The old mode of a bank under BANKSET: 0 CACHE, 1 SCRATCH, 2 FIFO (R176). -/
def BankMode.code (m : BankMode) : Nat :=
  match m with
  | .cache => 0
  | .scratch => 1
  | .fifo => 2
  | .switching o => o
  | .retired => 0

/-- The cost of one bank (R176). -/
def bankCost (old : Nat) : Nat := 1280 + if old = 0 then 32768 else 0

/-- The banks that a run names. -/
def BankRun.names (r : BankRun) (b : Nat) : Bool := decide (r.first ≤ b ∧ b < r.first + r.count)
def BankRun.meets (r q : BankRun) : Bool := decide (r.first < q.first + q.count ∧ q.first < r.first + r.count)

/-- The mode in which the runs in progress leave a bank. -/
def Cluster.leaves (c : Cluster) (b : Nat) : Nat :=
  c.runs.foldl (fun m r => if r.names b then r.mode else m) (c.modes.getD b .cache).code

/-- The first bank of a run starts when no earlier run overlaps it (R176). -/
def State.activateRuns (s : State) (p cl : Nat) : State :=
  let c := s.cluster cl
  let go := fun (acc : State × List BankRun) (r : BankRun) =>
    if r.started || acc.2.any (fun q => q.meets r) then (acc.1, acc.2 ++ [r])
    else
      let f := acc.1.within p (bankCost (c.modes.getD r.first .cache).code)
      (f.2, acc.2 ++ [{ r with started := true, nextAt := s.cyc p + f.1 }])
  let r := c.runs.foldl go (s, [])
  r.1.onCluster cl (fun x => { x with runs := r.2 })

/-- A BANKSET starts: its banks are SWITCHING (R176). -/
def State.startBankset (s : State) (k : Nat) (c : CopyCmd) : State :=
  let cl := clusterOf k
  let w := c.word 0
  let r : BankRun := ⟨c.id, k, c.ctx, c.number, bitsOf w 0 6, bitsOf w 8 6, bitsOf w 16 2, 0, false, 0⟩
  let modes := fun (l : List BankMode) => (List.range 48).map (fun b =>
    if r.names b then .switching (l.getD b .cache).code else l.getD b .cache)
  let t := s.cyc (s.partOf k)
  let from_ := fun (m : AMap Nat) => ((List.range 48).filter r.names).foldl (fun m b => amSet m b t) m
  (s.onCluster cl (fun x => { x with modes := modes x.modes, runs := x.runs ++ [r], switched := from_ x.switched })).activateRuns (s.partOf k) cl

/-- The whole cost of a BANKSET: its beats (R176, R218). -/
def State.banksetBeats (s : State) (k : Nat) (c : CopyCmd) : Nat :=
  let w := c.word 0
  ((List.range (bitsOf w 8 6)).map (fun i => bankCost ((s.cluster (clusterOf k)).leaves (bitsOf w 0 6 + i)))).foldl (· + ·) 0

/-- The verdict of the peer of a fabric command, by how long a full arrival queue or a held push at the peer keeps a CSEND, and
what the peer sends back (R175, R189, R326). -/
def State.peerSends (s : State) (p : Nat) (c : CopyCmd) : Nat × Nat × List (Nat × List (Byte × Byte)) × State :=
  let n := s.pick p
  let cause := Config.peerAnswer n.1 % 4
  let kept := c.opcode == opCSEND && (c.arrive.isSome || c.low 2 % 128 == 0) && cause == 0
  (cause, if kept then Config.peerDelay n.1 else 0,
    if c.opcode = opCPULL then [(c.word 1, wholeBytes ((List.range (c.low 2)).map (Config.peerByte n.1)))] else [], n.2)

/-- The extents where a command will write, as they lie in memory. -/
def State.copySpans (s : State) (k : Nat) (c : CopyCmd) : List (Nat × Nat) :=
  (s.physPieces (s.partOf k) c.dsts).map (fun q => (q.2.1, q.2.2.1))

/-- What a command takes of the memory at its start, with writes that it finds laid over it (R219). -/
def State.copyView (s : State) (k : Nat) (ov : List PByte) (c : CopyCmd) (es : List (Nat × Nat)) : CopyView :=
  let p := s.partOf k
  { bytes := es.flatMap (fun e => (List.range e.2).filterMap (fun i =>
      (s.physOf p (e.1 + i)).map (fun pa => ⟨pa, s.engineByte k ov (e.1 + i), 0xFF⟩)))
    fetched := (s.linesWhere p (fun pa _ => homeOf pa == .gddr || homeOf pa == .host) es).filter (fun a => (findLine (s.cluster (clusterOf k)) a).isNone)
    spans := s.copySpans k c }

/-- From its start on, what is on its way may come upon the bytes that an engine has settled to write (R219, R387). -/
def State.offerWrites (s : State) (k : Nat) (ws : List (Nat × List (Byte × Byte))) : State :=
  let cl := clusterOf k
  let bs := (ws.flatMap (fun w => s.physWrite (s.partOf k) w.1 w.2)).filter (fun b => !s.readRefused k b.pa)
  (s.offerAll none bs).offerAll cl (bs.filter (fun b => (findLine (s.cluster cl) b.pa).isSome))

/-- A command other than BANKSET and CRED starts: it reads its sources, and what it will write and when it completes are
settled (R218, R219, R326, R327). -/
def State.startMove (s : State) (k : Nat) (c : CopyCmd) : State :=
  let p := s.partOf k
  let t := s.cyc p
  let open_ := s.engineOverlay k c.ctx c.accepted (t + s.copyCost k c) (s.readExtents k (s.pendingBefore k c.ctx c.accepted) c)
  let ov := open_.1
  let d := s.copyData k ov c
  let es := s.readExtents k ov c
  let view := s.copyView k ov c es
  let s1 := open_.2.touchSources k c.rd es
  let s2 := match s.refusedAt k es with
    | some a => s1.raise k c.ctx 0x82 (BitVec.ofNat 64 a) slotC c.handler
    | none => s1
  let f := s2.figure p (s.copyCost k c)
  let b := f.2.engineBursts k c.ctx (t + f.1) c.id c.handler (s.extentLines p (es ++ c.dsts))
  let fabric := c.opcode == opCSEND || c.opcode == opCPULL
  let v := if fabric then b.2.peerSends p c else (0, 0, [], b.2)
  let data := if v.1 ≠ 0 then [] else if c.opcode = opCPULL then v.2.2.1 else d.1
  let s3 := if c.opcode = opCSEND then v.2.2.2 else v.2.2.2.offerWrites k data
  s3.onCopy k c.id (fun x => { x with
    due := some (t + f.1 + b.1 + v.2.1), writes := data, nonfinite := d.2, fault := v.1, view := view })

/-! ## Reductions: what a CRED sends (R329 to R334) -/

/-- ⌈log2 N⌉. -/
def treeHeight (n : Nat) : Nat := if n ≤ 1 then 0 else bitLen (n - 1)

/-- An FP32 addition of a reduction: RNE, subnormals honoured (R329). -/
def redAdd (a b : List W32) : List W32 := (a.zip b).map (fun e => f32Add false .rne e.1 e.2)

/-- Node (l, i) from the values of a level-0 function or of known nodes (R329). -/
def treeNode (known : Nat → Nat → Option (List W32)) (n : Nat) : Nat → Nat → Option (List W32)
  | 0, i => known 0 i
  | l + 1, i =>
    match known (l + 1) i with
    | some v => some v
    | none =>
      if (2 * i + 1) * 2 ^ l ≥ n then treeNode known n l (2 * i)
      else
        match treeNode known n l (2 * i), treeNode known n l (2 * i + 1) with
        | some a, some b => some (redAdd a b)
        | _, _ => none

/-- The largest level of a fragment that starts at a and ends by hi (R330). -/
def fragLevel : Nat → Nat → Nat → Nat
  | 0, _, _ => 0
  | l + 1, a, hi => if a % 2 ^ (l + 1) = 0 ∧ a + 2 ^ (l + 1) ≤ hi then l + 1 else fragLevel l a hi

/-- The fragments' places that a range emits (R330). -/
def fragPlaces : Nat → Nat → Nat → Nat → List (Nat × Nat)
  | 0, _, _, _ => []
  | fuel + 1, a, hi, n =>
    if a < hi then
      let l := fragLevel 32 a hi
      (if a < n then [(l, a / 2 ^ l)] else []) ++ fragPlaces fuel (a + 2 ^ l) hi n
    else []

def fragsOf (lo cnt n : Nat) : List (Nat × Nat) :=
  let hi := if lo + cnt = n then 2 ^ treeHeight n else lo + cnt
  fragPlaces 128 lo hi n

/-- What a participant sends: its fragments' values, or in arrival-order mode their sum from left to right (R330, R333). -/
def shareVals (ao : Bool) (lo cnt n : Nat) (x : Nat → List W32) : List (List W32) :=
  let known := fun l i => if l = 0 then some (x i) else none
  let vs := (fragsOf lo cnt n).map (fun f => (treeNode known n f.1 f.2).getD [])
  if cnt = 0 then []
  else if ao then
    match vs with
    | [] => []
    | v :: r => [r.foldl redAdd v]
  else vs

/-- The share of a CRED that starts now, with pending writes laid over what it reads (R332 to R334, R341). -/
def State.shareOf (s : State) (k : Nat) (ov : List PByte) (c : CopyCmd) : Share :=
  let p := s.part (s.partOf k)
  let lo := c.low 2
  let v := c.redV
  let row := fun i => (List.range v).map (fun j => BitVec.ofNat 32 (s.engineNat k ov (c.word 0 + 4 * (v * (i - lo) + j)) 4))
  let t := s.cyc (s.partOf k)
  let g := c.redGroup
  let self := p.redSelf g
  let hops := if self = p.redRoot g then 0 else routeHops (p.route (p.redRoute g (p.redRoot g)))
  let lr := s.extentFigure k c.srcs
  ⟨self, c.redN, v, c.redAo, lo, c.high 2, t, hops, lr, p.cfg.det, p.cfg.bin.toNat, p.cfg.pstart,
    shareVals c.redAo lo (c.high 2) c.redN row, t + 16 + lr + c.beatsOf + hops * figHop p.clock.mult⟩

/-- The latest term of a reduction's cost that the shares give, without λw (R334). -/
def reductionAt (mult : Nat) (shares : List Share) : Nat :=
  let n := maxOf (shares.map (fun x => x.n))
  let v := maxOf (shares.map (fun x => x.v))
  let cnt := maxOf (shares.map (fun x => x.cnt))
  maxOf (shares.map (fun x => x.start)) + 16 + maxOf (shares.map (fun x => x.lr)) + ceilDiv (4 * v * cnt) 64
    + 2 * maxOf (shares.map (fun x => x.hops)) * figHop mult + (treeHeight n + 1) * ceilDiv v 16

/-- The own CRED that belongs to a reduction, with its core (R333). -/
def State.ownCred (s : State) (p g seq : Nat) : Option (Nat × CopyCmd) :=
  s.cores.findSome? (fun e =>
    if s.partOf e.1 = p then
      (e.2.copies.find? (fun c => c.opcode == opCRED && c.redGroup == g && c.seq == seq)).map (fun c => (e.1, c))
    else none)

/-- A share reaches the combiner of this partition; once every participant has sent, the result has its cycle (R333, R334).
The combiner has the value, and its way back is over, before each participant's own write (R334). A second share of one
participant changes nothing. -/
def State.takeShare (s : State) (p g seq : Nat) (x : Share) : State :=
  let q := s.part p
  let old := ((q.reductions.find? (fun r => r.group == g && r.seq == seq)).map (fun r => r.shares)).getD []
  if old.any (fun y => y.participant == x.participant) || decide (q.redP g ≤ x.participant) then s
  else
    let all := old ++ [x]
    let s1 := s.setPart p { q with reductions := q.reductions.filter (fun r => !(r.group == g && r.seq == seq)) ++ [⟨g, seq, all⟩] }
    if all.length < q.redP g then s1
    else
      let base := maxOf (all.map (fun y => y.start))
      let f := s1.figure p (reductionAt q.clock.mult all - base)
      f.2.addOp p (some (max (base + f.1) (s.cyc p))) 0 0 (s.cyc p) (.reduction g seq)

/-- A CRED starts: it reads its rows, whose lines it allocates at 2 as it has no RD field, and sends its share to the combiner (R173,
R332, R333). -/
def State.startCred (s : State) (k : Nat) (c : CopyCmd) : State :=
  let p := s.partOf k
  let q := s.part p
  let g := c.redGroup
  let open_ := s.engineOverlay k c.ctx c.accepted (s.cyc p + s.extentFigure k c.srcs + c.beatsOf) c.srcs
  let x := s.shareOf k open_.1 c
  let s1 := (open_.2.touchSources k 2 c.srcs).onCopy k c.id (fun x => { x with view := ⟨[], [], s.copySpans k c⟩ })
  let s2 := match s.refusedAt k c.srcs with
    | some a => s1.raise k c.ctx 0x82 (BitVec.ofNat 64 a) slotC c.handler
    | none => s1
  let s3 := (s2.engineBursts k c.ctx (s.cyc p + 16 + s.extentFigure k c.srcs + c.beatsOf) c.id c.handler (s.extentLines p c.srcs)).2
  if q.redSelf g = q.redRoot g then s3.takeShare p g c.seq x
  else s3.answer (.share (q.redRoute g (q.redRoot g)) g c.seq x)

/-- COPY_START: the next command of the core's engine starts (R218); a fabric command takes its credit, and one that nothing but
the want of a credit has kept waiting starts late for that (R323). -/
def State.startCopy (s : State) (k : Nat) (c : CopyCmd) : State :=
  let t := s.cyc (s.partOf k)
  let beats := if c.opcode = opBANKSET then s.banksetBeats k c else c.beatsOf
  let late := (c.routeOf (s.part (s.partOf k))).isSome && (s.core k).copyStartAt.any (fun u => decide (u < t))
  let s1 := ((s.onPart (s.partOf k) (fun q => q.takeCredit c)).onCopy k c.id (fun x => { x with started := some t, starved := late })).onCore k
    (fun r => { r with lastCopy := some (t, beats) })
  if c.opcode = opBANKSET then s1.startBankset k c
  else if c.opcode = opCRED then s1.startCred k c
  else s1.startMove k c

def execCopyStart (core : Nat) (s : State) : Host.Outcome State Fault Refusal :=
  match (s.core core).copyStartAt, nextCopy (s.core core).copies with
  | some t, some (_, c) =>
    if t ≤ s.cyc (s.partOf core) ∧ s.lacksCredits (s.partOf core) c = false then .next (s.startCopy core c) else notDue
  | _, _ => notDue

/-! ## COPY_COMPLETE (R175, R177, R189, R218, R219, R326) -/

/-- A write of a command accepted at a cycle, at its home: to a bank in SCRATCH, or to GDDR or host memory; where the bank's mode
refuses it, it is discarded (R174, R177). The copy of a line in the cluster's cache is updated (R219): cached are the same bytes as
they change that copy. -/
def State.homeWrite (s : State) (cl accepted : Nat) (bs cached : List PByte) : State :=
  let copied := cached.filter (fun b => (findLine (s.cluster cl) b.pa).isSome)
  ((s.writeHomes (bs.filter (fun b => s.takesFrom cl accepted b.pa))).notice none cl copied).onCluster cl (fun x => updateCopies x copied)

/-- The bytes that a command at work has met at a place. -/
def State.metAt (s : State) (p id place : Nat) : List PByte :=
  ((s.part p).met.filter (fun m => m.copy == id && m.place == place)).map (fun m => m.byte)

/-- The bytes of a write that are left under others. -/
def leftUnder (bs others : List PByte) : List PByte :=
  if others.isEmpty then bs else (bs.map (fun b => b.under others)).filter (fun b => b.mask != 0)

/-- The entries of 128 bytes that a push writes (R175). -/
def entriesOf : Nat → List (Byte × Byte) → List Vec
  | 0, _ => []
  | n + 1, bs => BitVec.ofNat 1024 (natOfBytes ((bs.take 128).map (·.1))) :: entriesOf n (bs.drop 128)

/-- One write of a command: a push into a FIFO bank, which in DET overruns where it is still held in the cycle of the command's
cost, or bytes at their homes, under those that have come to stand over them while it was at work; the first virtual address that another
cluster's bank refuses, if any (R38, R175, R177, R181, R216, R219). -/
def State.performWrite (s : State) (k : Nat) (c : CopyCmd) (w : Nat × List (Byte × Byte)) : State × Option Nat :=
  let p := s.partOf k
  match if c.mayPush then s.fifoTarget (s.fifoFor (clusterOf k) c.accepted) p w.1 w.2.length else none with
  | some (cl, b) =>
    let r := s.addOpAs p (some (s.cyc p)) k c.ctx c.accepted c.handler false
      (.push cl b (BitVec.ofNat 64 w.1) (entriesOf (w.2.length / 128) w.2) (some c.id))
    (if s.isDet p then r.addOpAs p (some (s.cyc p)) k c.ctx c.accepted c.handler false (.padded s.nextId) else r, none)
  | none =>
    let bs := s.physWrite p w.1 w.2
    let bad := (bs.zip (List.range bs.length)).find? (fun e => s.storeRefused k e.1.pa)
    let bs := bs.filter (fun b => !s.storeRefused k b.pa)
    (s.homeWrite (clusterOf k) c.accepted (leftUnder bs (s.metAt p c.id 1)) (leftUnder bs (s.metAt p c.id 2)), bad.map (fun e => w.1 + e.2))

/-- A list of writes. -/
def State.performWrites (s : State) (k : Nat) (c : CopyCmd) (ws : List (Nat × List (Byte × Byte))) : State × Option Nat :=
  ws.foldl (fun acc w =>
    let r := acc.1.performWrite k c w
    (r.1, match acc.2 with
      | some a => some a
      | none => r.2)) (s, none)

/-- A command performs its writes; a CSEND's leave for the peer; with an arrival block the arrival follows (R189, R326). -/
def State.performCopy (s : State) (k : Nat) (c : CopyCmd) : State :=
  let p := s.partOf k
  let s1 := s.onCopy k c.id (fun x => { x with performed := true, writes := c.writes, nonfinite := c.nonfinite })
  if c.fault ≠ 0 then s1
  else if c.opcode = opCSEND then
    s1.answer (.sent (bitsOf (c.word 3) 0 6) (c.words.getD 1 0) ((c.writes.flatMap (·.2)).map (·.1)) c.arrive)
  else
    let r := s1.performWrites k c c.writes
    let s2 := match r.2 with
      | some a => r.1.raise k c.ctx 0x82 (BitVec.ofNat 64 a) slotC c.handler
      | none => r.1
    match c.arrive with
    | none => s2
    | some (h, word, tgt) =>
      s2.addOpAs p (some (s.cyc p)) k c.ctx c.accepted c.handler false
        (.arrive tgt.toNat ⟨h, word, c.words.getD 1 0, BitVec.ofNat 64 (c.low 2), s.cyc p⟩ (some c.id))

/-- A command still has a push held at a bank, or an arrival held before its queue (R175, R189). -/
def State.copyHeld (s : State) (p id : Nat) : Bool :=
  (s.part p).ops.any (fun o =>
    match o.kind with
    | .push _ _ _ _ (some i) => i == id
    | .arrive _ _ (some i) => i == id
    | _ => false)

/-- NONFINITE of a copy: GRVSEQ and GRVNODE receive values that the spec does not state (R215, R286). -/
def State.copyNonFinite (s : State) (k : Nat) (c : CopyCmd) : State :=
  let n := s.pick (s.partOf k)
  let cy := s.cyc (s.partOf k)
  n.2.pendTrap k c.ctx ⟨0x86, 0, cy, 0, c.handler, slotC, 0, some (Config.copyGrvSeq n.1, Config.copyGrvNode n.1), none⟩

/-- A command leaves the engine: its number completes, and it may raise a trap (R211, R215, R218, R326, R333, R335). -/
def State.finishCopy (s : State) (k : Nat) (c : CopyCmd) : State :=
  let s := if (s.part (s.partOf k)).met.isEmpty then s
    else s.onPart (s.partOf k) (fun q => { q with met := q.met.filter (fun m => m.copy != c.id) })
  let s1 := ((s.onCore k (fun r => { r with copies := r.copies.filter (fun x => x.id != c.id) })).complete k c.ctx (copyCounter c.opcode) c.number).freeBehind k c
  let s2 := if c.nonfinite && fmtNfte c.fmt then s1.copyNonFinite k c else s1
  if c.fault = 0 then s2
  else if c.fault = 16 then s2.raise k c.ctx 0x8B (BitVec.ofNat 64 c.redGroup) slotC c.handler
  else s2.raise k c.ctx 0x8A (BitVec.ofNat 64 (c.fault + 256 * bitsOf (c.word 3) 0 6)) slotC c.handler

/-- A command's cycle has come. -/
def CopyCmd.reached (c : CopyCmd) (cy : Nat) : Bool :=
  match c.due with
  | some d => decide (d ≤ cy)
  | none => false

/-- An earlier CSEND of one engine on the same route has not reached the peer: those of one route perform there in acceptance
order (R328). -/
def Core.sendsBefore (r : Core) (c : CopyCmd) : Bool :=
  c.opcode == opCSEND && r.copies.any (fun e =>
    e.opcode == opCSEND && decide (e.id < c.id) && !e.performed && bitsOf (e.word 3) 0 6 == bitsOf (c.word 3) 0 6)

/-- A command that performs, or finishes, now; a fabric command passes no port whose peer is not attested: it waits (R356). -/
def State.copyReady (s : State) (p k : Nat) (c : CopyCmd) : Bool :=
  c.reached (s.cyc p) && (if c.performed then !s.copyHeld p c.id else !(s.core k).sendsBefore c && !s.portShut p c)

/-- A command in flight, by its number, with its core. -/
def State.findCopy (s : State) (p id : Nat) : Option (Nat × CopyCmd) :=
  s.cores.findSome? (fun e =>
    if s.partOf e.1 = p then (e.2.copies.find? (fun c => c.id == id)).map (fun c => (e.1, c)) else none)

/-- A command whose cycle has come, with what it writes as its sources read after all that it has met since its start: of each byte
of theirs the old value or the new one (R219, R387). -/
def State.settleCopy (s : State) (k : Nat) (c : CopyCmd) : CopyCmd :=
  let met := s.metAt (s.partOf k) c.id 0
  if c.fault ≠ 0 ∨ met = [] then c
  else
    let d := s.copyData k (s.pendingBefore k c.ctx c.accepted ++ c.view.bytes ++ met) c
    { c with writes := d.1, nonfinite := d.2 }

/-- The writes perform; the command finishes in the same event unless a push or an arrival of it has yet to enter. -/
def State.completeCopy (s : State) (k : Nat) (c : CopyCmd) : State :=
  let p := s.partOf k
  if c.performed then s.finishCopy k c
  else
    let c := s.settleCopy k c
    let s1 := s.performCopy k c
    if s1.copyHeld p c.id then s1 else s1.finishCopy k c

def execCopyComplete (p id : Nat) (s : State) : Host.Outcome State Fault Refusal :=
  match s.findCopy p id with
  | none => notDue
  | some (k, c) => if s.copyReady p k c then .next (s.completeCopy k c) else notDue

/-! ## BANK_NEW_MODE_ENTERED and BANKSET_COMPLETE (R176) -/

/-- What a load of another cluster has read of a bank whose contents are gone: the bank checks it later, in its new mode, and gives
it what it holds then (R176, R177). -/
def Op.emptyReads (o : Op) (cl b : Nat) : Op :=
  match o.kind with
  | .value wid ta rs =>
    if clusterOf o.core = cl then o
    else { o with kind := .value wid ta (rs.map (fun r => match homeOf r.pa with
      | .sram c b' _ => if c = cl ∧ b' = b then { r with raw := 0 } else r
      | _ => r)) }
  | _ => o

def State.emptyReads (s : State) (cl b : Nat) : State :=
  { s with parts := s.parts.map (fun e => (e.1, { e.2 with ops := e.2.ops.map (fun o => o.emptyReads cl b) })) }

/-- A bank leaves its old mode, with every dirty line of its way written back and its contents gone, and enters the new one;
a later BANKSET that names it keeps it SWITCHING. The spec gives the cost of the whole run and not when within it each line is
written back: the model writes them all at this moment (DESIGN CHOICE, log 63). -/
def State.enterMode (s : State) (cl : Nat) (r : BankRun) (b : Nat) : State :=
  let s1 := (s.flushCluster cl (fun l => l.way == b) true).emptyReads cl b
  let s2 := { s1 with mem := memDrop s1.mem (sramBase + cl * 0x2000000 + b * 0x80000) 0x80000 }
  let more := (s.cluster cl).runs.any (fun q => q.op != r.op && q.names b)
  let m := if more then .switching r.mode else bankModeOf r.mode
  s2.onCluster cl (fun x => { x with
    modes := (List.range 48).map (fun i => if i = b then m else x.modes.getD i .cache)
    fifos := x.fifos.filter (fun f => f.bank != b) })

/-- A run of banks in progress, by its number. -/
def State.findRun (s : State) (p id : Nat) : Option (Nat × BankRun) :=
  s.clusters.findSome? (fun e =>
    if s.partOfCluster e.1 = some p then (e.2.runs.find? (fun r => r.op == id)).map (fun r => (e.1, r)) else none)

end Sys2Proof.Machine
end

