-- ==== Sys2Proof/Machine/Solve.lean ====
section
/-! DEFINITION. The arithmetic of the solver nodes on FP32 working images, with their costs, the requests they send to the
divide and square-root unit and their breakdowns (R252 to R262, R389). Cycles count from the node's start. -/

namespace Sys2Proof.Machine

/-- A working image: rows of FP32 codes. -/
abbrev Tile := List (List W32)

def Tile.at_ (w : Tile) (i j : Nat) : W32 := (w.getD i []).getD j 0
def Tile.row (w : Tile) (i : Nat) : List W32 := w.getD i []
def Tile.setRow (w : Tile) (i : Nat) (r : List W32) : Tile := w.set i r
def Tile.put (w : Tile) (i j : Nat) (v : W32) : Tile := w.set i ((w.getD i []).set j v)

/-- fma, RNE of a product, rcp and sq (R252). -/
def sFma (a b c : W32) : W32 := f32Fma false .rne a b c
def sMul (a b : W32) : W32 := f32Mul false .rne a b
def sRcp (a : W32) : W32 := f32Rcp false .rne a
def sSqrt (a : W32) : W32 := f32Sqrt false .rne a
def sNeg (a : W32) : W32 := a ^^^ 0x80000000

/-- The magnitude of a code as a number that orders as the magnitudes do; a NaN counts as infinite (R254, R255). -/
def sMag (a : W32) : Nat := min (a.toNat % 2 ^ 31) 0x7F800000
def sZero (a : W32) : Bool := a.toNat % 2 ^ 31 == 0

/-- A breakdown (R260): cause, BKC low and high, BKV, and the cycle of the failing test. -/
structure Breakdown where
  cause : Nat
  low : Nat
  high : Nat
  value : W32
  at_ : Nat
  deriving DecidableEq, Repr

/-- BKV of a value: a NaN is recorded as the canonical one (R260). -/
def bkValue (a : W32) : W32 := if f32IsNaN a then f32NaN else a

/-- A solver node's run: image, pivot vector, rotation entries, breakdown and record, UMAX, the values GF takes with their
cycles, whether growth has been reported, cost, and the cycles of its requests. -/
structure Solved where
  image : Tile
  piv : List Nat
  rot : List ((Nat × Nat) × (W32 × W32))
  fail : Option Breakdown
  step : Nat
  umax : Nat
  gfs : List (Nat × W32)
  grown : Bool
  cost : Nat
  requests : List Nat
  deriving DecidableEq, Repr

/-- A run that has done nothing yet. -/
def Solved.start (w : Tile) : Solved := ⟨w, [], [], none, 0, 0, [], false, 64, []⟩

/-! ## TCHOL (R253) -/

/-- t(i) of column j. -/
def cholT (w : Tile) (j i : Nat) : W32 :=
  (List.range j).foldl (fun t k => sFma (sNeg (w.at_ i k)) (w.at_ j k) t) (w.at_ i j)

/-- The pivot test of TCHOL fails. -/
def cholBad (d : W32) : Bool := f32IsNaN d || d == 0x7F800000 || d.getLsbD 31 || sZero d

/-- The columns from j on; fuel counts them. -/
def cholSteps (n : Nat) : Nat → Nat → Solved → Solved
  | 0, j, r => { r with step := j }
  | fuel + 1, j, r =>
    let w := r.image
    let ts := (List.range n).map (fun i => if i < j then 0 else cholT w j i)
    let d := ts.getD j 0
    if cholBad d then { r with fail := some ⟨6, j, 0, bkValue d, r.cost⟩, step := j }
    else
      let q := sSqrt d
      let g := sRcp q
      let col := fun i => if i < j then 0 else if i = j then q else sMul (ts.getD i 0) g
      let w' := (List.range n).map (fun i => (w.row i).set j (col i))
      cholSteps n fuel (j + 1) { r with
        image := w', cost := r.cost + 2 * j + 32, requests := r.requests ++ [r.cost + 2 * j, r.cost + 2 * j + 12] }

/-- TCHOL from column s; its cost ends with the drain (R262). -/
def tcholRun (w : Tile) (n s : Nat) : Solved :=
  let r := cholSteps n (n - s) s (Solved.start w)
  match r.fail with
  | some _ => r
  | none => { r with cost := r.cost + 72 }

/-! ## TLU (R254 to R256) -/

/-- The pivot row: the largest magnitude, the smallest row among equals (R255). -/
def pivotRow (w : Tile) (j : Nat) : List Nat → Nat → Nat
  | [], b => b
  | i :: is, b => pivotRow w j is (if sMag (w.at_ b j) < sMag (w.at_ i j) then i else b)

/-- GF (R254). -/
def growthOf (umax amax : Nat) : W32 :=
  if amax = 0 ∨ amax = 0x7F800000 then 0x3F800000 else f32Div false .ru (BitVec.ofNat 32 umax) (BitVec.ofNat 32 amax)

/-- GF exceeds 2^H (R256). -/
def growthExceeds (gf : W32) (h : Nat) : Bool := valLt (.fin ⟨false, 1, h⟩) (f32In false gf)

/-- Rows exchanged. -/
def swapRows (w : Tile) (i j : Nat) : Tile := (w.setRow i (w.row j)).setRow j (w.row i)

/-- One elimination row (R254). -/
def luRow (g : W32) (j : Nat) (top : List W32) (row : List W32) : List W32 :=
  let l := sMul (row.getD j 0) g
  (List.range row.length).map (fun k =>
    if k < j then row.getD k 0 else if k = j then l else sFma (sNeg l) (top.getD k 0) (row.getD k 0))

/-- The largest magnitude of the trailing block. -/
def trailMax (w : Tile) (n j m : Nat) : Nat :=
  (List.range (n - j - 1)).foldl (fun m a =>
    (List.range (n - j - 1)).foldl (fun m b => max m (sMag (w.at_ (j + 1 + a) (j + 1 + b)))) m) m

/-- What TLU takes with it: NP, AMAX, FXHR. -/
structure LuArgs where
  np : Bool
  amax : Nat
  gen : Bool
  h : Nat
  deriving DecidableEq, Repr

def luSteps (n : Nat) (a : LuArgs) : Nat → Nat → Solved → Solved
  | 0, j, r => { r with step := j }
  | fuel + 1, j, r =>
    let w := r.image
    let cand := if a.np then [j] else (List.range (n - j)).map (· + j)
    let stop := fun (cause : Nat) (v : W32) =>
      { r with fail := some ⟨cause, j, 0, bkValue v, r.cost⟩, step := j, gfs := r.gfs ++ [(r.cost, growthOf r.umax a.amax)] }
    match cand.find? (fun i => f32NonFinite (w.at_ i j)) with
    | some i => stop 8 (w.at_ i j)
    | none =>
      let p := pivotRow w j cand j
      if sZero (w.at_ p j) then stop 5 (w.at_ p j)
      else
        let w1 := if p = j then w else swapRows w j p
        let g := sRcp (w1.at_ j j)
        let top := w1.row j
        let w2 := (List.range n).map (fun i => if j < i then luRow g j top (w1.row i) else w1.row i)
        let um := trailMax w2 n j r.umax
        let gf := growthOf um a.amax
        let r1 := { r with image := w2, piv := r.piv.set j p, umax := um, cost := r.cost + 32,
                           gfs := r.gfs ++ [(r.cost + 32, gf)], requests := r.requests ++ [r.cost + 4] }
        if a.gen && !r.grown && growthExceeds gf a.h then
          { r1 with fail := some ⟨9, j + 1, 0, gf, r1.cost⟩, step := j + 1, grown := true }
        else luSteps n a fuel (j + 1) r1

/-- TLU from column s with the pivot vector, UMAX and whether growth has been reported (R254, R256, R262). -/
def tluRun (w : Tile) (n s : Nat) (a : LuArgs) (piv : List Nat) (umax : Nat) (grown : Bool) : Solved :=
  let r := luSteps n a (n - s) s { Solved.start w with piv := piv, umax := umax, grown := grown }
  match r.fail with
  | some _ => r
  | none => { r with cost := r.cost + 72 }

/-! ## TQR (R257) -/

/-- The positions of an m × n image in their order (R257). -/
def qrPositions (m n : Nat) : List (Nat × Nat) :=
  (List.range (min n (m - 1))).flatMap (fun j => (List.range (m - 1 - j)).map (fun d => (m - 1 - d, j)))

/-- Two rows rotated from column k0 on, with the sign of s in each half (R257, R258). -/
def rotateRows (c su sd : W32) (x y : List W32) (k0 : Nat) : List W32 × List W32 :=
  let n := x.length
  let get := fun (l : List W32) k => l.getD k 0
  ((List.range n).map (fun k => if k < k0 then get x k else sFma c (get x k) (sMul su (get y k))),
   (List.range n).map (fun k => if k < k0 then get y k else sFma c (get y k) (sMul sd (get x k))))

def qrSteps : List (Nat × Nat) → Nat → Solved → Solved
  | [], q, r => { r with step := q }
  | (i, j) :: ps, q, r =>
    let w := r.image
    let a := w.at_ (i - 1) j
    let b := w.at_ i j
    let stop := fun (v : W32) => { r with fail := some ⟨8, j, i, bkValue v, r.cost⟩, step := q }
    if f32NonFinite a then stop a
    else if f32NonFinite b then stop b
    else if sZero b then qrSteps ps (q + 1) { r with cost := r.cost + 32 }
    else
      let v := sSqrt (sFma a a (sMul b b))
      if v = 0 ∨ v = 0x7F800000 then stop v
      else
        let h := sRcp v
        let c := sMul a h
        let s := sMul b h
        let rows := rotateRows c s (sNeg s) (w.row (i - 1)) (w.row i) (j + 1)
        let w1 := (w.setRow (i - 1) (rows.1.set j v)).setRow i (rows.2.set j 0)
        qrSteps ps (q + 1) { r with image := w1, rot := r.rot ++ [((i, j), (c, s))], cost := r.cost + 32,
                                    requests := r.requests ++ [r.cost + 4, r.cost + 16] }

/-- TQR from position q on; rot lists the entries it writes (R257, R262). -/
def tqrRun (w : Tile) (m n q : Nat) : Solved :=
  let r := qrSteps ((qrPositions m n).drop q) q (Solved.start w)
  match r.fail with
  | some _ => r
  | none => { r with cost := r.cost + 72 }

/-! ## TTRSM (R259) -/

/-- The rows in the order of the steps. -/
def trsmOrder (n : Nat) (upper : Bool) : List Nat := if upper then (List.range n).reverse else List.range n

/-- Row i of X: c0 to the needed columns, ascending earlier rows (R259). -/
def trsmRow (t : Nat → Nat → W32) (w : Tile) (i : Nat) (earlier : List Nat) (scale : Option W32) : List W32 :=
  let r := earlier.foldl (fun (row : List W32) k =>
    (row.zip (w.row k)).map (fun e => sFma (sNeg (t i k)) e.2 e.1)) (w.row i)
  match scale with
  | none => r
  | some g => r.map (fun v => sMul v g)

def trsmSteps (t : Nat → Nat → W32) (unit : Bool) (nb : Nat) : List Nat → List Nat → Nat → Solved → Solved
  | [], _, e, r => { r with step := e }
  | i :: is, before, e, r =>
    let u := t i i
    if !unit && (sZero u || f32NonFinite u) then { r with fail := some ⟨7, i, 0, bkValue u, r.cost⟩, step := e }
    else
      let w1 := r.image.setRow i (trsmRow t r.image i (sortBy id before) (if unit then none else some (sRcp u)))
      trsmSteps t unit nb is (before ++ [i]) (e + 1) { r with image := w1, cost := r.cost + nb * (2 * e + 4) }

/-- TTRSM from position p over an image of the needed columns; nb is ⌈c/64⌉ (R259, R262, R389). -/
def ttrsmRun (t : Tile) (w : Tile) (n p nb : Nat) (up unit tr : Bool) : Solved :=
  let op := fun i k => if tr then t.at_ k i else t.at_ i k
  let order := trsmOrder n (up != tr)
  let s0 := Solved.start w
  let start := { s0 with
    cost := 64 + (if unit then 0 else 12 + n), requests := if unit then [] else (List.range n).map (· + 64) }
  let r := trsmSteps op unit nb (order.drop p) (order.take p) p start
  match r.fail with
  | some _ => r
  | none => { r with cost := r.cost + 72 }

/-! ## TAPPLY (R258) -/

/-- Exchange rows j and PIV[j]; a byte of N or more exchanges nothing. -/
def applyPivot (piv : List Nat) (n : Nat) (w : Tile) (j : Nat) : Tile :=
  let p := piv.getD j 255
  if n ≤ p ∨ p = j then w else swapRows w j p

/-- One rotation entry on the rows i − 1 and i; exactly (1.0, +0) is skipped; back is `.q`. -/
def applyRotation (rot : Nat × Nat → W32 × W32) (back : Bool) (w : Tile) (ij : Nat × Nat) : Tile :=
  let e := rot ij
  if e.1 = 0x3F800000 ∧ e.2 = 0 then w
  else
    let s := e.2
    let rows := rotateRows e.1 (if back then sNeg s else s) (if back then s else sNeg s) (w.row (ij.1 - 1)) (w.row ij.1) 0
    (w.setRow (ij.1 - 1) rows.1).setRow ij.1 rows.2

/-- TAPPLY over an image of the needed columns: KIND, rows n and columns m of the factor (R258, R262). -/
def tapplyRun (kind n m nb : Nat) (w : Tile) (piv : List Nat) (rot : Nat × Nat → W32 × W32) : Solved :=
  let ps := qrPositions n m
  let s := Solved.start w
  match kind with
  | 0 => { s with image := (List.range n).foldl (applyPivot piv n) w, cost := 16 + 2 * n * nb }
  | 1 => { s with image := (List.range n).reverse.foldl (applyPivot piv n) w, cost := 16 + 2 * n * nb }
  | 2 => { s with image := ps.foldl (applyRotation rot false) w, cost := 64 + 4 * ps.length * nb + 72 }
  | _ => { s with image := ps.reverse.foldl (applyRotation rot true) w, cost := 64 + 4 * ps.length * nb + 72 }

/-! ## The values that a resumed run writes (R252, R261) -/

/-- The steps of a run from step s on have written an element of the image: of a TTRSM the rows of its order, of a TLU the rows below
with what it exchanges, of a TCHOL its columns, of a TQR what its rotations meet (R253, R254, R257, R259). -/
def Solved.wrote (r : Solved) (opcode : Nat) (order : List Nat) (s i c : Nat) : Bool :=
  match opcode with
  | 0x20 => ((order.take r.step).drop s).contains i
  | 0x21 =>
    decide (s < i ∧ s ≤ c ∧ s < r.step) || ((List.range r.step).drop s).any (fun j =>
      let p := r.piv.getD j 255
      p != j && (i == j || i == p))
  | 0x22 => decide (s ≤ c ∧ c < r.step)
  | 0x23 => r.rot.any (fun e => decide ((i = e.1.1 ∨ i + 1 = e.1.1) ∧ e.1.2 ≤ c))
  | _ => true

/-- A rotation entry that has been written is non-finite (R252, R257). -/
def Solved.badRotation (r : Solved) : Bool := r.rot.any (fun e => f32NonFinite e.2.1 || f32NonFinite e.2.2)

/-- A run that goes on from step s has written a non-finite value (R247, R252). -/
def Solved.wroteNonFinite (r : Solved) (opcode : Nat) (order : List Nat) (s : Nat) : Bool :=
  r.badRotation || (r.image.zip (List.range r.image.length)).any (fun row =>
    (row.1.zip (List.range row.1.length)).any (fun e => f32NonFinite e.1 && r.wrote opcode order s row.2 e.2))

/-! ## TRES (R108, R263) -/

/-- A value at the window of exponent t: rounded to nearest even at its LSB; none where it is no finite number or its
rounded magnitude reaches 2^t. -/
def windowed (t : Int) (v : Val) : Option Int :=
  match v with
  | .fin d =>
    let r := roundAt .rne 0 d.toExact (t - 95)
    if 2 ^ 95 ≤ r.man then none else some (if r.neg then -(r.man : Int) else r.man)
  | _ => none

/-- The sum of the entries of an element; none is FX_OVERFLOW (R263). -/
def windowSum (t : Int) : List Val → Option Int
  | [] => some 0
  | v :: vs =>
    match windowed t v, windowSum t vs with
    | some a, some b => some (a + b)
    | _, _ => none

/-- An element of TRES in its window; none is FX_OVERFLOW (R263). -/
def tresElem (t : Int) (vs : List Val) : Option Int :=
  match windowSum t vs with
  | none => none
  | some m => if -(2 ^ 95 : Int) ≤ m ∧ m < 2 ^ 95 then some m else none

/-- The value of an FX mantissa (R108). -/
def fxVal (m t : Int) : Val := .fin ⟨decide (m < 0), m.natAbs, t - 95⟩

/-- The 16 bytes of an FX value (R108). -/
def fxBytes (m t : Int) : Nat := unsignedOf 96 m + 2 ^ 96 * unsignedOf 16 t

/-- An FX value read from its 16 bytes. -/
def fxOfBytes (w : Nat) : Val := fxVal (signed 96 (w % 2 ^ 96)) (signed 16 (bitsOf w 96 16))

end Sys2Proof.Machine
end

