-- ==== Sys2Proof/Machine/Grove.lean ====
section
/-! DEFINITION. The M slot: appends with their checks and capture, views, TDROP, and the demands that enter the queue (R221
to R237, R242, R243, R249, R250). -/

namespace Sys2Proof.Machine

/-! ## Opcodes and predecessors (R223, R249) -/

def opTMUL : Nat := 2
def opTMULB : Nat := 3
def opTADD : Nat := 4
def opTSCAL : Nat := 5
def opTROT : Nat := 6
def opTCVT : Nat := 8
def opTCB : Nat := 9
def opTFORCE : Nat := 0x10
def opTSTORE : Nat := 0x11
def opTTRSM : Nat := 0x20
def opTLU : Nat := 0x21
def opTCHOL : Nat := 0x22
def opTQR : Nat := 0x23
def opTAPPLY : Nat := 0x24
def opTRES : Nat := 0x25

/-- An M-slot operation as decoded (R223). -/
structure MOp where
  opcode : Nat
  nd : NodeId
  na : NodeId
  nb : NodeId
  fl : Nat
  word : BitVec 4
  deriving DecidableEq, Repr

/-- The staging words that a form reads (R223, R249). -/
def mWords (opcode : Nat) : Nat :=
  match opcode with
  | 5 => 3 | 6 => 3 | 9 => 1 | 10 => 0 | 0x10 => 1 | 0x11 => 3 | 0x21 => 3 | 0x23 => 3 | 0x25 => 4 | _ => 2

/-- How many of NA and NB a form names. -/
def mPreds (opcode : Nat) : Nat :=
  match opcode with
  | 1 => 0 | 2 => 2 | 3 => 2 | 4 => 2 | 0x20 => 2 | 0x24 => 2 | 0x25 => 2 | _ => 1

/-- The predecessors of a node: NA, NB, and the right side of a TRES (R250). -/
def GNode.preds (n : GNode) : List Nat :=
  (match mPreds n.opcode with
    | 0 => []
    | 1 => [n.na]
    | _ => [n.na, n.nb]) ++ (if n.opcode = opTRES then [bitsOf (n.word 2).toNat 0 8] else [])

/-! ## Nodes of a context and their shapes (R224, R233) -/

/-- A node of a context, live or not yet freed. -/
def findNode (ns : List GNode) (c id : Nat) : Option GNode := ns.find? (fun n => n.ctx == c && n.id == id)

/-- A live node of a context. -/
def liveNode (ns : List GNode) (c id : Nat) : Option GNode := (findNode ns c id).filter (fun n => !n.dropped)

/-- The kind and the region of a view (R233). -/
def GNode.kind (n : GNode) : Nat := bitsOf (n.word 0).toNat 0 2
def GNode.region (n : GNode) : Region := regionOf64 (n.word 1)

/-- Rows and columns of a node; fuel counts the views above it. -/
def nodeDims (ns : List GNode) : Nat → GNode → Nat × Nat
  | 0, n => (n.shape.rows, n.shape.cols)
  | fuel + 1, n =>
    if n.opcode = opTVIEW then
      if n.kind = 1 then
        match findNode ns n.ctx n.na with
        | some a => let d := nodeDims ns fuel a; (d.2, d.1)
        | none => (0, 0)
      else (n.region.rows, n.region.cols)
    else (n.shape.rows, n.shape.cols)

/-- A chain of views has at most 8 (R233). -/
def viewFuel : Nat := 16

def dimsOf (ns : List GNode) (n : GNode) : Nat × Nat := nodeDims ns viewFuel n

/-- The node below a node's views. -/
def bottomNode (ns : List GNode) : Nat → GNode → GNode
  | 0, n => n
  | fuel + 1, n =>
    if n.opcode = opTVIEW then
      match findNode ns n.ctx n.na with
      | some a => bottomNode ns fuel a
      | none => n
    else n

/-- The number of consecutive views that end at a node. -/
def viewChain (ns : List GNode) : Nat → GNode → Nat
  | 0, _ => 0
  | fuel + 1, n =>
    if n.opcode = opTVIEW then
      1 + (match findNode ns n.ctx n.na with
        | some a => viewChain ns fuel a
        | none => 0)
    else 0

/-- The format of the codes that supply a node's values. -/
def valueFormat (ns : List GNode) (n : GNode) : Fmt := (bottomNode ns viewFuel n).format

/-- The element of the node viewed (R233). -/
def viewMap (ns : List GNode) (n : GNode) (i j : Nat) : Nat × Nat :=
  match n.kind with
  | 0 => (n.region.row0 + i, n.region.col0 + j)
  | 1 => (j, i)
  | _ =>
    let w := match findNode ns n.ctx n.na with
      | some a => (dimsOf ns a).2
      | none => 1
    let p := i * n.region.cols + j
    (p / w, p % w)

/-- The buffers of a computing node: its destination, and the pivot vector or the rotation array (R234, R250). -/
def GNode.buffers (n : GNode) : List (Nat × Nat) :=
  if n.computes then
    n.buffer :: (if n.opcode = opTLU then [((n.word 2).toNat, 64)]
      else if n.opcode = opTQR then [((n.word 2).toNat, 512 * n.shape.cols)] else [])
  else []

/-! ## Legal words (R224 to R226, R250) -/

/-- The codes that a shape word may name: of a leaf, of a TRES, of any other destination or store (R224). -/
def shapeCodeOk (leaf : Bool) (f : Fmt) : Bool :=
  if leaf then decide (f.code < 8) || f.code == 9 else decide (f.code < 8) || f.code == 10

/-- The limits of a shape word with the frame and scale word that it names (R120, R128, R224). -/
def shapeOk (w : W64) (leaf : Bool) (allowed : Fmt → Bool) (fmt : W32) (frame : Frame) (sc : W64) : Bool :=
  let h := shapeOf w
  match h.format fmt leaf with
  | none => false
  | some f =>
    bitsOf w.toNat 60 4 == 0 && decide (1 ≤ h.rows ∧ h.rows ≤ 4096 ∧ 1 ≤ h.cols ∧ h.cols ≤ 4096)
      && (!h.dflt || h.fmt == 0) && allowed f && decide (rowBytesOf f h.cols ≤ h.pitch)
      && (f != .vq8 || h.cols % 8 == 0) && (!h.fe || frame.valid f)
      && (!h.se || (if leaf then scLegal sc else scUniform sc))

/-- The plain destination shape of a solver node (R250). -/
def solverShape (w : W64) (fx : Bool) : Bool :=
  let h := shapeOf w
  (h.fmt == 0 || (fx && h.fmt == 11)) && !h.dflt && !h.fe && !h.se

/-- The shapes of operands and destination fit the form (R230 to R233, R250). -/
def shapesFit (ns : List GNode) (n : GNode) (a b : GNode) : Bool :=
  let d := (n.shape.rows, n.shape.cols)
  let da := dimsOf ns a
  let db := dimsOf ns b
  match n.opcode with
  | 1 => true
  | 2 => da.2 == db.1 && d == (da.1, db.2)
  | 3 => da.2 == db.2 && d == (da.1, db.1)
  | 4 => d == da && d == db
  | 5 => d == da
  | 6 => d == da && da.2 % 64 == 0
  | 8 => d == da
  | 0x20 => da.1 == da.2 && decide (da.1 ≤ 64) && db.1 == da.1 && d == db
  | 0x21 => da.1 == da.2 && decide (da.1 ≤ 64) && d == da
  | 0x22 => da.1 == da.2 && decide (da.1 ≤ 64) && d == da
  | 0x23 => decide (da.1 ≤ 64 ∧ da.2 ≤ 64) && d == da
  | 0x24 => a.opcode == (if n.fl < 2 then opTLU else opTQR) && db.1 == da.1 && d == db
  | 0x25 =>
    (match findNode ns n.ctx (bitsOf (n.word 2).toNat 0 8) with
      | some r => da.2 == db.1 && d == (da.1, db.2) && dimsOf ns r == d
      | none => false)
  | _ => true

/-- A window exponent is legal (R250). -/
def windowOk (w : W64) : Bool :=
  let t := signed 16 (bitsOf w.toNat 0 16)
  decide (-320 ≤ t ∧ t ≤ 320) && bitsOf w.toNat 16 48 == 0

/-- The further words of a form are legal (R231, R232, R250). -/
def extraOk (n : GNode) : Bool :=
  let w := (n.word 2).toNat
  match n.opcode with
  | 5 => bitsOf w 32 32 == 0
  | 6 => bitsOf w 6 58 == 0
  | 0x21 => bitsOf w 0 6 == 0
  | 0x23 => bitsOf w 0 6 == 0
  | 0x25 => bitsOf w 8 56 == 0 && bitsOf w 0 8 != 0 && windowOk (n.word 3)
  | _ => true

/-- A view's words are legal (R233). -/
def viewOk (ns : List GNode) (n a : GNode) : Bool :=
  let d := dimsOf ns a
  let r := n.region
  bitsOf (n.word 0).toNat 2 62 == 0 && decide (viewChain ns viewFuel a < 8) &&
    (match n.kind with
      | 0 => regionLegal (n.word 1) && decide (r.row0 + r.rows ≤ d.1 ∧ r.col0 + r.cols ≤ d.2)
      | 1 => n.word 1 == 0
      | 2 => regionLegal (n.word 1) && r.row0 == 0 && r.col0 == 0 && r.rows * r.cols == d.1 * d.2
      | _ => false)

/-- A format of integer codes against one of floating-point codes; FX is neither, and enters as an exact real (R124, R231). -/
def formatsMix (a b : Fmt) : Bool := (a.isInt && !b.isInt && b != .fx) || (b.isInt && !a.isInt && a != .fx)

/-- The operand nodes of a form pair integer with floating-point values: NA with NB, and of a TRES its right side with each
(R124, R263). -/
def operandsMix (ns : List GNode) (n a b : GNode) : Bool :=
  let f := valueFormat ns
  (mPreds n.opcode == 2 && formatsMix (f a) (f b)) ||
    (n.opcode == opTRES && (match findNode ns n.ctx (bitsOf (n.word 2).toNat 0 8) with
      | some r => formatsMix (f a) (f r) || formatsMix (f b) (f r)
      | none => false))

/-- The operand formats that a product does not take (R124, R230). -/
def formatsOk (ns : List GNode) (n a b : GNode) : Bool :=
  if n.opcode = opTMUL ∨ n.opcode = opTMULB then
    let fa := valueFormat ns a
    let fb := valueFormat ns b
    !(fa == .int32 || fa == .fx || fb == .int32 || fb == .fx)
      && !(fa.isInt && fb.isInt && bitAt n.fl 0 && n.format != .int32)
  else true

/-- Step 3 of R227 for a form that names its operands a and b (a again where it names one): the words and the shapes. A format
code 9 in a destination raises BAD_CONTROL here by R226, though R47 and R107 call it an illegal encoding (DESIGN CHOICE,
log 63). -/
def controlOk (ns : List GNode) (n a b : GNode) : Bool :=
  if n.opcode = opTVIEW then viewOk ns n a
  else
    let leaf := n.opcode == opTDEF
    let solver := decide (0x20 ≤ n.opcode)
    let allowed := fun (f : Fmt) => if n.opcode = opTRES then f == .fp32 || f == .fx else shapeCodeOk leaf f
    shapeOk (n.word 1) leaf allowed n.fmt n.frame n.sc && (!solver || solverShape (n.word 1) (n.opcode == opTRES))
      && extraOk n && shapesFit ns n a b && formatsOk ns n a b

/-! ## Appends (R227, R228) -/

/-- The node as the issuing bundle captures it (R228). -/
def State.capturedNode (s : State) (m : MOp) : GNode :=
  let x := s.me
  let words := (List.range (mWords m.opcode)).map (fun i => vget x.regs.ms (m.word.toNat + i) 0)
  let h := shapeOf (words.getD 1 0)
  let shaped := m.opcode != opTVIEW
  { ctx := s.cur.2, id := m.nd.toNat, opcode := m.opcode, na := m.na.toNat, nb := m.nb.toNat, fl := m.fl, words := words,
    fmt := s.fmt, fxhr := x.csr.fxhr, frame := if shaped && h.fe then vget x.regs.df h.fr Frame.zero else Frame.zero,
    sc := if shaped && h.se then vget x.regs.sc h.sck 0 else 0, done := [], dropped := false, grown := false }

/-- The ids that an append names as predecessors, in order, so far as they are ids (R227, R250). -/
def GNode.namedPreds (n : GNode) : List Nat :=
  n.preds.filter (fun i => i != 0 || n.opcode != opTRES)

/-- The first failure of step 4 for a buffer: R170 under MW, then the place, then the mode (R227). -/
def State.bufferFault (s : State) (e : Nat × Nat) : Option IssueFault :=
  let ps := extentPieces e.1 e.2
  match translateExtent s.ranges .mw ps with
  | .error (code, a) => some ⟨code, slotM, 0, BitVec.ofNat 64 a⟩
  | .ok l =>
    if l.all (fun x => isOwnSram (clusterOf s.cur.1) x.1) then
      ((ps.zip l).find? (fun x => s.bankRefuses s.cur.1 x.2.1 (fun m _ => m.isScratch))).map
        (fun x => ⟨0x09, slotM, 0, BitVec.ofNat 64 x.1.1⟩)
    else some ⟨0x05, slotM, 0, 0⟩

/-- The first address at which a new buffer overlaps a checked range or the buffer of a live node of the core (R227,
R243). -/
def State.bufferAlias (s : State) (e : Nat × Nat) : Option Nat :=
  firstOverlap (s.myCore.checkedRanges ++ (s.myCore.nodes.filter (fun n => !n.dropped)).flatMap GNode.buffers) e.1 e.2

/-- The first failure of an append, in the order of R227. -/
def State.appendFault (s : State) (n : GNode) : Option IssueFault :=
  let ns := s.myCore.nodes
  let c := s.cur.2
  let node := fun (code id : Nat) => (⟨code, slotM, 0, BitVec.ofNat 64 id⟩ : IssueFault)
  if (findNode ns c n.id).isSome then some (node 0x0B n.id)
  else
    match n.namedPreds.find? (fun i => (liveNode ns c i).isNone) with
    | some i => some (node 0x0C i)
    | none =>
      let a := (findNode ns c n.na).getD n
      let b := (findNode ns c n.nb).getD a
      if !controlOk ns n a b then some (node 0x05 0)
      else if operandsMix ns n a b then some (node 0x01 0)
      else
        match n.buffers.findSome? s.bufferFault with
        | some f => some f
        | none =>
          match minOf (n.buffers.filterMap s.bufferAlias) with
          | some h => some (node 0x0D h)
          | none => if 64 ≤ ns.length then some (node 0x0E 0) else none

/-- An append's contribution to its bundle. -/
def appendSem (s : State) (tt : TT) (m : MOp) : OpSem :=
  let n := s.capturedNode m
  .guarded s tt
    { faults := (s.appendFault n).toList
      holds := 0
      effect := fun r => r.onCore r.cur.1 (fun x => { x with nodes := x.nodes ++ [n] }) }

/-- TDEF (R229). -/
def tdefSem (tt : TT) (nd : NodeId) (mk : BitVec 4) (s : State) : OpSem := appendSem s tt ⟨opTDEF, nd, 0, 0, 0, mk⟩

def execTdef (tt : TT) (nd : NodeId) (mk : BitVec 4) (s : State) : Host.Outcome State Fault Refusal :=
  (tdefSem tt nd mk s).run slotM [] s

/-- TMUL (R230). -/
def tmulSem (tt : TT) (nd na nb : NodeId) (mk : BitVec 4) (acc : Bool) (s : State) : OpSem :=
  appendSem s tt ⟨opTMUL, nd, na, nb, b2n acc, mk⟩

def execTmul (tt : TT) (nd na nb : NodeId) (mk : BitVec 4) (acc : Bool) (s : State) : Host.Outcome State Fault Refusal :=
  (tmulSem tt nd na nb mk acc s).run slotM [] s

/-- TMULB (R230). -/
def tmulbSem (tt : TT) (nd na nb : NodeId) (mk : BitVec 4) (acc : Bool) (s : State) : OpSem :=
  appendSem s tt ⟨opTMULB, nd, na, nb, b2n acc, mk⟩

def execTmulb (tt : TT) (nd na nb : NodeId) (mk : BitVec 4) (acc : Bool) (s : State) : Host.Outcome State Fault Refusal :=
  (tmulbSem tt nd na nb mk acc s).run slotM [] s

/-- TADD (R231). -/
def taddSem (tt : TT) (nd na nb : NodeId) (mk : BitVec 4) (s : State) : OpSem := appendSem s tt ⟨opTADD, nd, na, nb, 0, mk⟩

def execTadd (tt : TT) (nd na nb : NodeId) (mk : BitVec 4) (s : State) : Host.Outcome State Fault Refusal :=
  (taddSem tt nd na nb mk s).run slotM [] s

/-- TSCAL (R231). -/
def tscalSem (tt : TT) (nd na : NodeId) (mk : BitVec 4) (s : State) : OpSem := appendSem s tt ⟨opTSCAL, nd, na, 0, 0, mk⟩

def execTscal (tt : TT) (nd na : NodeId) (mk : BitVec 4) (s : State) : Host.Outcome State Fault Refusal :=
  (tscalSem tt nd na mk s).run slotM [] s

/-- TROT (R232). -/
def trotSem (tt : TT) (nd na : NodeId) (mk : BitVec 4) (inv : Bool) (s : State) : OpSem :=
  appendSem s tt ⟨opTROT, nd, na, 0, b2n inv, mk⟩

def execTrot (tt : TT) (nd na : NodeId) (mk : BitVec 4) (inv : Bool) (s : State) : Host.Outcome State Fault Refusal :=
  (trotSem tt nd na mk inv s).run slotM [] s

/-- TVIEW (R233). -/
def tviewSem (tt : TT) (nd na : NodeId) (mk : BitVec 4) (s : State) : OpSem := appendSem s tt ⟨opTVIEW, nd, na, 0, 0, mk⟩

def execTview (tt : TT) (nd na : NodeId) (mk : BitVec 4) (s : State) : Host.Outcome State Fault Refusal :=
  (tviewSem tt nd na mk s).run slotM [] s

/-- TCVT (R231). -/
def tcvtSem (tt : TT) (nd na : NodeId) (mk : BitVec 4) (s : State) : OpSem := appendSem s tt ⟨opTCVT, nd, na, 0, 0, mk⟩

def execTcvt (tt : TT) (nd na : NodeId) (mk : BitVec 4) (s : State) : Host.Outcome State Fault Refusal :=
  (tcvtSem tt nd na mk s).run slotM [] s

/-- TTRSM (R259). -/
def ttrsmSem (tt : TT) (nd na nb : NodeId) (mk : BitVec 4) (up unit tr : Bool) (s : State) : OpSem :=
  appendSem s tt ⟨opTTRSM, nd, na, nb, b2n up + 2 * b2n unit + 4 * b2n tr, mk⟩

def execTtrsm (tt : TT) (nd na nb : NodeId) (mk : BitVec 4) (up unit tr : Bool) (s : State) :
    Host.Outcome State Fault Refusal :=
  (ttrsmSem tt nd na nb mk up unit tr s).run slotM [] s

/-- TLU (R254). -/
def tluSem (tt : TT) (nd na : NodeId) (mk : BitVec 4) (np : Bool) (s : State) : OpSem :=
  appendSem s tt ⟨opTLU, nd, na, 0, b2n np, mk⟩

def execTlu (tt : TT) (nd na : NodeId) (mk : BitVec 4) (np : Bool) (s : State) : Host.Outcome State Fault Refusal :=
  (tluSem tt nd na mk np s).run slotM [] s

/-- TCHOL (R253). -/
def tcholSem (tt : TT) (nd na : NodeId) (mk : BitVec 4) (s : State) : OpSem := appendSem s tt ⟨opTCHOL, nd, na, 0, 0, mk⟩

def execTchol (tt : TT) (nd na : NodeId) (mk : BitVec 4) (s : State) : Host.Outcome State Fault Refusal :=
  (tcholSem tt nd na mk s).run slotM [] s

/-- TQR (R257). -/
def tqrSem (tt : TT) (nd na : NodeId) (mk : BitVec 4) (s : State) : OpSem := appendSem s tt ⟨opTQR, nd, na, 0, 0, mk⟩

def execTqr (tt : TT) (nd na : NodeId) (mk : BitVec 4) (s : State) : Host.Outcome State Fault Refusal :=
  (tqrSem tt nd na mk s).run slotM [] s

/-- TAPPLY (R258). -/
def tapplySem (tt : TT) (nd na nb : NodeId) (mk : BitVec 4) (kind : BitVec 2) (s : State) : OpSem :=
  appendSem s tt ⟨opTAPPLY, nd, na, nb, kind.toNat, mk⟩

def execTapply (tt : TT) (nd na nb : NodeId) (mk : BitVec 4) (kind : BitVec 2) (s : State) :
    Host.Outcome State Fault Refusal :=
  (tapplySem tt nd na nb mk kind s).run slotM [] s

/-- TRES (R263). -/
def tresSem (tt : TT) (nd na nb : NodeId) (mk : BitVec 4) (s : State) : OpSem := appendSem s tt ⟨opTRES, nd, na, nb, 0, mk⟩

def execTres (tt : TT) (nd na nb : NodeId) (mk : BitVec 4) (s : State) : Host.Outcome State Fault Refusal :=
  (tresSem tt nd na nb mk s).run slotM [] s

/-! ## The path of a demand, and TDROP (R236, R242) -/

/-- Post-order of the nodes below an id: predecessors before their consumer, na before nb, each once (R236). -/
def postOrder (ns : List GNode) (c : Nat) : Nat → List Nat → Nat → List Nat
  | 0, seen, _ => seen
  | fuel + 1, seen, id =>
    if seen.contains id then seen
    else
      match findNode ns c id with
      | none => seen
      | some n => n.preds.foldl (postOrder ns c fuel) seen ++ [id]

/-- The path of a demand: every node that its node leads to. -/
def Demand.path (d : Demand) (ns : List GNode) : List Nat :=
  if d.opcode = opTCB then [] else postOrder ns d.ctx 256 [] d.node

/-- The demands of a core that have not completed. -/
def Core.openDemands (r : Core) : List Demand := r.demands ++ r.suspended ++ (r.running.map (fun g => g.demand)).toList

/-- The entries of nodes that are dropped and that no open demand needs are freed (R242). A demand needs every node of its whole
path, whether or not its needed set there is empty (DESIGN CHOICE, log 66). -/
def Core.freeNodes (r : Core) : Core :=
  let needs := fun (n : GNode) => r.openDemands.any (fun d => d.ctx == n.ctx && (d.path r.nodes).contains n.id)
  { r with nodes := r.nodes.filter (fun n => !n.dropped || needs n) }

/-- A live node names another as a predecessor (R242). -/
def namedByLive (ns : List GNode) (c id : Nat) : Bool :=
  ns.any (fun n => n.ctx == c && !n.dropped && n.preds.contains id)

/-- A node is dropped; a suspended demand on whose path it stands is abandoned (R242, R246). -/
def Core.dropNode (r : Core) (c id : Nat) : Core :=
  let hit := fun (d : Demand) => d.ctx == c && (d.path r.nodes).contains id
  let mark := fun (n : GNode) => if n.ctx = c ∧ n.id = id then { n with dropped := true } else n
  let leave := fun (d : Demand) => if hit d then { d with abandoned := true } else d
  Core.freeNodes { r with nodes := r.nodes.map mark, suspended := r.suspended.map leave }

/-- TDROP (R242). -/
def tdropSem (tt : TT) (nd : NodeId) (s : State) : OpSem :=
  let c := s.cur.2
  let ns := s.myCore.nodes
  let live := (liveNode ns c nd.toNat).isSome
  .guarded s tt
    { faults := if live && namedByLive ns c nd.toNat then [⟨0x0B, slotM, 0, BitVec.ofNat 64 nd.toNat⟩] else []
      holds := 0
      effect := fun r => if live then r.onCore r.cur.1 (fun x => x.dropNode c nd.toNat) else r }

def execTdrop (tt : TT) (nd : NodeId) (s : State) : Host.Outcome State Fault Refusal := (tdropSem tt nd s).run slotM [] s

/-! ## Demands (R222, R235 to R237) -/

/-- A demand as the issuing bundle captures it. -/
def State.capturedDemand (s : State) (opcode : Nat) (nd : NodeId) (mk : BitVec 4) : Demand :=
  let x := s.me
  let words := (List.range (mWords opcode)).map (fun i => vget x.regs.ms (mk.toNat + i) 0)
  let h := shapeOf (words.getD 2 0)
  let st := opcode == opTSTORE
  { ctx := s.cur.2, handler := x.st == .handler, tm := 0, opcode := opcode, node := nd.toNat, words := words, fmt := s.fmt,
    frame := if st && h.fe then vget x.regs.df h.fr Frame.zero else Frame.zero,
    sc := if st && h.se then vget x.regs.sc h.sck 0 else 0, accepted := s.t, record := none, nodes := [], nonfinite := none,
    parkedBehind := none, abandoned := false }

/-- A demand enters the queue with its TM number (R222, R236). -/
def State.acceptDemand (s : State) (d : Demand) : State :=
  let r := s.takeNumber ctrTM
  r.2.onCore s.cur.1 (fun x => { x with demands := x.demands ++ [{ d with tm := r.1 }] })

/-- The queue is full (R222). -/
def State.demandHold (s : State) : Nat := if 8 ≤ s.myCore.openDemands.length then ovEngine else 0

/-- The region of a demand (R236). -/
def Demand.region (d : Demand) : Region := regionOf64 (d.words.getD 0 0)

/-- A region word that is legal and within a node (R225, R236). -/
def Demand.regionOk (d : Demand) (ns : List GNode) : Bool :=
  regionLegal (d.words.getD 0 0) &&
    (match liveNode ns d.ctx d.node with
      | some n =>
        let m := dimsOf ns n
        decide (d.region.row0 + d.region.rows ≤ m.1 ∧ d.region.col0 + d.region.cols ≤ m.2)
      | none => true)

/-- NODE_FAULT of a demand (R236). -/
def Demand.nodeFaults (d : Demand) (ns : List GNode) : List IssueFault :=
  if (liveNode ns d.ctx d.node).isSome then [] else [⟨0x0C, slotM, 0, BitVec.ofNat 64 d.node⟩]

/-- TFORCE (R236). -/
def tforceSem (tt : TT) (nd : NodeId) (mk : BitVec 4) (s : State) : OpSem :=
  let d := s.capturedDemand opTFORCE nd mk
  let ns := s.myCore.nodes
  .guarded s tt
    { faults := (if d.regionOk ns then [] else [⟨0x05, slotM, 0, 0⟩]) ++ d.nodeFaults ns
      holds := s.demandHold
      effect := fun r => r.acceptDemand d }

def execTforce (tt : TT) (nd : NodeId) (mk : BitVec 4) (s : State) : Host.Outcome State Fault Refusal :=
  (tforceSem tt nd mk s).run slotM [] s

/-- The target of a TSTORE (R237). -/
def Demand.target (d : Demand) : Shape := shapeOf (d.words.getD 2 0)
def Demand.targetBase (d : Demand) : Nat := (d.words.getD 1 0).toNat
def Demand.targetFmt (d : Demand) : Fmt := (d.target.format d.fmt false).getD .fp32

/-- The rows of a TSTORE's target: address and length of each. -/
def Demand.targetRows (d : Demand) : List (Nat × Nat) :=
  rowExtents d.targetBase d.target.rows d.target.pitch (rowBytesOf d.targetFmt d.target.cols)

/-- A TSTORE's target shape is legal and has the region's size (R224, R237). -/
def Demand.targetOk (d : Demand) : Bool :=
  shapeOk (d.words.getD 2 0) false (shapeCodeOk false) d.fmt d.frame d.sc && d.target.rows == d.region.rows
    && d.target.cols == d.region.cols

/-- FRAME_RANGE of a TSTORE's target elements (R129, R237). -/
def Demand.targetFrameFaults (d : Demand) : List IssueFault :=
  if d.target.fe then
    (List.range d.target.rows).flatMap (fun i => (List.range d.target.cols).flatMap (fun j =>
      match d.target.elemIndex d.targetFmt d.frame d.targetBase i j with
      | some _ => []
      | none => [⟨0x0A, slotM, 0, BitVec.ofNat 64 (d.target.elemAddr d.targetFmt d.targetBase i j).1⟩]))
  else []

/-- TSTORE (R237). -/
def tstoreSem (tt : TT) (nd : NodeId) (mk : BitVec 4) (s : State) : OpSem :=
  let d := s.capturedDemand opTSTORE nd mk
  let ns := s.myCore.nodes
  .guarded s tt
    { faults :=
        (if d.regionOk ns && d.targetOk then
          d.targetRows.flatMap (s.extentFaults slotM .mw false) ++ d.targetRows.flatMap (s.extentAlias slotM)
            ++ d.targetFrameFaults
        else [⟨0x05, slotM, 0, 0⟩]) ++ d.nodeFaults ns
      holds := s.demandHold
      effect := fun r => r.acceptDemand d }

def execTstore (tt : TT) (nd : NodeId) (mk : BitVec 4) (s : State) : Host.Outcome State Fault Refusal :=
  (tstoreSem tt nd mk s).run slotM [] s

/-- TCB (R235). -/
def tcbSem (tt : TT) (mk : BitVec 4) (s : State) : OpSem :=
  let d := s.capturedDemand opTCB 0 mk
  let a := (d.words.getD 0 0).toNat
  let vq := s.myCore.nodes.find? (fun n => !n.dropped && n.opcode == opTDEF && n.format == .vq8)
  .guarded s tt
    { faults :=
        (if a % 64 = 0 then [] else [⟨0x06, slotM, 0, BitVec.ofNat 64 a⟩]) ++ s.extentFaults slotM .mr false (a, 1024)
          ++ (match vq with
            | some n => [⟨0x0B, slotM, 0, BitVec.ofNat 64 n.id⟩]
            | none => [])
      holds := s.demandHold
      effect := fun r => r.acceptDemand d }

def execTcb (tt : TT) (mk : BitVec 4) (s : State) : Host.Outcome State Fault Refusal := (tcbSem tt mk s).run slotM [] s

end Sys2Proof.Machine
end

