-- ==== Sys2Proof/Machine/Demand.lean ====
section
/-! DEFINITION. The Grove at work: the needed sets of a demand, the values of nodes, the arithmetic of the arrays, the solver
nodes, costs and faults, and the start, completion, suspension and re-entry of demands (R121 to R125, R229 to R247, R251,
R261 to R263, R389). -/

namespace Sys2Proof.Machine

/-! ## Needed sets (R236, R251) -/

/-- The 8×8 blocks of a node: block row and block column. -/
abbrev Blocks := List (Nat × Nat)

def blockProduct (rs cs : List Nat) : Blocks := rs.flatMap (fun r => cs.map (fun c => (r, c)))
def blockCount (n : Nat) : Nat := ceilDiv n 8
def allBlocks (d : Nat × Nat) : Blocks := blockProduct (List.range (blockCount d.1)) (List.range (blockCount d.2))

/-- The distinct block rows and block columns, ascending. -/
def blockRows (b : Blocks) : List Nat := sortBy id (b.map (·.1)).eraseDups
def blockCols (b : Blocks) : List Nat := sortBy id (b.map (·.2)).eraseDups

/-- The blocks that a region meets. -/
def regionBlocks (r : Region) : Blocks :=
  let span := fun (lo n : Nat) => (List.range ((lo + n - 1) / 8 + 1 - lo / 8)).map (· + lo / 8)
  blockProduct (span r.row0 r.rows) (span r.col0 r.cols)

/-- The elements of a block within a node of given dimensions. -/
def blockElems (d : Nat × Nat) (b : Nat × Nat) : List (Nat × Nat) :=
  (List.range (min 8 (d.1 - 8 * b.1))).flatMap (fun i =>
    (List.range (min 8 (d.2 - 8 * b.2))).map (fun j => (8 * b.1 + i, 8 * b.2 + j)))

/-- The blocks of the viewed node that hold the elements of a view's blocks. -/
def viewNeed (ns : List GNode) (v : GNode) (b : Blocks) : Blocks :=
  let d := dimsOf ns v
  b.foldl (fun acc x =>
    let bs := ((blockElems d x).map (fun e => let m := viewMap ns v e.1 e.2; (m.1 / 8, m.2 / 8))).eraseDups
    acc ++ bs.filter (fun y => !acc.contains y)) []

/-- The blocks that a node's own needed set comes to (R251). -/
def ownNeed (ns : List GNode) (n : GNode) (b : Blocks) : Blocks :=
  let d := dimsOf ns n
  if b.isEmpty then []
  else if n.opcode = opTCHOL ∨ n.opcode = opTLU ∨ n.opcode = opTQR then allBlocks d
  else if n.opcode = opTTRSM ∨ n.opcode = opTAPPLY then blockProduct (List.range (blockCount d.1)) (blockCols b)
  else b

/-- The blocks of its predecessors that a node's needed set needs (R236, R251). -/
def predNeed (ns : List GNode) (n : GNode) (b : Blocks) : List (Nat × Blocks) :=
  let dim := fun (id : Nat) => match findNode ns n.ctx id with
    | some a => dimsOf ns a
    | none => (0, 0)
  let da := dim n.na
  let db := dim n.nb
  let rs := blockRows b
  let cs := blockCols b
  let whole := fun (k : Nat) => List.range (blockCount k)
  if b.isEmpty then []
  else
    match n.opcode with
    | 1 => []
    | 2 => [(n.na, blockProduct rs (whole da.2)), (n.nb, blockProduct (whole db.1) cs)]
    | 3 => [(n.na, blockProduct rs (whole da.2)), (n.nb, blockProduct cs (whole db.2))]
    | 4 => [(n.na, b), (n.nb, b)]
    | 5 => [(n.na, b)]
    | 6 => [(n.na, (b.flatMap (fun x => (List.range 8).map (fun i => (x.1, x.2 / 8 * 8 + i)))).eraseDups)]
    | 7 => [(n.na, viewNeed ns n b)]
    | 8 => [(n.na, b)]
    | 0x20 => [(n.na, allBlocks da), (n.nb, blockProduct (whole db.1) cs)]
    | 0x24 => [(n.na, allBlocks da), (n.nb, blockProduct (whole db.1) cs)]
    | 0x25 => [(n.na, blockProduct rs (whole da.2)), (n.nb, blockProduct (whole db.1) cs),
        (bitsOf (n.word 2).toNat 0 8, b)]
    | _ => [(n.na, allBlocks da)]

/-- Blocks added to the needed set of a node. -/
def addNeed (m : AMap Blocks) (id : Nat) (b : Blocks) : AMap Blocks :=
  let old := (amGet m id).getD []
  amSet m id (old ++ b.filter (fun x => !old.contains x))

/-- The needed sets of a demand: walked backward from its node, then without the blocks remembered (R236). -/
def needSets (ns : List GNode) (d : Demand) : AMap Blocks :=
  let order := d.path ns
  let m := order.reverse.foldl (fun (m : AMap Blocks) id =>
    match findNode ns d.ctx id with
    | none => m
    | some n =>
      let own := ownNeed ns n ((amGet m id).getD [])
      (predNeed ns n own).foldl (fun m e => addNeed m e.1 e.2) (amSet m id own)) [(d.node, regionBlocks d.region)]
  m.map (fun e =>
    match findNode ns d.ctx e.1 with
    | some n => if n.computes then (e.1, e.2.filter (fun x => !n.done.contains x)) else e
    | none => e)

/-- The nodes of a needed set, leaves and views among them (R236, R261). -/
def neededNodes (need : AMap Blocks) : List Nat := (need.filter (fun e => !e.2.isEmpty)).map (·.1)

/-! ## Values (R107, R108, R121, R229, R233, R234) -/

/-- The block scale of an element of a node with a logical index (R120, R121). -/
def State.nodeScale (s : State) (k : Nat) (n : GNode) (idx : Nat) : Nat :=
  if !n.shape.se then unitScale
  else if scIsArray n.sc then (s.engineByte k [] (scArrayAddr n.sc + idx / 32)).toNat
  else scUni n.sc

/-- The logical index of an element of a node (R224). -/
def GNode.index (n : GNode) (i j : Nat) : Option W64 := n.shape.elemIndex n.format n.frame n.base i j

/-- The offset of an element of a node, in 32nds of its ULP (R130, R228). -/
def GNode.offset (n : GNode) (idx : W64) : Int := n.frame.offsetFor (fmtDen n.fmt) n.format idx

/-- The value of an element of a leaf or of a destination buffer, as an exact number. -/
def State.elemVal (s : State) (k : Nat) (n : GNode) (i j : Nat) : Val :=
  let f := n.format
  let a := n.shape.elemAddr f n.base i j
  let idx := (n.index i j).getD 0
  let sc := s.nodeScale k n idx.toNat
  match f with
  | .fx => fxOfBytes (s.engineNat k [] a.1 16)
  | .vq8 =>
    let q := s.engineNat k [] a.1 2
    let w := vq8Weight ((s.core k).shell.getD (q / 256) 0) q (j % 8)
    if sc % 256 = 255 then .nan else valScale (.fin w) ((sc % 256 : Nat) - 127)
  | f => decScaled f (s.engineCode k [] f a.1 a.2) (n.offset idx) sc

/-- The value of an element of a node; a view takes it from the node it views (R233). -/
def State.nodeVal (s : State) (k : Nat) (ns : List GNode) : Nat → GNode → Nat → Nat → Val
  | 0, n, i, j => s.elemVal k n i j
  | fuel + 1, n, i, j =>
    if n.opcode = opTVIEW then
      match findNode ns n.ctx n.na with
      | some a => let m := viewMap ns n i j; s.nodeVal k ns fuel a m.1 m.2
      | none => .zero
    else s.elemVal k n i j

def State.val (s : State) (k : Nat) (ns : List GNode) (n : GNode) (i j : Nat) : Val := s.nodeVal k ns viewFuel n i j

/-- The code that a drain writes for an element (R125): an exact zero as +0, one rounding under the captured RM and SAT
through the destination's frame and scale; SR only through a frame (R110). -/
def State.drainCode (s : State) (k : Nat) (n : GNode) (i j : Nat) (v : Val) : Nat :=
  let idx := (n.index i j).getD 0
  let v := if v.isZero then Val.zero else v
  let rm := if n.shape.fe then fmtRm n.fmt else (fmtRm n.fmt).noSr
  (encScaled n.format rm (fmtSat n.fmt) (n.frame.draw (fmtDen n.fmt) idx) (n.offset idx) (s.nodeScale k n idx.toNat) v).code

/-- A code at its place: address, bytes with the bits written (R224). -/
def codeWrite (h : Shape) (f : Fmt) (base i j c : Nat) : Nat × List (Byte × Byte) :=
  let a := h.elemAddr f base i j
  if f.bits = 4 then (a.1 % 2 ^ 64, [(BitVec.ofNat 8 (c % 16 * 16 ^ a.2), BitVec.ofNat 8 (15 * 16 ^ a.2))])
  else (a.1 % 2 ^ 64, wholeBytes (bytesOf (f.bits / 8) c))

/-! ## Accumulation (R122 to R124) -/

/-- G of an operand format, and K per stationary tile (R122, R239). -/
def groupOf (f : Fmt) : Nat :=
  match f with
  | .fp32 => 1
  | .bf16 | .fp16 => 2
  | .e4m3 | .e5m2 | .int8 => 4
  | _ => 8

def chunkOf (g : Nat) : Nat :=
  match g with
  | 1 => 32
  | 2 => 128
  | 4 => 256
  | _ => 512

/-- The exact sum of a group of products (R123). -/
def groupSum (l : List (Val × Val)) : Val := l.foldl (fun a e => valAdd .rne a (valMul e.1 e.2)) Val.zero

/-- One group enters a floating-point accumulator (R123). -/
def accFloat (acc : W32) (v : Val) : W32 :=
  match v with
  | .nan => f32NaN
  | v => if v.isZero then acc else f32Out false .rne (valAdd .rne (f32In false acc) v)

/-- One group enters an integer accumulator: modulo 2^32 where its exact sum is an integer (R124), else a value that the
spec does not state (Config.integerSum). -/
def accInt (acc : W32) (v : Val) : W32 :=
  match v with
  | .fin d =>
    let whole := d.man * 2 ^ d.exp.toNat
    if d.exp ≥ 0 then acc + BitVec.ofInt 32 (if d.neg then -(whole : Int) else whole)
    else
      let unit := 2 ^ (-d.exp).toNat
      if d.man % unit = 0 then acc + BitVec.ofInt 32 (if d.neg then -((d.man / unit : Nat) : Int) else (d.man / unit : Nat))
      else Config.integerSum acc 0 d.neg d.man d.exp
  | .inf n => Config.integerSum acc 1 n 0 0
  | .nan => Config.integerSum acc 2 false 0 0

/-- The groups of g products in ascending order; fuel counts the products. -/
def accGroups (step : W32 → Val → W32) (g : Nat) : Nat → W32 → List (Val × Val) → W32
  | 0, acc, _ => acc
  | fuel + 1, acc, l => if l.isEmpty then acc else accGroups step g fuel (step acc (groupSum (l.take g))) (l.drop g)

/-- The accumulator of an element of a product (R123, R124, R230). With ACC set on a floating-point product, a start value that FP32 does
not hold, of an INT32 destination or of an extreme scale, enters the FP32 accumulator rounded to nearest even: R230 says only that the
element's current value is the start value (DESIGN CHOICE, log 66). -/
def productElem (isInt : Bool) (g : Nat) (start : Option Val) (l : List (Val × Val)) : Val :=
  if isInt then
    let a := accGroups accInt g l.length (match start with
      | some v => accInt 0 v
      | none => 0) l
    .fin ⟨a.msb, a.toInt.natAbs, 0⟩
  else
    f32In false (accGroups accFloat g l.length (match start with
      | some v => f32Out false .rne v
      | none => 0) l)

/-! ## TROT (R232) -/

/-- The sign of element m under sign vector q. -/
def rotSign (q m : Nat) : Bool := decide (q < 63) && (mixh 0 (BitVec.ofNat 64 q) (BitVec.ofNat 64 m)).getLsbD 63

/-- One butterfly step on 64 values. -/
def butterfly (x : List Val) (p : Nat) : List Val :=
  let round := fun (v : Val) => f32In false (f32Out false .rne v)
  (List.range 64).map (fun j =>
    if bitAt j p then round (valAdd .rne (x.getD (j - 2 ^ p) .zero) (x.getD j .zero).negate)
    else round (valAdd .rne (x.getD j .zero) (x.getD (j + 2 ^ p) .zero)))

/-- The rotation of a group of 64 values (R232). -/
def rotateGroup (q : Nat) (inv : Bool) (x : List Val) : List Val :=
  let flip := fun (x : List Val) => (List.range 64).map (fun m => if rotSign q m then (x.getD m .zero).negate else x.getD m .zero)
  let eighth : Val := .fin ⟨false, 1, -3⟩
  let y := (List.range 6).foldl butterfly (if inv then x else flip x)
  let z := y.map (fun v => f32In false (f32Out false .rne (valMul v eighth)))
  if inv then flip z else z

/-! ## The values of a computing node (R230 to R232, R263) -/

/-- The values that a node computes for the elements of a list, each before its drain. -/
def State.computeNode (s : State) (k : Nat) (ns : List GNode) (n : GNode) (es : List (Nat × Nat)) : List Val :=
  let a := (findNode ns n.ctx n.na).getD n
  let b := (findNode ns n.ctx n.nb).getD a
  let va := s.val k ns a
  let vb := s.val k ns b
  match n.opcode with
  | 2 | 3 =>
    let fa := valueFormat ns a
    let fb := valueFormat ns b
    let kk := (dimsOf ns a).2
    let g := min (groupOf fa) (groupOf fb)
    let rows : AMap (List Val) := ((es.map (·.1)).eraseDups).map (fun i => (i, (List.range kk).map (va i)))
    let cols : AMap (List Val) := ((es.map (·.2)).eraseDups).map (fun j =>
      (j, (List.range kk).map (fun q => if n.opcode = opTMUL then vb q j else vb j q)))
    es.map (fun e => productElem fa.isInt g (if bitAt n.fl 0 then some (s.elemVal k n e.1 e.2) else none)
      (((amGet rows e.1).getD []).zip ((amGet cols e.2).getD [])))
  | 4 => es.map (fun e => f32In false (f32Out false .rne (valAdd .rne (va e.1 e.2) (vb e.1 e.2))))
  | 5 => es.map (fun e => f32In false (f32Out false .rne (valMul (f32In false ((n.word 2).truncate 32)) (va e.1 e.2))))
  | 6 =>
    let q := bitsOf (n.word 2).toNat 0 6
    let keys := (es.map (fun e => (e.1, e.2 / 64))).eraseDups
    let groups := keys.map (fun x => (x, rotateGroup q (bitAt n.fl 0) ((List.range 64).map (fun m => va x.1 (64 * x.2 + m)))))
    es.map (fun e => ((groups.find? (fun x => x.1 == (e.1, e.2 / 64))).map (fun x => x.2.getD (e.2 % 64) .zero)).getD .zero)
  | _ => es.map (fun e => va e.1 e.2)

/-- The elements of a TRES that are computed, each with its mantissa; none is FX_OVERFLOW (R263). -/
def State.computeTres (s : State) (k : Nat) (ns : List GNode) (n : GNode) (es : List (Nat × Nat)) :
    List ((Nat × Nat) × Option Int) :=
  let a := (findNode ns n.ctx n.na).getD n
  let x := (findNode ns n.ctx n.nb).getD a
  let b := (findNode ns n.ctx (bitsOf (n.word 2).toNat 0 8)).getD a
  let t := signed 16 (bitsOf (n.word 3).toNat 0 16)
  let kk := (dimsOf ns a).2
  es.map (fun e => (e, tresElem t (s.val k ns b e.1 e.2 ::
    (List.range kk).map (fun q => (valMul (s.val k ns a e.1 q) (s.val k ns x q e.2)).negate))))

/-- The code of an element of a TRES (R263). -/
def tresCode (n : GNode) (m : Int) : Nat :=
  let t := signed 16 (bitsOf (n.word 3).toNat 0 16)
  if n.format = .fx then fxBytes m t else (encodeVal .fp32 (fmtRm n.fmt).noSr (fmtSat n.fmt) 0 (fxVal m t)).code

/-! ## Work in evaluation -/

/-- A demand in evaluation: the state with its writes applied, the cycles spent, and what it has done so far. -/
structure GWork where
  view : State
  elapsed : Nat
  writes : List (Nat × List (Byte × Byte))
  remembered : List (Nat × Blocks)
  nonfinite : Option Nat
  gfs : List (Nat × W32)
  grown : List Nat
  requests : List Nat
  stages : List GStage
  stop : Option GEnd

/-- The start of a computing node, as the run stands there (R244). -/
def GWork.stage (w : GWork) (n : Nat) : GStage :=
  ⟨w.elapsed, n, w.writes.length, w.remembered.length, w.gfs.length, w.grown.length, w.requests.length, w.nonfinite⟩

/-- Writes applied to the state that later reads of the demand see. -/
def GWork.write (w : GWork) (p : Nat) (ws : List (Nat × List (Byte × Byte))) : GWork :=
  let bs := ws.flatMap (fun x => w.view.physWrite p x.1 x.2)
  { w with view := { w.view with mem := memWrite w.view.mem bs }, writes := w.writes ++ ws }

/-- Note a non-finite value of a node that captured NFTE (R247). -/
def GWork.flag (w : GWork) (n : GNode) (nf : Bool) : GWork :=
  if nf && fmtNfte n.fmt && w.nonfinite.isNone then { w with nonfinite := some n.id } else w

/-! ## Faults of R244 -/

/-- The leaves below the predecessors that a node's needed set reads, with the blocks read. -/
def leafNeeds (ns : List GNode) : Nat → GNode → Blocks → List (GNode × Blocks)
  | 0, _, _ => []
  | fuel + 1, n, b =>
    if n.opcode = opTDEF then [(n, b)]
    else if n.opcode = opTVIEW then
      match findNode ns n.ctx n.na with
      | some a => leafNeeds ns fuel a (viewNeed ns n b)
      | none => []
    else []

/-- The leaves that a computing node reads, each once with all its blocks (R239). -/
def nodeLeaves (ns : List GNode) (n : GNode) (b : Blocks) : List (GNode × Blocks) :=
  let all := (predNeed ns n b).flatMap (fun e =>
    match findNode ns n.ctx e.1 with
    | some a => leafNeeds ns viewFuel a e.2
    | none => [])
  all.foldl (fun acc x =>
    if acc.any (fun y => y.1.id == x.1.id) then
      acc.map (fun y => if y.1.id = x.1.id then (y.1, y.2 ++ x.2.filter (fun z => !y.2.contains z)) else y)
    else acc ++ [x]) []

/-- A fault of R244: its cause and the node it names. -/
abbrev LeafFault := Nat × Nat

/-- The faults of one address of a leaf: R170 under MR, then its bank's mode, which names the node (R244). -/
def State.leafByteFault (s : State) (k leaf node a : Nat) : List LeafFault :=
  match translate (s.part (s.partOf k)).ranges .mr (a % 2 ^ 64) with
  | .fault code => [(if code = 7 then 1 else 2, leaf)]
  | .ok pa _ =>
    match s.bankAt pa with
    | some (m, _) => if m.isScratch then [] else [(4, node)]
    | none => []

/-- The faults of an element of a leaf: its bytes, its index under its frame, its block scale (R121, R244). -/
def State.leafElemFault (s : State) (k : Nat) (l : GNode) (node : Nat) (e : Nat × Nat) : List LeafFault :=
  let f := l.format
  let a := (l.shape.elemAddr f l.base e.1 e.2).1
  let n := max 1 (f.bits / 8)
  s.leafByteFault k l.id node a ++ (if n = 1 then [] else s.leafByteFault k l.id node (a + n - 1)) ++
    (match l.index e.1 e.2 with
      | none => [(3, l.id)]
      | some idx => if l.shape.se && scIsArray l.sc then s.leafByteFault k l.id node (scArrayAddr l.sc + idx.toNat / 32) else [])

/-- The faults of leaves over the blocks that are read. -/
def State.leavesFaults (s : State) (k : Nat) (ns : List GNode) (node : Nat) (ls : List (GNode × Blocks)) : List LeafFault :=
  ls.flatMap (fun l => l.2.flatMap (fun b => (blockElems (dimsOf ns l.1) b).flatMap (s.leafElemFault k l.1 node)))

/-- The faults of a node's destination: a bank that has left SCRATCH, an element outside its frame (R129, R244). -/
def State.destFaults (s : State) (k : Nat) (n : GNode) (es : List (Nat × Nat)) : List LeafFault :=
  (if (s.physPieces (s.partOf k) n.buffers).any (fun q => (match s.bankAt q.2.1 with
      | some (m, _) => !m.isScratch
      | none => false)) then [(4, n.id)] else [])
    ++ (if es.any (fun e => (n.index e.1 e.2).isNone) then [(3, n.id)] else [])

/-- The fault that is raised: the lowest cause. -/
def firstLeafFault : List LeafFault → Option LeafFault
  | [] => none
  | a :: r =>
    match firstLeafFault r with
    | none => some a
    | some b => some (if b.1 < a.1 then b else a)

/-- A record at a node's start (R245). The spec does not say how the node's first output tile is numbered: it is 0 here, whichever
blocks the node computes (DESIGN CHOICE, log 66). -/
def startRecord (n : Nat) : GRecord := ⟨n, false, 0, 0, 0, [], 0, 0⟩

/-- The demand stops with a fault of R244. -/
def GWork.leafStop (w : GWork) (n : Nat) (f : LeafFault) : GWork := { w with stop := some (.faults 0x83 f.1 f.2 none (startRecord n)) }

/-! ## Costs (R239, R262) -/

/-- The leaf term: every leaf outside the cluster's own SCRATCH (R239); a leaf that lies there only in part goes by its base
(DESIGN CHOICE, log 66). -/
def State.leafTerm (s : State) (k : Nat) (ns : List GNode) (n : GNode) (b : Blocks) : Nat :=
  ((nodeLeaves ns n b).map (fun l =>
    let own := match s.physOf (s.partOf k) l.1.base with
      | some pa => isOwnSram (clusterOf k) pa
      | none => true
    let els := (l.2.map (fun x => (blockElems (dimsOf ns l.1) x).length)).foldl (· + ·) 0
    let bits := if l.1.format = .vq8 then 2 else l.1.format.bits
    if own || els == 0 then 0
    else s.extentFigure k [(l.1.base, l.1.shape.span l.1.format)] + ceilDiv (els * bits) 512)).foldl (· + ·) 0

/-- The cost of a node that is no solver, without its leaf term (R239). -/
def nodeCost (ns : List GNode) (n : GNode) (b : Blocks) : Nat :=
  let m := 8 * (blockRows b).length
  let c := 8 * (blockCols b).length
  let a := (findNode ns n.ctx n.na).getD n
  let bb := (findNode ns n.ctx n.nb).getD a
  match n.opcode with
  | 2 | 3 =>
    let g := min (groupOf (valueFormat ns a)) (groupOf (valueFormat ns bb))
    64 + ceilDiv c 64 * ceilDiv (dimsOf ns a).2 (chunkOf g) * m + 72
  | 6 => 16 + ceilDiv (m * c) 64
  | 0x25 => 16 + 64 + ceilDiv c 64 * ceilDiv (dimsOf ns a).2 32 * m + 72
  | _ => 16 + ceilDiv (m * c) 256

/-! ## The evaluation of one node -/

/-- The blocks that a node computes: the cross product of its needed rows and columns, without those remembered (R236). -/
def computedBlocks (n : GNode) (b : Blocks) : Blocks :=
  (blockProduct (blockRows b) (blockCols b)).filter (fun x => !n.done.contains x)

/-- A node of the arrays: its values drain to its buffer (R125, R236). -/
def GWork.evalPlain (w : GWork) (k : Nat) (ns : List GNode) (n : GNode) (b todo : Blocks) : GWork :=
  let s := w.view
  let es := todo.flatMap (blockElems (dimsOf ns n))
  let cs := (es.zip (s.computeNode k ns n es)).map (fun e => (e.1, s.drainCode k n e.1.1 e.1.2 e.2))
  let ws := cs.map (fun c => codeWrite n.shape n.format n.base c.1.1 c.1.2 c.2)
  let w1 := (w.write (s.partOf k) ws).flag n (cs.any (fun c => codeNonFinite n.format c.2))
  { w1 with elapsed := w.elapsed + nodeCost ns n b + s.leafTerm k ns n b, remembered := w1.remembered ++ [(n.id, todo)] }

/-- TRES: every element is tested before any is written; the first in row order that overflows is named (R263). Three points are the
model's (DESIGN CHOICE, log 66): f, the end of the term of R262, comes after the leaf term of R239, which R262 adds as well; every
element that R236 has the node compute is tested, those of the cross product outside a needed set that is no rectangle among them; and
the record names tile 0 whichever element overflows. -/
def GWork.evalTres (w : GWork) (k : Nat) (ns : List GNode) (n : GNode) (b todo : Blocks) : GWork :=
  let s := w.view
  let es := todo.flatMap (blockElems (dimsOf ns n))
  let rs := s.computeTres k ns n es
  let cost := w.elapsed + nodeCost ns n b + s.leafTerm k ns n b
  match minOf ((rs.filter (fun r => r.2.isNone)).map (fun r => r.1.1 * 4096 + r.1.2)) with
  | some x =>
    let bkc : W64 := BitVec.ofNat 64 (x % 4096 + x / 4096 * 2 ^ 32)
    { w with elapsed := cost, stop := some (.faults 0x85 10 n.id (some (bkc, none)) (startRecord n.id)) }
  | none =>
    let cs := rs.map (fun r => (r.1, tresCode n (r.2.getD 0)))
    let ws := cs.map (fun c => codeWrite n.shape n.format n.base c.1.1 c.1.2 c.2)
    let w1 := (w.write (s.partOf k) ws).flag n (cs.any (fun c => codeNonFinite n.format c.2))
    { w1 with elapsed := cost, remembered := w1.remembered ++ [(n.id, todo)] }

/-- FP32 values of a node, rounded once by RNE, for rows and columns (R251). -/
def State.copyIn (s : State) (k : Nat) (ns : List GNode) (n : GNode) (rows : Nat) (cols : List Nat) : Tile :=
  (List.range rows).map (fun i => cols.map (fun j => f32Out false .rne (s.val k ns n i j)))

/-- The image of a node as it stands in its buffer. -/
def State.readImage (s : State) (k : Nat) (n : GNode) (rows : Nat) (cols : List Nat) : Tile :=
  (List.range rows).map (fun i => cols.map (fun j => BitVec.ofNat 32 (s.engineNat k [] (n.shape.elemAddr .fp32 n.base i j).1 4)))

/-- The pivot vector at an address. -/
def State.readPivots (s : State) (k a : Nat) : List Nat := (s.engineBytes k [] a 64).map (fun b => b.toNat)

/-- A rotation entry at an address (R257). -/
def State.readRotation (s : State) (k a : Nat) (ij : Nat × Nat) : W32 × W32 :=
  (BitVec.ofNat 32 (s.engineNat k [] (a + 512 * ij.2 + 8 * ij.1) 4), BitVec.ofNat 32 (s.engineNat k [] (a + 512 * ij.2 + 8 * ij.1 + 4) 4))

/-- The writes of an image to its buffer. -/
def imageWrites (n : GNode) (cols : List Nat) (w : Tile) : List (Nat × List (Byte × Byte)) :=
  (w.zip (List.range w.length)).flatMap (fun r =>
    (r.1.zip cols).map (fun e => codeWrite n.shape .fp32 n.base r.2 e.2 e.1.toNat))

/-- The writes of rotation entries. -/
def rotationWrites (a : Nat) (rs : List ((Nat × Nat) × (W32 × W32))) : List (Nat × List (Byte × Byte)) :=
  rs.map (fun r => ((a + 512 * r.1.2 + 8 * r.1.1) % 2 ^ 64, wholeBytes (bytesOf 4 r.2.1.toNat ++ bytesOf 4 r.2.2.toNat)))

/-- Every rotation entry as copy-in leaves it (R251). -/
def plainRotations (n : Nat) : List ((Nat × Nat) × (W32 × W32)) :=
  (List.range n).flatMap (fun j => (List.range 64).map (fun i => ((i, j), (0x3F800000, 0))))

/-- What a solver run starts from: its image, triangle, AMAX and UMAX. -/
structure SolveIn where
  image : Tile
  held : Tile
  amax : Nat
  umax : Nat
  step : Nat

/-- Writes of a resumed run that change what stood there at its start: no step of it writes the rest (R261). -/
def changedWrites (new old : List (Nat × List (Byte × Byte))) : List (Nat × List (Byte × Byte)) :=
  ((new.zip old).filter (fun e => e.1 != e.2)).map (·.1)

/-- The writes of a pivot vector (R254). -/
def pivotWrites (a : Nat) (ps : List Nat) : List (Nat × List (Byte × Byte)) :=
  (ps.zip (List.range ps.length)).map (fun e => ((a + e.2) % 2 ^ 64, [(BitVec.ofNat 8 e.1, 0xFF)]))

/-- The start of a solver node: from its record once copy-in is done, else from copy-in (R251, R261). -/
def State.solveIn (s : State) (k : Nat) (ns : List GNode) (n : GNode) (cols : List Nat) (rec : Option GRecord) : SolveIn :=
  let a := (findNode ns n.ctx n.na).getD n
  let src := if n.opcode = opTTRSM ∨ n.opcode = opTAPPLY then (findNode ns n.ctx n.nb).getD a else a
  let rows := n.shape.rows
  match rec with
  | some r => ⟨s.readImage k n rows cols, r.held, r.amax, r.umax, r.step⟩
  | none =>
    let w := s.copyIn k ns src rows cols
    let am := maxOf (w.map (fun r => maxOf (r.map sMag)))
    let da := dimsOf ns a
    ⟨w, if n.opcode = opTTRSM then s.copyIn k ns a da.1 (List.range da.2) else [], am, am, 0⟩

/-- The run of a solver node (R253 to R259, R262); nb is ⌈c/64⌉. -/
def State.solve (s : State) (k : Nat) (ns : List GNode) (n : GNode) (x : SolveIn) (resumed : Bool) (nb : Nat) : Solved :=
  let rows := n.shape.rows
  let a := (findNode ns n.ctx n.na).getD n
  let da := dimsOf ns a
  match n.opcode with
  | 0x20 => ttrsmRun x.held x.image rows x.step nb (bitAt n.fl 0) (bitAt n.fl 1) (bitAt n.fl 2)
  | 0x21 =>
    tluRun x.image rows x.step ⟨bitAt n.fl 0, x.amax, n.fxhr.getLsbD 8, (n.fxhr.truncate 8 : BitVec 8).toNat⟩
      (if resumed then s.readPivots k (n.word 2).toNat else List.replicate 64 255) x.umax n.grown
  | 0x22 => tcholRun x.image rows x.step
  | 0x23 => tqrRun x.image rows n.shape.cols x.step
  | _ =>
    tapplyRun (n.fl % 4) da.1 da.2 nb x.image (s.readPivots k (a.word 2).toNat) (s.readRotation k (a.word 2).toNat)

/-- A solver node other than TRES (R251, R260 to R262). -/
def GWork.evalSolver (w : GWork) (k : Nat) (ns : List GNode) (n : GNode) (b : Blocks) (rec : Option GRecord) : GWork :=
  let s := w.view
  let d := dimsOf ns n
  let cbs := blockCols b
  let cols := (cbs.flatMap (fun c => (List.range (min 8 (d.2 - 8 * c))).map (· + 8 * c)))
  let x := s.solveIn k ns n cols rec
  let r := s.solve k ns n x rec.isSome (ceilDiv (8 * cbs.length) 64)
  let a2 := (n.word 2).toNat
  let fresh := fun (new old : List (Nat × List (Byte × Byte))) => if rec.isSome then changedWrites new old else new
  let more :=
    if n.opcode = opTLU then fresh (pivotWrites a2 r.piv) (pivotWrites a2 (s.readPivots k a2))
    else if n.opcode = opTQR then (if rec.isSome then [] else rotationWrites a2 (plainRotations n.shape.cols)) ++ rotationWrites a2 r.rot
    else []
  let bad := fun (t : Tile) => t.any (fun row => row.any f32NonFinite)
  let nf := if rec.isSome then r.wroteNonFinite n.opcode (trsmOrder n.shape.rows (bitAt n.fl 0 != bitAt n.fl 2)) x.step
    else bad r.image || bad x.image || r.badRotation
  let w1 := (w.write (s.partOf k) (fresh (imageWrites n cols r.image) (imageWrites n cols x.image) ++ more)).flag n nf
  let w2 := { w1 with
    gfs := w1.gfs ++ r.gfs.map (fun (g : Nat × W32) => (w.elapsed + g.1, g.2)), requests := w1.requests ++ r.requests.map (· + w.elapsed),
    grown := if r.grown then w1.grown ++ [n.id] else w1.grown }
  match r.fail with
  | some f =>
    let bkc : W64 := BitVec.ofNat 64 (f.low + f.high * 2 ^ 32)
    { w2 with elapsed := w.elapsed + f.at_,
              stop := some (.faults 0x84 f.cause n.id (some (bkc, some f.value)) ⟨n.id, true, r.step, r.umax, x.amax, x.held, 0, 0⟩) }
  | none =>
    { w2 with elapsed := w.elapsed + r.cost + s.leafTerm k ns n b,
              remembered := w2.remembered ++ [(n.id, blockProduct (List.range (blockCount d.1)) cbs)] }

/-- One node of a demand's path: nothing where its needed set is empty; its faults first. The banks of a node after the first are
judged at its own start, by State.stageStop (R236, R244). -/
def GWork.evalNode (w : GWork) (k : Nat) (ns : List GNode) (need : AMap Blocks) (rec : Option GRecord) (n : GNode) : GWork :=
  let b := (amGet need n.id).getD []
  let mine := rec.filter (fun r => r.node == n.id && r.copied)
  if w.stop.isSome || !n.computes || b.isEmpty then w
  else
    let todo := computedBlocks n b
    let es := if n.shape.fe then todo.flatMap (blockElems (dimsOf ns n)) else []
    let fs := if mine.isSome then [] else
      (w.view.leavesFaults k ns n.id (nodeLeaves ns n b) ++ w.view.destFaults k n es).filter (fun f => w.elapsed == 0 || f.1 != 4)
    match firstLeafFault fs with
    | some f => w.leafStop n.id f
    | none =>
      let w := if mine.isSome || w.elapsed == 0 then w else { w with stages := w.stages ++ [w.stage n.id] }
      if n.opcode < 0x20 then w.evalPlain k ns n b todo
      else if n.opcode = opTRES then w.evalTres k ns n b todo
      else w.evalSolver k ns n b mine

/-! ## TSTORE's write part and TCB (R235, R237) -/

/-- The code that TSTORE writes for an element of its region: the value as FP32, then the path of R205. A value that FP32 does not
hold, of an INT32 node, is rounded to nearest even (R237; DESIGN CHOICE, log 66). -/
def State.storeCode (s : State) (k : Nat) (ns : List GNode) (d : Demand) (n : GNode) (i j : Nat) : Nat :=
  let h := d.target
  let f := d.targetFmt
  let idx := (h.elemIndex f d.frame d.targetBase i j).getD 0
  let den := fmtDen d.fmt
  let v := f32In false (f32Out false .rne (s.val k ns n (d.region.row0 + i) (d.region.col0 + j)))
  let rm := if h.fe then fmtRm d.fmt else (fmtRm d.fmt).noSr
  (encScaled f rm (fmtSat d.fmt) (d.frame.draw den idx) (d.frame.offsetFor den f idx) (if h.se then scUni d.sc else unitScale) v).code

/-- The write part of a TSTORE, after its force part (R237, R239). -/
def GWork.evalStore (w : GWork) (k : Nat) (ns : List GNode) (d : Demand) : GWork :=
  match w.stop, findNode ns d.ctx d.node with
  | none, some n =>
    let s := w.view
    let h := d.target
    let f := d.targetFmt
    match firstLeafFault (s.leavesFaults k ns n.id (leafNeeds ns viewFuel n (regionBlocks d.region))) with
    | some x => w.leafStop n.id x
    | none =>
      let ws := (List.range h.rows).flatMap (fun i => (List.range h.cols).map (fun j =>
        codeWrite h f d.targetBase i j (s.storeCode k ns d n i j)))
      { w with writes := w.writes ++ ws,
               elapsed := w.elapsed + 16 + ceilDiv (h.rows * rowBytesOf f h.cols) 64 + s.extentFigure k d.targetRows }
  | _, _ => w

/-- The state that a demand reads: the writes that it finds laid over what stands have performed (R240). -/
def State.demandView (s : State) (k : Nat) (found : List PByte) : State :=
  { s with mem := memWrite s.mem found }.onCluster (clusterOf k) (fun x => updateCopies x found)

/-- The evaluation of a TFORCE or TSTORE (R236, R237, R240). -/
def State.evalDemand (s : State) (k : Nat) (d : Demand) (found : List PByte) : GWork :=
  let ns := (s.core k).nodes
  let need := needSets ns d
  let w0 : GWork := ⟨s.demandView k found, 0, [], [], d.nonfinite, [], [], [], [], none⟩
  let w := ((d.path ns).filterMap (findNode ns d.ctx)).foldl (fun w n => w.evalNode k ns need d.record n) w0
  if d.opcode = opTSTORE then w.evalStore k ns d else w

/-- The shell table that a TCB loads (R107, R235). -/
def State.shellTable (s : State) (k : Nat) (d : Demand) (found : List PByte) : List W32 :=
  (List.range 256).map (fun i => BitVec.ofNat 32 (s.engineNat k found ((d.words.getD 0 0).toNat + 4 * i) 4))

/-! ## DEMAND_START (R236, R238, R246, R261) -/

/-- The first demand of the queue that is not parked, with the others. -/
def nextDemand : List Demand → Option (Demand × List Demand)
  | [] => none
  | d :: r => if d.parkedBehind.isNone then some (d, r) else (nextDemand r).map (fun x => (x.1, d :: x.2))

/-- The suspended demand of the context whose node a demand's needed set includes (R261). -/
def parksBehind (ns : List GNode) (suspended : List Demand) (d : Demand) : Option Demand :=
  if d.opcode = opTCB ∨ d.abandoned then none
  else
    let mine := neededNodes (needSets ns d)
    suspended.find? (fun o => o.ctx == d.ctx && o.nodes.any mine.contains)

/-- The blocks of leaves that one node of a demand reads for what it computes: none of a solver that goes on from its record
(R236, R261). -/
def Demand.nodeReads (d : Demand) (ns : List GNode) (need : AMap Blocks) (n : GNode) : List (GNode × Blocks) :=
  let b := (amGet need n.id).getD []
  if !n.computes || b.isEmpty || d.record.any (fun r => r.node == n.id && r.copied) then []
  else nodeLeaves ns n (if n.opcode < 0x20 ∨ n.opcode = opTRES then computedBlocks n b else b)

/-- The leaves that a demand reads, by the node that reads them, each with the blocks that are read; the write part of a TSTORE of
a leaf or a view reads its region (R236, R237, R239). -/
def Demand.reads (d : Demand) (ns : List GNode) : List (Nat × List (GNode × Blocks)) :=
  let need := needSets ns d
  ((d.path ns).filterMap (findNode ns d.ctx)).map (fun n => (n.id, d.nodeReads ns need n)) ++
    (match findNode ns d.ctx d.node with
      | some n => if d.opcode = opTSTORE ∧ !n.computes then [(n.id, leafNeeds ns viewFuel n (regionBlocks d.region))] else []
      | none => [])

/-- The bytes of a demand whose order with others' writes is open: those of the leaves that it reads, and of a resumed solver its
image's (R240, R261). -/
def openExtents (ns : List GNode) (d : Demand) : List (Nat × Nat) :=
  (d.reads ns).flatMap (fun e => e.2.flatMap (fun l => l.1.checked)) ++
    (if d.record.isSome then (d.nodes.filterMap (findNode ns d.ctx)).flatMap GNode.buffers else [])

/-- The lines that reads of leaves outside SRAM meet, as virtual addresses: of each element its first and last byte, and the byte of
its block scale (R121, R224). -/
def State.leafLines (s : State) (k : Nat) (ls : List (GNode × Blocks)) : List Nat :=
  let ns := (s.core k).nodes
  let far := fun (l : GNode × Blocks) => (s.physPieces (s.partOf k) l.1.checked).any (fun q => homeOf q.2.1 == .gddr || homeOf q.2.1 == .host)
  ((ls.filter far).flatMap (fun l => l.2.flatMap (fun b => (blockElems (dimsOf ns l.1) b).flatMap (fun e =>
    let a := (l.1.shape.elemAddr l.1.format l.1.base e.1 e.2).1
    [a / 64 * 64, (a + max 1 (l.1.format.bits / 8) - 1) / 64 * 64] ++
      (match l.1.index e.1 e.2 with
        | some i => if l.1.shape.se && scIsArray l.1.sc then [(scArrayAddr l.1.sc + i.toNat / 32) / 64 * 64] else []
        | none => []))))).eraseDups

/-- A leaf read that hits a line of the cluster cache, at a virtual address, sets its RRPV to 0 (R173, R240). One that misses brings in
no line: R240 says of the Grove's reads that they look up the cache and no more, where R219 says of the engine's that they allocate
(DESIGN CHOICE, log 66). -/
def State.hitLines (s : State) (k : Nat) (lines : List Nat) : State := s.noteHits k (lines.filterMap (s.physOf (s.partOf k)))

/-- Whether a run that ends so has read the leaves of a node: one that it has evaluated, or that stopped only after it had read them
(R244, R260, R263). -/
def GEnd.ran (r : GEnd) (remembered : List (Nat × Blocks)) (id : Nat) : Bool :=
  match r with
  | .completes => true
  | .faults code _ node _ _ => remembered.any (fun e => e.1 == id) || (code != 0x83 && id == node)

/-- The lines that a demand reads, as virtual addresses, of the nodes that have run, for each once; those of a TCB's table (R235, R239,
R240). -/
def State.demandLines (s : State) (k : Nat) (d : Demand) (ran : Nat → Bool) : List Nat :=
  if d.abandoned then []
  else if d.opcode = opTCB then (List.range 17).map (fun i => ((d.words.getD 0 0).toNat + min (64 * i) 1023) / 64 * 64)
  else ((d.reads (s.core k).nodes).filter (fun e => ran e.1)).flatMap (fun e => s.leafLines k e.2)

/-- The extents in GDDR that a demand meets, line by line: what it reads, and the target of a TSTORE (R181). -/
def State.demandExtents (s : State) (k : Nat) (d : Demand) (r : GEnd) (remembered : List (Nat × Blocks)) : List (Nat × Nat) :=
  (s.demandLines k d (r.ran remembered)).map (fun a => (a, 64)) ++ (if d.opcode = opTSTORE ∧ r = .completes then d.targetRows else [])

/-- The cycle of a moment of a run, of a part of it that starts at cycle base and at moment lo and takes cost cycles in all: in THR
every moment moves with the cost (R4, R239). -/
def momentAt (base lo total cost e : Nat) : Nat :=
  if total ≤ lo then base + (e - lo) else base + (e - lo) * cost / (total - lo)

/-- The run of a demand that starts now. In THR the figure of one that completes is typical; one that stops with a fault or a breakdown
takes its elapsed cycles as they are counted, as the spec gives THR no other cycle f for it (R4, R239, R244; DESIGN CHOICE, log 66). The
lines that it reads are to be served by its end, and by the GDDR figure where a stop comes before that (R181, R262). -/
def State.runOf (s : State) (k : Nat) (d : Demand) : GRun × State :=
  let p := s.partOf k
  let t := s.cyc p
  let idle : GRun := ⟨d, t, t, 0, .completes, [], [], [], [], none, [], []⟩
  if d.abandoned then (idle, s)
  else if d.opcode = opTCB then
    let e := [((d.words.getD 0 0).toNat, 1024)]
    let o := s.engineOverlay k d.ctx d.accepted (t + 32 + s.extentFigure k e) e
    let f := o.2.figure p (32 + s.extentFigure k e)
    let g := f.2.engineBursts k d.ctx (t + f.1) f.2.nextId d.handler (s.extentLines p e)
    ({ idle with finish := t + f.1 + g.1, late := g.1, shell := some (s.shellTable k d o.1) }, g.2)
  else
    let ns := (s.core k).nodes
    let d := { d with nodes := d.nodes ++ (neededNodes (needSets ns d)).filter (fun i => !d.nodes.contains i) }
    let own := s.pendingBefore k d.ctx d.accepted
    let w0 := s.evalDemand k d own
    let o := s.engineOverlay k d.ctx d.accepted (t + w0.elapsed) (openExtents ns d)
    let w := if o.1 = own then w0 else s.evalDemand k d o.1
    let f := if w.stop.isSome ∨ w.elapsed = 0 then (w.elapsed, o.2) else o.2.figure p w.elapsed
    let r := w.stop.getD .completes
    let g := f.2.engineBursts k d.ctx (t + max f.1 (figGddr (s.mult p))) f.2.nextId d.handler
      (s.extentLines p (s.demandExtents k d r w.remembered))
    let at_ := momentAt t 0 w.elapsed f.1
    ({ demand := { d with nonfinite := w.nonfinite }, start := t, finish := t + f.1 + g.1, late := g.1,
       result := r, writes := w.writes, remembered := w.remembered, grown := w.grown,
       gfs := w.gfs.map (fun g => (at_ g.1, g.2)), shell := none, requests := w.requests.map at_,
       stages := w.stages.map (fun x => { x with at_ := at_ x.at_ }) }, g.2)

/-- A demand starts, or is parked behind a suspended one (R238, R261). -/
def State.startDemand (s : State) (k : Nat) (d : Demand) (rest : List Demand) : State :=
  let r := s.core k
  match parksBehind r.nodes r.suspended d with
  | some o => s.onCore k (fun x => { x with demands := x.demands.map (fun e =>
      if e.ctx = d.ctx ∧ e.tm = d.tm then { e with parkedBehind := some o.tm } else e) })
  | none =>
    let g := s.runOf k d
    (g.2.offerWrites k g.1.writes).onCore k (fun x => { x with demands := rest, running := some g.1 })

/-- The cycle from which a core's next demand may start (R238). -/
def Core.demandAt (r : Core) : Option Nat :=
  match r.running, nextDemand r.demands with
  | none, some (d, _) => some (max d.accepted r.freeAt)
  | _, _ => none

def execDemandStart (core : Nat) (s : State) : Host.Outcome State Fault Refusal :=
  match (s.core core).demandAt, nextDemand (s.core core).demands with
  | some t, some (d, rest) => if t ≤ s.cyc (s.partOf core) then .next (s.startDemand core d rest) else notDue
  | _, _ => notDue

/-! ## DEMAND_COMPLETE and DEMAND_SUSPEND (R236, R240, R242, R245, R247, R256, R260) -/

/-- The first virtual address of writes that another cluster's bank refuses (R177). -/
def State.refusedWrite (s : State) (k : Nat) (ws : List (Nat × List (Byte × Byte))) : Option Nat :=
  (ws.find? (fun w => (s.physWrite (s.partOf k) w.1 w.2).any (fun b => s.storeRefused k b.pa))).map (·.1)

/-- A demand's writes perform at their homes (R240, R274). -/
def State.performGrove (s : State) (k : Nat) (d : Demand) (ws : List (Nat × List (Byte × Byte))) : State :=
  let bs := (ws.flatMap (fun w => s.physWrite (s.partOf k) w.1 w.2)).filter (fun b => !s.storeRefused k b.pa && s.bankTakes b.pa)
  let s1 := s.writeHomes bs
  match s.refusedWrite k ws with
  | some a => s1.raise k d.ctx 0x82 (BitVec.ofNat 64 a) slotM d.handler
  | none => s1

/-- Blocks become remembered, and growth reported (R236, R256). -/
def markNodes (c : Nat) (rem : List (Nat × Blocks)) (grown : List Nat) (ns : List GNode) : List GNode :=
  ns.map (fun n =>
    if n.ctx = c then
      let more := (rem.filter (fun e => e.1 == n.id)).flatMap (·.2)
      { n with done := n.done ++ more.filter (fun b => !n.done.contains b), grown := n.grown || grown.contains n.id }
    else n)

/-- What a demand leaves behind when it ends, completed or suspended: the lines that it has read and that are in the cluster cache
are noted then (R173; log 14). -/
def State.settleRun (s : State) (k : Nat) (g : GRun) : State :=
  let d := g.demand
  let t := s.cyc (s.partOf k)
  let s1 := (s.hitLines k (s.demandLines k d (g.result.ran g.remembered))).performGrove k d g.writes
  let s2 := s1.onCore k (fun r => { r with
    nodes := markNodes d.ctx g.remembered g.grown r.nodes, running := none, freeAt := t, shell := g.shell.getD r.shell })
  match g.gfs.getLast? with
  | some v => s2.onCtx k d.ctx (fun x => { x with csr := { x.csr with gf := v.2 } })
  | none => s2

/-- A demand completes: its TM number, a NONFINITE it has to report, and the nodes that it was the last to need (R238,
R242, R247). -/
def State.completeDemand (s : State) (k : Nat) (g : GRun) : State :=
  let d := g.demand
  let s1 := ((s.settleRun k g).onCore k Core.freeNodes).complete k d.ctx ctrTM d.tm
  match d.nonfinite with
  | some n => s1.raiseNonFinite k d.ctx slotM 0 d.handler (some (BitVec.ofNat 64 d.tm, BitVec.ofNat 8 n))
  | none => s1

/-- A Grove trap: GRVSEQ, GRVNODE, and for a breakdown or an overflow BKC, BKV and BKN (R244, R260, R263). -/
def State.raiseGrove (s : State) (k : Nat) (d : Demand) (code tinfo node : Nat) (bk : Option (W64 × Option W32)) : State :=
  let cy := s.cyc (s.partOf k)
  let mark := fun (r : Csrs) => match bk with
    | some (c, v) => { r with bkc := c, bkv := v.getD r.bkv, bkn := BitVec.ofNat 8 node }
    | none => r
  (s.onCtx k d.ctx (fun x => { x with csr := mark x.csr })).pendTrap k d.ctx
    ⟨code, BitVec.ofNat 64 tinfo, cy, d.tm, d.handler, slotM, 0, some (BitVec.ofNat 64 d.tm, BitVec.ofNat 8 node), none⟩

/-- A demand is suspended with its record; the first takes the spill buffer. Every fault of R244 records K chunk 0, at which the
spec states no accumulators: the buffer holds free values, on which nothing depends (R245, R261; log 38). -/
def State.suspendDemand (s : State) (k : Nat) (g : GRun) (code tinfo node : Nat) (bk : Option (W64 × Option W32))
    (r : GRecord) : State :=
  let d := g.demand
  let s1 := s.settleRun k g
  let spills := code == 0x83 && (s1.core k).spill.isNone
  let n := if spills then s1.pick (s1.partOf k) else (0, s1)
  let s2 := n.2.onCore k (fun x => { x with
    suspended := x.suspended ++ [{ d with record := some r }]
    spill := if spills then some ⟨d.ctx, d.tm, (List.range 4096).map (Config.accumulator n.1)⟩ else x.spill })
  s2.raiseGrove k d code tinfo node bk

/-- The bank-mode fault of a node at its own start: its leaves' banks, then its destination's (R244). -/
def State.stageFault (s : State) (k : Nat) (d : Demand) (node : Nat) : Option LeafFault :=
  let ns := (s.core k).nodes
  match findNode ns d.ctx node with
  | none => none
  | some n =>
    let b := (amGet (needSets ns d) node).getD []
    firstLeafFault ((s.leavesFaults k ns node (nodeLeaves ns n b) ++ s.destFaults k n []).filter (fun f => f.1 == 4))

/-- The start of a node, at the present cycle, at which a run meets a fault. -/
def State.stageStop (s : State) (k : Nat) (g : GRun) : Option (GStage × LeafFault) :=
  g.stages.findSome? (fun x =>
    if x.at_ = s.cyc (s.partOf k) then (s.stageFault k g.demand x.node).map (fun f => (x, f)) else none)

/-- A node of a run that has yet to start reads or writes a bank (R244). -/
def State.stageMeets (s : State) (k : Nat) (g : GRun) (cl b : Nat) (x : GStage) : Bool :=
  let ns := (s.core k).nodes
  match findNode ns g.demand.ctx x.node with
  | none => false
  | some n =>
    let need := (amGet (needSets ns g.demand) x.node).getD []
    (s.physPieces (s.partOf k) ((nodeLeaves ns n need).flatMap (fun l => l.1.checked) ++ n.buffers)).any (fun q =>
      match homeOf q.2.1 with
      | .sram c i _ => c == cl && i == b
      | _ => false)

/-- The work of a run at the start of one of its nodes, as the machine stands now (R244). -/
def State.workAt (s : State) (k : Nat) (g : GRun) (x : GStage) (found : List PByte) : GWork :=
  let v := s.demandView k found
  let done := g.writes.take x.writes
  ⟨{ v with mem := memWrite v.mem (done.flatMap (fun w => s.physWrite (s.partOf k) w.1 w.2)) }, x.at_ - g.start, done,
    g.remembered.take x.remembered, x.nonfinite, g.gfs.take x.gfs, g.grown.take x.grown, [], [], none⟩

/-- What a run does from the start of one of its nodes on, taken again (R244). -/
def State.replanFrom (s : State) (k : Nat) (g : GRun) (x : GStage) : State :=
  let p := s.partOf k
  let d := g.demand
  let ns := (s.core k).nodes
  let o := s.engineOverlay k d.ctx d.accepted g.finish (openExtents ns d)
  let w0 := s.workAt k g x o.1
  let need := needSets ns d
  let w1 := (((d.path ns).dropWhile (fun i => i != x.node)).filterMap (findNode ns d.ctx)).foldl (fun w n => w.evalNode k ns need none n) w0
  let w := if d.opcode = opTSTORE then w1.evalStore k ns d else w1
  let cost := w.elapsed - w0.elapsed
  let f := if w.stop.isSome ∨ cost = 0 then (cost, o.2) else o.2.figure p cost
  let at_ := momentAt x.at_ w0.elapsed w.elapsed f.1
  f.2.onCore k (fun r => { r with running := some { g with
    demand := { d with nonfinite := w.nonfinite }, finish := x.at_ + f.1 + g.late, result := w.stop.getD .completes, writes := w.writes,
    remembered := w.remembered, grown := w.grown,
    gfs := g.gfs.take x.gfs ++ (w.gfs.drop x.gfs).map (fun e => (at_ e.1, e.2)),
    requests := g.requests.filter (fun t => decide (t < x.at_)) ++ w.requests.map at_,
    stages := g.stages.takeWhile (fun y => decide (y.at_ < x.at_)) ++ w.stages.map (fun y => { y with at_ := at_ y.at_ }) } })

/-- A bank has entered its new mode: a running demand whose later nodes meet it is evaluated from the first of them on with what the
bank now holds (R244). -/
def State.replan (s : State) (k cl b : Nat) : State :=
  match (s.core k).running with
  | none => s
  | some g =>
    match g.stages.find? (fun x => decide (s.cyc (s.partOf k) ≤ x.at_) && s.stageMeets k g cl b x) with
    | none => s
    | some x => s.replanFrom k g x

/-- A run cut at the start of a node, with a fault of its: what it had done by then (R244, R245). -/
def GRun.cut (g : GRun) (x : GStage) (f : LeafFault) : GRun :=
  { g with result := .faults 0x83 f.1 f.2 none (startRecord x.node), demand := { g.demand with nonfinite := x.nonfinite }, writes := g.writes.take x.writes,
           remembered := g.remembered.take x.remembered, gfs := g.gfs.take x.gfs, grown := g.grown.take x.grown }

def execDemandComplete (core : Nat) (s : State) : Host.Outcome State Fault Refusal :=
  match (s.core core).running with
  | none => notDue
  | some g =>
    match g.result with
    | .completes => if g.finish ≤ s.cyc (s.partOf core) then .next (s.completeDemand core g) else notDue
    | .faults .. => notDue

def execDemandSuspend (core : Nat) (s : State) : Host.Outcome State Fault Refusal :=
  match (s.core core).running with
  | none => notDue
  | some g =>
    match s.stageStop core g with
    | some (x, f) => .next (s.suspendDemand core (g.cut x f) 0x83 f.1 f.2 none (startRecord x.node))
    | none =>
      match g.result with
      | .completes => notDue
      | .faults code tinfo node bk r =>
        if g.finish ≤ s.cyc (s.partOf core) then .next (s.suspendDemand core g code tinfo node bk r) else notDue

/-! ## Re-entry at HRET (R246, R261) -/

/-- The demands that HRET re-enters: suspended ones of the context whose trap is no longer pending, each followed by those
parked behind it. -/
def Core.reenter (r : Core) (c h : Nat) (pending : List Nat) : Core :=
  let back := r.suspended.filter (fun d => d.ctx == c && !pending.contains d.tm)
  let queue := back.flatMap (fun d =>
    { d with accepted := h } :: (r.demands.filter (fun e => e.ctx == c && e.parkedBehind == some d.tm)).map
      (fun e => { e with parkedBehind := none, abandoned := e.abandoned || d.abandoned }))
  let isBack := fun (d : Demand) => back.any (fun e => e.ctx == d.ctx && e.tm == d.tm)
  let wasParked := fun (d : Demand) => d.ctx == c && back.any (fun e => d.parkedBehind == some e.tm)
  { r with
    demands := queue ++ r.demands.filter (fun d => !wasParked d)
    suspended := r.suspended.filter (fun d => !isBack d)
    spill := r.spill.filter (fun b => !(b.ctx == c && back.any (fun d => d.tm == b.tm))) }

/-- TM numbers of the Grove traps that a context still has pending. -/
def Ctx.pendingGrove (x : Ctx) : List Nat :=
  (x.traps.filter (fun t => t.code == 0x83 || t.code == 0x84 || t.code == 0x85)).map (fun t => t.order)

def State.resumeDemands (s : State) (k c : Nat) : State :=
  s.onCore k (fun r => r.reenter c (s.cyc (s.partOf k)) (s.ctx k c).pendingGrove)

/-! ## SOLVER_UNIT_REQUEST (R148, R389) -/

/-- A request of a solver node: it waits a cycle where a vector operation has taken the unit, and everything later of the
run with it. -/
def GRun.delay (g : GRun) (t : Nat) : GRun :=
  { g with finish := g.finish + 1, requests := g.requests.map (· + 1),
           stages := g.stages.map (fun x => if x.at_ ≤ t then x else { x with at_ := x.at_ + 1 }),
           gfs := g.gfs.map (fun e => if e.1 ≤ t then e else (e.1 + 1, e.2)) }

/-- The earliest request of a run, with the others. -/
def GRun.nextRequest (g : GRun) : Option Nat := minOf g.requests

def State.solverRequest (s : State) (k : Nat) (g : GRun) (t : Nat) : State :=
  let g' := if (s.core k).lastDivide = some t then g.delay t else { g with requests := g.requests.erase t }
  s.onCore k (fun r => { r with running := some g' })

def execSolverUnitRequest (core : Nat) (s : State) : Host.Outcome State Fault Refusal :=
  match (s.core core).running with
  | none => notDue
  | some g =>
    match g.nextRequest with
    | some t => if t ≤ s.cyc (s.partOf core) then .next (s.solverRequest core g t) else notDue
    | none => notDue

end Sys2Proof.Machine
end

