-- ==== Sys2Proof/Machine/Banks.lean ====
section
/-! DEFINITION. The banks of a BANKSET as they enter their modes one after another, with the Grove demands that meet them (R176,
R177, R218, R244). -/

namespace Sys2Proof.Machine

/-- The demands that run on the cores of a partition meet a bank that has entered its new mode (R244). -/
def State.replanAll (s : State) (p cl b : Nat) : State :=
  ((s.cores.map (·.1)).filter (fun k => s.partOf k == p)).foldl (fun s k => s.replan k cl b) s

/-- The next bank of a run enters its new mode; the bank after it has its cycle. -/
def State.stepRun (s : State) (p cl : Nat) (r : BankRun) : State :=
  let b := r.first + r.next
  let s1 := (s.enterMode cl r b).replanAll p cl b
  let f := s1.within p (bankCost ((s1.cluster cl).modes.getD (b + 1) .cache).code)
  f.2.onCluster cl (fun x => { x with
    runs := x.runs.map (fun q => if q.op = r.op then { r with next := r.next + 1, nextAt := s.cyc p + f.1 } else q) })

def execBankNewModeEntered (p id : Nat) (s : State) : Host.Outcome State Fault Refusal :=
  match s.findRun p id with
  | none => notDue
  | some (cl, r) => if r.started ∧ r.next < r.count ∧ r.nextAt ≤ s.cyc p then .next (s.stepRun p cl r) else notDue

/-- The last bank has entered its mode: the TC number completes and the next overlapping run begins. -/
def State.endRunOfBanks (s : State) (p cl : Nat) (r : BankRun) : State :=
  let done := ((s.core r.core).copies.find? (fun c => c.id == r.op))
  let s0 := s.onCore r.core (fun x => { x with copies := x.copies.filter (fun c => c.id != r.op) })
  let s1 := match done with
    | some c => s0.freeBehind r.core c
    | none => s0
  let s2 := (s1.complete r.core r.ctx ctrTC r.tc).onCluster cl (fun x => { x with runs := x.runs.filter (fun q => q.op != r.op) })
  s2.activateRuns p cl

def execBanksetComplete (p id : Nat) (s : State) : Host.Outcome State Fault Refusal :=
  match s.findRun p id with
  | none => notDue
  | some (cl, r) => if r.started ∧ r.next = r.count then .next (s.endRunOfBanks p cl r) else notDue

end Sys2Proof.Machine
end

