-- ==== Sys2Proof/Machine/Sync.lean ====
section
/-! DEFINITION. The Y slot: counters and wait registers, fences, drains and flushes, groups, signals, submissions, arms of
contexts and of update units (R61 to R65, R184, R188, R268 to R272, R280, R281, R311, R337). -/

namespace Sys2Proof.Machine

/-! ## Counters (R268) -/

/-- WADD: target and counter id land at t + 1 (R268). -/
def waddSem (tt : TT) (wi ctr : BitVec 3) (bs : BitVec 2) (yk : BitVec 6) (s : State) : OpSem :=
  let xa := s.me.xr yk
  .guarded s tt (.pure (fun r =>
    let c := r.me.counter ctr.toNat
    let target : W64 :=
      match bs.toNat with
      | 0 => BitVec.ofNat 64 (c.value + yk.toNat)
      | 1 => BitVec.ofNat 64 (c.taken + yk.toNat)
      | _ => xa
    (r.push64 1 (.wt wi.toNat) target).push64 1 (.wc wi.toNat) (ctr.zeroExtend 64)))

def execWadd (tt : TT) (wi ctr : BitVec 3) (bs : BitVec 2) (yk : BitVec 6) (s : State) : Host.Outcome State Fault Refusal :=
  (waddSem tt wi ctr bs yk s).run slotY [] s

/-- TLINC: TS rises by k at t + 2 (R268). -/
def tlincSem (tt : TT) (yk : BitVec 6) (s : State) : OpSem :=
  .guarded s tt (.pure (fun r => r.addOp r.myPart (some (r.t + 2)) r.cur.1 r.cur.2 r.t (.tsInc r.cur.2 yk.toNat false)))

def execTlinc (tt : TT) (yk : BitVec 6) (s : State) : Host.Outcome State Fault Refusal := (tlincSem tt yk s).run slotY [] s

/-- TLINC.c: after a release at core scope, TS of another context of the core rises (R268). -/
def tlincCSem (tt : TT) (xa : XReg) (yk : BitVec 6) (s : State) : OpSem :=
  let c := (s.me.xr xa).toNat % 8
  .guarded s tt (.pure (fun r =>
    let f := r.releaseAt r.cur.1 r.cur.2 1
    f.2.addOp r.myPart (some (max (r.t + 2) f.1.1)) r.cur.1 r.cur.2 r.t (.tsInc c yk.toNat true)))

def execTlincC (tt : TT) (xa : XReg) (yk : BitVec 6) (s : State) : Host.Outcome State Fault Refusal :=
  (tlincCSem tt xa yk s).run slotY [] s

/-! ## Fences, drains, flushes (R270 to R272) -/

/-- The context's next bundle is held from now on. -/
def State.holdNext (s : State) (kind : SyncKind) (till needs : Nat) (tail : Nat := 0) : State :=
  s.onMe (fun x => { x with hold := some ⟨kind, till, needs, tail⟩ })

/-- FENCE.REL (R271). -/
def fenceRelSem (tt : TT) (scope : BitVec 3) (s : State) : OpSem :=
  .guarded s tt (.pure (fun r =>
    let f := r.releaseAt r.cur.1 r.cur.2 scope.toNat
    f.2.holdNext (if scope.toNat ≤ 2 then .fence else .flushAll) f.1.1 (if scope = 0 then 0 else 1) f.1.2))

def execFenceRel (tt : TT) (scope : BitVec 3) (s : State) : Host.Outcome State Fault Refusal :=
  (fenceRelSem tt scope s).run slotY [] s

/-- The completion cycle of a FENCE.ACQ of a scope when every value lands at its time, and the cycles of it that follow the last of
them (R271). -/
def State.acquireAt (s : State) (k c scope : Nat) : (Nat × Nat) × State :=
  let t := s.cyc (s.partOf k)
  let d := max (t + 1) (s.ld k c)
  match scope with
  | 0 => ((t + 1, 0), s)
  | 1 | 2 => ((d, 0), s)
  | _ =>
    let f := s.figure (s.partOf k) (s.flushCost k)
    ((d + f.1, f.1), f.2)

/-- FENCE.ACQ (R271). -/
def fenceAcqSem (tt : TT) (scope : BitVec 3) (s : State) : OpSem :=
  .guarded s tt (.pure (fun r =>
    let f := r.acquireAt r.cur.1 r.cur.2 scope.toNat
    f.2.holdNext (if scope.toNat ≤ 2 then .fence else .invalAll) f.1.1 (if scope = 0 then 0 else 2) f.1.2))

def execFenceAcq (tt : TT) (scope : BitVec 3) (s : State) : Host.Outcome State Fault Refusal :=
  (fenceAcqSem tt scope s).run slotY [] s

/-- DRAIN (R271). -/
def drainSem (tt : TT) (s : State) : OpSem :=
  .guarded s tt (.pure (fun r => r.holdNext .drain (max (r.t + 1) (r.wd r.cur.1 r.cur.2 false)) 1))

def execDrain (tt : TT) (s : State) : Host.Outcome State Fault Refusal := (drainSem tt s).run slotY [] s

/-- The lines that meet n bytes from an address on (R271). -/
def linesOf (a n : Nat) : Nat := if n = 0 then 0 else (a % 64 + n + 63) / 64

/-- FLUSH and INVAL of a range (R270, R271). -/
def flushRange (s : State) (tt : TT) (xa xb : XReg) (kind : Nat → Nat → SyncKind) : OpSem :=
  let a := (s.me.xr xa).toNat
  let n := (s.me.xr xb).toNat
  .guarded s tt
    { faults := if n < 2 ^ 32 then [] else [⟨0x05, slotY, 0, 0⟩]
      holds := 0
      effect := fun r =>
        let f := r.figure r.myPart (16 + 4 * linesOf a n + figGddr (r.mult r.myPart))
        f.2.holdNext (kind a n) (r.t + f.1) 0 }

def flushSem (tt : TT) (xa xb : XReg) (s : State) : OpSem := flushRange s tt xa xb .flushRange

def execFlush (tt : TT) (xa xb : XReg) (s : State) : Host.Outcome State Fault Refusal := (flushSem tt xa xb s).run slotY [] s

def invalSem (tt : TT) (xa xb : XReg) (s : State) : OpSem := flushRange s tt xa xb .invalRange

def execInval (tt : TT) (xa xb : XReg) (s : State) : Host.Outcome State Fault Refusal := (invalSem tt xa xb s).run slotY [] s

/-- FLUSH.all and INVAL.all (R271). -/
def flushWhole (s : State) (tt : TT) (kind : SyncKind) : OpSem :=
  .guarded s tt (.pure (fun r =>
    let f := r.figure r.myPart (r.flushCost r.cur.1)
    f.2.holdNext kind (r.t + f.1) 0))

def flushAllSem (tt : TT) (s : State) : OpSem := flushWhole s tt .flushAll

def execFlushAll (tt : TT) (s : State) : Host.Outcome State Fault Refusal := (flushAllSem tt s).run slotY [] s

def invalAllSem (tt : TT) (s : State) : OpSem := flushWhole s tt .invalAll

def execInvalAll (tt : TT) (s : State) : Host.Outcome State Fault Refusal := (invalAllSem tt s).run slotY [] s

/-! ## Groups (R61 to R65) -/

/-- A group object; one that has never been used is free at generation 0. -/
def Partition.group (p : Partition) (i : Nat) : GroupObj := (amGet p.groups i).getD ⟨false, 0, [], 0, [], 0⟩

def State.onGroup (s : State) (p i : Nat) (f : GroupObj → GroupObj) : State :=
  s.onPart p (fun x => { x with groups := amSet x.groups i (f (x.group i)) })

/-- The index of a live group that an id names (R62). -/
def Partition.named (p : Partition) (id : W64) : Option Nat :=
  let i := id.toNat % 4096
  let g := p.group i
  if g.live ∧ id.toNat / 2 ^ 32 = 0 ∧ bitsOf id.toNat 12 20 = g.gen.toNat then some i else none

/-- The id of a group object. -/
def GroupObj.idOf (g : GroupObj) (i : Nat) : W64 := BitVec.ofNat 64 (i + 4096 * g.gen.toNat)

def GroupObj.has (g : GroupObj) (k c : Nat) : Bool := g.members.any (fun m => m.1 == k && m.2.1 == c)

/-- GROUP_FAULT: the id and the operation (R62, R286). -/
def State.groupFault (s : State) (id : W64) (opcode : Nat) : State :=
  s.raise s.cur.1 s.cur.2 0x87 (BitVec.ofNat 64 (id.toNat % 2 ^ 32 + opcode * 2 ^ 32)) slotY (s.me.st == .handler)

/-- An operation on the group that X[xg] names; GROUP_FAULT where it names none (R62, R63). -/
def State.withGroup (s : State) (id : W64) (opcode : Nat) (f : State → Nat → GroupObj → State) : State :=
  match s.myP.named id with
  | none => s.groupFault id opcode
  | some i => f s i (s.myP.group i)

/-- JOIN (R61, R63). -/
def joinSem (tt : TT) (xg : XReg) (s : State) : OpSem :=
  let id := s.me.xr xg
  .guarded s tt (.pure (fun r => r.withGroup id 0x08 (fun r i g =>
    if g.has r.cur.1 r.cur.2 then r
    else if 8 ≤ r.me.groups.length then r.groupFault id 0x08
    else (r.onGroup r.myPart i (fun g => { g with members := g.members ++ [(r.cur.1, r.cur.2, false)] })).onMe
      (fun x => { x with groups := x.groups ++ [i] }))))

def execJoin (tt : TT) (xg : XReg) (s : State) : Host.Outcome State Fault Refusal := (joinSem tt xg s).run slotY [] s

/-- The arrival or LEAVE that counts when its release has completed (R65). -/
def State.release (s : State) (i : Nat) (leave : Bool) (scope phase : Nat) : State :=
  let f := s.releaseAt s.cur.1 s.cur.2 scope
  f.2.addOp s.myPart (some f.1.1) s.cur.1 s.cur.2 s.t (.arrival i leave scope phase f.1.2)

/-- LEAVE (R63). -/
def leaveSem (tt : TT) (xg : XReg) (scope : BitVec 3) (s : State) : OpSem :=
  let id := s.me.xr xg
  .guarded s tt (.pure (fun r => r.withGroup id 0x09 (fun r i g =>
    if g.has r.cur.1 r.cur.2 then r.release i true scope.toNat g.phase else r)))

def execLeave (tt : TT) (xg : XReg) (scope : BitVec 3) (s : State) : Host.Outcome State Fault Refusal :=
  (leaveSem tt xg scope s).run slotY [] s

/-- The free group objects of a partition. -/
def Partition.freeGroups (p : Partition) : List Nat := (List.range 4096).filter (fun i => !(p.group i).live)

/-- GNEW: a free object of no stated choice, its id at t + 8 (R61, R63; log 10). -/
def gnewSem (tt : TT) (xg : XReg) (s : State) : OpSem :=
  .guarded s tt (.pure (fun r =>
    match r.myP.freeGroups with
    | [] => r.pushX 8 xg (BitVec.allOnes 64)
    | i :: is =>
      let n := r.pick r.myPart
      let j := (i :: is).getD (Config.groupPick n.1 % (is.length + 1)) i
      let id := (r.myP.group j).idOf j
      (n.2.onGroup r.myPart j (fun g => ⟨true, g.gen, [], 0, [], 0⟩)).pushX 8 xg id))

def execGnew (tt : TT) (xg : XReg) (s : State) : Host.Outcome State Fault Refusal := (gnewSem tt xg s).run slotY [] s

/-- GFREE (R63). -/
def gfreeSem (tt : TT) (xg : XReg) (s : State) : OpSem :=
  let id := s.me.xr xg
  .guarded s tt (.pure (fun r => r.withGroup id 0x0B (fun r i g =>
    if g.members.isEmpty then r.onGroup r.myPart i (fun g => ⟨false, g.gen + 1, [], 0, [], 0⟩) else r.groupFault id 0x0B)))

def execGfree (tt : TT) (xg : XReg) (s : State) : Host.Outcome State Fault Refusal := (gfreeSem tt xg s).run slotY [] s

/-- Whether a member has arrived in the open phase: its arrival has counted, or is on its way (R64). -/
def State.hasArrived (s : State) (k c i : Nat) : Bool :=
  let p := s.part (s.partOf k)
  let g := p.group i
  g.members.any (fun m => m.1 == k && m.2.1 == c && m.2.2)
    || p.ops.any (fun o => o.core == k && o.ctx == c && (match o.kind with
      | .arrival j leave _ phase _ => j == i && !leave && phase == g.phase
      | _ => false))

/-- A BAR or ARRIVE is not accepted from a member that has arrived in the open phase (R64). -/
def State.arriveHolds (s : State) (id : W64) : Nat :=
  match s.myP.named id with
  | none => 0
  | some i => if (s.myP.group i).has s.cur.1 s.cur.2 && s.hasArrived s.cur.1 s.cur.2 i then ovSync else 0

/-- BAR: an arrival, and a TG number that waits for the phase; every BAR takes a number, also one that raises GROUP_FAULT, whose
number no phase completes (R63 to R65). -/
def barSem (tt : TT) (xg : XReg) (scope : BitVec 3) (s : State) : OpSem :=
  let id := s.me.xr xg
  .guarded s tt
    { faults := []
      holds := s.arriveHolds id
      effect := fun r =>
        let n := r.takeNumber ctrTG
        n.2.withGroup id 0x0C (fun r i g =>
          if g.has r.cur.1 r.cur.2 then
            (r.onGroup r.myPart i (fun g => { g with waiters := g.waiters ++ [(r.cur.1, r.cur.2, n.1)] })).release i false
              scope.toNat g.phase
          else r.groupFault id 0x0C) }

def execBar (tt : TT) (xg : XReg) (scope : BitVec 3) (s : State) : Host.Outcome State Fault Refusal :=
  (barSem tt xg scope s).run slotY [] s

/-- ARRIVE: an arrival alone (R63 to R65). -/
def arriveSem (tt : TT) (xg : XReg) (scope : BitVec 3) (s : State) : OpSem :=
  let id := s.me.xr xg
  .guarded s tt
    { faults := []
      holds := s.arriveHolds id
      effect := fun r => r.withGroup id 0x0D (fun r i g =>
        if g.has r.cur.1 r.cur.2 then r.release i false scope.toNat g.phase else r.groupFault id 0x0D) }

def execArrive (tt : TT) (xg : XReg) (scope : BitVec 3) (s : State) : Host.Outcome State Fault Refusal :=
  (arriveSem tt xg scope s).run slotY [] s

/-! ## SIGNAL, SUBMIT (R280, R281, R311) -/

/-- SIGNAL: the task's signal counts after its drain part (R280). -/
def signalSem (tt : TT) (s : State) : OpSem := .guarded s tt (.pure (fun r => r.signalTask r.cur.1 r.cur.2))

def execSignal (tt : TT) (s : State) : Host.Outcome State Fault Refusal := (signalSem tt s).run slotY [] s

/-- A queue that a SUBMIT of a partition may name: enabled, of the partition, fed by SUBMIT (R281, R308, R311). -/
def Queue.takesSubmit (q : Queue) (p : Nat) : Bool := q.en && q.src && q.part.toNat == p

/-- The packets on their way to a queue (R281). -/
def State.submitsTo (s : State) (p q : Nat) : Nat :=
  ((s.part p).ops.filter (fun o => match o.kind with
    | .submit n .. => n == q
    | _ => false)).length

/-- A ring without a free slot, those counted that packets on their way will take (R281, R308). -/
def State.ringFull (s : State) (p q : Nat) : Bool :=
  let r := s.queue q
  decide (2 ^ r.n.toNat ≤ (r.tail - r.head).toNat + s.submitsTo p q)

/-- The issue faults of a SUBMIT (R281, R311). -/
def State.submitFaults (s : State) (a q : W64) : List IssueFault :=
  (if q.toNat < 32768 ∧ (s.queue q.toNat).takesSubmit s.myPart then [] else [⟨0x05, slotY, 0, 0⟩])
    ++ (if a.toNat % 64 = 0 then [] else [⟨0x06, slotY, 0, a⟩])
    ++ (match translate s.ranges .lr a.toNat with
      | .fault code => [⟨code, slotY, 0, a⟩]
      | .ok .. => [])

/-- SUBMIT: a TQ number, a release at package scope, and the packet 160 cycles later (R281). -/
def submitSem (tt : TT) (xa xb : XReg) (s : State) : OpSem :=
  let a := s.me.xr xa
  let q := s.me.xr xb
  .guarded s tt
    { faults := s.submitFaults a q
      holds := if (s.queue q.toNat).takesSubmit s.myPart && s.ringFull s.myPart q.toNat then ovSync else 0
      effect := fun r =>
        let n := r.takeNumber ctrTQ
        let f := n.2.releaseAt r.cur.1 r.cur.2 3
        f.2.addOp r.myPart (some f.1.1) r.cur.1 r.cur.2 r.t (.submit q.toNat a n.1 false f.1.2) }

def execSubmit (tt : TT) (xa xb : XReg) (s : State) : Host.Outcome State Fault Refusal :=
  (submitSem tt xa xb s).run slotY [] s

/-! ## ARMCTX (R143, R144, R188, R190) -/

/-- The lowest base, a multiple of 8, at which a window of n registers fits beside others (R144). -/
def fitWindow (used : List (Nat × Nat)) (total n : Nat) : Option Nat :=
  let free := fun (b : Nat) => decide (b + n ≤ total) && used.all (fun u => decide (b + n ≤ u.1 ∨ u.1 + u.2 ≤ b))
  if n = 0 then some 0 else ((List.range (total / 8)).map (fun i => 8 * i)).find? free

/-- The windows of a file that the contexts of a core hold. -/
def Core.windows (r : Core) (f : Regs → Window) : List (Nat × Nat) :=
  r.ctxs.map (fun e => ((f e.2.regs).base, (f e.2.regs).size))

/-- The bases of windows of the given sizes on a core, when they fit (R143, R144, R190). -/
def Core.fit (r : Core) (w : WinSizes) : Option WinSizes :=
  match fitWindow (r.windows (·.va)) 640 w.va, fitWindow (r.windows (·.vb)) 640 w.vb,
    fitWindow (r.windows (·.lv)) 128 w.lv, fitWindow (r.windows (·.qv)) 64 w.qv with
  | some a, some b, some l, some q => some ⟨a, b, l, q⟩
  | _, _, _, _ => none

/-- The FREE contexts of a core (R50). -/
def Core.freeCtxs (r : Core) : List Nat := (List.range 8).filter (fun c => (amGet r.ctxs c).isNone)

/-- A context becomes ARMED for a task, under a number of its own (R188). -/
def State.armCtx (s : State) (k c : Nat) (t : Task) (bases : WinSizes) : State :=
  let x := Ctx.fresh { t with uid := s.nextId, arrival := true, signalled := false } 0 bases 0
  { s.onCore k (fun r => { r with
    ctxs := amSet r.ctxs c { x with st := .armed, owner := some t.uid }
    armedAt := amSet r.armedAt c (s.cyc (s.partOf k)) }) with nextId := s.nextId + 1 }

/-- ARMCTX (R188). -/
def armctxSem (tt : TT) (xd : XReg) (s : State) : OpSem :=
  .guarded s tt (.pure (fun r =>
    let t := r.me.task
    match r.myCore.freeCtxs, r.myCore.fit t.win with
    | c :: _, some bases => (r.armCtx r.cur.1 c t bases).pushX 8 xd (BitVec.ofNat 64 c)
    | _, _ => r.pushX 8 xd (BitVec.allOnes 64)))

def execArmctx (tt : TT) (xd : XReg) (s : State) : Host.Outcome State Fault Refusal := (armctxSem tt xd s).run slotY [] s

/-! ## UARM (R183, R184, R337) -/

/-- A word of a rule set (R183). -/
def Partition.rule (p : Partition) (rs i : Nat) : W32 := (p.rules.getD rs []).getD i 0

/-- STRIDE of a rule set (R183). -/
def Partition.stride (p : Partition) (rs : Nat) : W64 := ((p.rule rs 10) ++ (p.rule rs 9) : BitVec 64)

/-- The lines of an arm: W, M and for KIND 1 V (R184). -/
def Partition.armLines (p : Partition) (rs : Nat) (a : W64) : List W64 :=
  [a, a + p.stride rs] ++ (if p.rule rs 0 = 1 then [a + 2 * p.stride rs] else [])

/-- The issue faults of a UARM (R184). -/
def State.uarmFaults (s : State) (a v : W64) : List IssueFault :=
  let n := v.toNat
  let rs := bitsOf n 16 4
  let c := bitsOf n 0 16
  let line := fun (l : W64) => match translate s.ranges .uu l.toNat with
    | .fault code => [(⟨code, slotY, 0, l⟩ : IssueFault)]
    | .ok pa _ => if homeOf pa = .gddr then [] else [⟨0x08, slotY, 0, l⟩]
  (if a.toNat % 64 = 0 then [] else [⟨0x06, slotY, 0, a⟩])
    ++ (if c = 0 ∨ 1024 < c ∨ bitsOf n 20 12 ≠ 0 ∨ bitsOf n 48 16 ≠ 0 ∨ 1 < (s.myP.rule rs 0).toNat then [⟨0x05, slotY, 0, 0⟩] else [])
    ++ (s.myP.armLines rs a).flatMap line

/-- The cycle at which an arm reaches its unit: in DET its figure; in THR within it, after the context's earlier arms and
contributions to the unit and no later than a contribution of its own bundle (R337). -/
def State.armDue (s : State) (w : Nat) : Nat × State :=
  let f := s.within s.myPart (l2Figure (clusterOf s.cur.1) w)
  let own := s.myP.ops.filter (fun o => o.core == s.cur.1 && o.ctx == s.cur.2 && o.issued == s.t && o.toUnit (sliceOf w))
  let due := max (s.t + f.1) (s.unitOrder w (s.t - 1) + 1)
  match minOf (own.map (fun o => o.due.getD 0)) with
  | some m => (min due m, f.2)
  | none => (due, f.2)

/-- UARM (R184). -/
def uarmSem (tt : TT) (xa xb : XReg) (s : State) : OpSem :=
  let a := s.me.xr xa
  let v := s.me.xr xb
  .guarded s tt
    { faults := s.uarmFaults a v
      holds := 0
      effect := fun r =>
        match translate r.ranges .uu a.toNat with
        | .fault _ => r
        | .ok pa _ =>
          let n := r.takeNumber ctrTA
          let f := n.2.armDue pa
          f.2.addOp r.myPart (some f.1) r.cur.1 r.cur.2 r.t
            (.arm pa a (bitsOf v.toNat 0 16) (bitsOf v.toNat 16 4) (bitsOf v.toNat 32 16) n.1) }

def execUarm (tt : TT) (xa xb : XReg) (s : State) : Host.Outcome State Fault Refusal := (uarmSem tt xa xb s).run slotY [] s

end Sys2Proof.Machine
end

