-- ==== Sys2Proof/Machine/SyncEvents.lean ====
section
/-! DEFINITION. What Y-slot operations bring about later: increments of TS, the end of a hold, arrivals that count, TG, task
signals, packets that reach their queue (R63 to R65, R268, R271, R272, R280, R281, R311). -/

namespace Sys2Proof.Machine

/-! ## Releases that have completed (R271, R272) -/

/-- A write that the context issued by cycle t is held at a bank or at its update unit; those of handler bundles count where
handler says so. -/
def State.heldWrites (s : State) (p k c t : Nat) (handler : Bool := true) : Bool :=
  let q := s.part p
  (q.ops ++ q.contribs).any (fun o =>
    o.core == k && o.ctx == c && o.isWrite && o.due.isNone && decide (o.issued ≤ t) && (handler || !o.handler))

/-- An operation whose cycle has come and whose release, when it has one, is not held up. -/
def State.releasedOp (s : State) (p id : Nat) (waits : Op → Bool) : Option Op :=
  match s.dueOp p id with
  | none => none
  | some o => if waits o && s.heldWrites p o.core o.ctx o.issued then none else some o

/-! ## TS_INCREMENT (R268) -/

/-- TS rises by k; a TLINC.c to a context that is FREE, ARMED or CLOSING is discarded and counted. -/
def State.incrementTs (s : State) (p : Nat) (o : Op) (c k : Nat) (carried : Bool) : State :=
  let s := s.dropOp p o.id
  match s.ctx? o.core c with
  | some x =>
    if carried && (x.st == .armed || x.st == .closing) then s.onPart p (fun q => { q with counts := { q.counts with tlincDiscards := satInc q.counts.tlincDiscards } })
    else s.onCtx o.core c (fun x => x.onCounter ctrTS (fun r => { r with value := r.value + k }))
  | none => if carried then s.onPart p (fun q => { q with counts := { q.counts with tlincDiscards := satInc q.counts.tlincDiscards } }) else s

def Op.carriesTs (o : Op) : Bool :=
  match o.kind with
  | .tsInc _ _ carried => carried
  | _ => false

def execTsIncrement (p id : Nat) (s : State) : Host.Outcome State Fault Refusal :=
  match s.releasedOp p id Op.carriesTs with
  | none => notDue
  | some o =>
    match o.kind with
    | .tsInc c k carried => .next (s.incrementTs p o c k carried)
    | _ => notDue

/-! ## SYNC_COMPLETE (R84, R270 to R272) -/

/-- A value of the context's loads or atomics is held at a bank or at its home (R271). -/
def Ctx.heldLoads (x : Ctx) (handler : Bool) : Bool :=
  x.pend.any (fun w => w.src != .core && w.arrive.isNone && (handler || !w.handler))

/-- A hold that ends now; ofTask where it is that of the task while its handler runs. -/
def State.syncReady (s : State) (k c : Nat) (h : SyncHold) (ofTask : Bool) : Bool :=
  let p := s.partOf k
  decide (h.till ≤ s.cyc p)
    && !(h.needs == 1 && s.heldWrites p k c (s.cyc p) !ofTask)
    && !(h.needs == 2 && (s.ctx k c).heldLoads !ofTask)

/-- A line at a virtual address meets n bytes from an address on, modulo 2^64 (R270). -/
def lineMeets (v lo n : Nat) : Bool :=
  let m := 2 ^ 64
  decide ((v + m - lo % m) % m < n ∨ (n ≠ 0 ∧ (lo + m - v % m) % m < 64))

/-- A cached line that some virtual address of a range names (R270). -/
def namedLine (t : List RangeEntry) (lo n : Nat) (l : Line) : Bool :=
  t.any (fun e => decide (e.pbase.toNat ≤ l.addr ∧ l.addr < e.pbase.toNat + e.len.toNat)
    && lineMeets (e.vbase.toNat + (l.addr - e.pbase.toNat)) lo n)

/-- What a hold does to the cluster's cache at its end. R271 gives the cycle at which a FLUSH, an INVAL or a FENCE completes and not when
within its run each line is written back or dropped: the model does it for all of them then (DESIGN CHOICE, log 63). -/
def State.endHold (s : State) (k : Nat) (h : SyncHold) : State :=
  let c := clusterOf k
  let t := (s.part (s.partOf k)).ranges
  match h.kind with
  | .flushAll => s.flushCluster c (fun _ => true) false
  | .invalAll => s.flushCluster c (fun _ => true) true
  | .flushRange lo n => s.flushCluster c (namedLine t lo n) false
  | .invalRange lo n => s.flushCluster c (namedLine t lo n) true
  | .drain => s
  | .fence => s
  | .snapst => s
  | .snapld => s

/-- The hold of a context that has come to its end: its own, or in a handler that of the task (R285). -/
def State.endingHold (s : State) (k c : Nat) : Option (SyncHold × Bool) :=
  match s.ctx? k c with
  | none => none
  | some x =>
    match x.hold, x.taskHold with
    | some h, some g => if s.syncReady k c h false then some (h, false) else if s.syncReady k c g true then some (g, true) else none
    | some h, none => if s.syncReady k c h false then some (h, false) else none
    | none, some g => if s.syncReady k c g true then some (g, true) else none
    | none, none => none

def execSyncComplete (core ctx : Nat) (s : State) : Host.Outcome State Fault Refusal :=
  match s.endingHold core ctx with
  | none => notDue
  | some (h, ofTask) =>
    let s1 := (s.endHold core h).onCtx core ctx (fun x => if ofTask then { x with taskHold := none } else { x with hold := none })
    .next (if h.needs = 0 then s1 else s1.onPart (s1.partOf core) (fun q => q.drained core ctx))

/-! ## ARRIVAL_COUNTS and TG_ADVANCE (R63 to R65) -/

/-- A phase whose current members have all arrived completes: TG of each waiting BAR advances GBL cycles later, at most in
THR, with the widest scope that an arrival or LEAVE of the phase named (R64, R65). -/
def State.settlePhase (s : State) (p i : Nat) : State :=
  let g := (s.part p).group i
  if g.members.all (fun m => m.2.2) then
    let s1 := s.onGroup p i (fun g =>
      { g with phase := g.phase + 1, members := g.members.map (fun m => (m.1, m.2.1, false)), waiters := [], scope := 0 })
    g.waiters.foldl (fun s w =>
      let f := s.within p Config.gbl
      f.2.addOp p (some (s.cyc p + f.1)) w.1 w.2.1 (s.cyc p) (.tg w.2.2 g.scope)) s1
  else s

/-- An arrival counts, or a LEAVE takes its context out of the group (R63, R64). -/
def State.countArrival (s : State) (p : Nat) (o : Op) (i : Nat) (leave : Bool) (scope phase : Nat) : State :=
  let s := s.dropOp p o.id
  let s := if 3 ≤ scope then s.flushCluster (clusterOf o.core) (fun _ => true) false else s
  let g := (s.part p).group i
  let mine := fun (m : Nat × Nat × Bool) => m.1 == o.core && m.2.1 == o.ctx
  if leave then
    if g.has o.core o.ctx then
      ((s.onGroup p i (fun g => { g with members := g.members.filter (fun m => !mine m), scope := max g.scope scope })).onCtx o.core o.ctx
        (fun x => { x with groups := x.groups.filter (· != i) })).settlePhase p i
    else s
  else if g.live ∧ g.phase = phase ∧ g.has o.core o.ctx then
    (s.onGroup p i (fun g => { g with members := g.members.map (fun m => if mine m then (m.1, m.2.1, true) else m), scope := max g.scope scope })).settlePhase p i
  else s

def Op.arrivesReleased (o : Op) : Bool :=
  match o.kind with
  | .arrival _ _ scope _ _ => decide (1 ≤ scope)
  | _ => false

def execArrivalCounts (p id : Nat) (s : State) : Host.Outcome State Fault Refusal :=
  match s.releasedOp p id Op.arrivesReleased with
  | none => notDue
  | some o =>
    match o.kind with
    | .arrival i leave scope phase _ => .next (s.countArrival p o i leave scope phase)
    | _ => notDue

/-- TG_ADVANCE: a number of TG completes; one with a package release among its arrivals is still to be acquired (R65). -/
def execTgAdvance (p id : Nat) (s : State) : Host.Outcome State Fault Refusal :=
  match s.dueOp p id with
  | none => notDue
  | some o =>
    match o.kind with
    | .tg n scope => .next (((s.dropOp p id).complete o.core o.ctx ctrTG n).onCtx o.core o.ctx
      (fun x => if 3 ≤ scope then { x with tgPackage := x.tgPackage ++ [n] } else x))
    | _ => notDue

/-! ## TASK_SIGNALLED (R280, R317) -/

def execTaskSignalled (p id : Nat) (s : State) : Host.Outcome State Fault Refusal :=
  match s.releasedOp p id (fun _ => true) with
  | none => notDue
  | some o =>
    match o.kind with
    | .signal launch _ => .next (((s.dropOp p id).onLaunch p launch (fun l => { l with signalled := l.signalled + 1 })).settleLaunches p)
    | _ => notDue

/-! ## SUBMIT_DELIVERY (R281, R310, R311) -/

/-- A duration in ns, in global time units: of a DET partition whole cycles of its clock, rounded up (R7). -/
def State.nsUnits (s : State) (p ns : Nat) : Nat :=
  if s.isDet p then ceilDiv (ns * s.mult p) 10 * (s.part p).clock.period else ns * Config.unitsPerNs

/-- The first read of the slot at HEAD falls within 256 ns of the later of its two events, at a free instant, which in DET begins a
cycle (R7, R310; log 10). -/
def State.wakeQueue (s : State) (q : Nat) : State :=
  let r := s.queue q
  let p := r.part.toNat
  if r.st == .active && r.tail != r.head && r.nextRead.isNone && r.firstRead.isNone && !r.fresh then
    let n := s.pick p
    let d := Config.slotReadDelay n.1 % 257
    let at_ := if s.isDet p then (s.part p).clock.instant (s.cyc p) + s.nsUnits p d else s.now + s.nsUnits p d
    n.2.setQueue q { r with nextRead := some at_ }
  else s

/-- PHASE of a fresh packet in slot k (R310). -/
def freshPhase (n k : Nat) : Nat := 1 - k / 2 ^ n % 2

/-- A packet with PHASE set to the fresh value (R311). -/
def withPhase (phase : Nat) (bs : List Byte) : List Byte :=
  bs.set 1 ((bs.getD 1 0 &&& 0xFE) ||| BitVec.ofNat 8 phase)

/-- n bytes at a virtual address of a partition as its home holds them; zero where nothing is mapped (R279). -/
def State.homeBytes (s : State) (p a n : Nat) : List Byte :=
  (List.range n).map (fun i => match s.physOf p (a + i) with
    | some pa => memGet s.mem pa
    | none => 0)

/-- Bytes written at the home of a virtual address of a partition, where it is mapped. -/
def State.homeStore (s : State) (p a : Nat) (bs : List Byte) : State :=
  let ws := (List.range bs.length).filterMap (fun i => (s.physOf p (a + i)).map (fun pa => (⟨pa, bs.getD i 0, 0xFF⟩ : PByte)))
  s.writeHomes (ws.filter (fun b => s.bankTakes b.pa))

/-- The packet enters the next slot of its queue's ring; a queue that SUBMIT feeds no longer discards it (R309, R311). -/
def State.deliver (s : State) (p : Nat) (o : Op) (q a tq : Nat) : State :=
  let s := s.dropOp p o.id
  let r := s.queue q
  if r.takesSubmit p then
    let n := r.n.toNat
    let k := r.tail.toNat
    let bs := withPhase (freshPhase n k) (s.homeBytes p a 64)
    let s1 := s.homeStore p (r.qbase.toNat + 64 * (k % 2 ^ n)) bs
    (s1.setQueue q { r with tail := r.tail + 1, submits := r.submits ++ [(k, o.core, o.ctx, tq)] }).wakeQueue q
  else s

/-- The release of a SUBMIT completes, or 160 cycles later its packet is delivered (R281). -/
def State.submitStep (s : State) (p : Nat) (o : Op) (q : Nat) (a : W64) (tq : Nat) (released : Bool) : State :=
  if released then s.deliver p o q a.toNat tq
  else
    let s1 := s.flushCluster (clusterOf o.core) (fun _ => true) false
    s1.onPart p (fun x => { x with ops := x.ops.map (fun e =>
      if e.id = o.id then { e with due := some (s.cyc p + Config.submitDelay), kind := .submit q a tq true 0 } else e) })

def Op.submitWaits (o : Op) : Bool :=
  match o.kind with
  | .submit _ _ _ released _ => !released
  | _ => false

def execSubmitDelivery (p id : Nat) (s : State) : Host.Outcome State Fault Refusal :=
  match s.releasedOp p id Op.submitWaits with
  | none => notDue
  | some o =>
    match o.kind with
    | .submit q a tq released _ => .next (s.submitStep p o q a tq released)
    | _ => notDue

end Sys2Proof.Machine
end

