-- ==== Sys2Proof/Machine/Update.lean ====
section
/-! DEFINITION. The update units: arms, contributions, the canonical sum, the rules and their writes; and arrivals with their
handlers (R182 to R189, R208, R337). -/

namespace Sys2Proof.Machine

/-! ## Arms (R182, R184) -/

/-- The clusters of a partition. -/
def Partition.clusters (q : Partition) : Nat := ((List.range 16).filter (fun c => q.cfg.mask.getLsbD c)).length

/-- The arms that hold an entry of a unit. -/
def Partition.armsAt (q : Partition) (slice : Nat) : List Arm := q.arms.filter (fun a => sliceOf a.w == slice && !a.waiting)

/-- UPDATE_FAULT: the arm is dropped, and its TA number counts as complete (R182, R184). -/
def State.dropArm (s : State) (a : Arm) : State :=
  (s.raise a.core a.ctx 0x88 a.va slotY a.handler).complete a.core a.ctx ctrTA a.ta

/-- An arm at its unit takes an entry; a line armed already refuses it; without a free entry it waits in THR and is dropped
in DET (R182, R184). -/
def State.placeArm (s : State) (p : Nat) (a : Arm) : State :=
  let q := s.part p
  let at_ := q.armsAt (sliceOf a.w)
  if at_.any (fun b => b.w == a.w) then s.dropArm a
  else if at_.length < 2 * q.clusters then s.setPart p { q with arms := q.arms ++ [{ a with waiting := false }] }
  else if q.cfg.det then s.dropArm a
  else s.setPart p { q with arms := q.arms ++ [{ a with waiting := true }] }

def execArmArrival (p id : Nat) (s : State) : Host.Outcome State Fault Refusal :=
  match s.dueOp p id with
  | none => notDue
  | some o =>
    match o.kind with
    | .arm w va c rs step ta =>
      .next ((s.dropOp p id).placeArm p ⟨o.id, w, va, c, rs, step, o.core, o.ctx, ta, [], false, false, o.handler⟩)
    | _ => notDue

/-! ## Contributions (R182, R185, R208) -/

/-- The contribution buffers of a unit in use. -/
def Partition.buffersAt (q : Partition) (slice : Nat) : Nat :=
  ((q.armsAt slice).map (fun a => a.held.length)).foldl (· + ·) 0

/-- A contribution is discarded: the line is not armed, its index is too large, or it has arrived already (R185). -/
def Arm.refuses (a : Arm) (k : Nat) : Bool := decide (a.c ≤ k) || a.held.any (fun h => h.1 == k)

/-- What a unit does with a contribution: 0 discard, 1 buffer, 2 wait for a buffer or for its line's arm. -/
def Partition.contribFate (q : Partition) (w k : Nat) : Nat :=
  match q.arms.find? (fun a => a.w == w && !a.waiting) with
  | none => if q.arms.any (fun a => a.w == w) then 2 else 0
  | some a =>
    if a.refuses k then 0
    else if q.cfg.det || decide (q.buffersAt (sliceOf w) < 16 * q.clusters) then 1
    else 2

/-- A contribution in flight at its unit, or waiting in its slice's queue. -/
def State.contribOp (s : State) (p id : Nat) : Option Op :=
  match s.dueOp p id with
  | some o => some o
  | none => (s.part p).contribs.find? (fun o => o.id == id)

/-- A contribution reaches its unit, or leaves the queue (R182, R185, R208). -/
def State.takeContrib (s : State) (p : Nat) (o : Op) (w k : Nat) (vals : List W32) (ta : Nat) : State :=
  let q := s.part p
  let away : Partition := { q with ops := q.ops.filter (fun e => e.id != o.id), contribs := q.contribs.filter (fun e => e.id != o.id) }
  let s := if o.due.isNone && q.contribFate w k != 2 then s.heldWriteDone p o else s
  let away := { away with ops := (s.part p).ops.filter (fun e => e.id != o.id) }
  match q.contribFate w k with
  | 0 =>
    (s.setPart p { away with counts := { q.counts with updateErrors := satInc q.counts.updateErrors } }).complete o.core o.ctx ctrTA ta
  | 1 =>
    (s.setPart p { away with
      arms := q.arms.map (fun a => if a.w = w ∧ !a.waiting then { a with held := a.held ++ [(k, vals)] } else a) }).complete o.core o.ctx ctrTA ta
  | _ => if q.contribs.any (fun e => e.id == o.id) then s else s.setPart p { away with contribs := q.contribs ++ [{ o with due := none }] }

/-- Whether a contribution of the queue can leave it. -/
def Partition.contribLeaves (q : Partition) (o : Op) : Bool :=
  match o.kind with
  | .contrib w k _ _ => q.contribFate w k != 2
  | _ => false

def execContribAccepted (p id : Nat) (s : State) : Host.Outcome State Fault Refusal :=
  match s.contribOp p id with
  | none => notDue
  | some o =>
    if o.due.isNone && !(s.part p).contribLeaves o then notDue
    else
      match o.kind with
      | .contrib w k vals ta => .next (s.takeContrib p o w k vals ta)
      | _ => notDue

/-! ## The rules (R183, R185, R186) -/

/-- The canonical sum of the contributions of an arm (R185). -/
def Arm.sum (a : Arm) : List W32 :=
  let leaf := fun (l i : Nat) => if l = 0 then (a.held.find? (fun h => h.1 == i)).map (·.2) else none
  (treeNode leaf a.c (treeHeight a.c) 0).getD []

/-- pow(b, T): bits of T from 15 down to 0 (R186). -/
def rulePow (b : W32) (t : Nat) : W32 :=
  (List.range 16).foldl (fun r i =>
    let sq := f32Mul false .rne r r
    if bitAt t (15 - i) then f32Mul false .rne sq b else sq) 0x3F800000

/-- 1 / (1 − b^T) with its roundings, and 1 for T = 0 (R186). -/
def biasTerm (b : W32) (t : Nat) : W32 :=
  if t = 0 then 0x3F800000
  else f32Div false .rne 0x3F800000 (f32Sub false .rne 0x3F800000 (rulePow b t))

/-- One element: w, m, v and the sum to the new w, m, v (R186). -/
def ruleElement (q : Partition) (rs t : Nat) (w m v sum : W32) : W32 × W32 × W32 :=
  let r := fun i => q.rule rs i
  let mul := f32Mul false .rne
  let fma := f32Fma false .rne
  let g := mul (r 1) sum
  let neg := (r 2) ^^^ 0x80000000
  if r 0 = 0 then
    let m' := fma (r 3) m g
    (fma neg (fma (r 8) w m') w, m', v)
  else
    let m' := fma (r 3) m (mul (r 4) g)
    let v' := fma (r 5) v (mul (r 6) (mul g g))
    let k1 := biasTerm (r 3) t
    let k2 := biasTerm (r 5) t
    let u := f32Div false .rne (mul m' k1) (f32Add false .rne (f32Sqrt false .rne (mul v' k2)) (r 7))
    (fma neg (fma (r 8) w u) w, m', v')

/-- The 16 FP32 values of a line at a virtual address, at its home. -/
def State.lineValues (s : State) (p a : Nat) : List W32 :=
  (List.range 16).map (fun i => BitVec.ofNat 32 (natOfBytes (s.homeBytes p (a + 4 * i) 4)))

/-- The bytes of 16 FP32 values, at the homes of a line. -/
def State.linePBytes (s : State) (p a : Nat) (vs : List W32) : List PByte :=
  s.physWrite p a (wholeBytes (vs.flatMap (fun v => bytesOf 4 v.toNat)))

/-- The rule is applied to the lines as their homes hold them now; its writes perform within UCL, exactly then in DET while the
slots hold its bursts, one for each line read and one for each written (R179, R181, R186, R187; logs 17, 29). A byte that another write changes at its home meanwhile keeps that write's value (State.stand). -/
def State.applyRule (s : State) (p : Nat) (a : Arm) : State :=
  let q := s.part p
  let ls := q.armLines a.rs a.va
  let line := fun i => s.lineValues p (ls.getD i 0).toNat
  let sum := a.sum
  let es := (List.range 16).map (fun j =>
    ruleElement q a.rs a.step ((line 0).getD j 0) ((line 1).getD j 0) ((line 2).getD j 0) (sum.getD j 0))
  let ms := es.map (fun e => e.2.1)
  let vs := if 2 < ls.length then es.map (fun e => e.2.2) else []
  let bad := ((es.map (fun e => e.1)) ++ ms ++ vs).filter f32NonFinite
  let ws := s.linePBytes p (ls.getD 0 0).toNat (es.map (fun e => e.1)) ++ s.linePBytes p (ls.getD 1 0).toNat ms
    ++ (if 2 < ls.length then s.linePBytes p (ls.getD 2 0).toNat vs else [])
  let f := s.within p Config.ucl
  let lines := s.extentLines p (ls.map (fun l => (l.toNat, 64)))
  let b := f.2.engineBursts a.core a.ctx (s.cyc p + f.1) a.id a.handler (lines ++ lines)
  let s1 := b.2.onPart p (fun x => { x with arms := x.arms.map (fun b => if b.id = a.id then { b with applying := true } else b) })
  s1.addOp p (some (s.cyc p + f.1 + b.1)) a.core a.ctx (s.cyc p) (.update a.id ws bad.length)

/-- An arm whose contributions are all present. -/
def Arm.full (a : Arm) : Bool := !a.waiting && !a.applying && decide (a.held.length = a.c)

def execUpdateRuleApply (p id : Nat) (s : State) : Host.Outcome State Fault Refusal :=
  match (s.part p).arms.find? (fun a => a.id == id) with
  | none => notDue
  | some a => if a.full then .next (s.applyRule p a) else notDue

/-- A saturating count raised by n. -/
def satAdd (w : W32) (n : Nat) : W32 := BitVec.ofNat 32 (min (w.toNat + n) (2 ^ 32 - 1))

/-- The waiting arms of a unit, each placed again in order (R182). -/
def State.retryArms (s : State) (p slice : Nat) : State :=
  let ws := (s.part p).arms.filter (fun a => a.waiting && sliceOf a.w == slice)
  let s1 := s.onPart p (fun q => { q with arms := q.arms.filter (fun a => !(a.waiting && sliceOf a.w == slice)) })
  ws.foldl (fun s a => s.placeArm p a) s1

/-- The rule's writes perform at the home; the TA number completes and the entry is free (R182, R186, R187). -/
def State.completeUpdate (s : State) (p : Nat) (o : Op) (arm : Nat) (ws : List PByte) (bad : Nat) : State :=
  let s := s.dropOp p o.id
  match (s.part p).arms.find? (fun a => a.id == arm) with
  | none => s
  | some a =>
    let s1 := (s.writeHomes ws).onPart p (fun q => { q with
      arms := q.arms.filter (fun b => b.id != arm), counts := { q.counts with updateNonFinite := satAdd q.counts.updateNonFinite bad } })
    (s1.complete a.core a.ctx ctrTA a.ta).retryArms p (sliceOf a.w)

def execUpdateComplete (p id : Nat) (s : State) : Host.Outcome State Fault Refusal :=
  match s.dueOp p id with
  | none => notDue
  | some o =>
    match o.kind with
    | .update arm ws bad => .next (s.completeUpdate p o arm ws bad)
    | _ => notDue

/-! ## Arrivals (R189) -/

/-- A payload still has a push held at its bank (R175, R189). -/
def Partition.payloadHeld (q : Partition) (copy : Option Nat) : Bool :=
  copy.isSome && q.ops.any (fun o => match o.kind with
    | .push _ _ _ _ c => c == copy
    | _ => false)

/-- An arrival at its core's queue: its payload has performed, it is the first among those that wait for the queue, and the queue
has room. -/
def State.arrivalReady (s : State) (p : Nat) (o : Op) (core : Nat) (copy : Option Nat) : Bool :=
  let q := s.part p
  let earlier := q.ops.any (fun e => decide (e.id < o.id) && (match e.kind with
    | .arrive k _ c => k == core && !q.payloadHeld c
    | _ => false))
  !earlier && !q.payloadHeld copy && decide ((s.core core).arrivals.length < 16)

/-- The arrival enters the queue; its carrier's command may then complete (R189). -/
def State.takeArrival (s : State) (p : Nat) (o : Op) (core : Nat) (r : ArrivalRec) (copy : Option Nat) : State :=
  let s1 := (s.dropOp p o.id).onCore core (fun c => { c with arrivals := c.arrivals ++ [r] })
  match copy with
  | none => s1
  | some id =>
    match s1.findCopy p id with
    | some (k, c) => if c.performed && !s1.copyHeld p id then s1.finishCopy k c else s1
    | none => s1

def execArrival (p id : Nat) (s : State) : Host.Outcome State Fault Refusal :=
  match s.reachedOp p id with
  | none => notDue
  | some o =>
    match o.kind with
    | .arrive core r copy => if s.arrivalReady p o core copy then .next (s.takeArrival p o core r copy) else notDue
    | _ => notDue

/-- The lowest ARMED context of a core, with the oldest arrival and the cycle of its start (R189). A lower-numbered context that
becomes ARMED while an arrival waits out its 32 cycles is the one that it starts, 32 cycles after that: the spec does not say at
which moment the lowest is chosen (DESIGN CHOICE, log 63). -/
def Core.nextHandler (r : Core) : Option (Nat × Ctx × ArrivalRec × Nat) :=
  match r.arrivals, r.ctxs.find? (fun e => e.2.st == .armed) with
  | a :: _, some (c, x) => some (c, x, a, max a.performed ((amGet r.armedAt c).getD 0) + 32)
  | _, _ => none

/-- An arrival starts its handler: PC, x1 to x3, every other register 0 (R189); a SIGNALLED that has held stays (R317). -/
def State.startHandler (s : State) (k c : Nat) (x : Ctx) (a : ArrivalRec) : State :=
  let p := s.partOf k
  let bases : WinSizes := ⟨x.regs.va.base, x.regs.vb.base, x.regs.lv.base, x.regs.qv.base⟩
  let y := Ctx.fresh x.task a.handlerPc bases (s.cyc p)
  let y := ((y.write (.x 1) (toVec a.dst)).write (.x 2) (toVec a.len)).write (.x 3) (toVec a.word)
  let s1 := s.onCore k (fun r => { r with arrivals := r.arrivals.drop 1, armedAt := amDel r.armedAt c, ctxs := amSet r.ctxs c y })
  s1.onLaunch p x.task.launch (fun l =>
    { l.runsOn (clusterOf k) with latched := l.latched || l.allSignalled, extra := l.extra + 1, bound := l.bound ++ [(k, c, x.task.index)] })

def execArrivalHandlerStart (core : Nat) (s : State) : Host.Outcome State Fault Refusal :=
  match (s.core core).nextHandler with
  | none => notDue
  | some (c, x, a, t) => if t ≤ s.cyc (s.partOf core) then .next (s.startHandler core c x a) else notDue

end Sys2Proof.Machine
end

