-- ==== Sys2Proof/Machine/Handler.lean ====
section
/-! DEFINITION. The handler instructions: HRET, SNAPREL, SNAPST and SNAPLD, with the image of the snapshot buffer (R84, R291 to
R295). -/

namespace Sys2Proof.Machine

/-! ## The image (R292) -/

/-- The bytes of an image's extent, and of one of its entries. -/
def snapExtent : Nat := 49216
def snapEntryBytes : Nat := 192

/-- KIND and NUMBER of a destination. -/
def Dest.kindNumber (d : Dest) : Nat × Nat :=
  match d with
  | .x n => (0, n)
  | .hx n => (10, n)
  | .va n => (1, n)
  | .vb n => (2, n)
  | .lv n => (3, n)
  | .qv n => (4, n)
  | .la n => (5, n)
  | .qa n => (6, n)
  | .ms n => (7, n)
  | .ds n => (7, 16 + n)
  | .wt n => (7, 32 + 2 * n)
  | .wc n => (7, 33 + 2 * n)
  | .sc n => (7, 48 + n)
  | .df n k => (7, 64 + 8 * n + k)
  | .p n => (8, n)
  | .csr n => (9, n)

/-- A destination in a file of vector registers. -/
def Dest.isVector (d : Dest) : Bool := decide (1 ≤ d.kindNumber.1 ∧ d.kindNumber.1 ≤ 4)

/-- The lane mask of an entry: the lanes that a vector write or a predicate write changes; every bit for a register without
lanes (log 36). -/
def SnapEntry.laneMask (e : SnapEntry) : Nat :=
  if e.dest.isVector then ((List.range 32).filter (fun i => lane e.mask i != 0)).foldl (fun m i => m + 2 ^ i) 0
  else if e.dest.kindNumber.1 = 8 then e.mask.toNat % 2 ^ 32
  else 2 ^ 32 - 1

/-- The value of an entry: of a vector register whole lanes, with what the register holds in the bits that the write leaves
alone (log 36). -/
def SnapEntry.whole (x : Ctx) (e : SnapEntry) : Vec :=
  if e.dest.isVector then mergeBits (x.read e.dest) e.value e.mask else e.value

/-- The bytes of an entry. -/
def SnapEntry.image (x : Ctx) (e : SnapEntry) : List Byte :=
  let kn := e.dest.kindNumber
  bytesOf 8 (kn.1 + kn.2 % 2 ^ 12 * 2 ^ 4 + e.d % 2 ^ 16 * 2 ^ 16 + e.laneMask * 2 ^ 32)
    ++ bytesOf 8 (if e.dest = .csr 0x018 then e.mask.toNat % 2 ^ 32 else 0) ++ bytesOf 8 (b2n e.pd) ++ bytesOf 40 0
    ++ bytesOf 128 (e.whole x).toNat

/-- The bytes of an image, filled with zeros to its extent. -/
def snapImage (x : Ctx) (es : List SnapEntry) : List Byte :=
  let es := es.take 256
  let bs := bytesOf 8 (es.length + 2 ^ 16) ++ bytesOf 8 x.task.taskId.toNat ++ bytesOf 48 0 ++ es.flatMap (fun e => e.image x)
  bs ++ List.replicate (snapExtent - bs.length) 0

/-- The destination that KIND and NUMBER name, within the context's files (R292). -/
def Ctx.snapDest (x : Ctx) (kind n : Nat) : Option Dest :=
  match kind with
  | 0 => if n < 64 then some (.x n) else none
  | 1 => if n < x.regs.va.size then some (.va n) else none
  | 2 => if n < x.regs.vb.size then some (.vb n) else none
  | 3 => if n < x.regs.lv.size then some (.lv n) else none
  | 4 => if n < x.regs.qv.size then some (.qv n) else none
  | 5 => if n < 16 then some (.la n) else none
  | 6 => if n < 16 then some (.qa n) else none
  | 7 => if n < 64 ∨ (n < 128 ∧ n % 8 ≠ 7) then some (stagingDest n) else none
  | 8 => if n < 16 then some (.p n) else none
  | 9 => if n = 0x018 ∨ csrWritable n then some (.csr n) else none
  | 10 => if n < 8 then some (.hx n) else none
  | _ => none

/-- An entry read from its words and value; none where R292 refuses it. It comes before every write of a handler bundle in program
order (R291). -/
def Ctx.snapEntryOf (x : Ctx) (id cy : Nat) (bs : List Byte) : Option SnapEntry :=
  let word := fun i => natOfBytes ((bs.drop (8 * i)).take 8)
  let kind := bitsOf (word 0) 0 4
  let number := bitsOf (word 0) 4 12
  let lanes := bitsOf (word 0) 32 32
  let pd := bitAt (word 2) 0
  let isFmt := kind == 9 && number == 0x018
  let clean := decide (word 2 < 2) && (List.range 5).all (fun i => word (3 + i) == 0)
    && (if isFmt then decide (word 1 < 2 ^ 32) else word 1 == 0) && (!pd || kind == 3)
  match x.snapDest kind number with
  | none => none
  | some d =>
    if clean then
      let mask : Vec :=
        if d.isVector then lanesMask (fun i => bitAt lanes i)
        else if kind = 8 then BitVec.ofNat 1024 lanes
        else if isFmt then BitVec.ofNat 1024 (word 1)
        else if kind = 9 ∧ number = 0x019 then 1
        else maskAt 0 64
      some ⟨d, mask, BitVec.ofNat 1024 (natOfBytes ((bs.drop 64).take 128)), bitsOf (word 0) 16 16, some cy, id, pd,
        if pd then .ldc else .core, 0⟩
    else none

/-- The entries of an image's bytes from its first entry on. -/
def Ctx.snapEntriesOf (x : Ctx) (cy : Nat) : Nat → Nat → List Byte → Option (List SnapEntry)
  | 0, _, _ => some []
  | n + 1, id, bs =>
    match x.snapEntryOf id cy (bs.take 192), x.snapEntriesOf cy n (id + 1) (bs.drop 192) with
    | some e, some es => some (e :: es)
    | _, _ => none

/-- The entries of an image; none where its header or an entry is not valid (R292). -/
def Ctx.snapLoad (x : Ctx) (id cy : Nat) (header : List Byte) (rest : Nat → List Byte) : Option (List SnapEntry) :=
  let w0 := natOfBytes (header.take 8)
  let count := bitsOf w0 0 9
  let clean := bitsOf w0 9 7 == 0 && bitsOf w0 24 40 == 0 && (header.drop 16).all (fun b => b == 0)
  if count ≤ 256 ∧ bitsOf w0 16 8 = 1 ∧ natOfBytes ((header.drop 8).take 8) = x.task.taskId.toNat ∧ clean then
    x.snapEntriesOf cy count id (rest (snapEntryBytes * count))
  else none

/-! ## SNAPST and SNAPLD (R84, R292, R294) -/

/-- The entries that the issuing context holds. -/
def State.heldEntries (s : State) : List SnapEntry :=
  match s.myCore.snap with
  | some b => if b.holder = s.cur.2 then b.entries else []
  | none => []

/-- Whether another context holds the buffer. -/
def State.snapTaken (s : State) : Bool :=
  match s.myCore.snap with
  | some b => b.holder != s.cur.2
  | none => false

/-- The issue faults of an image's address (R84). -/
def State.snapFaults (s : State) (perm : Perm) (a : W64) : List IssueFault :=
  (if a.toNat % 64 = 0 then [] else [⟨0x06, slotS, 0, a⟩]) ++ s.extentFaults slotS perm false (a.toNat, snapExtent)

/-- A store of an image: it performs as a Q-slot store does, at t + λ, later where its channels' slots do not hold it, and takes no
entry of the access queue (R84, R181, R192, R198). -/
def State.snapStore (s : State) (a : W64) (bs : List Byte) : Nat × State :=
  let p := s.myPart
  let f := s.figure p (s.extentFigure s.cur.1 [(a.toNat, bs.length)])
  let pb := (s.physWrite p a.toNat (wholeBytes bs))
  let remote := ((pb.zip (List.range pb.length)).filter (fun e => isOtherSram (clusterOf s.cur.1) e.1.pa)).map
    (fun e => (⟨e.1.pa, 0, a + BitVec.ofNat 64 e.2⟩ : RemoteByte))
  let due := f.2.localOrder (pb.any (fun b => isOwnSram (clusterOf s.cur.1) b.pa)) (s.t + f.1)
  let g := f.2.takeBursts p due (s.extentLines p [(a.toNat, bs.length)])
  let r := g.2.addOpAs p (some (due + g.1)) s.cur.1 s.cur.2 s.t true false (.store pb remote none)
  (due + g.1, if g.1 = 0 then r else r.addOpAs p (some due) s.cur.1 s.cur.2 s.t true false (.padded g.2.nextId))

/-- SNAPST: it is held until every entry is complete, and holds the next bundle until the image has performed (R84, R292). -/
def snapstSem (tt : TT) (xa : XReg) (s : State) : OpSem :=
  let a := s.me.xr xa
  let es := s.heldEntries
  .inHandler s true (.guarded s tt
    { faults := s.snapFaults .qw a
      holds := if es.all (fun e => match e.arrive with
        | some c => decide (c ≤ s.t)
        | none => false) then 0 else ovSync
      effect := fun r =>
        let f := r.snapStore a (snapImage s.me es)
        f.2.holdNext .snapst f.1 1 })

def execSnapst (tt : TT) (xa : XReg) (s : State) : Host.Outcome State Fault Refusal := (snapstSem tt xa s).run slotS [] s

/-- The image at an address as the issuing context reads it (R84). -/
def State.snapRead (s : State) (a : W64) : Option (List SnapEntry) :=
  let ov := s.pendingLocal s.cur.1 s.cur.2
  s.me.snapLoad s.nextId s.t (s.engineBytes s.cur.1 ov a.toNat 64) (fun n => s.engineBytes s.cur.1 ov (a.toNat + 64) n)

/-- The buffer taken by SNAPLD, with traps masked until HRET and the destinations of entries with PD pending (R292, R294). -/
def State.snapTake (s : State) (es : List SnapEntry) : State :=
  let s1 := s.onCore s.cur.1 (fun r => { r with snap := some ⟨s.cur.2, es⟩ })
  { s1.onMe (fun x => { x with masked := true, pending := x.pending ++ pendingOf es }) with nextId := s.nextId + es.length }

/-- SNAPLD: it waits while another context holds the buffer; an image that is not valid raises BAD_CONTROL (R84, R292, R294). It looks
its lines up in the cluster cache and allocates those of GDDR at 2, as an access without an RD field does: R84 says of its reads that
they pass the L-read check and no more (R173; DESIGN CHOICE, log 14). -/
def snapldSem (tt : TT) (xa : XReg) (s : State) : OpSem :=
  let a := s.me.xr xa
  let fs := s.snapFaults .lr a
  let image := if fs.isEmpty then s.snapRead a else some []
  .inHandler s true (.guarded s tt
    { faults := fs ++ (match image with
        | some _ => []
        | none => [⟨0x05, slotS, 0, 0⟩])
      holds := if s.snapTaken then ovSync else 0
      effect := fun r =>
        let e := [(a.toNat, snapExtent)]
        let f := (r.touchSources r.cur.1 2 e).figure r.myPart (r.extentFigure r.cur.1 e)
        let g := f.2.engineBursts r.cur.1 r.cur.2 (r.t + f.1) f.2.nextId true (r.extentLines r.myPart e)
        (g.2.snapTake (image.getD [])).holdNext .snapld (r.t + f.1 + g.1) 0 })

def execSnapld (tt : TT) (xa : XReg) (s : State) : Host.Outcome State Fault Refusal := (snapldSem tt xa s).run slotS [] s

/-! ## SNAPREL and HRET (R84, R246, R261, R291, R294, R295) -/

/-- The buffer is released when this context holds it. -/
def State.releaseSnap (s : State) (k c : Nat) : State :=
  s.onCore k (fun r => { r with snap := match r.snap with
    | some b => if b.holder = c then none else some b
    | none => none })

/-- SNAPREL: the buffer is released and traps are unmasked. -/
def snaprelSem (tt : TT) (s : State) : OpSem :=
  .inHandler s true (.guarded s tt (.pure (fun r =>
    (r.releaseSnap r.cur.1 r.cur.2).onMe (fun x => { x with masked := false }))))

def execSnaprel (tt : TT) (s : State) : Host.Outcome State Fault Refusal := (snaprelSem tt s).run slotS [] s

/-- HRET: return from the trap, with the suspended demands that it re-enters (R246, R261). -/
def hretSem (tt : TT) (s : State) : OpSem :=
  .inHandler s true (.guarded s tt (.pure (fun r =>
    ((r.returnFromTrap r.cur.1 r.cur.2).resumeDemands r.cur.1 r.cur.2).onMe (fun x => { x with moved := true }))))

def execHret (tt : TT) (s : State) : Host.Outcome State Fault Refusal := (hretSem tt s).run slotS [] s

/-! ## TRAP_ENTRY and SNAPSHOT_BUFFER_GAINED (R285, R288, R293, R294, R297) -/

/-- A pre-emption has landed: the context issues nothing more (R298). -/
def Preempt.hasLanded (p : Preempt) : Bool :=
  match p with
  | .landed _ => true
  | _ => false

/-- The traps that a boundary of a context may take: in its handler those of handler bundles, while traps are not masked;
none once a pre-emption has landed; else all (R288, R294, R298). -/
def Ctx.takable (x : Ctx) : List PendTrap :=
  if x.preempt.hasLanded then []
  else if x.st = .handler then (if x.masked then [] else x.traps.filter (fun t => t.handler)) else x.traps

/-- The trap that a boundary takes, with those that stay pending. -/
def Ctx.nextTrap (x : Ctx) : Option (PendTrap × List PendTrap) :=
  match firstTrap x.takable with
  | none => none
  | some (t, rest) => some (t, rest ++ (if x.st = .handler then x.traps.filter (fun u => !u.handler) else []))

/-- A context stops at its boundary while it waits for the snapshot buffer (R294). -/
def Ctx.stopped (x : Ctx) : Bool := x.waitSnap.isSome

/-- A context takes traps: those of a closing context that has no handler stay with it, and its launch fails (R50, R296,
R297). -/
def State.enterTrap (s : State) (k c : Nat) : Option State :=
  let s := s.raiseDue k c
  let x := s.ctx k c
  match x.nextTrap with
  | none => none
  | some (t, rest) => some (s.takePending k c t rest)

/-- The gap before a bundle that is not in memory or not of the code range: 1 (R52). -/
def earliest (x : Ctx) (gap : Nat) : Nat :=
  match x.lastIssue with
  | some t => t + gap
  | none => x.issueAt

def execSnapshotBufferGained (core ctx : Nat) (s : State) : Host.Outcome State Fault Refusal :=
  match s.ctx? core ctx, (s.core core).snap with
  | some x, none =>
    match x.waitSnap, x.task.handlerPc with
    | some e, some pc => .next (s.capture core ctx e pc)
    | _, _ => notDue
  | _, _ => notDue

end Sys2Proof.Machine
end

