-- ==== Sys2Proof/Machine/Use.lean ====
section
/-! DEFINITION. Every slot operation as the issue of a bundle sees it: its slot, its guard, what it contributes, the
registers it reads and writes (R20, R25, R28, R31, R35, R97, R98, R200). -/

namespace Sys2Proof.Machine

/-- A slot operation at the issue of its bundle: slot, truth table, whether its lanes are guarded each for itself, its
contribution and its registers. -/
structure Form where
  slot : Nat
  tt : TT
  perLane : Bool
  sem : State → OpSem
  use : State → RegUse

/-! ## Registers of the forms that read more than they name -/

/-- The staging words k to k + n - 1 of a file. -/
def stagingRange (f : Nat → Dest) (k n : Nat) : List Dest := (List.range n).map (fun i => f (k + i))

/-- The frame and the SC word that a shape word names (R224). -/
def shapeDests (w : W64) : List Dest :=
  let h := shapeOf w
  (if h.fe then frameDests h.fr else []) ++ scDests h.se h.sck

/-- An append: its staging words, the frame and the SC word of its shape (R228). -/
def State.useNode (s : State) (opcode : Nat) (mk : BitVec 4) : RegUse :=
  let w := vget s.me.regs.ms (mk.toNat + 1) 0
  ⟨stagingRange .ms mk.toNat (mWords opcode) ++ (if opcode = opTVIEW then [] else shapeDests w), [], [], []⟩

/-- A demand: its staging words, and of a TSTORE the frame and the SC word of its target (R236, R237). -/
def State.useDemand (s : State) (opcode : Nat) (mk : BitVec 4) : RegUse :=
  let w := vget s.me.regs.ms (mk.toNat + 2) 0
  ⟨stagingRange .ms mk.toNat (mWords opcode) ++ (if opcode = opTSTORE then shapeDests w else []), [], [], []⟩

/-- A load: it writes its destination λ cycles after its issue (R198), and its base when it has a post-increment, which is a
destination for R28 too (R196). -/
def State.useLoad (s : State) (l : LoadSpec) (reads : List Dest) (more : List (BitVec 7)) (post : List (Dest × Nat)) : RegUse :=
  ⟨reads, (.lv l.lvd.toNat, s.loadFigure l) :: post, [], s.badLv (l.lvd :: more)⟩

/-- A store, or a contribution; a post-increment is a destination (R196). -/
def State.useStore (s : State) (vs : List (BitVec 6)) (reads : List Dest) (post : List (Dest × Nat)) : RegUse :=
  ⟨vs.map (fun n => .qv n.toNat) ++ reads, post, [], s.badQv vs⟩

/-- An atomic: its old value lands 8 cycles after it performs (R207). -/
def State.useAtomic (s : State) (qvs qvd : BitVec 6) (qab : AReg) (ofs : BitVec 13) (nr : Bool) : RegUse :=
  let a := s.qa qab + ofs.signExtend 64
  let fig :=
    match translate s.ranges .at_ a.toNat with
    | .ok pa res => lambdaOf (s.mult s.myPart) (clusterOf s.cur.1) pa res
    | .fault _ => 0
  ⟨[.qv qvs.toNat, .qa qab.toNat], if nr then [] else [(.qv qvd.toNat, fig + 8)], [],
    s.badQv (if nr then [qvs] else [qvs, qvd])⟩

/-- A copy-engine command: its staging words, its arrival block, of a CRDT the frames and SC words it names (R212, R213,
R217). -/
def State.useCommand (s : State) (opcode : Nat) (k : BitVec 4) (ha : Bool) : RegUse :=
  let w := (vget s.me.regs.ds (k.toNat + 3) 0).toNat
  let more :=
    if opcode = opCRDT then
      frameDests (bitsOf w 0 3) ++ frameDests (bitsOf w 4 3) ++ scDests (bitAt w 20) (bitsOf w 16 4)
        ++ scDests (bitAt w 28) (bitsOf w 24 4)
    else []
  ⟨stagingRange .ds k.toNat (copyWords opcode + if ha then 3 else 0) ++ more, [], [], []⟩

/-- WADD: it names its wait register, both of whose words it writes (R88, R268). -/
def State.useWait (s : State) (wi : BitVec 3) (bs : BitVec 2) (yk : BitVec 6) : RegUse :=
  ⟨if bs.toNat = 2 then [s.me.xDest yk.toNat] else [], [(.wt wi.toNat, 1)], [(.wc wi.toNat, 1)], []⟩

/-! ## The forms -/

/-- The operations of S. R35 counts registers: no CSR is one here, so that a GETC may read in its group what a PUTC or an FMTSET
of the group writes, and reads the old value (DEDUCED, log 19). -/
def scalarForm (i : Instr) : Option Form :=
  match i with
  | .add tt xd xa xb => some ⟨slotS, tt, false, addSem tt xd xa xb, fun s => useX s.me 1 [xd] [xa, xb]⟩
  | .sub tt xd xa xb => some ⟨slotS, tt, false, subSem tt xd xa xb, fun s => useX s.me 1 [xd] [xa, xb]⟩
  | .mul tt xd xa xb => some ⟨slotS, tt, false, mulSem tt xd xa xb, fun s => useX s.me 3 [xd] [xa, xb]⟩
  | .mulh tt xd xa xb => some ⟨slotS, tt, false, mulhSem tt xd xa xb, fun s => useX s.me 3 [xd] [xa, xb]⟩
  | .mulhu tt xd xa xb => some ⟨slotS, tt, false, mulhuSem tt xd xa xb, fun s => useX s.me 3 [xd] [xa, xb]⟩
  | .div tt xd xa xb => some ⟨slotS, tt, false, divSem tt xd xa xb, fun s => useX s.me 12 [xd] [xa, xb]⟩
  | .divu tt xd xa xb => some ⟨slotS, tt, false, divuSem tt xd xa xb, fun s => useX s.me 12 [xd] [xa, xb]⟩
  | .rem tt xd xa xb => some ⟨slotS, tt, false, remSem tt xd xa xb, fun s => useX s.me 12 [xd] [xa, xb]⟩
  | .remu tt xd xa xb => some ⟨slotS, tt, false, remuSem tt xd xa xb, fun s => useX s.me 12 [xd] [xa, xb]⟩
  | .and tt xd xa xb => some ⟨slotS, tt, false, andSem tt xd xa xb, fun s => useX s.me 1 [xd] [xa, xb]⟩
  | .or tt xd xa xb => some ⟨slotS, tt, false, orSem tt xd xa xb, fun s => useX s.me 1 [xd] [xa, xb]⟩
  | .xor tt xd xa xb => some ⟨slotS, tt, false, xorSem tt xd xa xb, fun s => useX s.me 1 [xd] [xa, xb]⟩
  | .andn tt xd xa xb => some ⟨slotS, tt, false, andnSem tt xd xa xb, fun s => useX s.me 1 [xd] [xa, xb]⟩
  | .shl tt xd xa xb => some ⟨slotS, tt, false, shlSem tt xd xa xb, fun s => useX s.me 1 [xd] [xa, xb]⟩
  | .shr tt xd xa xb => some ⟨slotS, tt, false, shrSem tt xd xa xb, fun s => useX s.me 1 [xd] [xa, xb]⟩
  | .sar tt xd xa xb => some ⟨slotS, tt, false, sarSem tt xd xa xb, fun s => useX s.me 1 [xd] [xa, xb]⟩
  | .rol tt xd xa xb => some ⟨slotS, tt, false, rolSem tt xd xa xb, fun s => useX s.me 1 [xd] [xa, xb]⟩
  | .min tt xd xa xb => some ⟨slotS, tt, false, minSem tt xd xa xb, fun s => useX s.me 1 [xd] [xa, xb]⟩
  | .max tt xd xa xb => some ⟨slotS, tt, false, maxSem tt xd xa xb, fun s => useX s.me 1 [xd] [xa, xb]⟩
  | .minu tt xd xa xb => some ⟨slotS, tt, false, minuSem tt xd xa xb, fun s => useX s.me 1 [xd] [xa, xb]⟩
  | .maxu tt xd xa xb => some ⟨slotS, tt, false, maxuSem tt xd xa xb, fun s => useX s.me 1 [xd] [xa, xb]⟩
  | .clz tt xd xa => some ⟨slotS, tt, false, clzSem tt xd xa, fun s => useX s.me 1 [xd] [xa]⟩
  | .ctz tt xd xa => some ⟨slotS, tt, false, ctzSem tt xd xa, fun s => useX s.me 1 [xd] [xa]⟩
  | .popc tt xd xa => some ⟨slotS, tt, false, popcSem tt xd xa, fun s => useX s.me 1 [xd] [xa]⟩
  | .movi tt xd imm => some ⟨slotS, tt, false, moviSem tt xd imm, fun s => useX s.me 1 [xd] []⟩
  | .movh tt xd imm => some ⟨slotS, tt, false, movhSem tt xd imm, fun s => useX s.me 1 [xd] [xd]⟩
  | .sext tt xd xa => some ⟨slotS, tt, false, sextSem tt xd xa, fun s => useX s.me 1 [xd] [xa]⟩
  | .zext tt xd xa => some ⟨slotS, tt, false, zextSem tt xd xa, fun s => useX s.me 1 [xd] [xa]⟩
  | .cmp tt pd0 pd1 pwt cond xa xb => some ⟨slotS, tt, false, cmpSem tt pd0 pd1 pwt cond xa xb, fun s => useXP s.me [pd0, pd1] [xa, xb] []⟩
  | .fcmp tt pd0 pd1 pwt cond xa xb => some ⟨slotS, tt, false, fcmpSem tt pd0 pd1 pwt cond xa xb, fun s => useXP s.me [pd0, pd1] [xa, xb] []⟩
  | .fadd tt xd xa xb => some ⟨slotS, tt, false, faddSem tt xd xa xb, fun s => useX s.me 4 [xd] [xa, xb]⟩
  | .fsub tt xd xa xb => some ⟨slotS, tt, false, fsubSem tt xd xa xb, fun s => useX s.me 4 [xd] [xa, xb]⟩
  | .fmul tt xd xa xb => some ⟨slotS, tt, false, fmulSem tt xd xa xb, fun s => useX s.me 4 [xd] [xa, xb]⟩
  | .ffma tt xd xa xb => some ⟨slotS, tt, false, ffmaSem tt xd xa xb, fun s => useX s.me 4 [xd] [xa, xb, xd]⟩
  | .fdiv tt xd xa xb => some ⟨slotS, tt, false, fdivSem tt xd xa xb, fun s => useX s.me 12 [xd] [xa, xb]⟩
  | .fsqrt tt xd xa => some ⟨slotS, tt, false, fsqrtSem tt xd xa, fun s => useX s.me 12 [xd] [xa]⟩
  | .fmin tt xd xa xb => some ⟨slotS, tt, false, fminSem tt xd xa xb, fun s => useX s.me 4 [xd] [xa, xb]⟩
  | .fmax tt xd xa xb => some ⟨slotS, tt, false, fmaxSem tt xd xa xb, fun s => useX s.me 4 [xd] [xa, xb]⟩
  | .fcvt tt xd xa cond => some ⟨slotS, tt, false, fcvtSem tt xd xa cond, fun s => useX s.me 3 [xd] [xa]⟩
  | .br tt ofs => some ⟨slotS, tt, false, brSem tt ofs, fun _ => RegUse.empty⟩
  | .brx tt xa => some ⟨slotS, tt, false, brxSem tt xa, fun s => useX s.me 0 [] [xa]⟩
  | .call tt xd ofs => some ⟨slotS, tt, false, callSem tt xd ofs, fun s => useX s.me 1 [xd] []⟩
  | .callx tt xd xa => some ⟨slotS, tt, false, callxSem tt xd xa, fun s => useX s.me 1 [xd] [xa]⟩
  | .ret tt xa => some ⟨slotS, tt, false, retSem tt xa, fun s => useX s.me 0 [] [xa]⟩
  | .loop tt count eofs rsz prt epi => some ⟨slotS, tt, false, loopSem tt count eofs rsz prt epi, fun s => useLoop s.me [] prt⟩
  | .loopx tt xa eofs rsz prt epi => some ⟨slotS, tt, false, loopxSem tt xa eofs rsz prt epi, fun s => useLoop s.me [xa] prt⟩
  | .lbrk tt => some ⟨slotS, tt, false, lbrkSem tt, fun _ => RegUse.empty⟩
  | .lidx tt xd level => some ⟨slotS, tt, false, lidxSem tt xd level, fun s => useX s.me 1 [xd] []⟩
  | .getc tt xd csr => some ⟨slotS, tt, false, getcSem tt xd csr, fun s => useX s.me 1 [xd] []⟩
  | .putc tt csr xa => some ⟨slotS, tt, false, putcSem tt csr xa, fun s => useX s.me 0 [] [xa]⟩
  | .fmtset tt xa mask => some ⟨slotS, tt, false, fmtsetSem tt xa mask, fun s => useX s.me 0 [] [xa]⟩
  | .mode tt il => some ⟨slotS, tt, false, modeSem tt il, fun _ => RegUse.empty⟩
  | .tend tt => some ⟨slotS, tt, false, tendSem tt, fun _ => RegUse.empty⟩
  | .trap tt code => some ⟨slotS, tt, false, trapSem tt code, fun _ => RegUse.empty⟩
  | .hret tt => some ⟨slotS, tt, false, hretSem tt, fun _ => RegUse.empty⟩
  | .snapst tt xa => some ⟨slotS, tt, false, snapstSem tt xa, fun s => useX s.me 0 [] [xa]⟩
  | .snapld tt xa => some ⟨slotS, tt, false, snapldSem tt xa, fun s => useX s.me 0 [] [xa]⟩
  | .snaprel tt => some ⟨slotS, tt, false, snaprelSem tt, fun _ => RegUse.empty⟩
  | .plut tt pd pa pb pc table => some ⟨slotS, tt, false, plutSem tt pd pa pb pc table, fun s => useXP s.me [pd] [] [pa, pb, pc]⟩
  | _ => none

/-- The operations of V0 and V1. -/
def vectorForm (i : Instr) : Option Form :=
  match i with
  | .vAdd vu tt vd va vb w sati => some ⟨slotV vu, tt, true, vAddSem vu tt vd va vb w sati, fun s => useV s.me 2 [vd] [va, vb] []⟩
  | .vSub vu tt vd va vb w sati => some ⟨slotV vu, tt, true, vSubSem vu tt vd va vb w sati, fun s => useV s.me 2 [vd] [va, vb] []⟩
  | .vMul vu tt vd va vb w => some ⟨slotV vu, tt, true, vMulSem vu tt vd va vb w, fun s => useV s.me 2 [vd] [va, vb] []⟩
  | .vMulh vu tt vd va vb w => some ⟨slotV vu, tt, true, vMulhSem vu tt vd va vb w, fun s => useV s.me 2 [vd] [va, vb] []⟩
  | .vMulhu vu tt vd va vb w => some ⟨slotV vu, tt, true, vMulhuSem vu tt vd va vb w, fun s => useV s.me 2 [vd] [va, vb] []⟩
  | .vAnd vu tt vd va vb w => some ⟨slotV vu, tt, true, vAndSem vu tt vd va vb w, fun s => useV s.me 2 [vd] [va, vb] []⟩
  | .vOr vu tt vd va vb w => some ⟨slotV vu, tt, true, vOrSem vu tt vd va vb w, fun s => useV s.me 2 [vd] [va, vb] []⟩
  | .vXor vu tt vd va vb w => some ⟨slotV vu, tt, true, vXorSem vu tt vd va vb w, fun s => useV s.me 2 [vd] [va, vb] []⟩
  | .vAndn vu tt vd va vb w => some ⟨slotV vu, tt, true, vAndnSem vu tt vd va vb w, fun s => useV s.me 2 [vd] [va, vb] []⟩
  | .vShl vu tt vd va vb w => some ⟨slotV vu, tt, true, vShlSem vu tt vd va vb w, fun s => useV s.me 2 [vd] [va, vb] []⟩
  | .vShr vu tt vd va vb w => some ⟨slotV vu, tt, true, vShrSem vu tt vd va vb w, fun s => useV s.me 2 [vd] [va, vb] []⟩
  | .vSar vu tt vd va vb w => some ⟨slotV vu, tt, true, vSarSem vu tt vd va vb w, fun s => useV s.me 2 [vd] [va, vb] []⟩
  | .vMin vu tt vd va vb w => some ⟨slotV vu, tt, true, vMinSem vu tt vd va vb w, fun s => useV s.me 2 [vd] [va, vb] []⟩
  | .vMax vu tt vd va vb w => some ⟨slotV vu, tt, true, vMaxSem vu tt vd va vb w, fun s => useV s.me 2 [vd] [va, vb] []⟩
  | .vMinu vu tt vd va vb w => some ⟨slotV vu, tt, true, vMinuSem vu tt vd va vb w, fun s => useV s.me 2 [vd] [va, vb] []⟩
  | .vMaxu vu tt vd va vb w => some ⟨slotV vu, tt, true, vMaxuSem vu tt vd va vb w, fun s => useV s.me 2 [vd] [va, vb] []⟩
  | .vClz vu tt vd va w => some ⟨slotV vu, tt, true, vClzSem vu tt vd va w, fun s => useV s.me 2 [vd] [va] []⟩
  | .vPopc vu tt vd va w => some ⟨slotV vu, tt, true, vPopcSem vu tt vd va w, fun s => useV s.me 2 [vd] [va] []⟩
  | .vAbs vu tt vd va w => some ⟨slotV vu, tt, true, vAbsSem vu tt vd va w, fun s => useV s.me 2 [vd] [va] []⟩
  | .vCmp vu tt pd0 pd1 pwt cond va vb => some ⟨slotV vu, tt, true, vCmpSem vu tt pd0 pd1 pwt cond va vb, fun s => useVP s.me [pd0, pd1] [va, vb] []⟩
  | .vFadd vu tt vd va vb rm => some ⟨slotV vu, tt, true, vFaddSem vu tt vd va vb rm, fun s => useV s.me 4 [vd] [va, vb] []⟩
  | .vFsub vu tt vd va vb rm => some ⟨slotV vu, tt, true, vFsubSem vu tt vd va vb rm, fun s => useV s.me 4 [vd] [va, vb] []⟩
  | .vFmul vu tt vd va vb rm => some ⟨slotV vu, tt, true, vFmulSem vu tt vd va vb rm, fun s => useV s.me 4 [vd] [va, vb] []⟩
  | .vFcmp vu tt pd0 pd1 pwt cond va vb => some ⟨slotV vu, tt, true, vFcmpSem vu tt pd0 pd1 pwt cond va vb, fun s => useVP s.me [pd0, pd1] [va, vb] []⟩
  | .vFfma vu tt vd va vb vc rm => some ⟨slotV vu, tt, true, vFfmaSem vu tt vd va vb vc rm, fun s => useV s.me 4 [vd] [va, vb, vc] []⟩
  | .vFmin vu tt vd va vb => some ⟨slotV vu, tt, true, vFminSem vu tt vd va vb, fun s => useV s.me 4 [vd] [va, vb] []⟩
  | .vFmax vu tt vd va vb => some ⟨slotV vu, tt, true, vFmaxSem vu tt vd va vb, fun s => useV s.me 4 [vd] [va, vb] []⟩
  | .vFabs vu tt vd va => some ⟨slotV vu, tt, true, vFabsSem vu tt vd va, fun s => useV s.me 4 [vd] [va] []⟩
  | .vFneg vu tt vd va => some ⟨slotV vu, tt, true, vFnegSem vu tt vd va, fun s => useV s.me 4 [vd] [va] []⟩
  | .vfclass vu tt vd va => some ⟨slotV vu, tt, true, vfclassSem vu tt vd va, fun s => useV s.me 2 [vd] [va] []⟩
  | .vnfin vu tt pd0 pd1 pwt va fmt => some ⟨slotV vu, tt, true, vnfinSem vu tt pd0 pd1 pwt va fmt, fun s => useVP s.me [pd0, pd1] [va] []⟩
  | .vfdiv vu tt vd va vb rm => some ⟨slotV vu, tt, true, vfdivSem vu tt vd va vb rm, fun s => useV s.me 12 [vd] [va, vb] []⟩
  | .vfsqrt vu tt vd va rm => some ⟨slotV vu, tt, true, vfsqrtSem vu tt vd va rm, fun s => useV s.me 12 [vd] [va] []⟩
  | .vfrsq vu tt vd va rm => some ⟨slotV vu, tt, true, vfrsqSem vu tt vd va rm, fun s => useV s.me 12 [vd] [va] []⟩
  | .vfrcp vu tt vd va rm => some ⟨slotV vu, tt, true, vfrcpSem vu tt vd va rm, fun s => useV s.me 12 [vd] [va] []⟩
  | .vlane vu tt vd va lane => some ⟨slotV vu, tt, true, vlaneSem vu tt vd va lane, fun s => useV s.me 2 [vd] [va] []⟩
  | .vbcast vu tt vd va lane => some ⟨slotV vu, tt, true, vbcastSem vu tt vd va lane, fun s => useV s.me 2 [vd] [va] []⟩
  | .vperm vu tt vd va vb => some ⟨slotV vu, tt, true, vpermSem vu tt vd va vb, fun s => useV s.me 2 [vd] [va, vb] []⟩
  | .vslide vu tt vd va vb amount down => some ⟨slotV vu, tt, true, vslideSem vu tt vd va vb amount down, fun s => useV s.me 2 [vd] [va, vb] []⟩
  | .vpack vu tt vd va vb fmt => some ⟨slotV vu, tt, true, vpackSem vu tt vd va vb fmt, fun s => useV s.me 3 [vd] [va, vb] []⟩
  | .vunpk vu tt vd va fmt part => some ⟨slotV vu, tt, true, vunpkSem vu tt vd va fmt part, fun s => useV s.me 3 [vd] [va] []⟩
  | .vcvt vu tt vd va sfmt dfmt rm => some ⟨slotV vu, tt, true, vcvtSem vu tt vd va sfmt dfmt rm, fun s => useV s.me 3 [vd] [va] []⟩
  | .vred vu tt vd va red => some ⟨slotV vu, tt, true, vredSem vu tt vd va red, fun s => useV s.me (if red = 0 then 6 else 10) [vd] [va] []⟩
  | .vdot4 vu tt vd va vb vc fmt => some ⟨slotV vu, tt, true, vdot4Sem vu tt vd va vb vc fmt, fun s => useV s.me 4 [vd] [va, vb, vc] []⟩
  | .vamax vu tt vd va => some ⟨slotV vu, tt, true, vamaxSem vu tt vd va, fun s => useV s.me 6 [vd] [va] []⟩
  | .vexpo vu tt vd va fmt => some ⟨slotV vu, tt, true, vexpoSem vu tt vd va fmt, fun s => useV s.me 3 [vd] [va] []⟩
  | .vsrnd vu tt vd va frame fmt => some ⟨slotV vu, tt, true, vsrndSem vu tt vd va frame fmt, fun s => useV s.me 3 [vd] [va] (seedDests frame.toNat)⟩
  | .vdith vu tt vd va frame fmt => some ⟨slotV vu, tt, true, vdithSem vu tt vd va frame fmt, fun s => useV s.me 3 [vd] [va] (seedDests frame.toNat)⟩
  | .vqenc vu tt vd va frame sc se fmt => some ⟨slotV vu, tt, true, vqencSem vu tt vd va frame sc se fmt, fun s => useV s.me 3 [vd] [va] (seedDests frame.toNat ++ scDests se sc.toNat)⟩
  | .vqdec vu tt vd va frame sc se fmt => some ⟨slotV vu, tt, true, vqdecSem vu tt vd va frame sc se fmt, fun s => useV s.me 3 [vd] [va] (seedDests frame.toNat ++ scDests se sc.toNat)⟩
  | .vPlut vu tt pd pa pb pc table => some ⟨slotV vu, tt, true, vPlutSem vu tt pd pa pb pc table, fun s => useVP s.me [pd] [] [pa, pb, pc]⟩
  | .pmovToPredicate vu tt pd va => some ⟨slotV vu, tt, true, pmovToPredicateSem vu tt pd va, fun s => useVP s.me [pd] [va] []⟩
  | .pmovToVector vu tt vd pa => some ⟨slotV vu, tt, true, pmovToVectorSem vu tt vd pa, fun s => useV s.me 2 [vd] [] [.p pa.toNat]⟩
  | _ => none

/-- The operations of M. -/
def groveForm (i : Instr) : Option Form :=
  match i with
  | .tdef tt nd mk => some ⟨slotM, tt, false, tdefSem tt nd mk, fun s => s.useNode 0x01 mk⟩
  | .tmul tt nd na nb mk acc => some ⟨slotM, tt, false, tmulSem tt nd na nb mk acc, fun s => s.useNode 0x02 mk⟩
  | .tmulb tt nd na nb mk acc => some ⟨slotM, tt, false, tmulbSem tt nd na nb mk acc, fun s => s.useNode 0x03 mk⟩
  | .tadd tt nd na nb mk => some ⟨slotM, tt, false, taddSem tt nd na nb mk, fun s => s.useNode 0x04 mk⟩
  | .tscal tt nd na mk => some ⟨slotM, tt, false, tscalSem tt nd na mk, fun s => s.useNode 0x05 mk⟩
  | .trot tt nd na mk inv => some ⟨slotM, tt, false, trotSem tt nd na mk inv, fun s => s.useNode 0x06 mk⟩
  | .tview tt nd na mk => some ⟨slotM, tt, false, tviewSem tt nd na mk, fun s => s.useNode 0x07 mk⟩
  | .tcvt tt nd na mk => some ⟨slotM, tt, false, tcvtSem tt nd na mk, fun s => s.useNode 0x08 mk⟩
  | .tcb tt mk => some ⟨slotM, tt, false, tcbSem tt mk, fun s => s.useDemand opTCB mk⟩
  | .tdrop tt nd => some ⟨slotM, tt, false, tdropSem tt nd, fun _ => RegUse.empty⟩
  | .tforce tt nd mk => some ⟨slotM, tt, false, tforceSem tt nd mk, fun s => s.useDemand opTFORCE mk⟩
  | .tstore tt nd mk => some ⟨slotM, tt, false, tstoreSem tt nd mk, fun s => s.useDemand opTSTORE mk⟩
  | .ttrsm tt nd na nb mk up unit tr => some ⟨slotM, tt, false, ttrsmSem tt nd na nb mk up unit tr, fun s => s.useNode 0x20 mk⟩
  | .tlu tt nd na mk np => some ⟨slotM, tt, false, tluSem tt nd na mk np, fun s => s.useNode 0x21 mk⟩
  | .tchol tt nd na mk => some ⟨slotM, tt, false, tcholSem tt nd na mk, fun s => s.useNode 0x22 mk⟩
  | .tqr tt nd na mk => some ⟨slotM, tt, false, tqrSem tt nd na mk, fun s => s.useNode 0x23 mk⟩
  | .tapply tt nd na nb mk kind => some ⟨slotM, tt, false, tapplySem tt nd na nb mk kind, fun s => s.useNode 0x24 mk⟩
  | .tres tt nd na nb mk => some ⟨slotM, tt, false, tresSem tt nd na nb mk, fun s => s.useNode 0x25 mk⟩
  | _ => none

/-- The operations of L. -/
def loadForm (i : Instr) : Option Form :=
  match i with
  | .ld tt lvd lab am ofs sz sx rd => some ⟨slotL, tt, false, ldSem tt lvd lab am ofs sz sx rd, fun s => s.useLoad (ldSpec tt lvd lab am ofs sz sx rd false s) [.la lab.toNat] [] (if am then [(.la lab.toNat, 1)] else [])⟩
  | .ldv tt lvd lab am ofs rd => some ⟨slotL, tt, true, ldvSem tt lvd lab am ofs rd, fun s => s.useLoad (ldvSpec tt lvd lab am ofs rd false s) [.la lab.toNat] [] (if am then [(.la lab.toNat, 1)] else [])⟩
  | .lds tt lvd lab las ofs rd => some ⟨slotL, tt, true, ldsSem tt lvd lab las ofs rd, fun s => s.useLoad (ldsSpec tt lvd lab las ofs rd s) [.la lab.toNat, .la las.toNat] [] []⟩
  | .ldg tt lvd lab lvi ofs rd => some ⟨slotL, tt, true, ldgSem tt lvd lab lvi ofs rd, fun s => s.useLoad (ldgSpec tt lvd lab lvi ofs rd s) [.la lab.toNat, .lv lvi.toNat] [lvi] []⟩
  | .ldc tt lvd lab am ofs sz sx rd => some ⟨slotL, tt, false, ldcSem tt lvd lab am ofs sz sx rd, fun s => s.useLoad (ldSpec tt lvd lab am ofs sz sx rd true s) [.la lab.toNat] [] (if am then [(.la lab.toNat, 1)] else [])⟩
  | .ldcv tt lvd lab am ofs rd => some ⟨slotL, tt, true, ldcvSem tt lvd lab am ofs rd, fun s => s.useLoad (ldvSpec tt lvd lab am ofs rd true s) [.la lab.toNat] [] (if am then [(.la lab.toNat, 1)] else [])⟩
  | .pref tt lines lab am ofs rd => some ⟨slotL, tt, false, prefSem tt lines lab am ofs rd, fun _ => ⟨[.la lab.toNat], if am then [(.la lab.toNat, 1)] else [], [], []⟩⟩
  | .laadd tt lad laa imm => some ⟨slotL, tt, false, laaddSem tt lad laa imm, fun _ => ⟨[.la laa.toNat], [(.la lad.toNat, 1)], [], []⟩⟩
  | .lamov tt lad lvs => some ⟨slotL, tt, false, lamovSem tt lad lvs, fun s => ⟨[.lv lvs.toNat], [(.la lad.toNat, 1)], [], s.badLv [lvs]⟩⟩
  | _ => none

/-- The operations of Q. -/
def storeForm (i : Instr) : Option Form :=
  match i with
  | .st tt qvs qab am ofs sz => some ⟨slotQ, tt, false, stSem tt qvs qab am ofs sz, fun s => s.useStore [qvs] [.qa qab.toNat] (if am then [(.qa qab.toNat, 1)] else [])⟩
  | .stv tt qvs qab am ofs => some ⟨slotQ, tt, true, stvSem tt qvs qab am ofs, fun s => s.useStore [qvs] [.qa qab.toNat] (if am then [(.qa qab.toNat, 1)] else [])⟩
  | .sts tt qvs qab qas ofs => some ⟨slotQ, tt, true, stsSem tt qvs qab qas ofs, fun s => s.useStore [qvs] [.qa qab.toNat, .qa qas.toNat] []⟩
  | .scat tt qvs qab qvi ofs => some ⟨slotQ, tt, true, scatSem tt qvs qab qvi ofs, fun s => s.useStore [qvs, qvi] [.qa qab.toNat] []⟩
  | .qst tt qvs qab am ofs frame fmt sc se => some ⟨slotQ, tt, true, qstSem tt qvs qab am ofs frame fmt sc se, fun s => s.useStore [qvs] (.qa qab.toNat :: (frameDests frame.toNat ++ scDests se sc.toNat)) (if am then [(.qa qab.toNat, 1)] else [])⟩
  | .qstb tt qvs qab am ofs frame fmt sc => some ⟨slotQ, tt, true, qstbSem tt qvs qab am ofs frame fmt sc, fun s => s.useStore [qvs] (.qa qab.toNat :: (frameDests frame.toNat ++ scDests true sc.toNat)) (if am then [(.qa qab.toNat, 1)] else [])⟩
  | .aadd tt qvs qvd qab ofs sz nr => some ⟨slotQ, tt, false, aaddSem tt qvs qvd qab ofs sz nr, fun s => s.useAtomic qvs qvd qab ofs nr⟩
  | .afadd tt qvs qvd qab ofs nr => some ⟨slotQ, tt, false, afaddSem tt qvs qvd qab ofs nr, fun s => s.useAtomic qvs qvd qab ofs nr⟩
  | .amin tt qvs qvd qab ofs sz nr u => some ⟨slotQ, tt, false, aminSem tt qvs qvd qab ofs sz nr u, fun s => s.useAtomic qvs qvd qab ofs nr⟩
  | .amax tt qvs qvd qab ofs sz nr u => some ⟨slotQ, tt, false, amaxSem tt qvs qvd qab ofs sz nr u, fun s => s.useAtomic qvs qvd qab ofs nr⟩
  | .aor tt qvs qvd qab ofs sz nr => some ⟨slotQ, tt, false, aorSem tt qvs qvd qab ofs sz nr, fun s => s.useAtomic qvs qvd qab ofs nr⟩
  | .aand tt qvs qvd qab ofs sz nr => some ⟨slotQ, tt, false, aandSem tt qvs qvd qab ofs sz nr, fun s => s.useAtomic qvs qvd qab ofs nr⟩
  | .axchg tt qvs qvd qab ofs sz nr => some ⟨slotQ, tt, false, axchgSem tt qvs qvd qab ofs sz nr, fun s => s.useAtomic qvs qvd qab ofs nr⟩
  | .acas tt qvs qvd qab ofs sz nr => some ⟨slotQ, tt, false, acasSem tt qvs qvd qab ofs sz nr, fun s => s.useAtomic qvs qvd qab ofs nr⟩
  | .contrib tt qvs qab qak ofs h => some ⟨slotQ, tt, false, contribSem tt qvs qab qak ofs h, fun s => s.useStore [qvs] [.qa qab.toNat, .qa qak.toNat] []⟩
  | .qaadd tt qad qaa imm => some ⟨slotQ, tt, false, qaaddSem tt qad qaa imm, fun _ => ⟨[.qa qaa.toNat], [(.qa qad.toNat, 1)], [], []⟩⟩
  | _ => none

/-- The operations of X. -/
def exchangeForm (i : Instr) : Option Form :=
  match i with
  | .copy tt c0 c1 => some ⟨slotX, tt, false, copySem tt c0 c1, fun s => (useCopy s.me c0).join (useCopy s.me c1)⟩
  | .copyb tt c0 c1 => some ⟨slotX, tt, false, copybSem tt c0 c1, fun s => (useCopy s.me c0).join (useCopy s.me c1)⟩
  | .copyl tt c0 c1 => some ⟨slotX, tt, false, copylSem tt c0 c1, fun s => (useCopy s.me c0).join (useCopy s.me c1)⟩
  | .copyp tt c0 c1 => some ⟨slotX, tt, false, copypSem tt c0 c1, fun s => (useCopy s.me c0).join (useCopy s.me c1)⟩
  | _ => none

/-- The operations of C. -/
def copyForm (i : Instr) : Option Form :=
  match i with
  | .cpy tt k rd ha => some ⟨slotC, tt, false, cpySem tt k rd ha, fun s => s.useCommand opCPY k ha⟩
  | .cpy2 tt k rd => some ⟨slotC, tt, false, cpy2Sem tt k rd, fun s => s.useCommand opCPY2 k false⟩
  | .cpyt tt k rd => some ⟨slotC, tt, false, cpytSem tt k rd, fun s => s.useCommand opCPYT k false⟩
  | .crdt tt k rd tr => some ⟨slotC, tt, false, crdtSem tt k rd tr, fun s => s.useCommand opCRDT k false⟩
  | .cgat tt k rd => some ⟨slotC, tt, false, cgatSem tt k rd, fun s => s.useCommand opCGAT k false⟩
  | .csct tt k rd => some ⟨slotC, tt, false, csctSem tt k rd, fun s => s.useCommand opCSCT k false⟩
  | .cfill tt k rd => some ⟨slotC, tt, false, cfillSem tt k rd, fun s => s.useCommand opCFILL k false⟩
  | .csend tt k rd ha => some ⟨slotC, tt, false, csendSem tt k rd ha, fun s => s.useCommand opCSEND k ha⟩
  | .cpull tt k rd => some ⟨slotC, tt, false, cpullSem tt k rd, fun s => s.useCommand opCPULL k false⟩
  | .cred tt k => some ⟨slotC, tt, false, credSem tt k, fun s => s.useCommand opCRED k false⟩
  | .bankset tt k => some ⟨slotC, tt, false, banksetSem tt k, fun s => s.useCommand opBANKSET k false⟩
  | _ => none

/-- The operations of Y. -/
def syncForm (i : Instr) : Option Form :=
  match i with
  | .wadd tt wi ctr bs yk => some ⟨slotY, tt, false, waddSem tt wi ctr bs yk, fun s => s.useWait wi bs yk⟩
  | .tlinc tt yk => some ⟨slotY, tt, false, tlincSem tt yk, fun _ => RegUse.empty⟩
  | .tlincC tt xa yk => some ⟨slotY, tt, false, tlincCSem tt xa yk, fun s => useX s.me 0 [] [xa]⟩
  | .fenceAcq tt scope => some ⟨slotY, tt, false, fenceAcqSem tt scope, fun _ => RegUse.empty⟩
  | .fenceRel tt scope => some ⟨slotY, tt, false, fenceRelSem tt scope, fun _ => RegUse.empty⟩
  | .drain tt => some ⟨slotY, tt, false, drainSem tt, fun _ => RegUse.empty⟩
  | .flush tt xa xb => some ⟨slotY, tt, false, flushSem tt xa xb, fun s => useX s.me 0 [] [xa, xb]⟩
  | .flushAll tt => some ⟨slotY, tt, false, flushAllSem tt, fun _ => RegUse.empty⟩
  | .inval tt xa xb => some ⟨slotY, tt, false, invalSem tt xa xb, fun s => useX s.me 0 [] [xa, xb]⟩
  | .invalAll tt => some ⟨slotY, tt, false, invalAllSem tt, fun _ => RegUse.empty⟩
  | .join tt xg => some ⟨slotY, tt, false, joinSem tt xg, fun s => useX s.me 0 [] [xg]⟩
  | .leave tt xg scope => some ⟨slotY, tt, false, leaveSem tt xg scope, fun s => useX s.me 0 [] [xg]⟩
  | .gnew tt xg => some ⟨slotY, tt, false, gnewSem tt xg, fun s => useX s.me 8 [xg] []⟩
  | .gfree tt xg => some ⟨slotY, tt, false, gfreeSem tt xg, fun s => useX s.me 0 [] [xg]⟩
  | .bar tt xg scope => some ⟨slotY, tt, false, barSem tt xg scope, fun s => useX s.me 0 [] [xg]⟩
  | .arrive tt xg scope => some ⟨slotY, tt, false, arriveSem tt xg scope, fun s => useX s.me 0 [] [xg]⟩
  | .signal tt => some ⟨slotY, tt, false, signalSem tt, fun _ => RegUse.empty⟩
  | .submit tt xa xb => some ⟨slotY, tt, false, submitSem tt xa xb, fun s => useX s.me 0 [] [xa, xb]⟩
  | .armctx tt xd => some ⟨slotY, tt, false, armctxSem tt xd, fun s => useX s.me 8 [xd] []⟩
  | .uarm tt xa xb => some ⟨slotY, tt, false, uarmSem tt xa xb, fun s => useX s.me 0 [] [xa, xb]⟩
  | _ => none

/-- A slot operation as its bundle's issue sees it; none for a step of the part. -/
def formOf (i : Instr) : Option Form :=
  (scalarForm i).orElse (fun _ => (vectorForm i).orElse (fun _ => (groveForm i).orElse (fun _ => (loadForm i).orElse (fun _ =>
    (storeForm i).orElse (fun _ => (exchangeForm i).orElse (fun _ => (copyForm i).orElse (fun _ => syncForm i)))))))

/-- Whether the guard lets a form act: its deciding lane, or some lane (R97, R98). -/
def Form.acts (f : Form) (s : State) : Bool := if f.perLane then s.anyLane f.tt else s.lane0 f.tt

end Sys2Proof.Machine
end

