-- ==== Sys2Proof/Machine/Bundle.lean ====
section
/-! DEFINITION. The issue of bundles: fetch, the rules of a whole bundle, holds, the issue slot, issue itself, the late
bundle, and the traps that a boundary takes (R16 to R38, R52, R58, R98, R199, R200, R272, R278, R285 to R299). -/

namespace Sys2Proof.Machine

/-! ## Fetch (R19, R52) -/

/-- What stands at a context's PC: an address outside the code range, one that no range-table entry maps, a bundle that does
not decode with its gap and the slot it names, or a bundle. -/
inductive Fetched where
  | outside
  | unmapped
  | illegal (gap slot : Nat)
  | bundle (b : Bundle)
  deriving DecidableEq, Repr

/-- The bytes of the bundle at a virtual address, as its home holds them (DEDUCED, log 21). -/
def State.codeBytes (s : State) (p a : Nat) : Option (List Byte) :=
  (findRange (s.part p).ranges a).map (fun e => memBlock s.mem (e.pbase.toNat + (a - e.vbase.toNat)) 64)

/-- The slot that an illegal encoding names: the lowest whose word is illegal, 15 where it is the header (R25, R287). -/
def badSlot (bs : List Byte) : Nat :=
  let t := splitBundle (BitVec.ofNat 512 (littleEndian bs))
  let words : List (Nat × SlotWord) :=
    [(0, .y t.y), (1, .s t.s), (2, .v .v0 t.v0), (3, .v .v1 t.v1), (4, .m t.m), (5, .l t.l), (6, .q t.q), (7, .x t.x), (8, .c t.c)]
  ((words.find? (fun w => match decodeSlot w.2 with
    | .error _ => true
    | .ok _ => false)).map (·.1)).getD 15

/-- The bundle at an address of a context. -/
def State.fetchAt (s : State) (p : Nat) (x : Ctx) (a : W64) : Fetched :=
  if x.targetOk a then
    match s.codeBytes p a.toNat with
    | none => .unmapped
    | some bs =>
      match decode bs with
      | .ok b => .bundle b
      | .error _ => .illegal (max 1 (splitHeader (BitVec.ofNat 512 (littleEndian bs))).gap.toNat) (badSlot bs)
  else .outside

/-- The bundle at a context's PC. -/
def State.fetch (s : State) (k c : Nat) : Fetched :=
  let x := s.ctx k c
  s.fetchAt (s.partOf k) x x.pc

/-- The gap before what stands at the PC; 1 where nothing is fetched (R52). -/
def Fetched.gap (f : Fetched) : Nat :=
  match f with
  | .outside => 1
  | .unmapped => 1
  | .illegal g _ => g
  | .bundle b => b.hdr.gap.toNat

/-- The boundary of a context: the earliest cycle at which its next bundle may issue (R26, R30, R285, R293, R295). -/
def State.boundary (s : State) (k c : Nat) : Nat := earliest (s.ctx k c) (s.fetch k c).gap

/-- The issue faults of what stands at the PC and is no bundle (R25, R52, R170). -/
def Fetched.fault (f : Fetched) (pc : W64) : Option IssueFault :=
  match f with
  | .outside => some ⟨0x03, 15, 0, pc⟩
  | .unmapped => some ⟨0x07, 15, 0, pc⟩
  | .illegal _ slot => some ⟨0x01, slot, 0, 0⟩
  | .bundle _ => none

/-! ## The state that a bundle reads (R27, R291) -/

/-- The guard triple that a header names (R92). -/
def Ctx.guardOf (x : Ctx) (h : Header) : Vector W32 3 :=
  #v[vget x.regs.p h.ga.toNat 0, vget x.regs.p h.gb.toNat 0, vget x.regs.p h.gc.toNat 0]

/-- The context at the issue of its bundle: entries that await their replay are in flight again, and every write has landed
whose cycle has come (R27, R291). -/
def Ctx.atIssue (x : Ctx) (cy : Nat) : Ctx :=
  Ctx.landed { x with pend := x.pend ++ replayWrites (x.replay.getD []) cy, replay := none } cy

/-- The state that the slots of an issuing bundle read; the first bundle of the task itself sets SFC to 0 (R26, R27). -/
def State.atIssue (s : State) (k c : Nat) (b : Bundle) : State :=
  let cy := s.cyc (s.partOf k)
  let x := (s.ctx k c).atIssue cy
  { s.setCtx k c { x with guard := x.guardOf b.hdr, moved := false, seq := x.seq + 1,
                          sfc0 := if x.st = .bound then some (x.sfc0.getD cy) else x.sfc0 } with cur := (k, c) }

/-- The operations of a bundle, as the issue sees them. -/
def bundleForms (b : Bundle) : List Form := b.ops.filterMap formOf

/-- Those that their guards let act. -/
def State.acting (v : State) (b : Bundle) : List Form := (bundleForms b).filter (fun f => f.acts v)

/-! ## The rules of a whole bundle (R28, R34 to R37, R42, R82) -/

/-- The predicates that the guard triple names and the wait registers that WAIT names (R35, R92). -/
def headerReads (h : Header) : List Dest :=
  [.p h.ga.toNat, .p h.gb.toNat, .p h.gc.toNat] ++ ((List.range 8).filter (fun i => h.wait.getLsbD i)).map (fun i => .wt i)

/-- The registers that a bundle reads, whatever its guards (R35). -/
def State.bundleReads (v : State) (b : Bundle) : List Dest := headerReads b.hdr ++ (bundleForms b).flatMap (fun f => (f.use v).reads)

/-- The destinations that the operations of a bundle name (R28). -/
def State.named (v : State) (b : Bundle) : List Dest := (bundleForms b).flatMap (fun f => (f.use v).writes.map (fun w => w.1.name))

/-- The registers that a bundle writes, whatever its guards (R35). -/
def State.bundleWrites (v : State) (b : Bundle) : List Dest :=
  (bundleForms b).flatMap (fun f => ((f.use v).writes ++ (f.use v).also).map (fun w => w.1.name))

/-- Two of a list are equal. -/
def twice (l : List Dest) : Bool :=
  match l with
  | [] => false
  | d :: r => r.contains d || twice r

/-- A vector slot's opcode uses the divide and square-root unit (R42). -/
def divides (i : Instr) : Bool :=
  match i with
  | .vfdiv .. => true
  | .vfsqrt .. => true
  | .vfrsq .. => true
  | .vfrcp .. => true
  | _ => false

def isMode (i : Instr) : Bool :=
  match i with
  | .mode .. => true
  | _ => false

/-- A bundle breaks a rule that no single slot shows (R28, R34 to R37, R42). -/
def State.bundleIllegal (v : State) (b : Bundle) : Bool :=
  let x := v.me
  (b.hdr.form == 1) != (x.st == .handler)
    || twice (v.named b)
    || (decide (0 < x.group.bundles) && (v.bundleReads b).any (fun d => x.group.written.contains d.name))
    || (decide (15 ≤ x.group.bundles) && b.hdr.stop)
    || (b.v0.any divides && b.v1.any divides)

/-! ## Holds (R30, R31, R89, R98, R199, R200, R272) -/

/-- Every wait register that a header names is satisfied (R30, R89). -/
def Ctx.waitsOk (x : Ctx) (h : Header) : Bool := (List.range 8).all (fun i => !h.wait.getLsbD i || x.waitOk i)

/-- A scheduled load whose data has not arrived by t + λ stops the context (R199). -/
def Ctx.lateLoad (x : Ctx) (cy : Nat) : Bool :=
  x.pend.any (fun w => decide (w.land ≤ cy) && w.src != .ldc && w.src != .atomic && !w.lands cy)

/-- A bundle at a cycle, in the state that it will read, meets a write in flight that R31 holds it for: one due later to a
register that it reads, or one that would not land before its own; the value of an LDCV that is late counts until it has come,
whichever bundle of the group names its register (R200). The rotation shift of the stage predicates at an END bundle,
which R99 counts among a bundle's writes for R28, is neither a read nor a write of the bundle here (DEDUCED, log 18). -/
def State.bundleHeld (v : State) (pend : List Write) (b : Bundle) (due : Nat) : Bool :=
  let us := (v.acting b).map (fun f => f.use v)
  let reads := (headerReads b.hdr ++ us.flatMap (fun u => u.reads)).map (fun d => d.name)
  let writes := us.flatMap (fun u => u.writes ++ u.also)
  let late := fun (w : Write) => w.src != .core && w.arrive.isNone && decide (w.land ≤ v.t)
  pend.any (fun w => ((decide (due < w.land) || late w) && reads.contains w.dest.name)
    || writes.any (fun d => d.1 == w.dest && (decide (due + d.2 ≤ w.land) || late w)))

/-- The context as a later bundle of the group reads it: every write landed that is due by then. -/
def Ctx.ahead (x : Ctx) (due : Nat) : Ctx :=
  (sortBy (fun w => w.land) (x.pend.filter (fun w => decide (w.land ≤ due)))).foldl
    (fun (x : Ctx) w => x.landWrite w.dest w.mask w.value) { x with pend := x.pend.filter (fun w => !decide (w.land ≤ due)) }

/-- The context at the next bundle of the group; none where the group closes (R34). -/
def State.groupNext (v : State) (b : Bundle) : Option Ctx :=
  if !b.hdr.stop || b.hdr.yield then none
  else
    let r := match b.s.bind formOf with
      | some f => if f.acts v then (f.sem v).effect v else v
      | none => v
    if r.me.moved then none
    else
      let e := r.loopEnd v.me.pc v.me.regs.p
      if e.2 then none else some { v.me with levels := e.1.me.levels, pc := v.me.pc + 64 }

/-- A hold of R31 on the group whose bundle stands first in the list of those still to check: every bundle at the cycle it is
due under its gap. -/
def State.groupHeld (pend : List Write) : Nat → State → Bundle → Nat → Bool
  | 0, _, _, _ => false
  | n + 1, v, b, due =>
    v.bundleHeld pend b due ||
      (match v.groupNext b with
        | none => false
        | some x =>
          match v.fetchAt v.myPart x x.pc with
          | .bundle b' =>
            let at_ := due + b'.hdr.gap.toNat
            let y := x.ahead at_
            State.groupHeld pend n (v.onMe (fun _ => { y with guard := y.guardOf b'.hdr })) b' at_
          | _ => false)

/-- The hold of R31, taken at the first bundle of a group in interlocked mode; raw is the context before its replay. The register
of an LDC or LDCV counts for every bundle of the group until the cycle at which its value is due (R200). -/
def State.interlock (v : State) (raw : Ctx) (b : Bundle) : Nat :=
  if v.me.il && v.me.group.bundles == 0 && State.groupHeld (raw.pend.filter (fun w => !w.onlyTrap)) 16 v b v.t then ovInterlock else 0

/-- The hold of a register that an LDC or LDCV has marked pending, or that a snapshot entry with PD keeps so (R200, R290, R292). -/
def State.pendingHold (v : State) (b : Bundle) : Nat :=
  let us := (v.acting b).map (fun f => f.use v)
  let names := (headerReads b.hdr ++ us.flatMap (fun u => u.reads ++ (u.writes ++ u.also).map (·.1))).map (fun d => d.name)
  if v.me.pend.any (fun w => w.src == .ldc && names.contains w.dest.name) || v.me.pending.any (fun d => names.contains d.name)
  then ovInterlock else 0

/-- What a context waits for whatever its bundle: a late load, and the hold of a DRAIN, FENCE, FLUSH or INVAL (R199, R272). -/
def State.contextHolds (s : State) (k c : Nat) : Nat :=
  let x := s.ctx k c
  (if x.lateLoad (s.cyc (s.partOf k)) then ovEngine else 0) ||| (if x.hold.isSome then ovSync else 0)

/-- A fabric command has been late for credits, or waits for them now: it is the next to start and nothing else keeps it, or it
has started and its port carries nothing (R218, R323, R356). -/
def State.copyStarves (v : State) (x : CopyCmd) : Bool :=
  x.starved ||
    (if x.started.isSome then v.portShut v.myPart x
    else v.lacksCredits v.myPart x && (match nextCopy v.myCore.copies with
      | some (_, y) => y.id == x.id && v.myCore.copyStartAt.any (fun u => decide (u ≤ v.t))
      | none => false))

/-- DET: a wait on TF is not satisfied while a fabric command of the context that it waits for, one numbered up to its target, has
been late for credits, or still waits for them (R323). -/
def State.starves (v : State) (h : Header) : Bool :=
  v.isDet v.myPart
    && (List.range 8).any (fun i => h.wait.getLsbD i && !v.me.waitOk i && decide ((vget v.me.regs.wc i 0).toNat = ctrTF)
      && v.myCore.copies.any (fun x => x.ctx == v.cur.2 && (copyCounter x.opcode == ctrTF)
        && decide (x.number ≤ (vget v.me.regs.wt i 0).toNat) && v.copyStarves x))

/-- What keeps a bundle from issuing, as OVCAUSE bits (R30, R32, R98, R192, R323). -/
def State.bundleHolds (v : State) (raw : Ctx) (b : Bundle) : Nat :=
  let sems := (v.acting b).map (fun f => f.sem v)
  let engines := (sems.map (fun o => o.holds)).foldl (· ||| ·) 0
  let aq := (sems.map (fun o => o.aq)).foldl (· + ·) 0
  (if v.me.waitsOk b.hdr then 0 else ovWait) ||| (if v.starves b.hdr then ovEngine else 0) ||| v.interlock raw b ||| v.pendingHold b ||| engines ||| v.queueHold v.cur.1 aq

/-! ## Issue faults of a bundle (R25, R287) -/

/-- The issue faults of a bundle: a broken rule, a MODE with STOP set (R82), and those of every slot, its windows whatever its
guard (R25, R98). -/
def State.bundleFaults (v : State) (b : Bundle) : List IssueFault :=
  (if v.bundleIllegal b then [⟨0x01, 15, 0, 0⟩] else []) ++ (if b.hdr.stop && b.s.any isMode then [⟨0x01, slotS, 0, 0⟩] else [])
    ++ (bundleForms b).flatMap (fun f => windowFaults f.slot (f.use v).bad ++ (f.sem v).faults)

/-! ## The issue slot (R16, R18, R32, R36, R293) -/

/-- A context that issues bundles: BOUND or in its handler, not waiting for the snapshot buffer, not pre-empted. -/
def Ctx.live (x : Ctx) : Bool := (x.st == .bound || x.st == .handler) && !x.stopped && !x.preempt.hasLanded

/-- A context whose boundary has come and that takes no trap there. -/
def State.atBoundary (s : State) (k c : Nat) : Bool :=
  (s.ctx k c).live && decide (s.boundary k c ≤ s.cyc (s.partOf k)) && (s.enterTrap k c).isNone

/-- A pre-emption that is due to be forced stops the context (R299). -/
def State.forceDue (s : State) (k c : Nat) : Bool :=
  let p := s.partOf k
  let x := s.ctx k c
  match x.preempt with
  | .requested t => !s.isDet p && x.st == .bound && decide (t + Config.forceAfter ≤ s.cyc p ∧ s.boundary k c ≤ s.cyc p)
  | _ => false

/-- The context numbers of a core that are not FREE. -/
def Core.numbers (r : Core) : List Nat := r.ctxs.map (·.1)

/-- THR: a context is eligible when its gap has elapsed and its waits are satisfied (R18). -/
def State.eligible (s : State) (k c : Nat) : Bool :=
  s.atBoundary k c && !s.forceDue k c &&
    (match s.fetch k c with
      | .bundle b => ((s.ctx k c).atIssue (s.cyc (s.partOf k))).waitsOk b.hdr
      | _ => true)

/-- The order in which a core offers its issue slot: round-robin after the context that yielded last (R18). -/
def Core.order (r : Core) : List Nat := (List.range 8).map (fun i => (r.lastYield + 1 + i) % 8)

/-- THR: the context that gains the free issue slot: a handler's before others (R18, R293). -/
def State.nextRunner (s : State) (k : Nat) : Option Nat :=
  let es := (s.core k).order.filter (fun c => (s.ctx? k c).isSome && s.eligible k c)
  match es.find? (fun c => (s.ctx k c).st == .handler) with
  | some c => some c
  | none => es.head?

/-- A stamped bundle falls due in this cycle, whether or not its context takes a trap at that boundary instead: its stamp has set
the slot aside for it (R18, R26; DEDUCED, log 33). -/
def State.stampDue (s : State) (k c : Nat) : Bool :=
  s.stamped k c && (s.ctx k c).live && decide (s.boundary k c ≤ s.cyc (s.partOf k))

/-- DET: the issue slot is not for this context: another run holds it, it has been used in this cycle, or a lower-numbered
context's bundle falls due too (R18, R32). -/
def State.slotTaken (s : State) (k c : Nat) : Bool :=
  let r := s.core k
  (match r.run with
    | some d => d != c
    | none => r.numbers.any (fun d => decide (d < c) && s.stampDue k d))
    || r.lastIssueCycle == some (s.cyc (s.partOf k))

/-- A bundle without a stamp may use the issue slot in this cycle: in THR the run's, or that of the context that gains the
slot; in DET, where handlers alone have none, one where no stamped bundle is due. -/
def State.mayUse (s : State) (k c : Nat) : Bool :=
  let r := s.core k
  r.lastIssueCycle != some (s.cyc (s.partOf k)) &&
    (if s.isDet (s.partOf k) then
      !(r.numbers.any (fun d => s.stampDue k d))
    else
      match r.run with
      | some d => d == c
      | none => s.nextRunner k == some c)

/-! ## What a context's cycle brings (R29, R30, R32, R285) -/

/-- What becomes of a context's next bundle in this cycle. -/
inductive Verdict where
  /-- Nothing: its boundary has not come, it takes a trap, or the issue slot is not its own. -/
  | nothing
  /-- It is held (R30). -/
  | held
  /-- It raises an issue fault (R285). -/
  | fault (f : IssueFault)
  /-- It is late: OVCAUSE (R32). -/
  | late (cause : Nat)
  /-- It issues. -/
  | issues (b : Bundle)
  deriving DecidableEq, Repr

/-- The verdict on a bundle without a stamp: what holds it comes before its faults (R30). -/
def State.unstampedVerdict (s : State) (k c : Nat) : Verdict :=
  if !s.mayUse k c || s.forceDue k c then .nothing
  else if s.contextHolds k c ≠ 0 then .held
  else
    match s.fetch k c with
    | .bundle b =>
      let v := s.atIssue k c b
      if v.bundleHolds (s.ctx k c) b ≠ 0 then .held
      else
        match worst (v.bundleFaults b) with
        | some f => .fault f
        | none => .issues b
    | f => match f.fault (s.ctx k c).pc with
      | some e => .fault e
      | none => .nothing

/-- The verdict on a bundle at its stamp: an issue fault comes before lateness (R32, R287). -/
def State.stampedVerdict (s : State) (k c : Nat) : Verdict :=
  let slot := if s.slotTaken k c then ovSlot else 0
  match s.fetch k c with
  | .bundle b =>
    let v := s.atIssue k c b
    match worst (v.bundleFaults b) with
    | some f => .fault f
    | none =>
      let cause := slot ||| s.contextHolds k c ||| v.bundleHolds (s.ctx k c) b
      if cause ≠ 0 then .late cause else .issues b
  | f => match f.fault (s.ctx k c).pc with
    | some e => .fault e
    | none => .nothing

def State.verdict (s : State) (k c : Nat) : Verdict :=
  if !s.atBoundary k c then .nothing
  else if s.stamped k c then s.stampedVerdict k c
  else s.unstampedVerdict k c

/-! ## Issue (R27, R29, R34, R58, R278, R298) -/

/-- The order in which the effects of a bundle's slots are put together. -/
def slotOrder : List Nat := [5, 6, 2, 3, 4, 7, 8, 0, 1]

/-- The effects of every slot of a bundle, each from what the bundle reads at issue, one after another from a state on (R27,
R29). -/
def State.performSlots (v r : State) (b : Bundle) : State :=
  slotOrder.foldl (fun r n => ((bundleForms b).filter (fun f => f.slot == n)).foldl (fun r f => (f.sem v).effect r) r) r

/-- The figure of a host ingress entry's address (R180, R181, R278). -/
def State.ingressFigure (s : State) (k : Nat) (a : W64) : Nat :=
  match findRange (s.part (s.partOf k)).ranges a.toNat with
  | some e => lambdaOf (s.mult (s.partOf k)) (clusterOf k) (e.pbase.toNat + (a.toNat - e.vbase.toNat)) e.res.toNat
  | none => 0

/-- The TG numbers that the wait registers of a bundle reach (R65, R269). -/
def Ctx.tgReached (x : Ctx) (h : Header) (n : Nat) : Bool :=
  (List.range 8).any (fun i => h.wait.getLsbD i && decide ((vget x.regs.wc i 0).toNat = ctrTG ∧ n ≤ (vget x.regs.wt i 0).toNat))

/-- A satisfied wait on TG acquires at package scope where an arrival of its phases named it: the cluster's cache is written back
and invalidated before the bundle's own accesses, at no cost of its own (R65, R269, R271, R276; DEDUCED, log 64). -/
def State.acquirePackage (v : State) (h : Header) : State :=
  if v.me.tgPackage.any (v.me.tgReached h) then
    (v.flushCluster (clusterOf v.cur.1) (fun _ => true) true).onMe (fun x =>
      { x with tgPackage := x.tgPackage.filter (fun n => !x.tgReached h n) })
  else v

/-- A wait register of the header waits for an operation of a counter that p holds of (R268, R269). -/
def Ctx.waitsFor (x : Ctx) (h : Header) (p : Nat → Bool) : Bool :=
  (List.range 8).any (fun i => h.wait.getLsbD i && p (vget x.regs.wc i 0).toNat && vget x.regs.wt i 0 != 0)

/-- The highest number of TA that a bundle waits for (R200, R269). -/
def Ctx.taWaited (x : Ctx) (h : Header) : Nat :=
  maxOf (((List.range 8).filter (fun i => h.wait.getLsbD i && (vget x.regs.wc i 0).toNat == ctrTA)).map (fun i => (vget x.regs.wt i 0).toNat))

/-- The satisfied waits of a bundle acquire: a package release, and the order of the context's earlier remote writes with what it
reads from now on (R65, R200, R209, R269, R387; log 5). -/
def State.acquireWaits (v : State) (h : Header) : State :=
  let s := v.acquirePackage h
  if v.me.waitsFor h (fun n => n != ctrTA) then s.onPart s.myPart (fun q => q.drained v.cur.1 v.cur.2)
  else if v.me.waitsFor h (fun n => n == ctrTA) then s.onPart s.myPart (fun q => q.drainedPassed v.cur.1 v.cur.2 (v.me.taWaited h))
  else s

/-- The bytes that the mask of an entry names, at their homes (R277, R278). -/
def State.ingressBytes (s : State) (p : Nat) (e : Ingress) : List PByte :=
  let bs := (e.bytes.zip (List.range e.bytes.length)).map (fun b => (b.1, if e.mask.getLsbD b.2 then (0xFF : Byte) else 0))
  (s.physWrite p e.addr.toNat bs).filter (fun b => b.mask != 0)

/-- Some byte belongs to the kernel image of a launch in progress (R357). -/
def Partition.imageHas (q : Partition) (bs : List PByte) : Bool := bs.any (fun b => (q.imageByte b.pa 1).isSome)

/-- An entry is discarded and counted (R277, R357). -/
def Partition.discardEntry (q : Partition) (id : Nat) : Partition :=
  { q with ingress := q.ingress.filter (fun e => e.id != id), counts := { q.counts with ingressDiscards := satInc q.counts.ingressDiscards } }

/-- One entry is applied: it takes the next TH number, and its writes perform a figure later; one that a kernel image refuses is
discarded (R278, R357). -/
def State.applyEntry (s : State) (e : Ingress) : State :=
  let p := s.myPart
  let bs := s.ingressBytes p e
  if s.myP.imageHas bs then s.onPart p (fun q => q.discardEntry e.id)
  else
    let n := s.takeNumber ctrTH
    let f := n.2.figure p (n.2.ingressFigure s.cur.1 e.addr)
    let b := f.2.engineBursts s.cur.1 s.cur.2 (s.t + f.1) e.id (s.me.st == .handler) (s.extentLines p [(e.addr.toNat, e.bytes.length)])
    (b.2.onPart p (fun q => { q with ingress := q.ingress.map (fun x => if x.id = e.id then { x with applied := true } else x) })).addOp p
      (some (s.t + f.1 + b.1)) s.cur.1 s.cur.2 s.t (.ingress e.id bs n.1)

/-- A HOST bundle applies every entry that has fully arrived, in arrival order; one that has not keeps back those behind it
(R277, R278). -/
def State.applyIngress (s : State) : State :=
  ((s.myP.ingress.filter (fun e => !e.applied)).takeWhile (fun e => e.arrived)).foldl State.applyEntry s

/-- The end of a bundle that leaves its context BOUND or in its handler: the next PC, with the loop-end rule; whether the
group closes, and whether a loop went round (R34, R52, R58). -/
def State.advance (v r : State) : State × Bool × Bool :=
  let a := v.me.pc
  if r.me.moved then (r, true, false)
  else
    let e := (r.onMe (fun x => { x with pc := a + 64 })).loopEnd a v.me.regs.p
    (e.1, e.2, e.2)

/-- The group after a bundle (R34, R36). -/
def State.nextGroup (v : State) (b : Bundle) (closes : Bool) : Group :=
  if closes || !b.hdr.stop || b.hdr.yield || v.me.st == .handler then ⟨0, []⟩
  else ⟨v.me.group.bundles + 1, v.me.group.written ++ v.bundleWrites b⟩

/-- A request to pre-empt lands after a loop END that goes round, a PRE or a YIELD bundle; in DET after a YIELD alone; a trap
that the boundary takes comes first (R298, R300). -/
def State.landPreempt (s : State) (k c : Nat) (round : Bool) (h : Header) : State :=
  let x := s.ctx k c
  let point := if s.isDet (s.partOf k) then h.yield else h.yield || h.pre || round
  match x.preempt with
  | .requested _ =>
    if point && x.st == .bound && x.takable.isEmpty then (s.setCtx k c { x with preempt := .landed false }).endRun k c else s
  | _ => s

/-- The context gains the issue slot when it is free; a DET handler issues without it (R16, R18, R293). -/
def State.gainSlot (s : State) (k c : Nat) : State :=
  if s.isDet (s.partOf k) && (s.ctx k c).st == .handler then s
  else s.onCore k (fun r => if r.run = none then { r with run := some c } else r)

/-- The issue slot has been used in this cycle (R18). -/
def State.useSlot (s : State) (k : Nat) (used : Bool) : State :=
  if used then s.onCore k (fun r => { r with lastIssueCycle := some (s.cyc (s.partOf k)) }) else s

/-- What a bundle leaves once its slots have acted: the PC moves on, the group and the run go on or end, and a request to
pre-empt may land; v is the state that the bundle read. -/
def State.closeBundle (v r : State) (k c : Nat) (b : Bundle) : State :=
  if (r.ctx k c).st != v.me.st then r.onCtx k c (fun x => { x with group := ⟨0, []⟩, moved := false })
  else
    let e := v.advance r
    let r := e.1.onMe (fun x => { x with lastIssue := some v.t, group := v.nextGroup b e.2.1, moved := false })
    let r := if b.hdr.yield then r.endRun k c else r
    r.landPreempt k c e.2.2 b.hdr

/-- A bundle issues: its waits acquire, host entries are applied, so that WADD.t counts their numbers (R268), every slot acts, and
the context moves on. -/
def State.issueBundle (s : State) (k c : Nat) (b : Bundle) : State :=
  let v := ((((s.raiseDue k c).gainSlot k c).useSlot k true).atIssue k c b).acquireWaits b.hdr
  v.closeBundle (v.performSlots (if b.hdr.host then v.applyIngress else v) b) k c b

/-- BUNDLE_ISSUE: the bundle issues, is held, or raises an issue fault. -/
def execBundleIssue (core ctx : Nat) (s : State) : Host.Outcome State Fault Refusal :=
  match s.ctx? core ctx with
  | none => notDue
  | some x =>
    match s.verdict core ctx with
    | .nothing => notDue
    | .late _ => notDue
    | .held => .next (s.gainSlot core ctx)
    | .fault f =>
      let used := !(s.stamped core ctx && s.slotTaken core ctx)
      let s1 := s.raiseDue core ctx
      let s2 := if used then (s1.gainSlot core ctx).useSlot core true else s1
      .next ({ s2 with cur := (core, ctx) }.takeFault core ctx f x.pc)
    | .issues b => .next (s.issueBundle core ctx b)

/-! ## SCHEDULE_OVERRUN (R32, R181, R285, R323) -/

/-- The check of an access that is still in flight at its padded time (R181). -/
def State.padMissed (s : State) (k c : Nat) : Option Op :=
  (s.part (s.partOf k)).ops.find? (fun o => match o.kind with
    | .padded _ => o.core == k && o.ctx == c && (match o.due with
      | some d => decide (d ≤ s.cyc (s.partOf k))
      | none => false)
    | _ => false)

/-- The copy command whose push the check of a padded time is for. -/
def Partition.pushedBy (q : Partition) (o : Op) : Option Nat :=
  match o.kind with
  | .padded target => (q.ops.find? (fun e => e.id == target)).bind (fun e => match e.kind with
    | .push _ _ _ _ copy => copy
    | _ => none)
  | _ => none

/-- The padded time of an access has come while it is still in flight: it overruns, a copy command once for all of its pushes, but
for an access of a handler bundle (R36, R175, R181). -/
def State.missPadded (s : State) (k c : Nat) (o : Op) : State :=
  let q := s.part (s.partOf k)
  let twins := match q.pushedBy o with
    | some i => (q.ops.filter (fun (e : Op) => q.pushedBy e == some i)).map (fun (e : Op) => e.id)
    | none => [o.id]
  let s := twins.foldl (fun s i => s.dropOp (s.partOf k) i) s
  if o.handler then s else s.raiseLate k c false

/-- SCHEDULE_OVERRUN: a padded access that is late, or a bundle that cannot issue at its stamp. -/
def execScheduleOverrun (core ctx : Nat) (s : State) : Host.Outcome State Fault Refusal :=
  match s.padMissed core ctx with
  | some o => .next (s.missPadded core ctx o)
  | none =>
    match s.ctx? core ctx, s.verdict core ctx with
    | some _, .late cause =>
      .next (((s.raiseDue core ctx).useSlot core (!s.slotTaken core ctx)).overrun core ctx cause)
    | _, _ => notDue

/-! ## TRAP_ENTRY (R285, R288, R293 to R297) -/

/-- A context that stands at a boundary where it may take a trap: a CLOSING one at any cycle, others from the boundary of
their next bundle on (R285, R297). -/
def State.mayTrap (s : State) (k c : Nat) : Bool :=
  let x := s.ctx k c
  !x.stopped && (x.st == .closing || (x.live && decide (s.boundary k c ≤ s.cyc (s.partOf k))))

/-- TRAP_ENTRY: in DET the slot of the stamped bundle that was due there is spent with it (R18; DEDUCED, log 33). -/
def execTrapEntry (core ctx : Nat) (s : State) : Host.Outcome State Fault Refusal :=
  match s.ctx? core ctx with
  | none => notDue
  | some _ =>
    if s.mayTrap core ctx then
      match s.enterTrap core ctx with
      | some t => .next (t.useSlot core (s.stampDue core ctx && !s.slotTaken core ctx))
      | none => notDue
    else notDue

/-! ## Pre-emption requests (R298 to R300) -/

/-- The scheduler asks for a context's pre-emption, with the save area that the runtime names; a request to a context that is
not BOUND or in its handler, or that has one already, has no effect. -/
def execPreemptRequest (core ctx : Nat) (area : W64) (s : State) : Host.Outcome State Fault Refusal :=
  match s.ctx? core ctx with
  | none => .next s
  | some x =>
    if (x.st = .bound ∨ x.st = .handler) ∧ x.preempt = .idle then
      .next (s.setCtx core ctx { x with preempt := .requested (s.cyc (s.partOf core)), task := { x.task with saveArea := area } })
    else .next s

/-- A forced pre-emption takes the snapshot buffer as a trap does, with traps masked (R290, R299). -/
def State.forcePreempt (s : State) (k c : Nat) : State :=
  let s := s.raiseDue k c
  let cy := s.cyc (s.partOf k)
  let x := s.ctx k c
  let s1 := s.setCtx k c { x with pend := trapsInFlight x.pend, replay := none, masked := true, preempt := .landed true }
  (s1.onCore k (fun r => { r with snap := some ⟨c, snapEntries x cy⟩ })).endRun k c

/-- FORCED_PREEMPTION: a context whose pre-emption is due ends its run at once; where another context holds the snapshot buffer it
waits for it without the slot (R16, R17, R299). -/
def execForcedPreemption (core ctx : Nat) (s : State) : Host.Outcome State Fault Refusal :=
  if s.forceDue core ctx && s.atBoundary core ctx then
    if (s.core core).snap.isNone then .next (s.forcePreempt core ctx)
    else if (s.core core).run = some ctx then .next (s.endRun core ctx)
    else notDue
  else notDue

end Sys2Proof.Machine
end

