-- ==== Sys2Proof/Machine/Ending.lean ====
section
/-! DEFINITION. How a context becomes FREE: at the end of its task, and by a context save; the save image and its restore
(R50, R56, R61, R188, R189, R248, R266, R301 to R304). -/

namespace Sys2Proof.Machine

/-! ## CONTEXT_FREE (R50, R56) -/

/-- An operation in flight for which its context waits before it becomes FREE: an access, an increment, the task's signal, what
is on its way to an update unit (R50, R56). The release of a LEAVE, a SUBMIT or a HOST entry goes on without its context. -/
def Op.keepsCtx (o : Op) : Bool :=
  match o.kind with
  | .store .. | .atomic .. | .value .. | .oldValue .. | .pop .. | .push .. | .tsInc .. | .signal .. | .arm .. | .contrib .. => true
  | _ => false

/-- An operation in flight for which a context waits before it is saved: its number or its arrival counts there (R301). -/
def Op.keepsSave (o : Op) : Bool :=
  o.keepsCtx || (match o.kind with
    | .arrival .. | .submit .. | .arrive .. | .ingress .. => true
    | _ => false)

/-- An effect of a context is still to come: an operation, a contribution, a copy command, a BANKSET (R56). -/
def State.engaged (s : State) (k c : Nat) (waits : Op → Bool) : Bool :=
  let q := s.part (s.partOf k)
  (q.ops ++ q.contribs).any (fun o => o.core == k && o.ctx == c && waits o)
    || (s.core k).copies.any (fun x => x.ctx == c)
    || (s.cluster (clusterOf k)).runs.any (fun r => r.core == k && r.ctx == c)

/-- A demand of a context has not come to its end; one that is suspended waits for a handler alone (R56, R245). -/
def State.demanding (s : State) (k c : Nat) : Bool :=
  let r := s.core k
  let handled := (s.ctx k c).task.handlerPc.isSome
  r.demands.any (fun d => d.ctx == c && (handled || d.parkedBehind.isNone)) || r.running.any (fun g => g.demand.ctx == c)
    || (handled && r.suspended.any (fun d => d.ctx == c))

/-- The last effect of a CLOSING context has completed, a FLUSH, INVAL or FENCE of its bundles among them; a result that is due now
without a trap of its own lands in the cycle in which its context becomes FREE (R50, R56, R271). -/
def State.mayFree (s : State) (k c : Nat) : Bool :=
  match s.ctx? k c with
  | none => false
  | some x =>
    x.st == .closing && x.pend.all (fun w => w.lands (s.cyc (s.partOf k)) && w.trap.isNone) && x.hold.isNone && x.taskHold.isNone && x.traps.isEmpty && !x.stopped && !s.engaged k c Op.keepsCtx && !s.demanding k c

/-- A core without a context: its nodes are freed, its demands and the spill buffer given up, the snapshot buffer released, its
windows reclaimed (R50, R56, R143, R228, R289). -/
def Core.without (r : Core) (c : Nat) : Core :=
  { r with
    ctxs := amDel r.ctxs c
    armedAt := amDel r.armedAt c
    run := if r.run = some c then none else r.run
    snap := match r.snap with
      | some b => if b.holder = c then none else some b
      | none => none
    nodes := r.nodes.filter (fun n => n.ctx != c)
    demands := r.demands.filter (fun d => d.ctx != c)
    suspended := r.suspended.filter (fun d => d.ctx != c)
    spill := r.spill.filter (fun b => b.ctx != c) }

/-- What a partition still holds for a context, told that it exists no more. -/
def Partition.forget (p : Partition) (k c : Nat) : Partition :=
  let clear := fun (l : Launch) => match l.submitter with
    | some (a, b, n) => if a = k ∧ b = c then { l with submitter := some (goneCore + k, c, n) } else l
    | none => l
  let drop := fun (g : GroupObj) => { g with waiters := g.waiters.filter (fun w => !(w.1 == k && w.2.1 == c)) }
  let late := fun (o : Op) => match o.kind with
    | .tg .. => o.core == k && o.ctx == c
    | _ => false
  { p with
    launches := p.launches.map clear
    groups := p.groups.map (fun e => (e.1, drop e.2))
    arms := p.arms.map (fun a => if a.core = k ∧ a.ctx = c then { a with core := goneCore, ctx := 0 } else a)
    ops := p.ops.filter (fun o => !late o) }

/-- The packets of a SUBMIT that no context waits for any more. -/
def Queue.forget (q : Queue) (k c : Nat) : Queue :=
  { q with submits := q.submits.map (fun e => if e.2.1 = k ∧ e.2.2.1 = c then (e.1, goneCore + k, c, e.2.2.2) else e) }

/-- ARMED contexts of a task whose context has become FREE, at a save too, return to FREE (R188, R301; DEDUCED, log 30). -/
def Core.disarm (r : Core) (owner : Nat) : Core :=
  let gone := r.ctxs.filter (fun e => e.2.st == .armed && e.2.owner == some owner)
  gone.foldl (fun r e => r.without e.1) r

/-- A context becomes FREE, and with it those that its task armed (R50, R188). -/
def State.removeCtx (s : State) (k c : Nat) : State :=
  let s1 := (s.onCore k (fun r => (r.without c).disarm (s.ctx k c).task.uid)).onPart (s.partOf k) (fun p => (p.forget k c).drained k c)
  { s1 with queues := s1.queues.map (fun e => (e.1, e.2.forget k c)) }

/-- What goes on without a context that becomes FREE: the arrivals and leaves that have not counted, under a number of their
own, SUBMITs and HOST entries. -/
def Partition.orphan (p : Partition) (k c id : Nat) : Partition :=
  let rename := fun (o : Op) => if o.core = k ∧ o.ctx = c then
      (match o.kind with
      | .arrival .. => { o with core := goneCore + k, ctx := id }
      | .submit .. => { o with core := goneCore + k }
      | .ingress .. => { o with core := goneCore + k }
      | _ => o)
    else o
  let move := fun (g : GroupObj) =>
    { g with members := g.members.map (fun (m : Nat × Nat × Bool) => if m.1 = k ∧ m.2.1 = c then (goneCore + k, id, m.2.2) else m) }
  { p with ops := p.ops.map rename, groups := p.groups.map (fun (e : Nat × GroupObj) => (e.1, move e.2)) }

/-- A task leaves CLOSING: its context becomes FREE, and the launch counts its end (R56, R322). -/
def State.freeCtx (s : State) (k c : Nat) : State :=
  let x := s.ctx k c
  let s0 := { s.onPart (s.partOf k) (fun p => p.orphan k c (s.nextId + 1)) with nextId := s.nextId + 1 }
  (s0.removeCtx k c).onLaunch (s.partOf k) x.task.launch (fun l =>
    { l with bound := l.bound.filter (fun b => !(b.1 == k && b.2.1 == c)), tends := if x.closeFailed then l.tends else l.tends + 1 })

def execContextFree (core ctx : Nat) (s : State) : Host.Outcome State Fault Refusal :=
  if s.mayFree core ctx then .next (s.freeCtx core ctx) else notDue

/-! ## The save image (R100, R301, R303, R304) -/

/-- A liveness entry as it is used: ranges of window positions in the order VA, VB, LV, QV, predicate mask, wait mask. -/
structure Liveness where
  ranges : List (Nat × Nat)
  preds : Nat
  waits : Nat
  deriving DecidableEq, Repr

/-- The entry that stores whole windows, where none matches (R303). -/
def Ctx.wholeLive (x : Ctx) : Liveness :=
  let f := fun (w : Window) => ([(0, w.size), (0, 0), (0, 0), (0, 0)] : List (Nat × Nat))
  ⟨f x.regs.va ++ f x.regs.vb ++ f x.regs.lv ++ f x.regs.qv, 0xFFFF, 0xFF⟩

/-- An entry of 80 bytes (R303). -/
def Liveness.bytes (l : Liveness) (pc : W64) : List Byte :=
  bytesOf 8 pc.toNat ++ l.ranges.flatMap (fun r => bytesOf 4 (r.1 + r.2 * 2 ^ 16)) ++ bytesOf 8 (l.preds + l.waits * 2 ^ 16)

/-- An entry read from its bytes. -/
def Liveness.ofBytes (bs : List Byte) : Liveness :=
  let half := fun i => natOfBytes ((bs.drop (8 + 4 * i)).take 4)
  let w := natOfBytes ((bs.drop 72).take 8)
  ⟨(List.range 16).map (fun i => (half i % 2 ^ 16, half i / 2 ^ 16)), bitsOf w 0 16, bitsOf w 16 8⟩

/-- The liveness entry of a resume address (R303). -/
def State.liveness (s : State) (p : Nat) (x : Ctx) : Liveness :=
  let entry := fun i => s.homeBytes p (x.task.liveTable.toNat + 80 * i) 80
  match ((List.range x.task.liveCount).map entry).find? (fun bs => natOfBytes (bs.take 8) == x.pc.toNat) with
  | some bs => Liveness.ofBytes bs
  | none => x.wholeLive

/-- The live vector registers in range order, each range cut at its window's end (R303). -/
def Ctx.liveRegs (x : Ctx) (l : Liveness) : List Dest :=
  let file := fun (i n : Nat) => match i / 4 with
    | 0 => Dest.va n
    | 1 => Dest.vb n
    | 2 => Dest.lv n
    | _ => Dest.qv n
  let size := fun (i : Nat) => match i / 4 with
    | 0 => x.regs.va.size
    | 1 => x.regs.vb.size
    | 2 => x.regs.lv.size
    | _ => x.regs.qv.size
  (l.ranges.zip (List.range 16)).flatMap (fun e =>
    ((List.range (min e.1.2 (size e.2 - e.1.1))).map (fun j => file e.2 (e.1.1 + j))))

/-- Words of 8 bytes. -/
def wordsBytes (ws : List Nat) : List Byte := ws.flatMap (bytesOf 8)

/-- The staging numbers 0 to 127 as the image holds them: illegal numbers as 0 (R45, R304). -/
def Ctx.stagingWords (x : Ctx) : List Nat :=
  (List.range 128).map (fun n => if n < 64 ∨ n % 8 ≠ 7 then (x.read64 (stagingDest n)).toNat else 0)

/-- The record of a node (R304). -/
def GNode.record (n : GNode) : List Byte :=
  let w := fun i => (n.words.getD i 0).toNat
  wordsBytes ([n.id % 256 + n.opcode % 256 * 2 ^ 8 + n.na % 256 * 2 ^ 16 + n.nb % 256 * 2 ^ 24 + n.fl % 16 * 2 ^ 32, w 0, w 1, w 2, w 3,
    n.fmt.toNat, n.fxhr.toNat] ++ (List.range 7).map (fun k => (n.frame.word k).toNat) ++ [n.sc.toNat, 0])

/-- The record of a suspended demand (R304). -/
def Demand.record64 (d : Demand) : List Byte :=
  let r := d.record.getD ⟨d.node, false, 0, 0, 0, [], 0, 0⟩
  wordsBytes [d.tm, r.node, (d.words.getD 0 0).toNat, r.tile, r.chunk, r.step, r.umax, 0]

/-- The levels' words of the image (R304). -/
def Ctx.levelWords (x : Ctx) : List Nat :=
  [x.levels.length, b2n x.baseIl] ++ (List.range 6).flatMap (fun i =>
    match x.levels[i]? with
    | some l => (List.range 5).map (fun f => (l.field f).toNat)
    | none => [0, 0, 0, 0, 0])

/-- The registers of a context as the image holds them from 0x140 on (R304). -/
def Ctx.csrWords (x : Ctx) (sfc : Nat) : List Nat :=
  let r := x.csr
  [r.fmt.toNat, b2n r.nf, r.fxhr.toNat, r.gf.toNat, r.bkc.toNat, r.bkv.toNat, r.bkn.toNat, r.grvseq.toNat, r.grvnode.toNat,
    r.tcause.toNat, r.epc.toNat, r.tinfo.toNat, r.ovstamp.toNat, r.ovcause.toNat, sfc, 0] ++ x.regs.hx.toList.map (fun w => w.toNat)

/-- What a save holds beside the context: its cycle, liveness entry, snapshot entries, nodes, suspended demands, and the spill
buffer where one of them holds it. -/
structure SaveParts where
  cy : Nat
  live : Liveness
  entries : List SnapEntry
  nodes : List GNode
  demands : List Demand
  spill : Option Spill
  deriving DecidableEq, Repr

/-- The accumulators that follow a demand's record: those of the spill buffer where it holds it (R245, R304; log 38). -/
def SaveParts.accumulators (q : SaveParts) (d : Demand) : List Byte :=
  match q.spill with
  | some b => if b.tm = d.tm then b.acc.flatMap (fun w => bytesOf 4 w.toNat) else []
  | none => []

/-- The records of the suspended demands, each with its accumulators (R304). -/
def SaveParts.demandPieces (q : SaveParts) : Nat → List Demand → List (Nat × List Byte) × Nat
  | at_, [] => ([], at_)
  | at_, d :: ds =>
    let bs := d.record64 ++ q.accumulators d
    let r := q.demandPieces (at_ + bs.length) ds
    ((at_, bs) :: r.1, r.2)

/-- The save image, as bytes at offsets; words of dead predicates are not written (R304). -/
def Ctx.saveImage (x : Ctx) (q : SaveParts) (forced : Bool) : List (Nat × List Byte) :=
  let regs := x.liveRegs q.live
  let entriesAt := 0xA40 + 128 * regs.length
  let nodesAt := entriesAt + 192 * q.entries.length
  let ds := q.demandPieces (nodesAt + 128 * q.nodes.length) q.demands
  let preds := (List.range 16).filter (fun i => bitAt q.live.preds i)
  [(0, wordsBytes [1 + b2n forced * 2 ^ 8, x.pc.toNat, x.task.taskId.toNat, ds.2, q.entries.length, q.nodes.length, q.demands.length, 0]),
    (0x40, wordsBytes x.levelWords),
    (0x140, wordsBytes (x.csrWords (q.cy - x.sfc0.getD q.cy))),
    (0x200, wordsBytes (x.regs.x.toList.map (fun w => w.toNat))),
    (0x400, wordsBytes ((x.regs.la.toList ++ x.regs.qa.toList).map (fun w => w.toNat))),
    (0x500, wordsBytes x.stagingWords),
    (0x900, wordsBytes (x.counters.toList.map (fun r => r.value) ++ x.counters.toList.map (fun r => r.taken))),
    (0x9C0, q.live.bytes x.pc ++ List.replicate 48 0),
    (0xA40, regs.flatMap (fun d => bytesOf 128 (x.read d).toNat)),
    (entriesAt, q.entries.flatMap (fun e => e.image x)),
    (nodesAt, q.nodes.flatMap (fun n => n.record))]
    ++ preds.map (fun i => (0x980 + 4 * i, bytesOf 4 (vget x.regs.p i 0).toNat)) ++ ds.1

/-! ## CONTEXT_SAVE (R248, R266, R301, R302) -/

/-- A demand of the context that waits for a handler: suspended, or parked behind one that is (R245, R261). -/
def State.waitingDemands (s : State) (k c : Nat) : List Demand :=
  (s.core k).suspended.filter (fun d => d.ctx == c) ++ (s.core k).demands.filter (fun d => d.ctx == c && d.parkedBehind.isSome)

/-- Every number that a context has taken has completed; of TM, those of suspended demands, and of the ones parked behind them, may
be open (R261, R266). -/
def State.numbersDone (s : State) (k c : Nat) : Bool :=
  let x := s.ctx k c
  let open_ := fun i => (x.counter i).taken - (x.counter i).value - ((x.counter i).done.length)
  ([ctrTC, ctrTF, ctrTA, ctrTG, ctrTH, ctrTQ].all (fun i => open_ i == 0))
    && open_ ctrTM == (s.waitingDemands k c).length

/-- The entries of a forced save; complete when each has its value. -/
def State.forcedEntries (s : State) (k c : Nat) : List SnapEntry :=
  match (s.core k).snap with
  | some b => if b.holder = c then b.entries else []
  | none => []

/-- A save may be made: every number and demand, every load value and every effect has come to its end (R248, R266, R301). -/
def State.maySave (s : State) (k c : Nat) : Bool :=
  match s.ctx? k c with
  | none => false
  | some x =>
    let cy := s.cyc (s.partOf k)
    let demands := (s.core k).demands.any (fun d => d.ctx == c && d.parkedBehind.isNone) || (s.core k).running.any (fun g => g.demand.ctx == c)
    x.preempt.hasLanded && x.pend.isEmpty && x.hold.isNone && s.numbersDone k c && !demands && !s.engaged k c Op.keepsSave
      && (s.forcedEntries k c).all (fun e => match e.arrive with
        | some a => decide (a ≤ cy)
        | none => false)

/-- The offset of the image in its save area: after the restore block in DET (R301, R302). -/
def State.imageAt (s : State) (p : Nat) (area : W64) : Nat := area.toNat + if s.isDet p then 64 else 0

/-- The restore block of a DET save area: core, context and START; none where a bit that must be 0 is not, or the core lies
outside the partition (R302). -/
def State.restoreBlock (s : State) (p : Nat) (area : W64) : Option (Nat × Nat × Nat) :=
  let bs := s.homeBytes p area.toNat 64
  let w0 := natOfBytes (bs.take 8)
  if bitsOf w0 11 53 = 0 ∧ (bs.drop 16).all (fun b => b == 0) ∧ s.inPartition p (bitsOf w0 0 8) then
    some (bitsOf w0 0 8, bitsOf w0 8 3, natOfBytes ((bs.drop 8).take 8))
  else none

/-- A launch that will not restore a task: it completes as START_MISSED (R302, R321). -/
def State.failRestore (s : State) (p : Nat) (launch : Nat) (task : W64) (status : Nat) : State :=
  s.onLaunch p launch (fun l => l.fail (s.cyc p) status task 0 0 0)

/-- A saved task is given up, for a bad restore block, a missed START or an image that does not restore: it holds no group any
more, and its launch fails. That no phase is tested for its completion then is the model's choice (R302, R304; DESIGN CHOICE, log
63). -/
def State.dropSaved (s : State) (p : Nat) (v : Saved) (status : Nat) : State :=
  let leave := fun (g : GroupObj) => { g with members := g.members.filter (fun m => m.1 != savedCore v.id) }
  let s1 := s.onPart p (fun y => { y with
    saved := y.saved.filter (fun e => e.id != v.id)
    groups := y.groups.map (fun e => (e.1, leave e.2)) })
  s1.failRestore p v.launch v.task.taskId status

/-- The context's image is written at its home, in DET with bursts of the partition's slots (R179, R346), a node that is dropped and that a suspended demand still needs with the others
(R242, R248), and the context becomes FREE; in DET a restore block that is not legal gives the
task up at once, and the flushes that its restore needs begin (R301, R302, R318). -/
def State.saveCtx (s : State) (k c : Nat) : State :=
  let p := s.partOf k
  let x := s.ctx k c
  let r := s.core k
  let forced := x.preempt == .landed true
  let spill := r.spill.filter (fun b => b.ctx == c)
  let nodes := r.nodes.filter (fun n => n.ctx == c)
  let q : SaveParts := ⟨s.cyc p, s.liveness p x, s.forcedEntries k c, nodes,
    r.suspended.filter (fun d => d.ctx == c), spill⟩
  let base := s.imageAt p x.task.saveArea
  let image := x.saveImage q forced
  let s0 := s.useBursts p (s.extentLines p (image.map (fun e => (base + e.1, e.2.length)))).eraseDups
  let s1 := image.foldl (fun s e => s.homeStore p (base + e.1) e.2) s0
  let id := s1.nextId
  let place := if s.isDet p then s1.restoreBlock p x.task.saveArea else none
  let prio := (((s.part p).launch? x.task.launch).map (fun l => l.base)).getD 0
  let sv : Saved := ⟨id, x.task.launch, x.task.index, x.task.saveArea, x.task, x.groups, x.tgPackage, x.traps, s.waitingDemands k c,
    spill.map (fun b => b.tm), (nodes.filter (fun n => n.dropped)).map (fun n => n.id), prio, s.cyc p, place⟩
  let move := fun (g : GroupObj) => { g with members := g.members.map (fun (m : Nat × Nat × Bool) => if m.1 = k ∧ m.2.1 = c then (savedCore id, 0, m.2.2) else m) }
  let s2 := ({ s1 with nextId := id + 1 }.removeCtx k c).onPart p (fun y => { y with groups := y.groups.map (fun (e : Nat × GroupObj) => (e.1, move e.2)) })
  let s3 := s2.onLaunch p x.task.launch (fun l => { l with bound := l.bound.filter (fun b => !(b.1 == k && b.2.1 == c)) })
  let s4 := s3.onPart p (fun y => { y with saved := y.saved ++ [sv] })
  if s.isDet p then (if place.isNone then s4.dropSaved p sv 2 else s4.settleLaunches p) else s4

def execContextSave (core ctx : Nat) (s : State) : Host.Outcome State Fault Refusal :=
  if s.maySave core ctx then .next (s.saveCtx core ctx) else notDue

/-! ## The restore of an image (R248, R301 to R304) -/

/-- A number of 8 bytes at an offset of a list of bytes. -/
def wordAt (bs : List Byte) (at_ : Nat) : Nat := natOfBytes ((bs.drop at_).take 8)

/-- The fixed part of an image, 0xA40 bytes. -/
def imageFixed : Nat := 0xA40

/-- A frame read from seven words. -/
def frameOf (w : Nat → W64) : Frame := (List.range 7).foldl (fun f k => f.setWord k (w k)) Frame.zero

/-- The registers and the sequencer of an image; a dead predicate and a dead wait register hold 0 (R100, R303). -/
def Ctx.loadImage (x : Ctx) (bs : List Byte) (l : Liveness) : Ctx :=
  let w := fun (a : Nat) => (BitVec.ofNat 64 (wordAt bs a) : W64)
  let depth := min 6 (wordAt bs 0x40)
  let level := fun (i : Nat) => (List.range 5).foldl (fun l f => Level.setField l f (w (0x50 + 40 * i + 8 * f))) ⟨0, 0, 0, 0, 0, false, 0, 0, false⟩
  let r := x.regs
  let regs := { r with
    x := Vector.ofFn (fun i => w (0x200 + 8 * i.val))
    hx := Vector.ofFn (fun i => w (0x1C0 + 8 * i.val))
    la := Vector.ofFn (fun i => w (0x400 + 8 * i.val))
    qa := Vector.ofFn (fun i => w (0x480 + 8 * i.val))
    ms := Vector.ofFn (fun i => w (0x500 + 8 * i.val))
    ds := Vector.ofFn (fun i => w (0x580 + 8 * i.val))
    wt := Vector.ofFn (fun i => if bitAt l.waits i.val then w (0x600 + 16 * i.val) else 0)
    wc := Vector.ofFn (fun i => if bitAt l.waits i.val then (w (0x608 + 16 * i.val)).truncate 3 else 0)
    sc := Vector.ofFn (fun i => w (0x680 + 8 * i.val))
    df := Vector.ofFn (fun i => frameOf (fun k => w (0x700 + 64 * i.val + 8 * k)))
    p := Vector.ofFn (fun i => if bitAt l.preds i.val then BitVec.ofNat 32 (natOfBytes ((bs.drop (0x980 + 4 * i.val)).take 4)) else 0) }
  let c : Csrs := ⟨(w 0x140).truncate 32, (w 0x148).getLsbD 0, (w 0x150).truncate 9, (w 0x158).truncate 32, w 0x160,
    (w 0x168).truncate 32, (w 0x170).truncate 8, w 0x178, (w 0x180).truncate 8, w 0x188, w 0x190, w 0x198, w 0x1A0,
    (w 0x1A8).truncate 8⟩
  { x with regs := regs, csr := c, pc := w 8, levels := (List.range depth).map level, baseIl := (w 0x48).getLsbD 0,
           counters := Vector.ofFn (fun i => ⟨wordAt bs (0x900 + 8 * i.val), wordAt bs (0x940 + 8 * i.val), []⟩) }

/-- A node read from its record (R304); its remembered blocks are gone (R248). The record has no bit for R256's mark that growth has been
reported, which is clear after the restore (DESIGN CHOICE, log 30). -/
def nodeOf (c : Nat) (bs : List Byte) : GNode :=
  let w := fun i => (BitVec.ofNat 64 (wordAt bs (8 * i)) : W64)
  let h := (w 0).toNat
  let opcode := bitsOf h 8 8
  { ctx := c, id := bitsOf h 0 8, opcode := opcode, na := bitsOf h 16 8, nb := bitsOf h 24 8, fl := bitsOf h 32 4,
    words := (List.range (mWords opcode)).map (fun i => w (1 + i)), fmt := (w 5).truncate 32, fxhr := (w 6).truncate 9,
    frame := frameOf (fun k => w (7 + k)), sc := w 14, done := [], dropped := false, grown := false }

/-- The header and the fixed part of a saved image. -/
def State.savedFixed (s : State) (p : Nat) (v : Saved) : List Byte := s.homeBytes p (s.imageAt p v.area) imageFixed

/-- An image that restores: VERSION 1 and the task's TASKID (R304). -/
def Saved.valid (v : Saved) (bs : List Byte) : Bool := bitsOf (wordAt bs 0) 0 8 == 1 && wordAt bs 0x10 == v.task.taskId.toNat

/-- The number of nodes that a restore appends. -/
def savedNodes (bs : List Byte) : Nat := wordAt bs 0x28

/-- The demand records of an image from an offset on, past the accumulators of the one that held the spill buffer (R304). -/
def State.demandRecords (s : State) (p : Nat) (spill : Option Nat) : Nat → Nat → List (List Byte)
  | 0, _ => []
  | n + 1, at_ =>
    let bs := s.homeBytes p at_ 64
    bs :: s.demandRecords p spill n (at_ + 64 + if spill = some (wordAt bs 0) then 16384 else 0)

/-- A suspended demand as its record gives it, over what the image does not hold of it; of a record that no saved demand has, a
TFORCE of its node and region (R304). -/
def demandOf (c : Nat) (saved : List Demand) (bs : List Byte) : Demand :=
  let w := fun (i : Nat) => wordAt bs (8 * i)
  let region : W64 := BitVec.ofNat 64 (w 2)
  let d := (saved.find? (fun d => d.tm == w 0 && d.parkedBehind.isNone)).getD
    ⟨c, false, w 0, 0x10, w 1, [region], fmtDefault, Frame.zero, 0, 0, none, [], none, none, false⟩
  let r := d.record.getD ⟨w 1, false, 0, 0, 0, [], 0, 0⟩
  { d with ctx := c, words := d.words.set 0 region,
           record := some { r with node := w 1, tile := w 3, chunk := w 4, step := w 5, umax := w 6 } }

/-- The demands of a restored task as its queue takes them: each suspended one, with those parked behind it directly after it
(R248, R261). -/
def requeued (c cy : Nat) (saved : List Demand) (records : List (List Byte)) : List Demand :=
  let ds := (records.map (demandOf c saved)).map (fun d => { d with accepted := cy })
  let behind := fun (f : Nat → Bool) => (saved.filter (fun e => e.parkedBehind.any f)).map (fun e => { e with ctx := c, accepted := cy, parkedBehind := none })
  ds.flatMap (fun d => d :: (behind (fun n => n == d.tm)).map (fun e => { e with abandoned := e.abandoned || d.abandoned }))
    ++ behind (fun n => !ds.any (fun d => d.tm == n))

/-- The counter TM of a restored task: of the numbers above its value only those of the re-queued demands are open (R248, R266). -/
def Counter.restored (r : Counter) (open_ : List Nat) : Counter :=
  if open_.isEmpty then r
  else { r with done := ((List.range (r.taken - r.value)).map (fun i => r.value + 1 + i)).filter (fun n => !open_.contains n) }

/-- A saved task is bound again to a context: the image's registers, nodes, entries and suspended demands, which are queued again,
and what the image does not hold (R248, R266, R301). In DET its bytes take bursts of the partition's slots (R179, R346). SFC goes on from the image's word (R32). -/
def State.restoreCtx (s : State) (p : Nat) (v : Saved) (k c issueAt : Nat) (bases : WinSizes) : State :=
  let bs := s.savedFixed p v
  let l := Liveness.ofBytes (bs.drop 0x9C0)
  let base := s.imageAt p v.area
  let x0 := (Ctx.fresh v.task 0 bases issueAt).loadImage bs l
  let regs := x0.liveRegs l
  let vecs := s.homeBytes p (base + imageFixed) (128 * regs.length)
  let x1 := (regs.zip (List.range regs.length)).foldl
    (fun (x : Ctx) e => x.write e.1 (BitVec.ofNat 1024 (natOfBytes ((vecs.drop (128 * e.2)).take 128)))) x0
  let entriesAt := base + imageFixed + 128 * regs.length
  let count := min 256 (wordAt bs 0x20)
  let es := (x1.snapEntriesOf (s.cyc p) count s.nextId (s.homeBytes p entriesAt (192 * count))).getD []
  let nodesAt := entriesAt + 192 * count
  let node := fun (n : GNode) => { n with dropped := v.dropped.contains n.id }
  let nodes := (List.range (savedNodes bs)).map (fun i => node (nodeOf c (s.homeBytes p (nodesAt + 128 * i) 128)))
  let records := s.demandRecords p v.spill (min 8 (wordAt bs 0x30)) (nodesAt + 128 * nodes.length)
  let ds := requeued c (s.cyc p) v.demands records
  let sfc := wordAt bs 0x1B0
  let x2 := ({ x1 with sfc0 := if sfc = 0 then none else some (issueAt - sfc), groups := v.groups, tgPackage := v.tgPackage, traps := v.traps,
                       replay := if es.isEmpty then none else some es }).onCounter ctrTM (fun r => r.restored (ds.map Demand.tm))
  let s0 := s.useBursts p (s.extentLines p [(base, imageFixed + 128 * regs.length + 192 * count + 128 * nodes.length + 64 * records.length)])
  let s1 := s0.onCore k (fun r => { r with
    ctxs := amSet r.ctxs c x2
    nodes := r.nodes ++ nodes
    demands := r.demands ++ ds })
  let move := fun (g : GroupObj) => { g with members := g.members.map (fun (m : Nat × Nat × Bool) => if m.1 = savedCore v.id then (k, c, m.2.2) else m) }
  let s2 := s1.onPart p (fun y => { y with
    saved := y.saved.filter (fun e => e.id != v.id)
    groups := y.groups.map (fun (e : Nat × GroupObj) => (e.1, move e.2)) })
  { s2.onLaunch p v.launch (fun l => { l.runsOn (clusterOf k) with bound := l.bound ++ [(k, c, v.index)] }) with nextId := s.nextId + es.length }

end Sys2Proof.Machine
end

