-- ==== Sys2Proof/Machine/Queues.lean ====
section
/-! DEFINITION. Work queues: their registers, the service of their rings, and the acceptance of launch packets (R308 to R317,
R321, R351, R355, R357, R359, R366, R384, R385). -/

namespace Sys2Proof.Machine

/-! ## Requests from outside (R355, R371) -/

/-- The health, queue and partition windows are open: bring-up has passed stage 4 (R371). -/
def State.windowsOpen (s : State) : Bool := decide (5 ≤ s.module.stage)

/-- A request that is refused: counted among the host errors, and it changes nothing (R355). -/
def State.abort (s : State) : State :=
  { s with module := { s.module with hostErrors := s.module.hostErrors + 1 } }.answer .refused

/-- The owner of a partition reaches it: the partition exists, its interface is in its RUN state (R355). -/
def State.ownerMay (s : State) (p : Nat) : Bool := s.windowsOpen && (s.part p).st != .none && (s.part p).tdisp

/-- A unit that has been retired (R366). -/
def State.retired (s : State) (u : ErrorUnit) : Bool := s.module.units.any (fun r => r.unit == u && r.retired)

/-! ## Registers (R309, R310, R351) -/

/-- The launches of a queue that have not completed (R351). -/
def State.openLaunches (s : State) (q : Nat) : Nat :=
  ((s.part (s.queue q).part.toNat).launches.filter (fun l => l.queue == q && !l.completing)).length

/-- A queue that becomes ACTIVE: HEAD, tail, COMPLCNT and STATUS are cleared (R309). -/
def Queue.enable (r : Queue) : Queue :=
  { r with en := true, st := .active, err := 0, head := 0, tail := 0, compl := 0, firstRead := none, nextRead := none,
           submits := [], fresh := false }

/-- A queue that becomes DISABLED: packets that have not been accepted are discarded (R309). -/
def Queue.disable (r : Queue) : Queue :=
  { r with en := false, st := .disabled, tail := r.head, firstRead := none, nextRead := none, submits := [], fresh := false }

/-- The watchdog's timer of a queue that passes to a partition: it counts from now where a launch of the queue is open there
(R351, R359; DEDUCED, log 53). -/
def State.timerIn (s : State) (q p : Nat) : Option Nat :=
  if (s.part p).launches.any (fun l => l.queue == q && !l.completing) then some (s.cyc p) else none

/-- A write of the hypervisor to QCTL: N outside 4 to 15, a partition that does not exist, or a change of N, the partition or SRC
under a set EN that stays set, is refused (R309, R355). -/
def State.writeQctl (s : State) (who : Requester) (q : Nat) (v : W64) : State :=
  let r := s.queue q
  let n : BitVec 4 := v.extractLsb' 0 4
  let part : BitVec 4 := v.extractLsb' 4 4
  let en := v.getLsbD 8
  let src := v.getLsbD 9
  let same := n == r.n && part == r.part && src == r.src
  if who ≠ .hyp ∨ !s.windowsOpen ∨ 32768 ≤ q then s.abort
  else if n.toNat < 4 ∨ (s.part part.toNat).st = .none ∨ (r.en && en && !same) then s.answer .refused
  else
    let r1 := if r.en && !en then r.disable else r
    let r2 := { r1 with n := n, part := part, src := src, timer := if part = r.part then r.timer else s.timerIn q part.toNat }
    s.setQueue q (if en && !r.en then r2.enable else r2)

/-- QUEUE_ENABLE: a write to QCTL with EN set. -/
def execQueueEnable (q : By Nat) (ctl : W64) (s : State) : Host.Outcome State Fault Refusal :=
  .next (s.writeQctl q.who q.what (ctl ||| 0x100))

/-- QUEUE_DISABLE: a write to QCTL with EN clear. -/
def execQueueDisable (q : By Nat) (ctl : W64) (s : State) : Host.Outcome State Fault Refusal :=
  .next (s.writeQctl q.who q.what (ctl &&& ~~~(0x100#64)))

/-- A write to DOORBELL: the owner of the queue's partition writes the tail; of a queue with SRC 1 the write is discarded and
counted; any other requester is refused (R309, R310, R355). -/
def State.ringDoorbell (s : State) (who : Requester) (q : Nat) (tail : W32) : State :=
  let r := s.queue q
  let p := r.part.toNat
  if who ≠ .owner p ∨ !s.ownerMay p ∨ 32768 ≤ q then s.abort
  else if r.src then
    s.onPart p (fun x => { x with counts := { x.counts with doorbellDiscards := satInc x.counts.doorbellDiscards } })
  else (s.setQueue q { r with tail := tail }).wakeQueue q

def execDoorbell (q : By Nat) (tail : W32) (s : State) : Host.Outcome State Fault Refusal :=
  .next (s.ringDoorbell q.who q.what tail)

/-! ## The service of a ring (R309, R310) -/

/-- Every byte of an extent passes R170. -/
def State.mayAccess (s : State) (p : Nat) (perm : Perm) (a n : Nat) : Bool :=
  match translateExtent (s.part p).ranges perm (extentPieces a n) with
  | .ok _ => true
  | .error _ => false

/-- A queue in ERROR (R309). -/
def Queue.fail (r : Queue) (error : BitVec 8) : Queue :=
  { r with st := .error, err := error, firstRead := none, nextRead := none, fresh := false }

/-- The address of the slot at HEAD (R310). -/
def Queue.headSlot (r : Queue) : Nat := r.qbase.toNat + 64 * (r.head.toNat % 2 ^ r.n.toNat)

/-- A queue whose partition is RUNNING serves its ring (R310, R352). -/
def State.serves (s : State) (q : Nat) : Bool :=
  (s.queue q).st == .active && (s.part (s.queue q).part.toNat).st == .running

/-- How long a slot may stay stale, 2 µs, with a read every 64 ns (R310). -/
def State.staleLimit (s : State) (p : Nat) : Nat := s.nsUnits p 2000
def State.readStep (s : State) (p : Nat) : Nat := s.nsUnits p 64

/-- A read of the slot at HEAD (R310). -/
def State.readSlot (s : State) (q : Nat) : State :=
  let r := s.queue q
  let p := r.part.toNat
  let first := r.firstRead.getD s.now
  if r.tail = r.head then s.setQueue q { r with firstRead := none, nextRead := none }
  else if r.firstRead.isNone ∧ 2 ^ r.n.toNat < (r.tail - r.head).toNat then s.setQueue q (r.fail 3)
  else if !s.mayAccess p .lr r.headSlot 64 then s.setQueue q (r.fail 2)
  else if ((s.homeBytes p r.headSlot 64).getD 1 0).toNat % 2 = freshPhase r.n.toNat r.head.toNat then
    s.setQueue q { r with firstRead := some first, nextRead := none, fresh := true }
  else s.setQueue q { r with firstRead := some first, nextRead := if s.staleLimit p ≤ s.now - first then none else some (s.now + s.readStep p) }

def execSlotRead (q : Nat) (s : State) : Host.Outcome State Fault Refusal :=
  match (s.queue q).nextRead with
  | none => notDue
  | some t => if s.serves q ∧ t ≤ s.now then .next (s.readSlot q) else notDue

/-- The last read of a slot has found it stale 2 µs or more after the first (R310). -/
def State.queueStale (s : State) (q : Nat) : Bool :=
  let r := s.queue q
  s.serves q && r.firstRead.isSome && r.nextRead.isNone && !r.fresh

def execQueueStale (q : Nat) (s : State) : Host.Outcome State Fault Refusal :=
  if s.queueStale q then .next ((s.setQueue q ((s.queue q).fail 1)).answer (.queueError q 1)) else notDue

/-! ## Packets (R312, R313) -/

/-- A launch packet, by its words. -/
structure Packet where
  words : List Nat
  deriving DecidableEq, Repr

def Packet.w (k : Packet) (i : Nat) : Nat := k.words.getD i 0
def Packet.ex (k : Packet) : Nat := bitsOf (k.w 3) 0 32
def Packet.ey (k : Packet) : Nat := bitsOf (k.w 3) 32 32
def Packet.ez (k : Packet) : Nat := bitsOf (k.w 4) 0 32
def Packet.tasks (k : Packet) : Nat := k.ex * k.ey * k.ez
def Packet.cr (k : Packet) : Bool := bitAt (k.w 0) 9
def Packet.ord (k : Packet) : Bool := bitAt (k.w 0) 10

/-- The packet in the slot at HEAD. -/
def State.headPacket (s : State) (q : Nat) : Packet :=
  let bs := s.homeBytes (s.queue q).part.toNat (s.queue q).headSlot 64
  ⟨(List.range 8).map (wordAt bs ∘ (8 * ·))⟩

/-- The packet's own fields are legal (R312, R313). -/
def Packet.legal (k : Packet) (det : Bool) : Bool :=
  bitsOf (k.w 0) 0 8 == 1 && bitsOf (k.w 0) 13 19 == 0 && bitsOf (k.w 4) 32 32 == 0 && decide (k.tasks < 2 ^ 32)
    && k.w 1 % 64 == 0 && k.w 2 % 64 == 0 && k.w 5 % 64 == 0 && k.w 6 % 16 == 0 && ((k.w 6 != 0) == det)
    && (if k.cr then k.w 7 != 0 && k.w 7 % 64 == 0 else k.w 7 == 0)

/-! ## Kernel images (R313, R384) -/

/-- A window size of R144 or R190. -/
def windowLegal (n limit : Nat) : Bool := n % 8 == 0 && decide (n ≤ limit)

/-- A kernel image's header, read (R384). -/
def imageOf (base : Nat) (bs : List Byte) : Option Image :=
  let w := fun (a : Nat) => wordAt bs a
  let wd := bitAt (w 0) 8
  let win : WinSizes := if wd then ⟨bitsOf (w 0x18) 0 16, bitsOf (w 0x18) 16 16, bitsOf (w 0x18) 32 16, bitsOf (w 0x18) 48 16⟩ else ⟨64, 64, 16, 8⟩
  let entry := w 8
  let code := bitsOf (w 0x10) 0 32
  let total := bitsOf (w 0x10) 32 32
  let handler := w 0x28
  let live := w 0x30
  let count := bitsOf (w 0x38) 0 32
  let ok := bitsOf (w 0) 0 8 == 1 && entry % 64 == 0 && decide (64 ≤ entry) && decide (0 < code) && code % 64 == 0
    && decide (entry + code ≤ total) && windowLegal win.va 640 && windowLegal win.vb 640 && windowLegal win.lv 128
    && windowLegal win.qv 64 && (wd || w 0x18 == 0) && fmtLegal (bitsOf (w 0x20) 0 32)
    && (handler == 0 || decide (entry ≤ handler ∧ handler < entry + code)) && (count == 0 || decide (live + 80 * count ≤ total))
  let at_ := fun (a : Nat) => (BitVec.ofNat 64 (base + a) : W64)
  if ok then
    some ⟨at_ 0, total, at_ entry, at_ entry, at_ (entry + code), if handler = 0 then none else some (at_ handler), at_ live, count,
      BitVec.ofNat 32 (w 0x20), win⟩
  else none

/-- The image of a launch that has none. -/
def Image.absent : Image := ⟨0, 0, 0, 0, 0, none, 0, 0, fmtDefault, ⟨0, 0, 0, 0⟩⟩

/-- The image at an address, when R170 and R384 let it stand (R313). -/
def State.readKernel (s : State) (p a : Nat) : Option Image :=
  if s.mayAccess p .lr a 64 then
    match imageOf a (s.homeBytes p a 64) with
    | some i => if s.mayAccess p .lr a i.total then some i else none
    | none => none
  else none

/-! ## Range blocks (R315) -/

/-- The hull of a used record over an extent of at least one task: first and last byte, and whether it is a write. -/
def hullOf (k : Packet) (w : Nat → Nat) : Int × Int × Bool :=
  let far := [((k.ex : Int) - 1) * signed 64 (w 2), ((k.ey : Int) - 1) * signed 64 (w 3), ((k.ez : Int) - 1) * signed 64 (w 4)]
  let lo := far.foldl (fun a x => a + min 0 x) (w 0 : Int)
  let hi := far.foldl (fun a x => a + max 0 x) (w 0 : Int)
  (lo, hi + (bitsOf (w 1) 0 32 : Nat) - 1, bitAt (w 1) 33)

/-- The hulls of a range block; none where R315 refuses it. -/
def rangeHulls (k : Packet) (bs : List Byte) : Option (List (Int × Int × Bool)) :=
  let w := fun (i j : Nat) => wordAt bs (40 * i + 8 * j)
  let used := (List.range 6).filter (fun i => bitAt (w i 1) 32)
  let hulls := used.map (fun i => hullOf k (w i))
  let clean := (List.range 6).all (fun i => bitsOf (w i 1) 34 30 == 0) && (bs.drop 0xF0).all (fun b => b == 0)
  let writes := (hulls.filter (fun h => h.2.2)).length
  if clean && used.all (fun i => bitsOf (w i 1) 0 32 != 0) && decide (writes ≤ 2) && decide (hulls.length ≤ 4 + writes) then
    if k.tasks = 0 then some []
    else if hulls.all (fun h => decide (0 ≤ h.1 ∧ h.2.1 < 2 ^ 64)) then some hulls
    else none
  else none

/-- The hulls of the packet's range block, none at address 0. -/
def State.readRanges (s : State) (p : Nat) (k : Packet) : Option (List (Int × Int × Bool)) :=
  if k.w 5 = 0 then some []
  else if s.mayAccess p .lr (k.w 5) 256 then rangeHulls k (s.homeBytes p (k.w 5) 256)
  else none

/-! ## Launch blocks (R385) -/

/-- The register that an entry of a launch block names, within its file and the declared windows. -/
def initDest (win : WinSizes) (kind n : Nat) : Option Dest :=
  match kind with
  | 0 => if n < 64 then some (.x n) else none
  | 1 => if n < win.va then some (.va n) else none
  | 5 => if n < 16 then some (.la n) else none
  | 6 => if n < 16 then some (.qa n) else none
  | 7 => if n < 64 ∨ (n < 128 ∧ n % 8 ≠ 7) then some (stagingDest n) else none
  | 8 => if n < 16 then some (.p n) else none
  | _ => none

/-- The entries of a launch block: kind, number, value; none where R385 refuses it. -/
def initEntries (win : WinSizes) (bs : List Byte) (count : Nat) : Option (List (Nat × Nat × W64)) :=
  let w := fun (e j : Nat) => wordAt bs (16 + 16 * e + 8 * j)
  let es := (List.range count).map (fun e => (bitsOf (w e 0) 0 4, bitsOf (w e 0) 4 12, (BitVec.ofNat 64 (w e 1) : W64)))
  if (List.range count).all (fun e => bitsOf (w e 0) 16 48 == 0) && es.all (fun e => (initDest win e.1 e.2.1).isSome) then some es
  else none

/-- The launch block of a packet, none at address 0 (R385). -/
def State.readInit (s : State) (p : Nat) (k : Packet) (win : WinSizes) : Option (List (Nat × Nat × W64)) :=
  let a := k.w 2
  if a = 0 then some []
  else if s.mayAccess p .lr a 16 then
    let h := s.homeBytes p a 16
    let count := wordAt h 0
    if count < 512 ∧ wordAt h 8 = 0 ∧ s.mayAccess p .lr a (16 + 16 * count) then
      initEntries win (s.homeBytes p a (16 + 16 * count)) count
    else none
  else none

/-- A context with the values of its launch block, in entry order (R11, R385). -/
def Ctx.initRegs (x : Ctx) (es : List (Nat × Nat × W64)) : Ctx :=
  es.foldl (fun x e =>
    match initDest x.task.win e.1 e.2.1 with
    | none => x
    | some d => x.write d (if e.1 = 1 then vecOf (fun _ => e.2.2.truncate 32) else toVec e.2.2)) x

/-! ## Placement maps (R321) -/

/-- The entries of a placement map: core, context, START; none where a bit, a core or a repetition is refused (R313, R321,
R366). -/
def State.readPlaces (s : State) (p : Nat) (k : Packet) : Option (List (Nat × Nat × Nat)) :=
  let a := k.w 6
  if !s.isDet p then some []
  else if s.mayAccess p .lr a (16 * k.tasks) then
    let bs := s.homeBytes p a (16 * k.tasks)
    let w := fun (i j : Nat) => wordAt bs (16 * i + 8 * j)
    let es := (List.range k.tasks).map (fun i => (bitsOf (w i 0) 0 8, bitsOf (w i 0) 8 3, w i 1))
    if (List.range k.tasks).all (fun i => bitsOf (w i 0) 11 53 == 0)
        && es.all (fun e => s.inPartition p e.1 && !s.retired (.core e.1)) && decide es.Nodup then some es
    else none
  else none

/-! ## Acceptance (R313 to R317, R357, R359) -/

/-- What a packet names, as far as R313 lets it stand. -/
structure Checked where
  image : Image
  hulls : List (Int × Int × Bool)
  init : List (Nat × Nat × W64)
  place : List (Nat × Nat × Nat)
  deriving DecidableEq, Repr

/-- The checks of R313 on a packet. -/
def State.checkPacket (s : State) (p : Nat) (k : Packet) : Option Checked :=
  if !k.legal (s.isDet p) then none
  else
    match s.readKernel p (k.w 1) with
    | none => none
    | some i =>
      match s.readRanges p k, s.readInit p k i.win, s.readPlaces p k with
      | some hs, some es, some ps => some ⟨i, hs, es, ps⟩
      | _, _, _ => none

/-- The Thicket entries that a launch holds (R316). -/
def Launch.entries (l : Launch) : Nat := if l.done then 0 else 1 + l.hulls.length

/-- Room in the Thicket for a launch with so many used records (R316). -/
def State.thicketRoom (s : State) (p n : Nat) : Bool :=
  let q := s.part p
  decide ((q.launches.map (fun l => l.entries)).foldl (· + ·) 0 + 1 + n ≤ 512 * q.clusters)

/-- Two hulls overlap. -/
def hullsMeet (a b : Int × Int × Bool) : Bool := decide (a.1 ≤ b.2.1 ∧ b.1 ≤ a.2.1)

/-- What a launch with the hulls hs waits for of an earlier one: none, SIGNALLED (some false) or COMPLETE (some true) (R317). -/
def Launch.orders (l : Launch) (hs : List (Int × Int × Bool)) (ord : Bool) : Option Bool :=
  let pairs := hs.flatMap (fun b => (l.hulls.filter (fun a => hullsMeet a b && (a.2.2 || b.2.2))).map (fun a => !a.2.2))
  if ord || pairs.any id then some true
  else if pairs.isEmpty then none
  else some false

/-- The dependences of a new launch of a queue (R317). -/
def Partition.depsOf (q : Partition) (queue : Nat) (hs : List (Int × Int × Bool)) (ord : Bool) : List (Nat × Bool) :=
  q.launches.filterMap (fun l => if l.queue = queue ∧ !l.done then (l.orders hs ord).map (fun f => (l.number, f)) else none)

/-- The launch that a packet becomes. A packet that the checks refuse fails as BAD_PACKET; one that depends on a launch that
has completed as failed fails as DEP_FAILED (R313, R318). -/
def State.launchOf (s : State) (p q : Nat) (k : Packet) (c : Option Checked) : Launch :=
  let x := s.part p
  let r := s.queue q
  let hs := (c.map (fun c => c.hulls)).getD []
  let deps := if c.isNone then [] else x.depsOf q hs k.ord
  let sub := (r.submits.find? (fun e => e.1 == r.head.toNat)).map (fun e => (e.2.1, e.2.2.1, e.2.2.2))
  let l : Launch :=
    { number := x.launchCount + 1, queue := q, tag := BitVec.ofNat 32 (bitsOf (k.w 0) 32 32), cr := k.cr,
      base := if s.isDet p then 0 else bitsOf (k.w 0) 11 2, prio := if s.isDet p then 0 else bitsOf (k.w 0) 11 2, image := (c.map (fun c => c.image)).getD Image.absent,
      init := (c.map (fun c => c.init)).getD [], ex := BitVec.ofNat 32 k.ex, ey := BitVec.ofNat 32 k.ey, ez := BitVec.ofNat 32 k.ez,
      compl := BitVec.ofNat 64 (k.w 7), place := (c.map (fun c => c.place)).getD [], hulls := hs, submitter := sub, deps := deps,
      nextTask := 0, since := none, bound := [], signalled := 0, extra := 0, latched := false, status := 0, failAt := 0, failTask := 0,
      failCause := 0, failInfo := 0, failEpc := 0, tends := 0, clusters := [], late := [], flushed := [], completing := false, done := false,
      stopped := false }
  let failed := deps.any (fun d => match x.launch? d.1 with
    | some m => m.completing && m.status != 0
    | none => false)
  if c.isNone then l.fail (s.cyc p) 3 0 0 0 0 else if failed then l.fail (s.cyc p) 4 0 0 0 0 else l

/-- PMEAS after the acceptance of a kernel image (R357). -/
def State.measure (s : State) (p : Nat) (i : Image) : BitVec 384 :=
  let h := Config.sha384 (s.homeBytes p i.base.toNat i.total)
  Config.sha384 (bytesOf 48 (s.part p).pmeas.toNat ++ bytesOf 48 h.toNat)

/-- The packet at HEAD is accepted: its launch joins the Thicket, HEAD advances, the watchdog may start (R313 to R317, R357,
R359). -/
def State.acceptPacket (s : State) (q : Nat) (k : Packet) (c : Option Checked) : State :=
  let r := s.queue q
  let p := r.part.toNat
  let l := s.launchOf p q k c
  let timer := if s.openLaunches q = 0 ∨ r.timer = none then some (s.cyc p) else r.timer
  let s1 := match s.readKernel p (k.w 1) with
    | some i => if k.w 1 % 64 = 0 then s.onPart p (fun x => { x with pmeas := s.measure p i }) else s
    | none => s
  let s2 := s1.onPart p (fun x => { x with launches := x.launches ++ [l], launchCount := x.launchCount + 1 })
  let s3 := s2.setQueue q { r with head := r.head + 1, timer := timer, firstRead := none, nextRead := none, fresh := false,
                                   submits := r.submits.filter (fun e => e.1 != r.head.toNat) }
  (s3.wakeQueue q).settleLaunches p

/-- A queue has found the packet at HEAD fresh, and the Thicket has room for it (R310, R316). -/
def State.packetReady (s : State) (q : Nat) : Bool :=
  let p := (s.queue q).part.toNat
  s.serves q && (s.queue q).fresh &&
    (match s.checkPacket p (s.headPacket q) with
      | some c => s.thicketRoom p c.hulls.length
      | none => s.thicketRoom p 0)

def execPacketAccept (q : Nat) (s : State) : Host.Outcome State Fault Refusal :=
  if s.packetReady q then
    let k := s.headPacket q
    .next (s.acceptPacket q k (s.checkPacket (s.queue q).part.toNat k))
  else notDue

end Sys2Proof.Machine
end

