-- ==== Sys2Proof/Machine/Scheduler.lean ====
section
/-! DEFINITION. The scheduler: binding and aging in THR, binding at START in DET, the restore of saved tasks, the flush part of a
release, and the end of a launch (R11, R14, R248, R282, R301, R302, R304, R314, R316 to R322, R351, R366). -/

namespace Sys2Proof.Machine

/-! ## Binding a task (R11, R143, R144, R314, R320, R385) -/

/-- TASKID of a task: the launch number and the linear index (R314). -/
def Launch.taskId (l : Launch) (index : Nat) : W64 := BitVec.ofNat 64 (l.number * 2 ^ 32 + index)

/-- The task with a linear index (R314, R320). -/
def Launch.task (l : Launch) (index : Nat) : Task :=
  let x := max l.ex.toNat 1
  let y := max l.ey.toNat 1
  { uid := 0, launch := l.number, index := index, taskId := l.taskId index, tx := BitVec.ofNat 32 (index % x),
    ty := BitVec.ofNat 32 (index / x % y), tz := BitVec.ofNat 32 (index / (x * y)), ex := l.ex, ey := l.ey, ez := l.ez,
    queue := l.queue, codeLo := l.image.codeLo, codeHi := l.image.codeHi, handlerPc := l.image.handlerPc,
    liveTable := l.image.liveTable, liveCount := l.image.liveCount, saveArea := 0, fmt0 := l.image.fmt, win := l.image.win,
    arrival := false, signalled := false }

/-- A launch with one more of its tasks on a context. -/
def Launch.binds (l : Launch) (k c index : Nat) : Launch :=
  { l.runsOn (clusterOf k) with bound := l.bound ++ [(k, c, index)], nextTask := l.nextTask + 1 }

/-- A task is bound to a FREE context: its first bundle may issue from issueAt on (R320). -/
def State.bindTask (s : State) (p : Nat) (l : Launch) (index k c issueAt : Nat) (bases : WinSizes) : State :=
  let x := (Ctx.fresh { l.task index with uid := s.nextId } l.image.entry bases issueAt).initRegs l.init
  { (s.onCore k (fun r => { r with ctxs := amSet r.ctxs c x })).onLaunch p l.number (fun l => l.binds k c index) with nextId := s.nextId + 1 }

/-! ## Candidates in THR (R301, R319) -/

/-- A task that waits to be bound: its effective priority, launch, linear index, the cycle from which it waits at its level,
and the saved task that it is, if it was saved. -/
structure Cand where
  e : Nat
  launch : Launch
  index : Nat
  since : Nat
  saved : Option Saved
  deriving DecidableEq, Repr

/-- The order of candidates: highest e, lowest launch number, lowest linear index (R319). -/
def Cand.key (c : Cand) : Nat := (3 - c.e) * 2 ^ 128 + c.launch.number * 2 ^ 64 + c.index

/-- The ready tasks of a partition: the next of each launch, and the saved ones (R301, R319). -/
def Partition.cands (q : Partition) : List Cand :=
  let fresh := (q.launches.filter (fun l => l.unbound && q.depsHold l)).map (fun l => (⟨l.prio, l, l.nextTask, l.since.getD 0, none⟩ : Cand))
  let saved := q.saved.filterMap (fun v => (q.launch? v.launch).map (fun l => (⟨v.prio, l, v.index, v.since, some v⟩ : Cand)))
  sortBy Cand.key (fresh ++ saved)

/-- A task that has waited 65,536 cycles at e = 3 (R319). -/
def Cand.stuck (c : Cand) (cy : Nat) : Bool := c.e == 3 && decide (c.since + Config.agingCycles ≤ cy)

/-- The Grove entries that a candidate's nodes take again (R248). -/
def State.candNodes (s : State) (p : Nat) (c : Cand) : Nat :=
  match c.saved with
  | none => 0
  | some v => savedNodes (s.savedFixed p v)

/-- The bases of a candidate's windows on a core where it fits: a FREE context, room for its windows and its nodes, a core that
is not retired (R143, R190, R248, R319, R366). -/
def State.fitsOn (s : State) (k : Nat) (win : WinSizes) (nodes : Nat) : Option WinSizes :=
  let r := s.core k
  if s.retired (.core k) ∨ r.freeCtxs = [] ∨ 64 < r.nodes.length + nodes then none else r.fit win

/-- The core of a cluster to which a candidate is bound: that with the most FREE contexts among those where it fits, the lowest
COREID of equals; with its lowest FREE context and the windows' bases (R319). -/
def State.coreFor (s : State) (cluster : Nat) (win : WinSizes) (nodes : Nat) : Option (Nat × Nat × WinSizes) :=
  let ks := ((List.range 16).map (fun i => 16 * cluster + i)).filterMap (fun k => (s.fitsOn k win nodes).map (fun b => (k, b)))
  match sortBy (fun (e : Nat × WinSizes) => 8 - (s.core e.1).freeCtxs.length) ks with
  | [] => none
  | (k, b) :: _ => (s.core k).freeCtxs.head?.map (fun c => (k, c, b))

/-- What the scheduler does on a cluster in a cycle. -/
inductive Pick where
  /-- Nothing. -/
  | nothing
  /-- The flush of a launch for an event begins, which a task about to be bound there needs (R318). -/
  | flush (l : Launch) (full : Bool)
  /-- A candidate is bound. -/
  | bind (c : Cand) (core ctx : Nat) (bases : WinSizes)
  deriving DecidableEq, Repr

/-- A candidate may still be bound in this cycle on a cluster where it needs no flush: none is begun for it then (R282, R318). -/
def State.fitsUnflushed (s : State) (p : Nat) (c : Cand) : Bool :=
  let q := s.part p
  (List.range 16).any (fun i => q.cfg.mask.getLsbD i && (s.cluster i).lastBind != some (s.cyc p) && (q.flushNeeds c.launch i).isEmpty
    && (s.coreFor i c.launch.image.win (s.candNodes p c)).isSome)

/-- A candidate on a cluster: none where it does not fit or waits for a flush. -/
def State.pickCand (s : State) (p cluster : Nat) (c : Cand) : Pick :=
  match s.coreFor cluster c.launch.image.win (s.candNodes p c) with
  | none => .nothing
  | some (k, x, b) =>
    let needs := (s.part p).flushNeeds c.launch cluster
    match needs.find? (fun m => (s.part p).flushIdle m.1 m.2) with
    | some m => if s.fitsUnflushed p c then .nothing else .flush m.1 m.2
    | none => if needs.isEmpty then .bind c k x b else .nothing

/-- The first candidate of a list that is not passed over. -/
def State.pickFrom (s : State) (p cluster : Nat) : List Cand → Pick
  | [] => .nothing
  | c :: cs =>
    match s.pickCand p cluster c with
    | .nothing => s.pickFrom p cluster cs
    | x => x

/-- This cycle's visit to the clusters of a partition has come to a cluster or past it (R319). -/
def State.visited (s : State) (p cluster : Nat) : Bool :=
  (List.range 16).any (fun i => decide (cluster ≤ i) && (s.part p).cfg.mask.getLsbD i && (s.cluster i).lastBind == some (s.cyc p))

/-- THR: what the scheduler does on a cluster now: the clusters are visited once in a cycle, in ascending order. A task that is never passed over and does not fit there holds the cluster
(R319). -/
def State.pickOn (s : State) (p cluster : Nat) : Pick :=
  let q := s.part p
  let cy := s.cyc p
  if q.st ≠ .running ∨ q.cfg.det ∨ s.visited p cluster then .nothing
  else
    let cs := q.cands
    match cs.find? (fun c => c.stuck cy) with
    | none => s.pickFrom p cluster cs
    | some c =>
      match s.pickCand p cluster c with
      | .nothing => .nothing
      | .flush l full => .flush l full
      | .bind .. => s.pickFrom p cluster cs

/-! ## TASK_BIND, PRIORITY_AGING (R319) -/

def execTaskBind (p cluster : Nat) (s : State) : Host.Outcome State Fault Refusal :=
  if (s.part p).cfg.mask.getLsbD cluster then
    match s.pickOn p cluster with
    | .nothing => notDue
    | .flush l full => .next (s.startFlushes p l full)
    | .bind c k x b =>
      match c.saved with
      | some _ => notDue
      | none => .next ((s.bindTask p c.launch c.index k x (s.cyc p + 16) b).onCluster cluster (fun d => { d with lastBind := some (s.cyc p) }))
  else notDue

/-- A launch whose waiting tasks rise in effective priority at a cycle (R319). -/
def Launch.ages (l : Launch) (cy : Nat) : Bool :=
  l.unbound && (l.prio == 1 || l.prio == 2) && (match l.since with
    | some t => decide (t + Config.agingCycles ≤ cy)
    | none => false)

/-- A saved task that rises in effective priority at a cycle (R301, R319). -/
def Saved.ages (v : Saved) (cy : Nat) : Bool := (v.prio == 1 || v.prio == 2) && decide (v.since + Config.agingCycles ≤ cy)

/-- The tasks of a launch that wait unbound rise by 1, those that are saved among them (R301, R319). -/
def Partition.aged (q : Partition) (n cy : Nat) : Partition :=
  { q with
    launches := q.launches.map (fun l => if l.number = n ∧ l.ages cy then { l with prio := l.prio + 1, since := l.since.map (· + Config.agingCycles) } else l)
    saved := q.saved.map (fun v => if v.launch = n ∧ v.ages cy then { v with prio := v.prio + 1, since := v.since + Config.agingCycles } else v) }

def execPriorityAging (p id : Nat) (s : State) : Host.Outcome State Fault Refusal :=
  match (s.part p).launch? id with
  | none => notDue
  | some l =>
    if (l.ages (s.cyc p) || (s.part p).saved.any (fun v => v.launch == id && v.ages (s.cyc p))) ∧ (s.part p).cfg.det = false then
      .next (s.onPart p (fun q => q.aged id (s.cyc p)))
    else notDue

/-! ## CONTEXT_RESTORE (R248, R301, R302, R304) -/

/-- THR: the cluster on which a saved task is the scheduler's choice, with its core, context and windows (R301, R319). -/
def State.restorePlace (s : State) (p id : Nat) : Option (Nat × Nat × Nat × WinSizes) :=
  ((List.range 16).filter (fun c => (s.part p).cfg.mask.getLsbD c)).findSome? (fun cluster =>
    match s.pickOn p cluster with
    | .bind c k x b => match c.saved with
      | some v => if v.id = id then some (cluster, k, x, b) else none
      | none => none
    | _ => none)

/-- DET: the windows' bases of a saved task on the context that its restore block names, at START − 16, when it is FREE, all
fits and the flushes that the task needs have completed (R302, R318, R321). -/
def State.restoreFits (s : State) (p : Nat) (v : Saved) (k c start : Nat) : Option WinSizes :=
  let q := s.part p
  let flushed : Bool := match q.launch? v.launch with
    | some l => (q.flushNeeds l (clusterOf k)).isEmpty
    | none => true
  if start = s.cyc p + 16 ∧ (s.core k).freeCtxs.contains c ∧ flushed then s.fitsOn k v.task.win (savedNodes (s.savedFixed p v)) else none

/-- DET: the restore of a saved task, whose START − 16 has come (R302). -/
def State.restoreDet (s : State) (p : Nat) (v : Saved) (k c start : Nat) : State :=
  match s.restoreFits p v k c start with
  | some b => s.restoreCtx p v k c start b
  | none => s.dropSaved p v 2

/-- A saved task is bound again, or its image is refused (R301, R302, R304). -/
def State.restoreTask (s : State) (p : Nat) (v : Saved) : Option State :=
  if (s.part p).st ≠ .running then none
  else
    match v.place with
    | some (k, c, start) =>
      if s.cyc p + 16 < start then none
      else if v.valid (s.savedFixed p v) then some (s.restoreDet p v k c start)
      else some (s.dropSaved p v 1)
    | none =>
      match s.restorePlace p v.id with
      | none => none
      | some (cluster, k, c, b) =>
        if v.valid (s.savedFixed p v) then
          some ((s.restoreCtx p v k c (s.cyc p + 16) b).onCluster cluster (fun d => { d with lastBind := some (s.cyc p) }))
        else some (s.dropSaved p v 1)

def execContextRestore (p id : Nat) (s : State) : Host.Outcome State Fault Refusal :=
  match (s.part p).saved.find? (fun v => v.id == id) with
  | none => notDue
  | some v =>
    match s.restoreTask p v with
    | some t => .next t
    | none => notDue

/-! ## DET_BIND (R321) -/

/-- The task of a launch that DET binds next: its linear index, core, context and START, in the order of START (R321). -/
def Launch.nextPlace (l : Launch) : Option (Nat × Nat × Nat × Nat) :=
  if l.unbound then
    (sortBy (fun (e : (Nat × Nat × Nat) × Nat) => e.1.2.2) (l.place.zip (List.range l.place.length)))[l.nextTask]?.map
      (fun e => (e.2, e.1.1, e.1.2.1, e.1.2.2))
  else none

/-- The windows' bases of a task at START − 16 when it does not miss its start (R321). -/
def State.startsAt (s : State) (p : Nat) (l : Launch) (k c start : Nat) : Option WinSizes :=
  let q := s.part p
  if start = s.cyc p + 16 ∧ (s.core k).freeCtxs.contains c ∧ q.depsHold l ∧ (q.flushNeeds l (clusterOf k)).isEmpty then
    s.fitsOn k l.image.win 0
  else none

def execDetBind (p id : Nat) (s : State) : Host.Outcome State Fault Refusal :=
  let q := s.part p
  match q.launch? id with
  | none => notDue
  | some l =>
    match l.nextPlace with
    | none => notDue
    | some (i, k, c, start) =>
      if q.st ≠ .running ∨ q.cfg.det = false ∨ s.cyc p + 16 < start then notDue
      else
        match s.startsAt p l k c start with
        | some b => .next (s.bindTask p l i k c start b)
        | none => .next (s.onLaunch p id (fun l => l.fail (s.cyc p) 2 (l.taskId i) 0 0 0))

/-! ## FLUSH_PART_COMPLETE (R271, R282, R318) -/

def execFlushPartComplete (p id : Nat) (s : State) : Host.Outcome State Fault Refusal :=
  match s.dueOp p id with
  | none => notDue
  | some o =>
    match o.kind with
    | .flush n c full =>
      .next (((s.dropOp p id).flushCluster c (fun _ => true) false).onLaunch p n (fun l => { l with flushed := l.flushed ++ [(c, full)] }))
    | _ => notDue

/-! ## LAUNCH_COMPLETE (R282, R314, R318, R322, R351) -/

/-- A launch has come to its end: every task that it bound has left CLOSING, and it binds no more (R314, R322). -/
def Partition.ends (q : Partition) (l : Launch) : Bool :=
  !l.completing && l.bound.isEmpty && !(q.saved.any (fun v => v.launch == l.number))
    && (l.stopped || (decide (l.total ≤ l.nextTask) && (l.total != 0 || q.depsHold l)))

/-- The end of a launch needs the flush: a record is asked for, or its SUBMIT was issued in a cluster where no task of it ran
(R282). -/
def Launch.endNeedsFlush (l : Launch) : Bool :=
  !(l.unflushed true).isEmpty && (l.cr || (match l.submitter with
    | some (k, _, _) => !l.clusters.contains (clusterOf (k % goneCore))
    | none => false))

/-- The completion record (R322). -/
def Launch.record (l : Launch) : List Byte :=
  wordsBytes [l.status + l.tag.toNat * 2 ^ 32, l.number, l.failTask.toNat, l.failCause.toNat, l.failInfo.toNat, l.failEpc.toNat, l.tends, 0]

/-- The record is written at its home; an address that fails R170 under QW drops and counts it (R322). -/
def State.writeRecord (s : State) (p : Nat) (l : Launch) : State :=
  if !l.cr then s
  else if s.mayAccess p .qw l.compl.toNat 64 then s.homeStore p l.compl.toNat l.record
  else s.onPart p (fun q => { q with counts := { q.counts with recordDrops := satInc q.counts.recordDrops } })

/-- The launches that stay: those not done, and those on which a launch that has not completed depends. -/
def Partition.prune (q : Partition) : Partition :=
  { q with launches := q.launches.filter (fun m => !m.done || q.launches.any (fun l => !l.completing && l.deps.any (fun d => d.1 == m.number))) }

/-- Steps 2 to 5 of R322: the entries are freed, the record is written, COMPLCNT advances, the SUBMIT's TQ number completes. -/
def State.finishLaunch (s : State) (p : Nat) (l : Launch) : State :=
  let s1 := (s.onLaunch p l.number (fun m => { m with done := true })).writeRecord p l
  let s2 := if (s1.queue l.queue).part.toNat = p then s1.onQueue l.queue (fun r => { r with compl := r.compl + 1 }) else s1
  let s3 := match l.submitter with
    | some (k, c, n) => s2.complete k c ctrTQ n
    | none => s2
  s3.onPart p Partition.prune

/-- A launch completes as failed: its dependants that have bound no task fail with it (R318). -/
def Partition.failDependants (q : Partition) (l : Launch) (cy : Nat) : Partition :=
  if l.status = 0 then q
  else { q with launches := q.launches.map (fun m =>
    if m.nextTask = 0 ∧ m.completing = false ∧ m.status = 0 ∧ m.deps.any (fun d => d.1 == l.number) then m.fail cy 4 0 0 0 0 else m) }

/-- The watchdog of a queue after a launch of it has completed: it counts from now, while another launch is open (R351). -/
def State.restartTimer (s : State) (p q : Nat) : State :=
  if (s.queue q).part.toNat = p then
    s.onQueue q (fun r => { r with timer := if s.openLaunches q = 0 then none else some (s.cyc p) })
  else s

/-- The completion of a launch: COMPLETE holds from now on; the flush that its end needs begins, or the end follows at once
(R282, R317, R318, R322). -/
def State.completeLaunch (s : State) (p : Nat) (l : Launch) : State :=
  let s1 := (s.onLaunch p l.number (fun m => { m with completing := true })).onPart p (fun q => q.failDependants l (s.cyc p))
  let s2 := (s1.restartTimer p l.queue).settleLaunches p
  let m := { l with completing := true }
  if m.endNeedsFlush then s2.startFlushes p m true else s2.finishLaunch p m

/-- A launch whose LAUNCH_COMPLETE is due: its end has come, or the flush that its end needed has been made. -/
def Partition.completes (q : Partition) (l : Launch) : Bool :=
  q.ends l || (l.completing && !l.done && !l.endNeedsFlush)

def execLaunchComplete (p id : Nat) (s : State) : Host.Outcome State Fault Refusal :=
  match (s.part p).launch? id with
  | none => notDue
  | some l =>
    if (s.part p).completes l then
      .next (if l.completing then s.finishLaunch p l else s.completeLaunch p l)
    else notDue

end Sys2Proof.Machine
end

