-- ==== Sys2Proof/Machine/Partitions.lean ====
section
/-! DEFINITION. Partitions: drain and reset, the commands, creation and destruction, the watchdog, and the tables that the
runtime loads (R167 to R171, R183, R294, R324, R331, R340 to R360, R364, R366). -/

namespace Sys2Proof.Machine

/-! ## Parts of the package that a partition holds -/

/-- The clusters, and the cores, of a partition. -/
def Partition.clusterList (q : Partition) : List Nat := (List.range 16).filter (fun c => q.cfg.mask.getLsbD c)
def Partition.coreList (q : Partition) : List Nat := q.clusterList.flatMap (fun c => (List.range 16).map (fun i => 16 * c + i))

/-- A cluster whose banks are all in CACHE with no content; a retired bank stays out of use (R172, R366). -/
def State.emptyCluster (s : State) (c : Nat) : Cluster :=
  { Cluster.reset with modes := (List.range 48).map (fun b => if s.retired (.bank c b) then .retired else .cache) }

/-- A cluster without any content (R172, R344, R352). -/
def State.clearCluster (s : State) (c : Nat) : State :=
  { s with mem := memDrop s.mem (sramBase + c * 0x2000000) 0x2000000 }.setCluster c (s.emptyCluster c)

/-- A core whose contexts are FREE and whose engines are idle. -/
def Core.cleared (r : Core) : Core := { Core.idle with shell := r.shell, lastYield := r.lastYield, lastIssueCycle := r.lastIssueCycle }

/-! ## Writes that a drain abandons (R352; log 15) -/

/-- Some of n physical bytes lie in the failing line of an uncorrectable error. -/
def failsAt (f : Failing) (pa n : Nat) : Bool :=
  match f with
  | .line a => decide (pa < 64 * (a / 64) + 64 ∧ 64 * (a / 64) < pa + n)
  | _ => false

/-- A register of a context fails. -/
def failsCtx (f : Failing) (k c : Nat) : Bool := f == .ctx k c

/-- Some byte of virtual extents of a partition lies in the failing line. -/
def State.readsFailing (s : State) (p : Nat) (f : Failing) (es : List (Nat × Nat)) : Bool :=
  (es.flatMap splitExtent).any (fun e => (physExtents (s.part p).ranges e.1 e.2).any (fun x => failsAt f x.1 x.2))

/-- What an operation that has not performed would write: nothing that derives from a failing word, neither the stores, atomics
and arms of a context whose register fails, nor an atomic on the failing line, nor the results of a rule that read it (R207,
R220, R352; log 15). -/
def State.unperformed (s : State) (f : Failing) (o : Op) : List PByte :=
  match o.kind with
  | .store bs .. => if failsCtx f o.core o.ctx then [] else bs
  | .ingress _ bs _ => bs
  | .update _ bs _ => if failsCtx f o.core o.ctx || bs.any (fun b => failsAt f b.pa 1) then [] else bs
  | .atomic opcode n pa _ unsig _ v new _ _ =>
    let m := 2 ^ (8 * n)
    if failsCtx f o.core o.ctx || failsAt f pa n then []
    else bytesAt pa (bytesOf n (atomicNew opcode n unsig (natOfBytes (memBlock s.mem pa n)) (v.toNat % m) (new.toNat % m)))
  | _ => []

/-- The bytes that a copy command of core k in flight would write here: none where it reads a failing word, or has captured words
of a context whose register fails; the payload of a CSEND is written in its peer's memory (R220, R326, R352, R364). -/
def State.copyLeft (s : State) (p k : Nat) (f : Failing) (c : CopyCmd) : List (Nat × List (Byte × Byte)) :=
  if c.performed || c.opcode == opCSEND || failsCtx f k c.ctx || s.readsFailing p f (c.srcs ++ c.list) then [] else c.writes

/-- The bytes that a demand of core k in evaluation would write: none where a leaf of its needed set or a buffer of a node on its
path, a remembered one among them, holds a failing word, or a register of its context fails, whose words it and its nodes have
captured (R220, R352, R364). -/
def State.demandLeft (s : State) (p k : Nat) (f : Failing) (r : Core) (g : GRun) : List (Nat × List (Byte × Byte)) :=
  let ns := r.nodes.filter (fun n => n.ctx == g.demand.ctx && g.demand.nodes.contains n.id)
  let path := (g.demand.path r.nodes).filterMap (findNode r.nodes g.demand.ctx)
  if failsCtx f k g.demand.ctx || s.readsFailing p f (ns.flatMap GNode.checked ++ path.flatMap GNode.buffers) then [] else g.writes

/-- The bytes that the engines of a core would write. -/
def State.engineWrites (s : State) (p : Nat) (f : Failing) (k : Nat) : List PByte :=
  let r := s.core k
  let ws := r.copies.flatMap (s.copyLeft p k f) ++ (match r.running with
    | some g => s.demandLeft p k f r g
    | none => [])
  ws.flatMap (fun w => s.physWrite p w.1 w.2)

/-- Every write in flight of a partition, but those that derive from a failing word. -/
def State.inFlight (s : State) (p : Nat) (f : Failing) : List PByte :=
  let q := s.part p
  q.ops.flatMap (s.unperformed f) ++ q.coreList.flatMap (s.engineWrites p f)

/-- Each byte that an abandoned write of a partition addressed holds its old value or the value that the write would have made:
which, is a free choice, in DET by the partition's own count (R349, R352; log 15). -/
def State.abandon (s : State) (p : Nat) (bs : List PByte) : State :=
  let n := s.pick p
  let kept := (bs.zip (List.range bs.length)).filter (fun e => Config.abandonedPerforms n.1 e.2)
  { n.2 with mem := memWrite s.mem (kept.map (·.1)) }

/-! ## Drain and reset (R352, R353, R360) -/

/-- A launch that a drain ends: one that has not completed gets STATUS 5; the tasks that have left BOUND by TEND count (R352,
R360). -/
def State.resetLaunch (s : State) (l : Launch) : Launch :=
  if l.completing then l
  else
    let ended := l.bound.filter (fun b => match s.ctx? b.1 b.2.1 with
      | some x => (x.st == .closing || x.cl) && !x.closeFailed
      | none => false)
    { l with status := 5, failTask := 0, failCause := 0, failInfo := 0, failEpc := 0, tends := l.tends + ended.length, completing := true }

/-- A queue after a drain of its partition: one whose watchdog has expired stays in ERROR, every other is DISABLED with EN
cleared (R352). -/
def Queue.drained (r : Queue) : Queue :=
  let r1 := { r with timer := none, firstRead := none, nextRead := none, submits := [], fresh := false }
  if r.st = .error ∧ r.err = 4 then r1 else { r1 with en := false, st := .disabled }

/-- The groups of a partition, all freed (R61, R352). -/
def GroupObj.freed (g : GroupObj) : GroupObj := if g.live then ⟨false, g.gen + 1, [], 0, [], 0⟩ else g

/-- The port that joins a partition with a participant of one of its groups carries traffic (R331, R356). -/
def State.joined (s : State) (p g i : Nat) : Bool :=
  s.module.attested.getLsbD (routePort ((s.part p).route ((s.part p).redRoute g i)))

/-- A reduction in progress at a combiner of a draining partition completes at every other participant with REDUCE_FAULT, where
its port carries traffic (R353, R356). -/
def State.failReduction (s : State) (p : Nat) (r : Reduction) : State :=
  let q := s.part p
  ((List.range (q.redP r.group)).filter (fun i => i != q.redSelf r.group && s.joined p r.group i)).foldl
    (fun s i => s.answer (.result (q.redRoute r.group i) r.group r.seq none)) s

/-- A drain and reset, from its beginning on: work in flight is abandoned, launches complete as RESET, contexts become FREE,
banks return to CACHE with no content, queues are disabled (R352); nothing that derives from a failing word is written (R220,
R364). The range table is reclaimed, as R167 says, whose chapter governs it (R9), although R352 keeps the tables (log 55). -/
def State.drain (s : State) (p : Nat) (failing : Failing) : State :=
  let q := s.part p
  let ls := q.launches.map s.resetLaunch
  let s1 := q.reductions.foldl (fun s r => s.failReduction p r) (s.abandon p (s.inFlight p failing))
  let s2 := q.coreList.foldl (fun s k => s.onCore k Core.cleared) s1
  let s3 := q.clusterList.foldl (fun s c => s.clearCluster c) s2
  let s4 := s3.onPart p (fun x => { x with
    st := .draining, rstcnt := x.rstcnt + 1, ops := [], contribs := [], arms := [], ingress := [], reductions := [], saved := [],
    groups := x.groups.map (fun e => (e.1, e.2.freed)), launches := ls })
  let s5 := (ls.filter (fun l => !l.done)).foldl (fun s l => s.finishLaunch p l) s4
  let s6 := { s5.onPart p (fun x => { x with launches := [], ranges := [], undrained := [], slotUse := [], met := [] }) with
    queues := s5.queues.map (fun (e : Nat × Queue) => (e.1, if e.2.part.toNat = p then e.2.drained else e.2)) }
  s6.addOp p (some (s.cyc p + Config.drainCycles)) 0 0 (s.cyc p) .drainEnd

/-- The request for a drain, when it is due. -/
def Partition.drainOp (q : Partition) (cy : Nat) : Option Op :=
  q.ops.find? (fun o => match o.kind, o.due with
    | .drain .., some d => decide (d ≤ cy)
    | _, _ => false)

/-- The failing word of a drain that is asked for. -/
def Op.failing (o : Op) : Failing :=
  match o.kind with
  | .drain _ f => f
  | _ => .none

/-- DRAIN_AND_RESET: one that is asked for while the partition is CREATING follows once it is RUNNING (R364; DEDUCED, log 55);
one under way covers it (R344). -/
def execDrainAndReset (p : Nat) (s : State) : Host.Outcome State Fault Refusal :=
  match (s.part p).drainOp (s.cyc p) with
  | none => notDue
  | some o =>
    match (s.part p).st with
    | .running => .next (s.drain p o.failing)
    | .creating => notDue
    | _ => .next (s.dropOp p o.id)

/-- The end of a drain: the partition is RUNNING again (R352). -/
def execDrainEnd (p : Nat) (s : State) : Host.Outcome State Fault Refusal :=
  let q := s.part p
  match q.ops.find? (fun o => o.kind == .drainEnd) with
  | none => notDue
  | some o =>
    match o.due with
    | none => notDue
    | some d => if d ≤ s.cyc p then .next ((s.dropOp p o.id).onPart p (fun x => { x with st := .running })) else notDue

/-- A drain is asked for: a RUNNING partition gets a bit of PEVENT and drains; a drain under way covers it (R344). -/
def State.askDrain (s : State) (p : Nat) (bit : BitVec 4) (reason : Nat) (failing : Failing) : State :=
  if (s.part p).st = .running then
    (s.onPart p (fun x => { x with pevent := x.pevent ||| bit })).addOp p (some (s.cyc p)) 0 0 (s.cyc p) (.drain reason failing)
  else s

/-! ## WATCHDOG_EXPIRY (R351, R359) -/

/-- The watchdog of a queue has reached its limit. -/
def State.watchdogDue (s : State) (q : Nat) : Bool :=
  let r := s.queue q
  let p := r.part.toNat
  r.wdog != 0 && (s.part p).st == .running && (match r.timer with
    | some t => decide (t + r.wdog.toNat ≤ s.cyc p)
    | none => false)

def execWatchdogExpiry (q : Nat) (s : State) : Host.Outcome State Fault Refusal :=
  if s.watchdogDue q then
    .next ((s.onQueue q (fun r => { r.fail 4 with timer := none })).askDrain (s.queue q).part.toNat 2 1 .none)
  else notDue

/-! ## Creation (R342 to R348, R354, R357, R366) -/

/-- A command or a write that is refused with a code (R343 to R345). -/
def State.perr (s : State) (p : Nat) (code : BitVec 8) : State := (s.onPart p (fun x => { x with perr := code })).answer .refused

/-- The partitions in use other than p. -/
def State.others (s : State) (p : Nat) : List Partition := (s.parts.filter (fun e => e.1 != p && e.2.st != .none)).map (·.2)

/-- The granules of GDDR that PGDDR names. -/
def PCfg.granules (c : PCfg) : List Nat := (List.range (bitsOf c.gddr.toNat 8 8)).map (fun i => bitsOf c.gddr.toNat 0 7 + i)

/-- The clock of a bin, in multiples of 100 MHz (R343, R348). -/
def binMult (b : BitVec 2) : Nat :=
  match b.toNat with
  | 0 => 30
  | 1 => 27
  | 2 => 24
  | _ => 21

/-- The power reserve of a cluster (R347). -/
def PCfg.reserve (c : PCfg) : Nat :=
  if c.det then
    match c.bin.toNat with
    | 0 => 156
    | 1 => 132
    | 2 => 110
    | _ => 90
  else 70

/-- The reserve of a partition's clusters. -/
def PCfg.power (c : PCfg) : Nat := c.reserve * ((List.range 16).filter (fun i => c.mask.getLsbD i)).length

/-- A unit that a partition in use holds (R366). -/
def State.unitHeld (s : State) (u : ErrorUnit) : Bool :=
  s.parts.any (fun e => e.2.st != .none && (match u with
    | .core k => e.2.cfg.mask.getLsbD (clusterOf k)
    | .bank c _ => e.2.cfg.mask.getLsbD c
    | .granule g => e.2.cfg.granules.contains g
    | _ => false))

/-- The units that R366 retires. -/
def unitRetires (u : ErrorUnit) : Bool :=
  match u with
  | .core _ => true
  | .bank .. => true
  | .granule _ => true
  | _ => false

/-- Lasting units that no partition holds are retired (R366). -/
def State.retireUnits (s : State) : State :=
  let us := s.module.units.map (fun r => if r.lasting && unitRetires r.unit && !s.unitHeld r.unit then { r with retired := true } else r)
  let waits := us.any (fun r => r.lasting && unitRetires r.unit && !r.retired)
  { s with module := { s.module with units := us, hstat := BitVec.ofBool (s.module.hstat.getLsbD 2) ++ BitVec.ofBool (s.module.hstat.getLsbD 1) ++ BitVec.ofBool waits } }

/-- A granule that is retired, or is retired by this CREATE (R345, R366). -/
def State.granuleGone (s : State) (g : Nat) : Bool :=
  s.module.units.any (fun r => r.unit == .granule g && (r.retired || (r.lasting && !s.unitHeld r.unit)))

/-- The PERR code of a CREATE; 0 where it is accepted (R345). -/
def State.createError (s : State) (p : Nat) : BitVec 8 :=
  let c := (s.part p).cfg
  let os := (s.others p).map (fun o => o.cfg)
  let stime := s.stime
  if !s.module.flashOk then 16
  else if c.mask = 0 ∨ os.any (fun o => o.mask &&& c.mask != 0) then 1
  else if os.any (fun o => o.slots &&& c.slots != 0) then 2
  else if os.any (fun o => (o.vc.zip c.vc).any (fun e => e.1 &&& e.2 != 0)) then 3
  else if c.det ∧ c.slots = 0 then 4
  else if 2800 < 300 + c.power + (os.map PCfg.power).foldl (· + ·) 0 then 5
  else if c.badCfg ∨ c.badGddr ∨ c.gddr.getLsbD 7 ∨ (!c.det && (c.bin != 0 || c.sync))
      ∨ (c.sync && decide (c.pstart.toNat ≤ stime ∨ stime + 2 ^ 32 < c.pstart.toNat)) then 6
  else if c.granules = [] ∨ 128 < bitsOf c.gddr.toNat 0 7 + bitsOf c.gddr.toNat 8 8
      ∨ c.granules.any (fun g => os.any (fun o => o.granules.contains g)) then 14
  else if c.granules.any s.granuleGone then 15
  else 0

/-- CYCLES of each core of a partition goes on from a further count (R70). -/
def State.countCycles (s : State) (q : Partition) (more : Nat → Nat) : State :=
  { s with cycles := q.coreList.foldl (fun m k => amSet m k ((amGet m k).getD 0 + more k)) s.cycles }

/-- The registers that PMEAS starts from, as bytes (R357). -/
def PCfg.bytes (c : PCfg) : List Byte :=
  bytesOf 8 (c.mask.toNat + b2n c.det * 2 ^ 16 + c.bin.toNat * 2 ^ 17 + b2n c.sync * 2 ^ 19) ++ bytesOf 8 c.slots.toNat
    ++ wordsBytes (c.vc.map (fun w => w.toNat)) ++ bytesOf 8 c.gddr.toNat

/-- A partition is created: a new key, banks cleared, its memory unreadable under the new key, every table empty; its cores' clocks
have gone on since they last counted for a partition (R70, R344, R348, R354, R357; log 10). -/
def State.create (s : State) (p : Nat) : State :=
  let s := s.retireUnits
  let c := (s.part p).cfg
  let n := s.fresh
  let mult := if c.det then binMult c.bin else 18 + Config.thrClock n % 13
  let clock : Clock := ⟨mult, s.now, 0⟩
  let start := if c.sync then s.stimeInstant c.pstart.toNat
    else clock.instant (1 + Config.createCycles (n + 1) % 2 ^ 20)
  let x : Partition := { Partition.absent with
    cfg := c, st := .creating, key := some s.nextId, clock := clock, ptime0 := start,
    pmeas := Config.sha384 (c.bytes ++ bytesOf 48 Config.firmware.toNat) }
  let s1 := ({ s with fresh := n + 3, nextId := s.nextId + 1 }.setPart p x).countCycles x (Config.coreCycles (n + 2))
  let s2 := x.clusterList.foldl (fun s c => s.clearCluster c) s1
  let s3 := x.coreList.foldl (fun s k => s.setCore k Core.idle) s2
  { s3 with mem := memDrop s3.mem (bitsOf c.gddr.toNat 0 7 * 2 ^ 30) (bitsOf c.gddr.toNat 8 8 * 2 ^ 30) }

/-- PCMD CREATE. -/
def State.cmdCreate (s : State) (p : Nat) : State :=
  if 16 ≤ p then s.abort
  else if !s.module.flashOk then s.perr p 16
  else if s.module.stage < 6 ∨ s.module.bootErr ≠ 0 then s.abort
  else if (s.part p).st ≠ .none then s.perr p 13
  else if s.createError p ≠ 0 then s.perr p (s.createError p)
  else s.create p

def execCreate (p : Nat) (s : State) : Host.Outcome State Fault Refusal := .next (s.cmdCreate p)

/-- PCMD DESTROY: a RUNNING partition drains first; then its banks and its key go (R344). -/
def State.cmdDestroy (s : State) (p : Nat) : State :=
  let st := (s.part p).st
  if 16 ≤ p ∨ !s.windowsOpen then s.abort
  else if st = .running ∨ st = .draining then
    let s1 := if st = .running then s.drain p .none else s
    let n := s1.tick
    let s2 := n.2.onPart p (fun x => { x with st := .destroying, ops := [] })
    s2.addOp p (some (s.cyc p + 1 + Config.destroyCycles n.1 % 2 ^ 20)) 0 0 (s.cyc p) .destroyed
  else s.perr p 13

def execDestroy (p : Nat) (s : State) : Host.Outcome State Fault Refusal := .next (s.cmdDestroy p)

/-- PCMD RESET (R344). -/
def State.cmdReset (s : State) (p : Nat) : State :=
  let st := (s.part p).st
  if 16 ≤ p ∨ !s.windowsOpen then s.abort
  else if st = .running then s.askDrain p 8 2 .none
  else if st = .draining then s
  else s.perr p 13

def execReset (p : Nat) (s : State) : Host.Outcome State Fault Refusal := .next (s.cmdReset p)

/-- PTIME starts at 0, and the partition is RUNNING; the clock's cycles of CREATING stay counted (R70, R344, R348). -/
def execPartitionStart (p : Nat) (s : State) : Host.Outcome State Fault Refusal :=
  let q := s.part p
  if q.st = .creating ∧ q.ptime0 ≤ s.now then
    .next ((s.countCycles q (fun _ => s.cyc p)).setPart p { q with st := .running, clock := ⟨q.clock.mult, s.now, 0⟩ })
  else notDue

/-- DESTROYING has ended: nothing of the partition is left but the registers that the hypervisor sets, and what its cores' clocks
have counted (R70, R344, R354). -/
def execDestroyingDone (p : Nat) (s : State) : Host.Outcome State Fault Refusal :=
  let q := s.part p
  match q.ops.find? (fun o => o.kind == .destroyed) with
  | none => notDue
  | some o =>
    match o.due with
    | none => notDue
    | some d =>
      if d ≤ s.cyc p then
        let s1 := q.clusterList.foldl (fun s c => s.clearCluster c) (s.countCycles q (fun _ => s.cyc p))
        .next (s1.setPart p { Partition.absent with cfg := q.cfg, perr := q.perr })
      else notDue

/-- Writing 1 to a bit of PEVENT clears it: the hypervisor, or the owner on its stream, may (R343, R355). -/
def State.clearPevent (s : State) (who : Requester) (p : Nat) (bits : W64) : State :=
  if p < 16 ∧ s.windowsOpen ∧ (who = .hyp ∨ (who = .owner p ∧ s.ownerMay p)) then
    s.onPart p (fun x => { x with pevent := x.pevent &&& ~~~(bits.extractLsb' 0 4) })
  else s.abort

def execPeventClear (p : By Nat) (bits : W64) (s : State) : Host.Outcome State Fault Refusal := .next (s.clearPevent p.who p.what bits)

/-! ## Tables (R167 to R171, R183, R324, R331, R340) -/

/-- A task of the launch has issued its first bundle (R171). -/
def State.hasStarted (s : State) (l : Launch) : Bool :=
  decide (l.bound.length < l.nextTask + l.extra) || l.bound.any (fun b => match s.ctx? b.1 b.2.1 with
    | some x => x.sfc0.isSome
    | none => false)

/-- The tables are locked: a kernel of the partition has begun, and its last task has not left CLOSING (R171, R183, R324). -/
def State.locked (s : State) (p : Nat) : Bool := (s.part p).launches.any (fun l => !l.completing && s.hasStarted l)

/-- A refused table load (R169, R171). -/
def State.refuseLoad (s : State) (p : Nat) : State :=
  if 16 ≤ p ∨ (s.part p).st = .none then s.abort else s.answer .refused

/-- A partition whose tables may be loaded now. -/
def State.mayLoad (s : State) (p : Nat) : Bool := decide (p < 16) && (s.part p).st != .none && !s.locked p

/-- The bits that R168 requires to be 0 are 0, and RES is not reserved, in an unused entry too (R169). -/
def rangeClean (e : RangeWords) : Bool :=
  bitsOf e.w0.toNat 1 15 == 0 && bitsOf e.w1.toNat 0 16 == 0 && bitsOf e.w2.toNat 0 16 == 0 && bitsOf e.w2.toNat 52 12 == 0
    && bitsOf e.w3.toNat 10 54 == 0

/-- The V bit of an entry, and what a valid one holds (R168). -/
def rangeValid (e : RangeWords) : Bool := e.w0.getLsbD 0
def rangeEntry (e : RangeWords) : RangeEntry :=
  ⟨e.w0 &&& ~~~(1#64), e.w1, e.w2, e.w3.extractLsb' 0 9, e.w3.extractLsb' 9 2⟩

/-- The entries that a load makes. -/
def validEntries (ws : List RangeWords) : List RangeEntry := (ws.filter rangeValid).map rangeEntry

/-- Two entries overlap in virtual addresses (R169). -/
def rangesMeet (a b : RangeEntry) : Bool :=
  decide (a.vbase.toNat < b.vbase.toNat + b.len.toNat ∧ b.vbase.toNat < a.vbase.toNat + a.len.toNat)

/-- Some two of the entries overlap. -/
def anyMeet : List RangeEntry → Bool
  | [] => false
  | e :: r => r.any (rangesMeet e) || anyMeet r

/-- The physical range of an entry lies in one region, and there in the partition's granules or its clusters' banks (R166,
R345). -/
def Partition.ownsRange (q : Partition) (e : RangeEntry) : Bool :=
  let a := e.pbase.toNat
  let z := a + e.len.toNat - 1
  match regionOf a, regionOf z with
  | some r, some t =>
    r == t && (match homeOf a with
      | .gddr => (List.range (z / 2 ^ 30 - a / 2 ^ 30 + 1)).all (fun i => q.cfg.granules.contains (a / 2 ^ 30 + i))
      | .sram c _ _ => q.cfg.mask.getLsbD c
      | _ => true)
  | _, _ => false

/-- The bytes that the partition's share of L2 holds: c/16 of 256 MiB (R178). -/
def Partition.l2Share (q : Partition) : Nat := q.clusters * 0x1000000

/-- The PERR code of a range-table load; none where it is accepted (R169, R345). Every entry with RES = 1 counts against the L2
share, one over host memory or SRAM too, where RES has no effect (R169's own words; DESIGN CHOICE against R181, log 63). -/
def Partition.rangeError (q : Partition) (ws : List RangeWords) : Option (BitVec 8) :=
  let es := validEntries ws
  if 1024 < ws.length ∨ !ws.all rangeClean ∨ es.any (fun e => e.len == 0) then some Config.tableError
  else if anyMeet es then some 7
  else if !es.all q.ownsRange then some 8
  else if q.l2Share < ((es.filter (fun e => e.res == 1)).map (fun e => e.len.toNat)).foldl (· + ·) 0 then some 9
  else none

/-- RANGE_TABLE_LOAD. -/
def execRangeTableLoad (p : Nat) (entries : List RangeWords) (s : State) : Host.Outcome State Fault Refusal :=
  if !s.mayLoad p then .next (s.refuseLoad p)
  else
    match (s.part p).rangeError entries with
    | some code => .next (s.perr p code)
    | none => .next (s.onPart p (fun q => { q with ranges := validEntries entries }))

/-- A virtual channel that a partition owns (R343). -/
def PCfg.ownsVc (c : PCfg) (port vc : Nat) : Bool := (c.vc.getD (port / 4) 0).getLsbD (16 * (port % 4) + vc)

/-- The PERR code of a route-table load; none where it is accepted (R324, R345, R356). -/
def State.routeError (s : State) (p : Nat) (ws : List W64) : Option (BitVec 8) :=
  let c := (s.part p).cfg
  let used := ws.filter (fun w => w != 0)
  if c.det ∧ used.any (fun w => !(List.range 16).any (c.ownsVc (routePort w))) then some 4
  else if used.any (fun w => !c.ownsVc (routePort w) (routeVc w)) then some 10
  else if used.any (fun w => !s.module.attested.getLsbD (routePort w)) then some 11
  else none

/-- ROUTE_TABLE_LOAD. -/
def execRouteTableLoad (p : Nat) (words : List W64) (s : State) : Host.Outcome State Fault Refusal :=
  if !s.mayLoad p then .next (s.refuseLoad p)
  else
    match s.routeError p words with
    | some code => .next (s.perr p code)
    | none => .next (s.onPart p (fun q => { q with routes := words }))

/-- A list with its place i set, filled up with d before it. -/
def setPlace {α : Type} (l : List α) (i : Nat) (a d : α) : List α := (l ++ List.replicate (i + 1 - l.length) d).set i a

/-- REDUCTION_GROUP_LOAD (R331, R340). -/
def execReductionGroupLoad (p index : Nat) (words : List W64) (s : State) : Host.Outcome State Fault Refusal :=
  let c := (s.part p).cfg
  if !s.mayLoad p ∨ 16 ≤ index then .next (s.refuseLoad p)
  else if c.det ∧ c.sync = false then .next (s.perr p 12)
  else .next (s.onPart p (fun q => { q with redGroups := setPlace q.redGroups index words [] }))

/-- RULE_SET_LOAD (R183). -/
def execRuleSetLoad (p index : Nat) (words : List W32) (s : State) : Host.Outcome State Fault Refusal :=
  if !s.mayLoad p ∨ 16 ≤ index then .next (s.refuseLoad p)
  else .next (s.onPart p (fun q => { q with rules := setPlace q.rules index words [] }))

end Sys2Proof.Machine
end

