-- ==== Sys2Proof/Machine/Ports.lean ====
section
/-! DEFINITION. What the host, the hypervisor and the owner reach: register writes and reads, host writes and reads of device
memory, SPDM and TDISP requests (R277 to R279, R309, R343, R351, R355 to R358, R367). -/

namespace Sys2Proof.Machine

/-! ## Register writes (R309, R343, R351, R367) -/

/-- The health window is open: bring-up has passed stage 4, or has stopped there for want of authentic flash records (R371). -/
def State.healthOpen (s : State) : Bool := s.windowsOpen || !s.module.flashOk

/-- HRSEL: the hypervisor's (R355, R367). -/
def execHrsel (sel : By W64) (s : State) : Host.Outcome State Fault Refusal :=
  if sel.who = .hyp ∧ s.healthOpen then .next { s with module := { s.module with hrsel := sel.what.truncate 16 } } else .next s.abort

/-- A write to a register that is fixed from CREATE to DESTROY (R343). -/
def State.writeCfg (s : State) (p : Nat) (f : PCfg → PCfg) : State :=
  if 16 ≤ p ∨ !s.windowsOpen then s.abort
  else if (s.part p).st ≠ .none then s.perr p 13
  else s.onPart p (fun q => { q with cfg := f q.cfg })

/-- PCFG, its listed fields and whether another bit is set (R343, R345). -/
def setPcfg (v : W64) (c : PCfg) : PCfg :=
  { c with mask := v.extractLsb' 0 16, det := v.getLsbD 16, bin := v.extractLsb' 17 2, sync := v.getLsbD 19, badCfg := decide (2 ^ 20 ≤ v.toNat) }

/-- HCTL: T from 1 to 255 and W from 1 to 8,760; other values are refused (R367). -/
def State.writeHctl (s : State) (v : W64) : State :=
  let t := bitsOf v.toNat 0 8
  let w := bitsOf v.toNat 8 14
  if !s.healthOpen then s.abort
  else if t = 0 ∨ w = 0 ∨ 8760 < w ∨ 2 ^ 22 ≤ v.toNat then s.answer .refused
  else { s with module := { s.module with hctlT := BitVec.ofNat 8 t, hctlW := BitVec.ofNat 14 w } }

/-- PCMD: a command of R344; other values are refused (R343). -/
def State.writePcmd (s : State) (p : Nat) (v : W64) : State :=
  if v = 1 then s.cmdCreate p
  else if v = 2 then s.cmdDestroy p
  else if v = 3 then s.cmdReset p
  else s.answer .refused

/-- A write of the hypervisor to one of its registers. -/
def State.writeReg (s : State) (reg : HostReg) (v : W64) : State :=
  match reg with
  | .qbase q => if s.windowsOpen ∧ q < 32768 then s.onQueue q (fun r => { r with qbase := v &&& ~~~(63#64) }) else s.abort
  | .qctl q => s.writeQctl .hyp q v
  | .qwdog q => if s.windowsOpen ∧ q < 32768 then s.onQueue q (fun r => { r with wdog := v.truncate 32 }) else s.abort
  | .pcmd p => s.writePcmd p v
  | .pcfg p => s.writeCfg p (setPcfg v)
  | .pslots p => s.writeCfg p (fun c => { c with slots := v })
  | .pvc p i => s.writeCfg p (fun c => { c with vc := (List.range 4).map (fun j => if j = i then v else c.vc.getD j 0) })
  | .pgddr p => s.writeCfg p (fun c => { c with gddr := v.truncate 16, badGddr := decide (2 ^ 16 ≤ v.toNat) })
  | .pstart p => s.writeCfg p (fun c => { c with pstart := v })
  | .hctl => s.writeHctl v

/-- REGISTER_WRITE: a write of any other requester than the hypervisor is refused (R355). -/
def execRegisterWrite (reg : By HostReg) (value : W64) (s : State) : Host.Outcome State Fault Refusal :=
  .next (if reg.who = .hyp then s.writeReg reg.what value else s.abort)

/-! ## Host writes to device memory (R277, R278, R357) -/

/-- The home of a host write's address within the partition's device memory. -/
def State.deviceHome (s : State) (p a : Nat) : Option Nat :=
  match s.physOf p a with
  | none => none
  | some pa => match homeOf pa with
    | .gddr => some pa
    | .sram .. => some pa
    | _ => none

/-- The entry that the rest of a host write completes: the oldest partly arrived one of its address (R277). -/
def Partition.partEntry (q : Partition) (w : HostWrite) : Option Ingress :=
  if w.arriving = .rest then q.ingress.find? (fun e => !e.arrived && e.addr == w.addr) else none

/-- An entry with the bytes that the rest of its write brings. -/
def Ingress.filled (e : Ingress) (w : HostWrite) : Ingress :=
  { e with
    bytes := (List.range (max e.bytes.length w.bytes.length)).map (fun i =>
      if i < w.bytes.length ∧ w.mask.getLsbD i then w.bytes.getD i 0 else e.bytes.getD i 0)
    mask := e.mask ||| w.mask, arrived := true }

/-- An entry is taken; one whose address has no home in the partition, or that a kernel image refuses, is discarded and counted
(R277, R357). -/
def State.takeEntry (s : State) (w : HostWrite) (e : Ingress) : State :=
  let p := w.part
  let q := s.part p
  if (s.deviceHome p w.addr.toNat).isSome && !q.imageHas (s.ingressBytes p e) then
    { s.setPart p { q with ingress := q.ingress ++ [e] } with nextId := s.nextId + 1 }
  else s.setPart p (q.discardEntry e.id)

/-- A host write, or a beginning of one, takes an entry of the ingress buffer; the rest of one completes its entry. The rest of a
write whose beginning was discarded goes with it: the write is one entry, and counts once (R277). -/
def State.arriveIngress (s : State) (w : HostWrite) : State :=
  match (s.part w.part).partEntry w with
  | some e => s.onPart w.part (fun q => { q with ingress := q.ingress.map (fun x => if x.id = e.id then e.filled w else x) })
  | none => if w.arriving = .rest then s else s.takeEntry w ⟨s.nextId, w.addr, w.bytes, w.mask, w.arriving != .first, false⟩

/-- The ingress buffer has no free entry: a host write that needs one waits (R277). -/
def State.ingressFull (s : State) (w : HostWrite) : Bool :=
  decide (512 ≤ (s.part w.part).ingress.length) && w.arriving != .rest

/-- An event is a beginning, or a rest, of a host write to the same place. -/
def sameWrite (a : Arriving) (w : HostWrite) (i : Instr) : Bool :=
  match i with
  | .ingressArrival v => v.arriving == a && v.part == w.part && v.addr == w.addr
  | _ => false

/-- The rest of a host write waits while its beginning is among the events before it: rests complete beginnings in their order, those
that the buffer holds first (R277). -/
def State.restWaits (s : State) (before : List Instr) (i : Instr) : Bool :=
  match i with
  | .ingressArrival w =>
    let held := ((s.part w.part).ingress.filter (fun e => !e.arrived && e.addr == w.addr)).length
    let rests := (before.filter (sameWrite .rest w)).length
    w.arriving == .rest && decide (held ≤ rests ∧ rests < held + (before.filter (sameWrite .first w)).length)
  | _ => false

/-- INGRESS_ARRIVAL: a write on another stream than the owner's is refused (R355). -/
def execIngressArrival (write : HostWrite) (s : State) : Host.Outcome State Fault Refusal :=
  if write.who ≠ .owner write.part ∨ !s.ownerMay write.part ∨ !write.ok then .next s.abort
  else if s.ingressFull write then notDue
  else .next (s.arriveIngress write)

/-- The writes of an entry perform at their home, and its TH number completes (R278); the bytes of a kernel image accepted since
refuse it: it is discarded and counted (R357). -/
def State.performIngress (s : State) (p : Nat) (o : Op) (entry : Nat) (bs : List PByte) (th : Nat) : State :=
  let s1 := s.dropOp p o.id
  let s2 := if (s.part p).imageHas bs then s1.onPart p (fun q => q.discardEntry entry)
    else (s1.writeHomes (bs.filter (fun b => s.bankTakes b.pa)) (o.writer false false)).onPart p
      (fun q => { q with ingress := q.ingress.filter (fun e => e.id != entry) })
  s2.complete o.core o.ctx ctrTH th

def execIngressPerformed (p id : Nat) (s : State) : Host.Outcome State Fault Refusal :=
  match s.dueOp p id with
  | none => notDue
  | some o =>
    match o.kind with
    | .ingress entry bs th => .next (s.performIngress p o entry bs th)
    | _ => notDue

/-! ## Host reads (R279, R309, R343, R367) -/

/-- Codes of a queue's and a partition's states (R309, R343). -/
def QState.code (q : QState) : Nat :=
  match q with
  | .disabled => 0
  | .active => 1
  | .error => 2

def PState.code (p : PState) : Nat :=
  match p with
  | .none => 0
  | .creating => 1
  | .running => 2
  | .draining => 3
  | .destroying => 4

/-- A queue's register as the hypervisor or as the owner reads it; none where the requester may not (R309, R351, R355). -/
def State.readQueue (s : State) (hyp : Bool) (q offset : Nat) : Option Nat :=
  let r := s.queue q
  match offset with
  | 0x00 => if hyp then some r.qbase.toNat else none
  | 0x08 => if hyp then some (r.n.toNat + r.part.toNat * 2 ^ 4 + b2n r.en * 2 ^ 8 + b2n r.src * 2 ^ 9) else none
  | 0x10 => none
  | 0x18 => if hyp then none else some r.head.toNat
  | 0x20 => if hyp then none else some (r.st.code + r.err.toNat * 2 ^ 8)
  | 0x28 => if hyp then none else some r.compl.toNat
  | 0x38 => if hyp then some r.wdog.toNat else none
  | _ => some 0

/-- PTIME (R321, R348). -/
def State.ptime (s : State) (p : Nat) : Nat :=
  match (s.part p).st with
  | .none => 0
  | .creating => 0
  | _ => s.cyc p

/-- A partition's register as the hypervisor or as the owner reads it (R343). -/
def State.readPart (s : State) (hyp : Bool) (p offset : Nat) : Option Nat :=
  let q := s.part p
  let c := q.cfg
  let own := fun (v : Nat) => if hyp then some v else none
  match offset with
  | 0x00 => none
  | 0x08 => own (c.mask.toNat + b2n c.det * 2 ^ 16 + c.bin.toNat * 2 ^ 17 + b2n c.sync * 2 ^ 19)
  | 0x10 => own c.slots.toNat
  | 0x18 => own (c.vc.getD 0 0).toNat
  | 0x20 => own (c.vc.getD 1 0).toNat
  | 0x28 => own (c.vc.getD 2 0).toNat
  | 0x30 => own (c.vc.getD 3 0).toNat
  | 0x38 => own c.gddr.toNat
  | 0x40 => some (q.st.code + q.perr.toNat * 2 ^ 8)
  | 0x48 => some q.pevent.toNat
  | 0x50 => some q.counts.updateErrors.toNat
  | 0x58 => some q.counts.updateNonFinite.toNat
  | 0x60 => some q.counts.ingressDiscards.toNat
  | 0x68 => some q.counts.doorbellDiscards.toNat
  | 0x70 => some q.counts.tlincDiscards.toNat
  | 0x78 => some q.counts.recordDrops.toNat
  | 0x80 => some (s.ptime p)
  | 0x88 => some q.rstcnt.toNat
  | 0xC0 => own c.pstart.toNat
  | 0xC8 => some s.stime
  | n => if 0x90 ≤ n ∧ n < 0xC0 then some (bitsOf q.pmeas.toNat (8 * (n - 0x90)) 64) else some 0

/-- The record of a unit (R368). -/
def Module.unitRec (m : Module) (u : ErrorUnit) : UnitRec :=
  (m.units.find? (fun r => r.unit == u)).getD ⟨u, 0, 0, [], false, false, 0⟩

/-- What a unit record holds (R368). -/
def UnitRec.data (r : UnitRec) : List Nat := [r.corrected, r.uncorrected, b2n r.lasting, b2n r.retired, r.spares] ++ r.hours

/-- The bins of a histogram with their counts. -/
def pairsOf (m : List (Nat × Nat)) : List Nat := m.flatMap (fun e => [e.1, e.2])

/-- What a field record holds (R365, R368), by the model's own numbers of the records: cores, banks, granules, ports, histograms,
repair maps, harvested cores, trims, and slices from there on (log 13). -/
def Module.recordData (m : Module) (n : Nat) : List Nat :=
  if n < 256 then (m.unitRec (.core n)).data
  else if n < 1024 then (m.unitRec (.bank ((n - 256) / 48) ((n - 256) % 48))).data
  else if n < 1152 then (m.unitRec (.granule (n - 1024))).data
  else if n < 1168 then (m.unitRec (.port (n - 1152))).data
  else
    match n with
    | 1168 => pairsOf m.tempHist
    | 1169 => pairsOf m.powerHist
    | 1170 => pairsOf m.errDays
    | 1171 => pairsOf m.repairs
    | 1172 => m.harvested
    | 1173 => m.trims.map (fun w => w.toNat)
    | _ => (m.unitRec (.slice (n - 1174))).data

/-- A health register (R367): HREC is a free function of what the selected record holds, since the spec states neither the
numbers nor the layout of the records (log 13). -/
def State.readHealth (s : State) (offset : Nat) : Option Nat :=
  let m := s.module
  match offset with
  | 0x00 => some (m.hctlT.toNat + m.hctlW.toNat * 2 ^ 8)
  | 0x08 => some m.hstat.toNat
  | 0x10 => some m.hce
  | 0x18 => some m.hue
  | 0x20 => some m.hlife
  | 0x28 => some m.htemp.toNat
  | 0x30 => some m.hpwr.toNat
  | 0x38 => some (m.stage + m.bootErr.toNat * 2 ^ 8)
  | 0x80 => none
  | n => if 0x88 ≤ n ∧ n < 0xC0 then some (Config.recordWord (n - 0x88) (m.recordData (Config.recordOf m.hrsel.toNat))).toNat else some 0

/-- The answer to a read of a register. -/
def State.answerWord (s : State) (w : Option Nat) : State :=
  match w with
  | some v => s.answer (.word (BitVec.ofNat 64 v))
  | none => s.abort

/-- A read of a register by a requester: the hypervisor, or the owner on its stream (R355). -/
def State.readBy (s : State) (who : Requester) (p : Nat) (read : Bool → Option Nat) : State :=
  match who with
  | .hyp => if s.windowsOpen then s.answerWord (read true) else s.abort
  | .owner o => if o = p ∧ s.ownerMay p then s.answerWord (read false) else s.abort
  | .other => s.abort

/-- A read of device memory is served at the home, by bursts of the partition's slots; one that names an address without a home
there is refused (R179, R279). -/
def State.readDevice (s : State) (p : Nat) (a : W64) (n : Nat) : State :=
  if (List.range n).all (fun i => (s.deviceHome p (a.toNat + i)).isSome) then
    (s.takeBursts p (s.cyc p + figGddr (s.mult p)) (s.extentLines p [(a.toNat, n)])).2.answer (.bytes (s.homeBytes p a.toNat n))
  else s.abort

def execHostRead (read : HostRead) (s : State) : Host.Outcome State Fault Refusal :=
  match read with
  | .memory who p a n => .next (if who = .owner p ∧ s.ownerMay p then s.readDevice p a n else s.abort)
  | .queueReg who q o => .next (if q < 32768 then s.readBy who (s.queue q).part.toNat (fun h => s.readQueue h q o) else s.abort)
  | .partReg who p o => .next (if p < 16 then s.readBy who p (fun h => s.readPart h p o) else s.abort)
  | .healthReg who o =>
    .next (if who = .hyp ∧ s.healthOpen then s.answerWord (s.readHealth o) else s.abort)

/-! ## SPDM and TDISP (R355, R356) -/

/-- TDISP_REQUEST: the interface of a partition enters or leaves its RUN state. -/
def execTdispRequest (p : Nat) (run : Bool) (s : State) : Host.Outcome State Fault Refusal :=
  if p < 16 ∧ s.windowsOpen ∧ (s.part p).st ≠ .none then .next (s.onPart p (fun q => { q with tdisp := run })) else .next s.abort

/-- The measurements that the device reports: its firmware's, and PMEAS of every partition (R356, R357). -/
def State.measurements (s : State) : List Byte :=
  bytesOf 48 Config.firmware.toNat ++ (List.range 16).flatMap (fun p => bytesOf 48 (s.part p).pmeas.toNat)

/-- The module joins the fabric domain of a peer: STIME takes the domain's value, and a partition that waits for its PSTART waits
for it there (R348). -/
def State.joinDomain (s : State) (stime : W64) : State :=
  let t := { s with module := { s.module with stime0 := s.now, stime := stime.toNat } }
  { t with parts := t.parts.map (fun e =>
      if e.2.st = .creating ∧ e.2.cfg.sync then (e.1, { e.2 with ptime0 := t.stimeInstant e.2.cfg.pstart.toNat }) else e) }

/-- SPDM_REQUEST: an answer signed with the identity key; a key exchange attests a port's peer, or fails, and the first attested
port brings the module into its peer's domain (R348, R356; log 13). -/
def execSpdmRequest (request : SpdmRequest) (s : State) : Host.Outcome State Fault Refusal :=
  if s.module.stage = 0 then .next s.abort
  else
    match request with
    | .certificates => .next (s.answer (.signed (Config.certificates ++ Config.sign Config.certificates)))
    | .measurements => .next (s.answer (.signed (s.measurements ++ Config.sign s.measurements)))
    | .keyExchange port stime =>
      let n := s.tick
      let ok := (Config.attested n.1).getLsbD port
      let bit : BitVec 16 := BitVec.ofNat 16 (2 ^ port)
      let t := if ok && s.module.attested == 0 then n.2.joinDomain stime else n.2
      let m := t.module
      .next { t with module := { m with attested := if ok then m.attested ||| bit else m.attested &&& ~~~bit } }

end Sys2Proof.Machine
end

