-- ==== Sys2Proof/Machine/Fabric.lean ====
section
/-! DEFINITION. What reaches this device over the fabric: header flits of other devices' commands, fragments and results of
reductions, credits; and the combiner (R189, R273, R323, R326, R329 to R341, R353). -/

namespace Sys2Proof.Machine

/-! ## FABRIC_HEADER_CHECK (R189, R217, R326, R353, R357) -/

/-- The verdict on a header: 0 accepted, 1 remote range, 2 remote permission, 3 the partition is absent or being reset (R326,
R335, R353, R357). -/
def State.headerVerdict (s : State) (h : FabricHeader) : Nat :=
  let q := s.part h.part
  if q.st ≠ .running then 3
  else
    match translateExtent q.ranges .fb (extentPieces h.addr.toNat h.len) with
    | .error (code, _) => if code = 0x07 then 1 else 2
    | .ok ps => if h.write && ps.any (fun e => (q.imageByte e.1 e.2.1).isSome) then 2 else 0

/-- The payload's lines leave the cluster cache of the core that handles its arrival (R326). No event but those of R273 writes a
line back: what a core had written into such a line and not written back is gone with it (DEDUCED, log 67). -/
def State.invalidatePayload (s : State) (p core a n : Nat) : State :=
  let es := (splitExtent (a, n)).flatMap (fun e => physExtents (s.part p).ranges e.1 e.2)
  let c := s.cluster (clusterOf core)
  s.swapCache (clusterOf core) { c with lines := c.lines.filter (fun l =>
    !es.any (fun e => decide (l.addr < e.1 + e.2 ∧ e.1 < l.addr + 64))) }

/-- The writes of another device's CSEND perform at their home, or push a FIFO bank; the arrival that it carries follows, once a
push that is held has entered (R175, R189, R273, R326). -/
def State.takePayload (s : State) (h : FabricHeader) : State :=
  let p := h.part
  let a := h.addr.toNat
  let bs := h.payload.take h.len
  let s1 := match h.arrive with
    | some (_, _, core) => s.invalidatePayload p core a h.len
    | none => s
  let n := s1.newId
  let s2 := match n.2.fifoTarget (fun c b => ((s.cluster c).modes.getD b .cache).isFifo) p a h.len with
    | some (cl, b) =>
      n.2.addOpAs p (some (s.cyc p)) goneCore 0 (s.cyc p) false false
        (.push cl b h.addr (entriesOf (h.len / 128) (bs.map (fun b => (b, 0xFF)))) (some n.1))
    | none => (n.2.takeBursts p (s.cyc p + figGddr (s.mult p)) (s.extentLines p [(a, h.len)])).2.homeStore p a bs
  match h.arrive with
  | none => s2
  | some (pc, word, core) =>
    if s.inPartition p core then
      s2.addOpAs p (some (s.cyc p)) goneCore 0 (s.cyc p) false false
        (.arrive core ⟨pc, word, h.addr, BitVec.ofNat 64 h.len, s.cyc p⟩ (some n.1))
    else s2

/-- FABRIC_HEADER_CHECK: the header is checked over the whole remote extent; a command that passes moves its bytes; a port whose
peer is not attested carries none (R326, R356). -/
def execFabricHeaderCheck (header : FabricHeader) (s : State) : Host.Outcome State Fault Refusal :=
  let v := s.headerVerdict header
  if !s.module.attested.getLsbD header.port then .next s
  else if v ≠ 0 then .next (s.answer (.fabric v []))
  else if header.write then .next ((s.takePayload header).answer (.fabric 0 []))
  else
    let p := header.part
    .next ((s.takeBursts p (s.cyc p + figGddr (s.mult p)) (s.extentLines p [(header.addr.toNat, header.len)])).2.answer
      (.fabric 0 (s.homeBytes p header.addr.toNat header.len)))

/-! ## Reductions (R329 to R334, R340, R341) -/

/-- The fragments that the shares of a reduction give: node (l, i) of the tree (R330). -/
def knownNodes (shares : List Share) (l i : Nat) : Option (List W32) :=
  shares.findSome? (fun x =>
    (((fragsOf x.lo x.cnt x.n).zip x.vals).find? (fun e => e.1.1 == l && e.1.2 == i)).map (·.2))

/-- The canonical result (R329, R333). -/
def canonicalResult (shares : List Share) (n : Nat) : Option (List W32) := treeNode (knownNodes shares) n (treeHeight n) 0

/-- The cycle at which a partial counts as arriving at the root's port: in DET by R341, with the largest source figure λr of
R334, in THR as it came. -/
def Share.arrivesAt (x : Share) (det : Bool) (mult lr : Nat) : Nat :=
  if det then x.start + 16 + lr + ceilDiv (4 * x.v * x.cnt) 64 + x.hops * figHop mult else x.arrived

/-- The arrival-order result: partials in the order in which they count as arriving, those of one cycle by participant (R333,
R341). -/
def arrivalResult (det : Bool) (mult : Nat) (shares : List Share) : Option (List W32) :=
  let lr := maxOf (shares.map (fun x => x.lr))
  let sent := sortBy (fun (x : Share) => x.arrivesAt det mult lr)
    (sortBy (fun (x : Share) => x.participant) (shares.filter (fun x => x.cnt != 0)))
  match sent.flatMap (fun x => x.vals) with
  | [] => none
  | v :: r => some (r.foldl redAdd v)

/-- What a share holds agrees with its mode, its range and its length: in canonical mode the fragments of R330, in
arrival-order mode one partial, each of V values. -/
def Share.wellFormed (x : Share) : Bool :=
  x.vals.length == (if x.ao then min x.cnt 1 else (fragsOf x.lo x.cnt x.n).length) && x.vals.all (fun v => v.length == x.v)

/-- The shares agree on N, V and AO, and their ranges cover 0 to N − 1 without overlap (R333). -/
def sharesAgree (shares : List Share) : Bool :=
  match shares with
  | [] => false
  | x :: _ =>
    let used := sortBy (fun (y : Share) => y.lo) (shares.filter (fun y => y.cnt != 0))
    shares.all (fun y => y.n == x.n && y.v == x.v && y.ao == x.ao && y.wellFormed)
      && used.foldl (fun (a : Option Nat) y => if a = some y.lo then some (y.lo + y.cnt) else none) (some 0) == some x.n

/-- In a DET partition every share's partition has its mode, bin and PSTART (R340). -/
def Partition.matchesShares (q : Partition) (shares : List Share) : Bool :=
  !q.cfg.det || shares.all (fun x => x.det && x.bin == q.cfg.bin.toNat && x.pstart == q.cfg.pstart)

/-- The result of a reduction; none where the participants disagree (R333, R340). -/
def Partition.reduce (q : Partition) (shares : List Share) : Option (List W32) :=
  if sharesAgree shares && q.matchesShares shares then
    match shares with
    | [] => none
    | x :: _ => if x.ao then arrivalResult q.cfg.det q.clock.mult shares else canonicalResult shares x.n
  else none

/-- The result reaches this partition's participant: its CRED is due at a cycle, with its writes, or with REDUCE_FAULT (R333,
R335). -/
def State.landResult (s : State) (p g seq due : Nat) (vals : Option (List W32)) : State :=
  match s.ownCred p g seq with
  | none => s
  | some (k, c) =>
    let vs := vals.getD []
    s.onCopy k c.id (fun x => { x with
      due := some due
      writes := if vals.isSome then [(c.word 1, wholeBytes (vs.flatMap (fun v => bytesOf 4 v.toNat)))] else []
      nonfinite := vs.any f32NonFinite
      fault := if vals.isSome then 0 else 16 })

/-- A result meets this partition's participant: its write follows the destination figure of its extent later (R334). -/
def State.meetResult (s : State) (p g seq : Nat) (vals : Option (List W32)) : State :=
  match s.ownCred p g seq with
  | none => s
  | some (k, c) =>
    let f := s.figure p (s.extentFigure k c.dsts)
    let n := (f.1, (f.2.engineBursts k c.ctx (s.cyc p + f.1) c.id c.handler (s.extentLines p c.dsts)).2)
    n.2.landResult p g seq (s.cyc p + n.1) vals

/-- REDUCTION_RESULT: the combiner completes a reduction and sends the result to every participant whose port carries traffic; this
partition's own write follows its own destination figure later (R333, R334, R356). -/
def State.finishReduction (s : State) (p : Nat) (o : Op) (g seq : Nat) : State :=
  let q := s.part p
  let shares := ((q.reductions.find? (fun r => r.group == g && r.seq == seq)).map (fun r => r.shares)).getD []
  let res := q.reduce shares
  let s1 := (s.dropOp p o.id).onPart p (fun x => { x with reductions := x.reductions.filter (fun r => !(r.group == g && r.seq == seq)) })
  let others := (List.range (q.redP g)).filter (fun i => i != q.redSelf g && s.joined p g i)
  (others.foldl (fun s i => s.answer (.result (q.redRoute g i) g seq res)) s1).meetResult p g seq res

def execReductionResult (p id : Nat) (s : State) : Host.Outcome State Fault Refusal :=
  match s.dueOp p id with
  | none => notDue
  | some o =>
    match o.kind with
    | .reduction g seq => .next (s.finishReduction p o g seq)
    | _ => notDue

/-- FRAGMENT_ARRIVAL: a participant's fragments or partial reach the combiner, or a combiner's result reaches a participant
(R333, R334); a combiner that is being reset answers with REDUCE_FAULT (R353). -/
def State.takeFragment (s : State) (f : Fragment) : State :=
  match f with
  | .share p g seq i n v ao lo cnt start hops lr det bin pstart vals =>
    let q := s.part p
    if !s.joined p g i then s
    else if q.st = .running then
      s.takeShare p g seq ⟨i, n, v, ao, lo, cnt, start, hops, lr, det, bin, pstart, vals, s.cyc p⟩
    else if q.st = .draining then s.answer (.result (q.redRoute g i) g seq none)
    else s
  | .result p g seq vals =>
    if s.joined p g ((s.part p).redRoot g) && (s.part p).st == .running then s.meetResult p g seq vals else s

def execFragmentArrival (fragment : Fragment) (s : State) : Host.Outcome State Fault Refusal := .next (s.takeFragment fragment)

/-! ## FABRIC_CREDITS_RETURNED (R323) -/

/-- The link of a channel withholds its credits from now on, or returns some; on a channel that the partition does not own it
changes nothing. -/
def Partition.credit (q : Partition) (c : CreditReturn) : Partition :=
  match c with
  | .withheld port vc =>
    if q.cfg.ownsVc port vc then
      { q with credits := amSet q.credits (16 * port + vc) ((amGet q.credits (16 * port + vc)).getD 0) }
    else q
  | .returned port vc n =>
    match amGet q.credits (16 * port + vc) with
    | some m => { q with credits := amSet q.credits (16 * port + vc) (m + n) }
    | none => q

/-- FABRIC_CREDITS_RETURNED. -/
def execFabricCreditsReturned (p : Nat) (credits : CreditReturn) (s : State) : Host.Outcome State Fault Refusal :=
  .next (s.onPart p (fun q => q.credit credits))

end Sys2Proof.Machine
end

