-- ==== Sys2Proof/Machine/Health.lean ====
section
/-! DEFINITION. Errors and their histories, temperature and power, lifetime hours, module reset and bring-up (R347, R356, R363 to
R371). -/

namespace Sys2Proof.Machine

/-! ## Histories (R365, R368) -/

/-- Change the record of a unit. -/
def Module.onUnit (m : Module) (u : ErrorUnit) (f : UnitRec → UnitRec) : Module :=
  let r := f (m.unitRec u)
  { m with units := if m.units.any (fun e => e.unit == u) then m.units.map (fun e => if e.unit = u then r else e) else m.units ++ [r] }

/-- T errors within an interval shorter than W hours; hours holds the error times, the latest last (R365, R369). -/
def isLasting (t w : Nat) (hours : List Nat) : Bool :=
  decide (t ≤ hours.length) && (match hours[hours.length - t]?, hours.getLast? with
    | some a, some b => decide (b - a < w)
    | _, _ => false)

/-- A corrected error of a unit in its record: its time counts, unless a spare row repairs its row, after which only the errors
that follow count (R365). -/
def UnitRec.correct (r : UnitRec) (t w hour : Nat) (repair : Bool) : UnitRec :=
  if repair then { r with corrected := r.corrected + 1, spares := r.spares + 1, hours := [] }
  else
    let hs := r.hours ++ [hour]
    let kept := hs.drop (hs.length - t)
    { r with corrected := r.corrected + 1, hours := kept, lasting := r.lasting || isLasting t w kept }

/-- HSTAT after a change of the records: bit 0 units awaiting retirement, bit 1 a lasting slice or port, bit 2 kept (R366,
R367). -/
def Module.restat (m : Module) : Module :=
  let waits := m.units.any (fun r => r.lasting && unitRetires r.unit && !r.retired)
  let replace := m.units.any (fun r => r.lasting && !unitRetires r.unit)
  { m with hstat := BitVec.ofBool (m.hstat.getLsbD 2) ++ BitVec.ofBool replace ++ BitVec.ofBool waits }

/-- A count of a histogram, raised by 1. -/
def amInc (m : AMap Nat) (k : Nat) : AMap Nat := amSet m k ((amGet m k).getD 0 + 1)

/-- A spare row of a granule comes into use: the repair map names the granule and the row's number among its spares (R365, R368;
log 6). -/
def Module.repair (m : Module) (u : ErrorUnit) : Module :=
  match u with
  | .granule g => { m with repairs := m.repairs ++ [(g, (m.unitRec u).spares)] }
  | _ => m

/-- A unit whose rows spare rows repair: a GDDR granule (R365). -/
def rowUnit (u : ErrorUnit) : Bool :=
  match u with
  | .granule _ => true
  | _ => false

/-- CORRECTED_ERROR: counted, and recorded in its unit's history; it changes no value and no stamp (R363, R365). -/
def Module.corrected (m : Module) (u : ErrorUnit) (repair : Bool) : Module :=
  let m1 := { m with hce := m.hce + 1, errDays := amInc m.errDays (m.hlife / 24) }
  let fixes := repair && rowUnit u
  if u = .unowned then m1
  else ((if fixes then m1.repair u else m1).onUnit u (fun r => r.correct m.hctlT.toNat m.hctlW.toNat m.hlife fixes)).restat

def execCorrectedError (unit : ErrorUnit) (repair : Bool) (s : State) : Host.Outcome State Fault Refusal :=
  .next { s with module := s.module.corrected unit repair }

/-! ## UNCORRECTABLE_ERROR (R344, R364) -/

/-- A device fault of a partition: PEVENT bit 2, and a drain unless one is under way; one that is CREATING drains once it is RUNNING
(R344, R364; DEDUCED, log 55). -/
def State.deviceFault (s : State) (p : Nat) (failing : Failing) : State :=
  let s1 := s.onPart p (fun x => { x with pevent := x.pevent ||| 4 })
  match (s.part p).st with
  | .none => s
  | .creating => s1.addOp p (some 0) 0 0 0 (.drain 3 failing)
  | _ => s1.askDrain p 4 3 failing

/-- A virtual channel of a port belongs to a partition. -/
def PCfg.onPort (c : PCfg) (port : Nat) : Bool := (List.range 16).any (c.ownsVc port)

/-- The partitions that an uncorrectable error touches (R364). -/
def State.touched (s : State) (u : ErrorUnit) (holder : Nat) : List Nat :=
  (s.parts.filter (fun e => e.2.st != .none && (match u with
    | .core k => e.2.cfg.mask.getLsbD (clusterOf k)
    | .bank c _ => e.2.cfg.mask.getLsbD c
    | .granule g => e.2.cfg.granules.contains g
    | .slice _ => e.1 == holder
    | .port n => e.2.cfg.onPort n
    | .unowned => false))).map (·.1)

/-- UNCORRECTABLE_ERROR: counted, and a device fault of the partitions that it touches, with the failing word (R220, R364). -/
def execUncorrectableError (unit : ErrorUnit) (holder : Struck) (s : State) : Host.Outcome State Fault Refusal :=
  let m := { s.module with hue := s.module.hue + 1 }
  let m1 := if unit = .unowned then m else m.onUnit unit (fun r => { r with uncorrected := r.uncorrected + 1 })
  .next ((s.touched unit holder.holder).foldl (fun s p => s.deviceFault p holder.failing) { s with module := m1 })

/-! ## THERMAL_EVENT (R347, R370) -/

/-- A partition's clock takes a new multiple of the reference from now on (R347). -/
def State.setClock (s : State) (p mult : Nat) : State :=
  s.onPart p (fun q => { q with clock := ⟨mult, s.now, q.clock.at_ s.now⟩ })

/-- The THR partitions in use, and the DET partitions in use. -/
def State.partsIn (s : State) (det : Bool) : List Nat := (s.parts.filter (fun e => e.2.st != .none && e.2.cfg.det == det)).map (·.1)

/-- What the module measures at an hour's end, as HTEMP and HPWR show it (R367; log 13). -/
def State.sample (s : State) : State :=
  { s with module := { s.module with htemp := Config.temperature s.fresh, hpwr := Config.power s.fresh }, fresh := s.fresh + 1 }

/-- A limit is exceeded: THR clocks go down by 100 MHz; with every THR partition at 1.8 GHz each DET partition faults (R370). -/
def State.thermalLimit (s : State) : State :=
  let fast := (s.partsIn false).filter (fun p => decide (18 < s.mult p))
  if fast.isEmpty then (s.partsIn true).foldl (fun s p => s.deviceFault p .none) s
  else fast.foldl (fun s p => s.setClock p (s.mult p - 1)) s

/-- A limit is no longer exceeded: THR clocks may rise again, to 3.0 GHz at most (R347). -/
def State.thermalRelief (s : State) : State :=
  ((s.partsIn false).filter (fun p => decide (s.mult p < 30))).foldl (fun s p => s.setClock p (s.mult p + 1)) s

/-- The hottest die above 105 °C: every partition faults, then the module is reset (R370). -/
def State.overheat (s : State) : State :=
  let s1 := (s.partsIn false ++ s.partsIn true).foldl (fun s p => s.deviceFault p .none) s
  { s1 with inputs := (s1.now, .moduleReset) :: s1.inputs }

/-- What the module has measured meets the limits of R370: 105 °C, then 95 °C and 2,800 W; the temperature is in sixteenths of a
degree (R367). Calm is what comes where no limit is exceeded. -/
def State.meetLimits (s calm : State) : State :=
  if 105 * 16 < s.module.htemp.toNat then s.overheat
  else if 95 * 16 < s.module.htemp.toNat ∨ 2800 < s.module.hpwr.toNat then s.thermalLimit
  else calm

/-- THERMAL_EVENT: the module measures its temperature and its power (R347, R370). -/
def execThermalEvent (event : Thermal) (s : State) : Host.Outcome State Fault Refusal :=
  let s := { s with module := { s.module with htemp := event.temp, hpwr := event.watts } }
  .next (s.meetLimits s.thermalRelief)

/-! ## MODULE_RESET (R354, R356, R365, R371) -/

/-- Bring-up, with the stage that fails and its error code; stage 0 stands for none. A failure of stage 2 stops at stage 4, with
HSTAT bit 2 set (R371; log 13). -/
def Module.bringUp (m : Module) (fails err attested : Nat) : Module :=
  let ports : BitVec 16 := BitVec.ofNat 16 attested
  if fails = 0 ∨ 6 ≤ fails then { m with stage := 6, bootErr := 0, flashOk := true, hstat := m.hstat &&& 3, attested := ports }
  else if fails = 2 then { m with stage := 4, bootErr := BitVec.ofNat 8 err, flashOk := false, hstat := m.hstat ||| 4, attested := 0 }
  else { m with stage := fails, bootErr := BitVec.ofNat 8 err, flashOk := true, hstat := m.hstat &&& 3, attested := 0 }

/-- The module after reset: no partition, no queue, cores and clusters empty, HCTL at its defaults, GDDR and SRAM without the
old contents; the flash records and the counts since power-up stay, and STIME starts anew with the domain (R348, R354, R365,
R368, R371): with attested ports it takes the STIME of the domain that it joins, else it counts from 0 (log 13). -/
def State.moduleReset (s : State) : State :=
  let n := s.fresh
  let r := Config.bringUp n
  let m := ({ s.module with hctlT := 3, hctlW := 24, hrsel := 0, hostErrors := 0, stime0 := s.now }).bringUp (r % 16) (r / 16) (Config.attested n).toNat
  let m := { m with stime := if m.attested = 0 then 0 else Config.domainTime n }
  let s1 : State := { s with
    fresh := n + 1, module := m, mem := memDrop (memDrop s.mem 0 (2 ^ 37)) sramBase (16 * 0x2000000), parts := [], queues := [],
    clusters := [], cores := [], cycles := [] }
  (List.range 16).foldl (fun t c => if t.emptyCluster c = Cluster.reset then t else t.setCluster c (t.emptyCluster c)) s1

def execModuleReset (s : State) : Host.Outcome State Fault Refusal := .next s.moduleReset

/-! ## LIFETIME_HOUR (R365, R368) -/

/-- A powered-on hour: HLIFE, and the histograms of temperature in bins of 1 °C and of power in bins of 50 W; what is measured then
meets the limits too (R365, R368, R370). -/
def execLifetimeHour (s : State) : Host.Outcome State Fault Refusal :=
  let t := s.sample
  let m := t.module
  let u := { t with module := { m with
    hlife := m.hlife + 1, tempHist := amInc m.tempHist (m.htemp.toNat / 16), powerHist := amInc m.powerHist (m.hpwr.toNat / 50) } }
  .next (u.meetLimits u)

end Sys2Proof.Machine
end

