-- ==== Sys2Proof/Machine/Dispatch.lean ====
section
/-! DEFINITION. One arm per constructor of Instr: each a call of its meaning. -/

namespace Sys2Proof.Machine

def exec (i : Instr) (s : State) : Host.Outcome State Fault Refusal :=
  match i with
  | .bundleIssue core ctx => Sys2Proof.Machine.execBundleIssue core ctx s
  | .scheduleOverrun core ctx => Sys2Proof.Machine.execScheduleOverrun core ctx s
  | .resultLands core ctx => Sys2Proof.Machine.execResultLands core ctx s
  | .trapEntry core ctx => Sys2Proof.Machine.execTrapEntry core ctx s
  | .snapshotBufferGained core ctx => Sys2Proof.Machine.execSnapshotBufferGained core ctx s
  | .add tt xd xa xb => Sys2Proof.Machine.execAdd tt xd xa xb s
  | .sub tt xd xa xb => Sys2Proof.Machine.execSub tt xd xa xb s
  | .mul tt xd xa xb => Sys2Proof.Machine.execMul tt xd xa xb s
  | .mulh tt xd xa xb => Sys2Proof.Machine.execMulh tt xd xa xb s
  | .mulhu tt xd xa xb => Sys2Proof.Machine.execMulhu tt xd xa xb s
  | .div tt xd xa xb => Sys2Proof.Machine.execDiv tt xd xa xb s
  | .divu tt xd xa xb => Sys2Proof.Machine.execDivu tt xd xa xb s
  | .rem tt xd xa xb => Sys2Proof.Machine.execRem tt xd xa xb s
  | .remu tt xd xa xb => Sys2Proof.Machine.execRemu tt xd xa xb s
  | .and tt xd xa xb => Sys2Proof.Machine.execAnd tt xd xa xb s
  | .or tt xd xa xb => Sys2Proof.Machine.execOr tt xd xa xb s
  | .xor tt xd xa xb => Sys2Proof.Machine.execXor tt xd xa xb s
  | .andn tt xd xa xb => Sys2Proof.Machine.execAndn tt xd xa xb s
  | .shl tt xd xa xb => Sys2Proof.Machine.execShl tt xd xa xb s
  | .shr tt xd xa xb => Sys2Proof.Machine.execShr tt xd xa xb s
  | .sar tt xd xa xb => Sys2Proof.Machine.execSar tt xd xa xb s
  | .rol tt xd xa xb => Sys2Proof.Machine.execRol tt xd xa xb s
  | .min tt xd xa xb => Sys2Proof.Machine.execMin tt xd xa xb s
  | .max tt xd xa xb => Sys2Proof.Machine.execMax tt xd xa xb s
  | .minu tt xd xa xb => Sys2Proof.Machine.execMinu tt xd xa xb s
  | .maxu tt xd xa xb => Sys2Proof.Machine.execMaxu tt xd xa xb s
  | .clz tt xd xa => Sys2Proof.Machine.execClz tt xd xa s
  | .ctz tt xd xa => Sys2Proof.Machine.execCtz tt xd xa s
  | .popc tt xd xa => Sys2Proof.Machine.execPopc tt xd xa s
  | .movi tt xd imm => Sys2Proof.Machine.execMovi tt xd imm s
  | .movh tt xd imm => Sys2Proof.Machine.execMovh tt xd imm s
  | .sext tt xd xa => Sys2Proof.Machine.execSext tt xd xa s
  | .zext tt xd xa => Sys2Proof.Machine.execZext tt xd xa s
  | .cmp tt pd0 pd1 pwt cond xa xb => Sys2Proof.Machine.execCmp tt pd0 pd1 pwt cond xa xb s
  | .fcmp tt pd0 pd1 pwt cond xa xb => Sys2Proof.Machine.execFcmp tt pd0 pd1 pwt cond xa xb s
  | .fadd tt xd xa xb => Sys2Proof.Machine.execFadd tt xd xa xb s
  | .fsub tt xd xa xb => Sys2Proof.Machine.execFsub tt xd xa xb s
  | .fmul tt xd xa xb => Sys2Proof.Machine.execFmul tt xd xa xb s
  | .ffma tt xd xa xb => Sys2Proof.Machine.execFfma tt xd xa xb s
  | .fdiv tt xd xa xb => Sys2Proof.Machine.execFdiv tt xd xa xb s
  | .fsqrt tt xd xa => Sys2Proof.Machine.execFsqrt tt xd xa s
  | .fmin tt xd xa xb => Sys2Proof.Machine.execFmin tt xd xa xb s
  | .fmax tt xd xa xb => Sys2Proof.Machine.execFmax tt xd xa xb s
  | .fcvt tt xd xa cond => Sys2Proof.Machine.execFcvt tt xd xa cond s
  | .br tt ofs => Sys2Proof.Machine.execBr tt ofs s
  | .brx tt xa => Sys2Proof.Machine.execBrx tt xa s
  | .call tt xd ofs => Sys2Proof.Machine.execCall tt xd ofs s
  | .callx tt xd xa => Sys2Proof.Machine.execCallx tt xd xa s
  | .ret tt xa => Sys2Proof.Machine.execRet tt xa s
  | .loop tt count eofs rsz prt epi => Sys2Proof.Machine.execLoop tt count eofs rsz prt epi s
  | .loopx tt xa eofs rsz prt epi => Sys2Proof.Machine.execLoopx tt xa eofs rsz prt epi s
  | .lbrk tt => Sys2Proof.Machine.execLbrk tt s
  | .lidx tt xd level => Sys2Proof.Machine.execLidx tt xd level s
  | .getc tt xd csr => Sys2Proof.Machine.execGetc tt xd csr s
  | .putc tt csr xa => Sys2Proof.Machine.execPutc tt csr xa s
  | .fmtset tt xa mask => Sys2Proof.Machine.execFmtset tt xa mask s
  | .mode tt il => Sys2Proof.Machine.execMode tt il s
  | .tend tt => Sys2Proof.Machine.execTend tt s
  | .trap tt code => Sys2Proof.Machine.execTrap tt code s
  | .hret tt => Sys2Proof.Machine.execHret tt s
  | .snapst tt xa => Sys2Proof.Machine.execSnapst tt xa s
  | .snapld tt xa => Sys2Proof.Machine.execSnapld tt xa s
  | .snaprel tt => Sys2Proof.Machine.execSnaprel tt s
  | .plut tt pd pa pb pc table => Sys2Proof.Machine.execPlut tt pd pa pb pc table s
  | .vAdd vu tt vd va vb w sati => Sys2Proof.Machine.execVAdd vu tt vd va vb w sati s
  | .vSub vu tt vd va vb w sati => Sys2Proof.Machine.execVSub vu tt vd va vb w sati s
  | .vMul vu tt vd va vb w => Sys2Proof.Machine.execVMul vu tt vd va vb w s
  | .vMulh vu tt vd va vb w => Sys2Proof.Machine.execVMulh vu tt vd va vb w s
  | .vMulhu vu tt vd va vb w => Sys2Proof.Machine.execVMulhu vu tt vd va vb w s
  | .vAnd vu tt vd va vb w => Sys2Proof.Machine.execVAnd vu tt vd va vb w s
  | .vOr vu tt vd va vb w => Sys2Proof.Machine.execVOr vu tt vd va vb w s
  | .vXor vu tt vd va vb w => Sys2Proof.Machine.execVXor vu tt vd va vb w s
  | .vAndn vu tt vd va vb w => Sys2Proof.Machine.execVAndn vu tt vd va vb w s
  | .vShl vu tt vd va vb w => Sys2Proof.Machine.execVShl vu tt vd va vb w s
  | .vShr vu tt vd va vb w => Sys2Proof.Machine.execVShr vu tt vd va vb w s
  | .vSar vu tt vd va vb w => Sys2Proof.Machine.execVSar vu tt vd va vb w s
  | .vMin vu tt vd va vb w => Sys2Proof.Machine.execVMin vu tt vd va vb w s
  | .vMax vu tt vd va vb w => Sys2Proof.Machine.execVMax vu tt vd va vb w s
  | .vMinu vu tt vd va vb w => Sys2Proof.Machine.execVMinu vu tt vd va vb w s
  | .vMaxu vu tt vd va vb w => Sys2Proof.Machine.execVMaxu vu tt vd va vb w s
  | .vClz vu tt vd va w => Sys2Proof.Machine.execVClz vu tt vd va w s
  | .vPopc vu tt vd va w => Sys2Proof.Machine.execVPopc vu tt vd va w s
  | .vAbs vu tt vd va w => Sys2Proof.Machine.execVAbs vu tt vd va w s
  | .vCmp vu tt pd0 pd1 pwt cond va vb => Sys2Proof.Machine.execVCmp vu tt pd0 pd1 pwt cond va vb s
  | .vFadd vu tt vd va vb rm => Sys2Proof.Machine.execVFadd vu tt vd va vb rm s
  | .vFsub vu tt vd va vb rm => Sys2Proof.Machine.execVFsub vu tt vd va vb rm s
  | .vFmul vu tt vd va vb rm => Sys2Proof.Machine.execVFmul vu tt vd va vb rm s
  | .vFcmp vu tt pd0 pd1 pwt cond va vb => Sys2Proof.Machine.execVFcmp vu tt pd0 pd1 pwt cond va vb s
  | .vFfma vu tt vd va vb vc rm => Sys2Proof.Machine.execVFfma vu tt vd va vb vc rm s
  | .vFmin vu tt vd va vb => Sys2Proof.Machine.execVFmin vu tt vd va vb s
  | .vFmax vu tt vd va vb => Sys2Proof.Machine.execVFmax vu tt vd va vb s
  | .vFabs vu tt vd va => Sys2Proof.Machine.execVFabs vu tt vd va s
  | .vFneg vu tt vd va => Sys2Proof.Machine.execVFneg vu tt vd va s
  | .vfclass vu tt vd va => Sys2Proof.Machine.execVfclass vu tt vd va s
  | .vnfin vu tt pd0 pd1 pwt va fmt => Sys2Proof.Machine.execVnfin vu tt pd0 pd1 pwt va fmt s
  | .vfdiv vu tt vd va vb rm => Sys2Proof.Machine.execVfdiv vu tt vd va vb rm s
  | .vfsqrt vu tt vd va rm => Sys2Proof.Machine.execVfsqrt vu tt vd va rm s
  | .vfrsq vu tt vd va rm => Sys2Proof.Machine.execVfrsq vu tt vd va rm s
  | .vfrcp vu tt vd va rm => Sys2Proof.Machine.execVfrcp vu tt vd va rm s
  | .vlane vu tt vd va lane => Sys2Proof.Machine.execVlane vu tt vd va lane s
  | .vbcast vu tt vd va lane => Sys2Proof.Machine.execVbcast vu tt vd va lane s
  | .vperm vu tt vd va vb => Sys2Proof.Machine.execVperm vu tt vd va vb s
  | .vslide vu tt vd va vb amount down => Sys2Proof.Machine.execVslide vu tt vd va vb amount down s
  | .vpack vu tt vd va vb fmt => Sys2Proof.Machine.execVpack vu tt vd va vb fmt s
  | .vunpk vu tt vd va fmt part => Sys2Proof.Machine.execVunpk vu tt vd va fmt part s
  | .vcvt vu tt vd va sfmt dfmt rm => Sys2Proof.Machine.execVcvt vu tt vd va sfmt dfmt rm s
  | .vred vu tt vd va red => Sys2Proof.Machine.execVred vu tt vd va red s
  | .vdot4 vu tt vd va vb vc fmt => Sys2Proof.Machine.execVdot4 vu tt vd va vb vc fmt s
  | .vamax vu tt vd va => Sys2Proof.Machine.execVamax vu tt vd va s
  | .vexpo vu tt vd va fmt => Sys2Proof.Machine.execVexpo vu tt vd va fmt s
  | .vsrnd vu tt vd va frame fmt => Sys2Proof.Machine.execVsrnd vu tt vd va frame fmt s
  | .vdith vu tt vd va frame fmt => Sys2Proof.Machine.execVdith vu tt vd va frame fmt s
  | .vqenc vu tt vd va frame sc se fmt => Sys2Proof.Machine.execVqenc vu tt vd va frame sc se fmt s
  | .vqdec vu tt vd va frame sc se fmt => Sys2Proof.Machine.execVqdec vu tt vd va frame sc se fmt s
  | .vPlut vu tt pd pa pb pc table => Sys2Proof.Machine.execVPlut vu tt pd pa pb pc table s
  | .pmovToPredicate vu tt pd va => Sys2Proof.Machine.execPmovToPredicate vu tt pd va s
  | .pmovToVector vu tt vd pa => Sys2Proof.Machine.execPmovToVector vu tt vd pa s
  | .tdef tt nd mk => Sys2Proof.Machine.execTdef tt nd mk s
  | .tmul tt nd na nb mk acc => Sys2Proof.Machine.execTmul tt nd na nb mk acc s
  | .tmulb tt nd na nb mk acc => Sys2Proof.Machine.execTmulb tt nd na nb mk acc s
  | .tadd tt nd na nb mk => Sys2Proof.Machine.execTadd tt nd na nb mk s
  | .tscal tt nd na mk => Sys2Proof.Machine.execTscal tt nd na mk s
  | .trot tt nd na mk inv => Sys2Proof.Machine.execTrot tt nd na mk inv s
  | .tview tt nd na mk => Sys2Proof.Machine.execTview tt nd na mk s
  | .tcvt tt nd na mk => Sys2Proof.Machine.execTcvt tt nd na mk s
  | .tcb tt mk => Sys2Proof.Machine.execTcb tt mk s
  | .tdrop tt nd => Sys2Proof.Machine.execTdrop tt nd s
  | .tforce tt nd mk => Sys2Proof.Machine.execTforce tt nd mk s
  | .tstore tt nd mk => Sys2Proof.Machine.execTstore tt nd mk s
  | .ttrsm tt nd na nb mk up unit tr => Sys2Proof.Machine.execTtrsm tt nd na nb mk up unit tr s
  | .tlu tt nd na mk np => Sys2Proof.Machine.execTlu tt nd na mk np s
  | .tchol tt nd na mk => Sys2Proof.Machine.execTchol tt nd na mk s
  | .tqr tt nd na mk => Sys2Proof.Machine.execTqr tt nd na mk s
  | .tapply tt nd na nb mk kind => Sys2Proof.Machine.execTapply tt nd na nb mk kind s
  | .tres tt nd na nb mk => Sys2Proof.Machine.execTres tt nd na nb mk s
  | .demandStart core => Sys2Proof.Machine.execDemandStart core s
  | .demandComplete core => Sys2Proof.Machine.execDemandComplete core s
  | .demandSuspend core => Sys2Proof.Machine.execDemandSuspend core s
  | .solverUnitRequest core => Sys2Proof.Machine.execSolverUnitRequest core s
  | .ld tt lvd lab am ofs sz sx rd => Sys2Proof.Machine.execLd tt lvd lab am ofs sz sx rd s
  | .ldv tt lvd lab am ofs rd => Sys2Proof.Machine.execLdv tt lvd lab am ofs rd s
  | .lds tt lvd lab las ofs rd => Sys2Proof.Machine.execLds tt lvd lab las ofs rd s
  | .ldg tt lvd lab lvi ofs rd => Sys2Proof.Machine.execLdg tt lvd lab lvi ofs rd s
  | .ldc tt lvd lab am ofs sz sx rd => Sys2Proof.Machine.execLdc tt lvd lab am ofs sz sx rd s
  | .ldcv tt lvd lab am ofs rd => Sys2Proof.Machine.execLdcv tt lvd lab am ofs rd s
  | .pref tt lines lab am ofs rd => Sys2Proof.Machine.execPref tt lines lab am ofs rd s
  | .laadd tt lad laa imm => Sys2Proof.Machine.execLaadd tt lad laa imm s
  | .lamov tt lad lvs => Sys2Proof.Machine.execLamov tt lad lvs s
  | .loadValueLands p id => Sys2Proof.Machine.execLoadValueLands p id s
  | .ldcLands p id => Sys2Proof.Machine.execLdcLands p id s
  | .st tt qvs qab am ofs sz => Sys2Proof.Machine.execSt tt qvs qab am ofs sz s
  | .stv tt qvs qab am ofs => Sys2Proof.Machine.execStv tt qvs qab am ofs s
  | .sts tt qvs qab qas ofs => Sys2Proof.Machine.execSts tt qvs qab qas ofs s
  | .scat tt qvs qab qvi ofs => Sys2Proof.Machine.execScat tt qvs qab qvi ofs s
  | .qst tt qvs qab am ofs frame fmt sc se => Sys2Proof.Machine.execQst tt qvs qab am ofs frame fmt sc se s
  | .qstb tt qvs qab am ofs frame fmt sc => Sys2Proof.Machine.execQstb tt qvs qab am ofs frame fmt sc s
  | .aadd tt qvs qvd qab ofs sz nr => Sys2Proof.Machine.execAadd tt qvs qvd qab ofs sz nr s
  | .afadd tt qvs qvd qab ofs nr => Sys2Proof.Machine.execAfadd tt qvs qvd qab ofs nr s
  | .amin tt qvs qvd qab ofs sz nr u => Sys2Proof.Machine.execAmin tt qvs qvd qab ofs sz nr u s
  | .amax tt qvs qvd qab ofs sz nr u => Sys2Proof.Machine.execAmax tt qvs qvd qab ofs sz nr u s
  | .aor tt qvs qvd qab ofs sz nr => Sys2Proof.Machine.execAor tt qvs qvd qab ofs sz nr s
  | .aand tt qvs qvd qab ofs sz nr => Sys2Proof.Machine.execAand tt qvs qvd qab ofs sz nr s
  | .axchg tt qvs qvd qab ofs sz nr => Sys2Proof.Machine.execAxchg tt qvs qvd qab ofs sz nr s
  | .acas tt qvs qvd qab ofs sz nr => Sys2Proof.Machine.execAcas tt qvs qvd qab ofs sz nr s
  | .contrib tt qvs qab qak ofs h => Sys2Proof.Machine.execContrib tt qvs qab qak ofs h s
  | .qaadd tt qad qaa imm => Sys2Proof.Machine.execQaadd tt qad qaa imm s
  | .storePerforms p id => Sys2Proof.Machine.execStorePerforms p id s
  | .atomicPerforms p id => Sys2Proof.Machine.execAtomicPerforms p id s
  | .fifoPopServed p id => Sys2Proof.Machine.execFifoPopServed p id s
  | .fifoPushEnters p id => Sys2Proof.Machine.execFifoPushEnters p id s
  | .copy tt c0 c1 => Sys2Proof.Machine.execCopy tt c0 c1 s
  | .copyb tt c0 c1 => Sys2Proof.Machine.execCopyb tt c0 c1 s
  | .copyl tt c0 c1 => Sys2Proof.Machine.execCopyl tt c0 c1 s
  | .copyp tt c0 c1 => Sys2Proof.Machine.execCopyp tt c0 c1 s
  | .cpy tt k rd ha => Sys2Proof.Machine.execCpy tt k rd ha s
  | .cpy2 tt k rd => Sys2Proof.Machine.execCpy2 tt k rd s
  | .cpyt tt k rd => Sys2Proof.Machine.execCpyt tt k rd s
  | .crdt tt k rd tr => Sys2Proof.Machine.execCrdt tt k rd tr s
  | .cgat tt k rd => Sys2Proof.Machine.execCgat tt k rd s
  | .csct tt k rd => Sys2Proof.Machine.execCsct tt k rd s
  | .cfill tt k rd => Sys2Proof.Machine.execCfill tt k rd s
  | .csend tt k rd ha => Sys2Proof.Machine.execCsend tt k rd ha s
  | .cpull tt k rd => Sys2Proof.Machine.execCpull tt k rd s
  | .cred tt k => Sys2Proof.Machine.execCred tt k s
  | .bankset tt k => Sys2Proof.Machine.execBankset tt k s
  | .copyStart core => Sys2Proof.Machine.execCopyStart core s
  | .copyComplete p id => Sys2Proof.Machine.execCopyComplete p id s
  | .banksetComplete p id => Sys2Proof.Machine.execBanksetComplete p id s
  | .wadd tt wi ctr bs yk => Sys2Proof.Machine.execWadd tt wi ctr bs yk s
  | .tlinc tt yk => Sys2Proof.Machine.execTlinc tt yk s
  | .tlincC tt xa yk => Sys2Proof.Machine.execTlincC tt xa yk s
  | .tsIncrement p id => Sys2Proof.Machine.execTsIncrement p id s
  | .fenceRel tt scope => Sys2Proof.Machine.execFenceRel tt scope s
  | .fenceAcq tt scope => Sys2Proof.Machine.execFenceAcq tt scope s
  | .drain tt => Sys2Proof.Machine.execDrain tt s
  | .flush tt xa xb => Sys2Proof.Machine.execFlush tt xa xb s
  | .flushAll tt => Sys2Proof.Machine.execFlushAll tt s
  | .inval tt xa xb => Sys2Proof.Machine.execInval tt xa xb s
  | .invalAll tt => Sys2Proof.Machine.execInvalAll tt s
  | .syncComplete core ctx => Sys2Proof.Machine.execSyncComplete core ctx s
  | .join tt xg => Sys2Proof.Machine.execJoin tt xg s
  | .leave tt xg scope => Sys2Proof.Machine.execLeave tt xg scope s
  | .gnew tt xg => Sys2Proof.Machine.execGnew tt xg s
  | .gfree tt xg => Sys2Proof.Machine.execGfree tt xg s
  | .bar tt xg scope => Sys2Proof.Machine.execBar tt xg scope s
  | .arrive tt xg scope => Sys2Proof.Machine.execArrive tt xg scope s
  | .arrivalCounts p id => Sys2Proof.Machine.execArrivalCounts p id s
  | .tgAdvance p id => Sys2Proof.Machine.execTgAdvance p id s
  | .signal tt => Sys2Proof.Machine.execSignal tt s
  | .taskSignalled p id => Sys2Proof.Machine.execTaskSignalled p id s
  | .submit tt xa xb => Sys2Proof.Machine.execSubmit tt xa xb s
  | .submitDelivery p id => Sys2Proof.Machine.execSubmitDelivery p id s
  | .armctx tt xd => Sys2Proof.Machine.execArmctx tt xd s
  | .uarm tt xa xb => Sys2Proof.Machine.execUarm tt xa xb s
  | .armArrival p id => Sys2Proof.Machine.execArmArrival p id s
  | .contribAccepted p id => Sys2Proof.Machine.execContribAccepted p id s
  | .updateRuleApply p id => Sys2Proof.Machine.execUpdateRuleApply p id s
  | .updateComplete p id => Sys2Proof.Machine.execUpdateComplete p id s
  | .arrival p id => Sys2Proof.Machine.execArrival p id s
  | .arrivalHandlerStart core => Sys2Proof.Machine.execArrivalHandlerStart core s
  | .contextFree core ctx => Sys2Proof.Machine.execContextFree core ctx s
  | .forcedPreemption core ctx => Sys2Proof.Machine.execForcedPreemption core ctx s
  | .contextSave core ctx => Sys2Proof.Machine.execContextSave core ctx s
  | .contextRestore p id => Sys2Proof.Machine.execContextRestore p id s
  | .slotRead q => Sys2Proof.Machine.execSlotRead q s
  | .queueStale q => Sys2Proof.Machine.execQueueStale q s
  | .packetAccept q => Sys2Proof.Machine.execPacketAccept q s
  | .taskBind p cluster => Sys2Proof.Machine.execTaskBind p cluster s
  | .priorityAging p id => Sys2Proof.Machine.execPriorityAging p id s
  | .detBind p id => Sys2Proof.Machine.execDetBind p id s
  | .launchComplete p id => Sys2Proof.Machine.execLaunchComplete p id s
  | .watchdogExpiry q => Sys2Proof.Machine.execWatchdogExpiry q s
  | .drainAndReset p => Sys2Proof.Machine.execDrainAndReset p s
  | .drainEnd p => Sys2Proof.Machine.execDrainEnd p s
  | .partitionStart p => Sys2Proof.Machine.execPartitionStart p s
  | .ingressPerformed p id => Sys2Proof.Machine.execIngressPerformed p id s
  | .reductionResult p id => Sys2Proof.Machine.execReductionResult p id s
  | .flushPartComplete p id => Sys2Proof.Machine.execFlushPartComplete p id s
  | .bankNewModeEntered p id => Sys2Proof.Machine.execBankNewModeEntered p id s
  | .destroyingDone p => Sys2Proof.Machine.execDestroyingDone p s
  | .registerWrite reg value => Sys2Proof.Machine.execRegisterWrite reg value s
  | .doorbell q tail => Sys2Proof.Machine.execDoorbell q tail s
  | .ingressArrival write => Sys2Proof.Machine.execIngressArrival write s
  | .hostRead read => Sys2Proof.Machine.execHostRead read s
  | .peventClear p bits => Sys2Proof.Machine.execPeventClear p bits s
  | .preemptRequest core ctx area => Sys2Proof.Machine.execPreemptRequest core ctx area s
  | .queueEnable q ctl => Sys2Proof.Machine.execQueueEnable q ctl s
  | .rangeTableLoad p entries => Sys2Proof.Machine.execRangeTableLoad p entries s
  | .queueDisable q ctl => Sys2Proof.Machine.execQueueDisable q ctl s
  | .create p => Sys2Proof.Machine.execCreate p s
  | .destroy p => Sys2Proof.Machine.execDestroy p s
  | .reset p => Sys2Proof.Machine.execReset p s
  | .hrsel sel => Sys2Proof.Machine.execHrsel sel s
  | .routeTableLoad p words => Sys2Proof.Machine.execRouteTableLoad p words s
  | .reductionGroupLoad p index words => Sys2Proof.Machine.execReductionGroupLoad p index words s
  | .ruleSetLoad p index words => Sys2Proof.Machine.execRuleSetLoad p index words s
  | .fabricHeaderCheck header => Sys2Proof.Machine.execFabricHeaderCheck header s
  | .fragmentArrival fragment => Sys2Proof.Machine.execFragmentArrival fragment s
  | .uncorrectableError unit holder => Sys2Proof.Machine.execUncorrectableError unit holder s
  | .correctedError unit repair => Sys2Proof.Machine.execCorrectedError unit repair s
  | .thermalEvent event => Sys2Proof.Machine.execThermalEvent event s
  | .moduleReset => Sys2Proof.Machine.execModuleReset s
  | .fabricCreditsReturned p credits => Sys2Proof.Machine.execFabricCreditsReturned p credits s
  | .spdmRequest request => Sys2Proof.Machine.execSpdmRequest request s
  | .tdispRequest p run => Sys2Proof.Machine.execTdispRequest p run s
  | .lifetimeHour => Sys2Proof.Machine.execLifetimeHour s

end Sys2Proof.Machine
end

