-- ==== Sys2Proof/Machine/Schedule.lean ====
section
/-! DEFINITION. Which event the machine makes next: the events that the present instant makes due, in the order in which the
spec lets them follow one another within a cycle, and the passage of time where none is due (R2, R18, R27 to R32, R175, R207,
R274, R285, R289, R311, R317 to R322, R344, R348, R351, R352; log 3). -/

namespace Sys2Proof.Machine

/-- An event that may be due, with its rank in a cycle. -/
structure Activity where
  rank : Nat
  event : Instr
  deriving DecidableEq, Repr

/-- An event in the state as it stands is made by nothing. -/
def State.ready (s : State) (i : Instr) : Bool :=
  match exec i s with
  | .refused .eventNotDue => false
  | _ => true

/-! ## Operations in flight -/

/-- The event that an operation in flight comes to, with its rank: of writes that perform at one place in one cycle the later
in R274's order has the higher rank. -/
def Op.activity (o : Op) (p : Nat) : Activity :=
  match o.kind with
  | .store .. => ⟨2, .storePerforms p o.id⟩
  | .atomic .. => ⟨2, .atomicPerforms p o.id⟩
  | .push _ _ _ _ copy => ⟨if copy.isSome then 5 else 3, .fifoPushEnters p o.id⟩
  | .padded _ => ⟨17, .scheduleOverrun o.core o.ctx⟩
  | .update .. => ⟨8, .updateComplete p o.id⟩
  | .ingress .. => ⟨9, .ingressPerformed p o.id⟩
  | .reduction .. => ⟨11, .reductionResult p o.id⟩
  | .arm .. => ⟨13, .armArrival p o.id⟩
  | .contrib .. => ⟨14, .contribAccepted p o.id⟩
  | .pop .. => ⟨16, .fifoPopServed p o.id⟩
  | .value _ ta _ => ⟨16, if ta = 0 then .loadValueLands p o.id else .ldcLands p o.id⟩
  | .oldValue .. => ⟨16, .atomicPerforms p o.id⟩
  | .tsInc .. => ⟨18, .tsIncrement p o.id⟩
  | .arrival .. => ⟨18, .arrivalCounts p o.id⟩
  | .tg .. => ⟨18, .tgAdvance p o.id⟩
  | .signal .. => ⟨18, .taskSignalled p o.id⟩
  | .submit .. => ⟨18, .submitDelivery p o.id⟩
  | .arrive .. => ⟨18, .arrival p o.id⟩
  | .flush .. => ⟨23, .flushPartComplete p o.id⟩
  | .destroyed => ⟨26, .destroyingDone p⟩
  | .drainEnd => ⟨26, .drainEnd p⟩
  | .drain .. => ⟨26, .drainAndReset p⟩

/-- An operation held at its bank may go on (R175). -/
def State.bankLets (s : State) (p : Nat) (o : Op) : Bool :=
  match o.kind with
  | .pop c b .. => s.nextAtBank p o (fun q => q.popsBank c b) && !(s.fifoEntries c b).isEmpty
  | .push c b .. =>
    s.nextAtBank p o (fun q => q.pushesBank c b)
      && (!s.fifoFor (clusterOf o.core) o.issued c b || decide ((s.fifoEntries c b).length < 4096))
  | .arrive .. => true
  | _ => false

/-- An operation's cycle has come, or what holds it is gone. -/
def State.opComes (s : State) (p : Nat) (o : Op) : Bool :=
  match o.due with
  | some d => decide (d ≤ s.cyc p)
  | none => s.bankLets p o

/-- The place of an operation among those of one rank: core, then context (R175, R207, R274, R311), of a SUBMIT also when its
context is FREE; of a rule's writes the slice; of an ingress entry its place in the order of arrival (R277, R278). -/
def Partition.placeOf (q : Partition) (o : Op) : Nat :=
  match o.kind with
  | .update arm .. => ((q.arms.find? (fun a => a.id == arm)).map (fun a => sliceOf a.w)).getD 0
  | .ingress e .. => e
  | .submit .. => ctxKey (o.core % goneCore) o.ctx
  | _ => ctxKey o.core o.ctx

/-- The operations of a partition that come to their event now. -/
def State.opActivities (s : State) (p : Nat) : List Activity :=
  let q := s.part p
  (sortBy q.placeOf (q.ops.filter (s.opComes p))).map (fun o => o.activity p)
    ++ q.contribs.map (fun o => ⟨14, .contribAccepted p o.id⟩)
    ++ q.arms.map (fun a => ⟨15, .updateRuleApply p a.id⟩)

/-! ## Cores, clusters, launches, queues -/

/-- The next command of a core's engine switches banks. -/
def Core.nextSwitches (r : Core) : Bool :=
  match nextCopy r.copies with
  | some (_, c) => c.opcode == opBANKSET
  | none => false

/-- What a core's engines and contexts may come to, but for its issue slot. From the cycle of its start a BANKSET has its banks
SWITCHING: it starts before what reaches them in that cycle (R176, R177). -/
def State.coreActivities (s : State) (p k : Nat) : List Activity :=
  let r := s.core k
  (if r.nextSwitches then [⟨1, .copyStart k⟩] else [])
    ++ r.copies.map (fun c => ⟨if c.opcode = opCRED then 12 else 4, .copyComplete p c.id⟩)
    ++ [⟨7, .demandComplete k⟩, ⟨7, .demandSuspend k⟩]
    ++ r.ctxs.map (fun e => ⟨32, .resultLands k e.1⟩)
    ++ r.ctxs.map (fun e => ⟨18, .syncComplete k e.1⟩)
    ++ r.ctxs.flatMap (fun e => [⟨21, .contextFree k e.1⟩, ⟨21, .contextSave k e.1⟩])
    ++ [⟨27, .copyStart k⟩, ⟨27, .demandStart k⟩, ⟨27, .arrivalHandlerStart k⟩, ⟨33, .solverUnitRequest k⟩]

/-- What becomes of the next bundle of a context in this cycle: it issues or faults, it overruns its stamp, or a held one takes
the free issue slot of a THR core (R16, R18, R32). -/
def State.bundleActivity (s : State) (k c : Nat) : List Activity :=
  match s.verdict k c with
  | .issues _ => [⟨31, .bundleIssue k c⟩]
  | .fault _ => [⟨31, .bundleIssue k c⟩]
  | .late _ => [⟨31, .scheduleOverrun k c⟩]
  | .held => if !s.isDet (s.partOf k) ∧ (s.core k).run = none then [⟨31, .bundleIssue k c⟩] else []
  | .nothing => []

/-- The issue slot of a core: traps first, then the buffer that has become free, then bundles, in DET those with a stamp
first (R18, R26, R285, R289, R299). -/
def State.slotActivities (s : State) (k : Nat) : List Activity :=
  let cs := (s.core k).numbers
  cs.map (fun c => ⟨31, .trapEntry k c⟩)
    ++ cs.map (fun c => ⟨31, .snapshotBufferGained k c⟩)
    ++ cs.map (fun c => ⟨31, .forcedPreemption k c⟩)
    ++ ((cs.filter (s.stamped k)) ++ (cs.filter (fun c => !s.stamped k c))).flatMap (s.bundleActivity k)

/-- The banks of a cluster that switch (R176). -/
def State.bankActivities (s : State) (p c : Nat) : List Activity :=
  (s.cluster c).runs.flatMap (fun r => [⟨0, .bankNewModeEntered p r.op⟩, ⟨0, .banksetComplete p r.op⟩])

/-- THR: the scheduler's choice on each cluster (R301, R319). -/
def State.bindActivity (s : State) (p c : Nat) : Activity :=
  match s.pickOn p c with
  | .bind d _ _ _ =>
    match d.saved with
    | some v => ⟨29, .contextRestore p v.id⟩
    | none => ⟨29, .taskBind p c⟩
  | _ => ⟨29, .taskBind p c⟩

/-- DET: the next task of a launch, and the saved tasks; one that misses its START does so at the end of the cycle (R302,
R321). -/
def State.detActivities (s : State) (p : Nat) : List Activity :=
  let q := s.part p
  q.launches.map (fun l => match l.nextPlace with
      | some (_, k, c, start) => ⟨if (s.startsAt p l k c start).isSome then 29 else 34, .detBind p l.number⟩
      | none => ⟨34, .detBind p l.number⟩)
    ++ q.saved.map (fun v => match v.place with
      | some (k, c, start) => ⟨if (s.restoreFits p v k c start).isSome then 29 else 34, .contextRestore p v.id⟩
      | none => ⟨34, .contextRestore p v.id⟩)

/-- The scheduler's part in a partition. -/
def State.launchActivities (s : State) (p : Nat) : List Activity :=
  let q := s.part p
  q.launches.map (fun l => ⟨22, .launchComplete p l.number⟩)
    ++ q.launches.map (fun l => ⟨28, .priorityAging p l.number⟩)
    ++ (if q.cfg.det then s.detActivities p else q.clusterList.map (s.bindActivity p))

/-- The service of a queue and its watchdog (R310, R351). -/
def State.queueActivities (q : Nat) : List Activity :=
  [⟨25, .watchdogExpiry q⟩, ⟨28, .slotRead q⟩, ⟨28, .queueStale q⟩, ⟨28, .packetAccept q⟩]

/-- What a partition in use may come to. -/
def State.partActivities (s : State) (p : Nat) : List Activity :=
  let q := s.part p
  s.opActivities p
    ++ q.coreList.flatMap (fun k => if (amGet s.cores k).isSome then s.coreActivities p k else [])
    ++ q.clusterList.flatMap (s.bankActivities p)
    ++ [⟨26, .partitionStart p⟩]
    ++ s.launchActivities p
    ++ q.coreList.flatMap (fun k => if (amGet s.cores k).isSome then s.slotActivities k else [])

/-! ## Outside events -/

/-- An event that comes from outside the package or from its environment. -/
def fromOutside (i : Instr) : Bool :=
  match i with
  | .preemptRequest .. => true
  | .doorbell .. => true
  | .queueEnable .. => true
  | .queueDisable .. => true
  | .create _ => true
  | .destroy _ => true
  | .reset _ => true
  | .peventClear .. => true
  | .hrsel .. => true
  | .registerWrite .. => true
  | .rangeTableLoad .. => true
  | .routeTableLoad .. => true
  | .reductionGroupLoad .. => true
  | .ruleSetLoad .. => true
  | .ingressArrival _ => true
  | .hostRead _ => true
  | .fabricHeaderCheck _ => true
  | .fragmentArrival _ => true
  | .uncorrectableError .. => true
  | .correctedError .. => true
  | .thermalEvent _ => true
  | .moduleReset => true
  | .fabricCreditsReturned .. => true
  | .spdmRequest _ => true
  | .tdispRequest .. => true
  | .lifetimeHour => true
  | _ => false

/-- A fabric header: its bytes perform after the other writes of the cycle, and before the result of a CRED (R274). -/
def fromFabric (i : Instr) : Bool :=
  match i with
  | .fabricHeaderCheck _ => true
  | _ => false

/-- The order of fabric headers of one cycle: the receiving port, then the virtual channel (R274). -/
def fabricPlace (i : Instr) : Nat :=
  match i with
  | .fabricHeaderCheck h => 16 * h.port + h.vc
  | _ => 0

/-- What comes over the fabric within a cycle of its partition performs in the cycle that begins next, together with all else that
has come since the last one (R274). -/
def State.inStep (s : State) (i : Instr) : Bool :=
  match i with
  | .fabricHeaderCheck h =>
    (s.part h.part).st == .none || (s.part h.part).clock.instant (s.cyc h.part) == s.now
  | _ => true

/-- An outside event of a kind that may be taken now. -/
def State.takes (s : State) (fabric : Bool) (e : Nat × Instr) : Bool :=
  decide (e.1 ≤ s.now) && fromOutside e.2 && fromFabric e.2 == fabric && s.inStep e.2 && s.ready e.2

/-- The outside events without the rests of host writes whose beginnings have yet to be taken (R277); before are the events that stand
before the list. -/
def State.withoutRests (s : State) : List Instr → List (Nat × Instr) → List (Nat × Instr)
  | _, [] => []
  | before, e :: r =>
    (if s.restWaits before e.2 then [] else [e]) ++ s.withoutRests (e.2 :: before) r

/-- The outside event of a kind that comes next, with the inputs left after it; one that is not taken yet, as a host write
before a full buffer (R277), waits and lets those behind it pass. -/
def State.nextInput (s : State) (fabric : Bool) (l : List (Nat × Instr)) : Option (Instr × List (Nat × Instr)) :=
  let open_ := s.withoutRests [] l
  let first := minOf ((open_.filter (s.takes fabric)).map (fun e => fabricPlace e.2))
  (open_.find? (fun e => s.takes fabric e && some (fabricPlace e.2) == first)).map (fun e => (e.2, l.erase e))

/-- The next outside event as an activity. -/
def State.inputActivities (s : State) : List Activity :=
  ((s.nextInput true s.inputs).map (fun e => (⟨10, e.1⟩ : Activity))).toList
    ++ ((s.nextInput false s.inputs).map (fun e => (⟨30, e.1⟩ : Activity))).toList

/-- The state without the input that an event is. -/
def State.withoutInput (s : State) (i : Instr) : State :=
  if fromOutside i then
    match s.nextInput (fromFabric i) s.inputs with
    | some e => { s with inputs := e.2 }
    | none => s
  else s

/-! ## The next event -/

/-- The partitions in use. -/
def State.inUse (s : State) : List Nat := (s.parts.filter (fun e => e.2.st != .none)).map (·.1)

/-- Everything that the present instant may bring, by rank. -/
def State.activities (s : State) : List Activity :=
  sortBy Activity.rank
    (s.inUse.flatMap s.partActivities ++ s.queues.flatMap (fun e => State.queueActivities e.1) ++ s.inputActivities)

/-- The event that comes next at the present instant. -/
def State.nextEvent (s : State) : Option Instr := (s.activities.find? (fun a => s.ready a.event)).map (·.event)

/-- The next instant at which something can be due: a cycle of a partition in use, an outside event, a read of a ring, the start
of a partition; with none of these, the next reference tick. -/
def State.nextInstant (s : State) : Nat :=
  let cycles := s.inUse.map (fun p => (s.part p).clock.instant (s.cyc p + 1))
  let starts := s.inUse.filterMap (fun p => if (s.part p).st = .creating then some (s.part p).ptime0 else none)
  let reads := s.queues.filterMap (fun e => e.2.nextRead)
  let later := (cycles ++ s.inputs.map (·.1) ++ s.hostStores.map (·.1) ++ starts ++ reads).filter (fun t => decide (s.now < t))
  (minOf later).getD (s.now + Config.unitsPerTick)

/-- The writes of the host into its own memory that are due perform there; host memory alone takes them (R166, R273; log 8). -/
def State.hostWrites (s : State) : State :=
  let due := s.hostStores.filter (fun e => decide (e.1 ≤ s.now))
  let bs := (due.flatMap (fun e => bytesAt e.2.1 e.2.2)).filter (fun b => homeOf b.pa == .host)
  { s with mem := memWrite s.mem bs, hostStores := s.hostStores.filter (fun e => !decide (e.1 ≤ s.now)) }

/-- What a step of the machine does: the next event, or the passage of time. -/
def State.advanceMachine (s : State) : Host.Outcome State Fault Refusal :=
  match s.nextEvent with
  | some i => exec i (s.withoutInput i)
  | none => .next { s with now := s.nextInstant }.hostWrites

end Sys2Proof.Machine
end

