-- ==== Sys2Proof/Machine/Step.lean ====
section
/-! DEFINITION. One step of the machine, and a state whose next step fetches and runs a given bundle (log 3, 11). -/

namespace Sys2Proof.Machine

/-- A step: the next event at the present instant, or the passage of time to the next instant (log 3). -/
def step (s : State) : Host.Outcome State Fault Refusal := s.advanceMachine

/-- The virtual address of the bundle that withFetchWord places. -/
def fetchAddr : Nat := 0x10000

/-- A DET partition at 3.0 GHz on cluster 0 with every channel slot, RUNNING from the present instant on, with one range over
GDDR. -/
def fetchPart (now : Nat) : Partition :=
  { Partition.absent with
    cfg := { PCfg.zero with mask := 1, det := true, slots := BitVec.allOnes 64 }, st := .running, clock := ⟨30, now, 0⟩, ptime0 := now,
    ranges := [⟨BitVec.ofNat 64 fetchAddr, 0x10000, 0, 0x1FF, 0⟩] }

/-- A bound context whose first bundle is due at cycle 0. -/
def fetchCtx : Ctx :=
  Ctx.fresh { Task.zero with codeLo := BitVec.ofNat 64 fetchAddr, codeHi := BitVec.ofNat 64 (fetchAddr + 64), win := ⟨64, 64, 16, 8⟩ }
    (BitVec.ofNat 64 fetchAddr) ⟨0, 0, 0, 0⟩ 0

/-- A state with a bundle around one C-slot value of spec/opcode_table.json at the PC of the one bound context, so that the next
step is its issue. A program is loaded from outside the machine: this stands for that load, with the partition created and the
launch accepted (log 11). -/
def State.withFetchWord (s : State) (_nbits w : Nat) : State :=
  { s with
    inputs := []
    hostStores := []
    mem := memWrite s.mem (bytesAt 0 (tableBundle w))
    parts := [(0, fetchPart s.now)]
    queues := []
    clusters := []
    cores := [(0, { Core.idle with ctxs := [(0, fetchCtx)] })] }

end Sys2Proof.Machine
end

