-- ==== Sys2Proof/Safety.lean ====
section
/-! DEFINITION. The terms in which claims about the machine are stated: what it is for an instruction to run and for a run
to be safe, and the conditions under which memory operations are accepted (R170, R177, R192, R197). -/

namespace Sys2Proof.Machine

/-- What every step keeps: memory stands in its canonical form (log 4). -/
def State.Inv (s : State) : Prop := Memory.wf s.mem = true

/-- An instruction runs from s to t. -/
def Runs (i : Instr) (s t : State) : Prop := exec i s = .next t

/-- The machine goes on for n steps, and every state on the way keeps the invariant. -/
def SafeRun : Nat → State → Prop
  | 0, s => s.Inv
  | n + 1, s => s.Inv ∧ ∃ t, step s = .next t ∧ SafeRun n t

/-- The issuing core's access queue has room for one more operation (R192). -/
def State.AccessRoom (s : State) : Prop := s.accessEntries s.cur.1 < 64

/-- An address passes the checks of R197: aligned to the access, mapped with the permission, at a bank whose mode allows the
access. -/
def State.Accessible (s : State) (perm : Perm) (size : Nat) (allowed : BankMode → Nat → Bool) (a : W64) : Prop :=
  a.toNat % size = 0 ∧ ∃ pa res, translate s.ranges perm a.toNat = .ok pa res ∧ s.bankRefuses s.cur.1 pa allowed = false

/-- Every lane of a load passes its checks (R197). -/
def State.LoadOk (s : State) (l : LoadSpec) : Prop :=
  ∀ e ∈ l.lanes, s.Accessible .lr l.bytes (l.allowed (s.popBank l).isSome) e.2

/-- n bytes from an address on belong to no kernel image in use (R357), and no live node reads them (R197, R243). -/
def State.Writable (s : State) (a : W64) (n : Nat) : Prop :=
  (∀ e, findRange s.ranges a.toNat = some e → s.myP.imageByte (e.pbase.toNat + (a.toNat - e.vbase.toNat)) n = none)
    ∧ s.aliasHit a n = none

/-- Every piece of a store passes its checks (R197). -/
def State.StoreOk (s : State) (st : StoreSpec) : Prop :=
  ∀ p ∈ st.pieces, s.Accessible .qw st.align (st.allowed ((s.pushBank st).any (fun b => b.1 == clusterOf s.cur.1))) p.va
    ∧ s.Writable p.va p.bytes.length

end Sys2Proof.Machine
end

