-- ==== Sys2Proof/Certificates/Slice0/Obligations.lean ====
section
/-! DEFINITION. The statements for the provers. Each is about the machine alone; its docstring names the rules of spec/ it rests
on, and the log entry where a choice of the model enters. -/

open Sys2Proof Sys2Proof.Machine

/-! ## The scalar slot -/

/-- R73, R92: an integer operation of the S slot whose guard holds in lane 0 completes: the bundle's cycle t is left with one
write in flight, of the value of R73 read at issue, that lands latency cycles later in X[xd]. -/
def Obligations.ScalarIntegerResults : Prop :=
  ∀ (s : State) (tt : TT) (xd xa xb : XReg) (imm : W32), s.lane0 tt = true →
    let a := s.me.xr xa
    let b := s.me.xr xb
    let n := b.toNat % 64
    Runs (.add tt xd xa xb) s (s.pushX 1 xd (a + b))
      ∧ Runs (.sub tt xd xa xb) s (s.pushX 1 xd (a - b))
      ∧ Runs (.mul tt xd xa xb) s (s.pushX 3 xd (BitVec.ofNat 64 (a.toNat * b.toNat)))
      ∧ Runs (.mulh tt xd xa xb) s (s.pushX 3 xd (BitVec.ofInt 64 (a.toInt * b.toInt / 2 ^ 64)))
      ∧ Runs (.mulhu tt xd xa xb) s (s.pushX 3 xd (BitVec.ofNat 64 (a.toNat * b.toNat / 2 ^ 64)))
      ∧ Runs (.and tt xd xa xb) s (s.pushX 1 xd (a &&& b))
      ∧ Runs (.or tt xd xa xb) s (s.pushX 1 xd (a ||| b))
      ∧ Runs (.xor tt xd xa xb) s (s.pushX 1 xd (a ^^^ b))
      ∧ Runs (.andn tt xd xa xb) s (s.pushX 1 xd (a &&& ~~~b))
      ∧ Runs (.shl tt xd xa xb) s (s.pushX 1 xd (a <<< n))
      ∧ Runs (.shr tt xd xa xb) s (s.pushX 1 xd (a >>> n))
      ∧ Runs (.sar tt xd xa xb) s (s.pushX 1 xd (a.sshiftRight n))
      ∧ Runs (.rol tt xd xa xb) s (s.pushX 1 xd (a.rotateLeft n))
      ∧ Runs (.min tt xd xa xb) s (s.pushX 1 xd (if a.toInt < b.toInt then a else b))
      ∧ Runs (.max tt xd xa xb) s (s.pushX 1 xd (if a.toInt < b.toInt then b else a))
      ∧ Runs (.minu tt xd xa xb) s (s.pushX 1 xd (if a.toNat < b.toNat then a else b))
      ∧ Runs (.maxu tt xd xa xb) s (s.pushX 1 xd (if a.toNat < b.toNat then b else a))
      ∧ Runs (.clz tt xd xa) s (s.pushX 1 xd (clz64 a))
      ∧ Runs (.ctz tt xd xa) s (s.pushX 1 xd (ctz64 a))
      ∧ Runs (.popc tt xd xa) s (s.pushX 1 xd (popc64 a))
      ∧ Runs (.movi tt xd imm) s (s.pushX 1 xd (imm.signExtend 64))
      ∧ Runs (.movh tt xd imm) s (s.pushX 1 xd (imm ++ (s.me.xr xd).extractLsb' 0 32))
      ∧ Runs (.sext tt xd xa) s (s.pushX 1 xd ((a.extractLsb' 0 32).signExtend 64))
      ∧ Runs (.zext tt xd xa) s (s.pushX 1 xd ((a.extractLsb' 0 32).zeroExtend 64))

/-- R73: what CLZ, CTZ and POPC count. -/
def Obligations.BitCounts : Prop :=
  (∀ a : W64, a ≠ 0 → a.toNat < 2 ^ (64 - (clz64 a).toNat) ∧ 2 ^ (63 - (clz64 a).toNat) ≤ a.toNat)
    ∧ (∀ a : W64, a ≠ 0 → a.getLsbD (ctz64 a).toNat = true ∧ ∀ i, i < (ctz64 a).toNat → a.getLsbD i = false)
    ∧ clz64 0 = 64 ∧ ctz64 0 = 64
    ∧ ∀ a : W64, (popc64 a).toNat = ((List.range 64).filter (fun i => a.getLsbD i)).length

/-- R74 with R73: DIV, DIVU, REM and REMU complete whatever their operands; the quotient is rounded toward zero, and division by
zero and signed overflow give the values of R74, without a trap. -/
def Obligations.ScalarDivision : Prop :=
  ∀ (s : State) (tt : TT) (xd xa xb : XReg), s.lane0 tt = true →
    let a := s.me.xr xa
    let b := s.me.xr xb
    ∃ q u r v : W64,
      Runs (.div tt xd xa xb) s (s.pushX 12 xd q) ∧ Runs (.divu tt xd xa xb) s (s.pushX 12 xd u)
        ∧ Runs (.rem tt xd xa xb) s (s.pushX 12 xd r) ∧ Runs (.remu tt xd xa xb) s (s.pushX 12 xd v)
        ∧ (b = 0 → q = 0xFFFFFFFFFFFFFFFF ∧ u = 0xFFFFFFFFFFFFFFFF ∧ r = a ∧ v = a)
        ∧ (a = 0x8000000000000000 → b = 0xFFFFFFFFFFFFFFFF → q = a ∧ r = 0)
        ∧ (b ≠ 0 → q = BitVec.ofInt 64 (a.toInt.tdiv b.toInt) ∧ u.toNat = a.toNat / b.toNat
            ∧ r = a - b * q ∧ v = a - b * u ∧ (r ≠ 0 → (r.toInt < 0 ↔ a.toInt < 0)))

/-- The number that a finite code of a format stands for, in units of 2^-300 (R102, R103). -/
def unitsOf (f : Fmt) (c : Nat) : Int :=
  match f.float? with
  | some fs =>
    let e := c / 2 ^ fs.fbits % 2 ^ fs.ebits
    let m := c % 2 ^ fs.fbits + if e = 0 then 0 else 2 ^ fs.fbits
    let v : Int := (m * 2 ^ (300 + max e 1 - fs.bias - fs.fbits) : Nat)
    if c.testBit (fs.ebits + fs.fbits) then -v else v
  | none => (BitVec.ofNat f.bits c).toInt * 2 ^ 300

/-- A finite code of a format (R101, R103). -/
def FiniteCode (f : Fmt) (c : Nat) : Prop := c < 2 ^ f.bits ∧ (f.isInt = true ∨ c % 2 ^ (f.bits - 1) ≤ f.maxCode)

/-- c is the code of a floating-point format that a mode gives for x, in units of 2^-300 (R109): towards zero, up, down, or the
nearest with ties to the even code; a code of a number that is not 0 has its sign. -/
def RoundsTo (f : Fmt) (rm : RM) (x : Int) (c : Nat) : Prop :=
  let v := unitsOf f
  FiniteCode f c ∧ (x ≠ 0 → c.testBit (f.bits - 1) = decide (x < 0))
    ∧ match rm with
      | .rz => (v c).natAbs ≤ x.natAbs ∧ ∀ e, FiniteCode f e → (v e).natAbs ≤ x.natAbs → (v e).natAbs ≤ (v c).natAbs
      | .ru => x ≤ v c ∧ ∀ e, FiniteCode f e → x ≤ v e → v c ≤ v e
      | .rd => v c ≤ x ∧ ∀ e, FiniteCode f e → v e ≤ x → v e ≤ v c
      | _ => ∀ e, FiniteCode f e → (v c - x).natAbs ≤ (v e - x).natAbs
        ∧ ((v c - x).natAbs = (v e - x).natAbs → v e ≠ v c → c % 2 = 0)

/-- x rounded once to a floating-point format with the exponent unbounded above exceeds its largest finite number (R109, R111). -/
def Overflows (f : Fmt) (rm : RM) (x : Int) : Prop :=
  let max := unitsOf f f.maxCode
  let step := max - unitsOf f (f.maxCode - 1)
  match rm with
  | .rz => max + step ≤ x.natAbs
  | .ru => max < x ∨ x ≤ -(max + step)
  | .rd => x < -max ∨ max + step ≤ x
  | _ => max + step < 2 * x.natAbs - max ∨ (2 * x.natAbs - max = max + step ∧ f.maxCode % 2 = 1)

/-- The code of an overflow, with the flag that the rule of the overflow names (R111). -/
def overflowCode (f : Fmt) (rm : RM) (sat neg : Bool) : Enc :=
  let sign := if neg then 2 ^ (f.bits - 1) else 0
  if f.isInt then ⟨if neg then 2 ^ (f.bits - 1) else f.maxCode, true⟩
  else if sat || rm == .rz || (rm == .ru && neg) || (rm == .rd && !neg) then ⟨f.maxCode + sign, false⟩
  else if f.hasInf then ⟨f.infCode + sign, false⟩
  else if f == .e4m3 then ⟨0x7F, true⟩
  else ⟨f.maxCode + sign, true⟩

/-- What a finite number x gives in a floating-point format, rounded once by a mode other than SR, with its flag (R109, R111). -/
def RoundedOnce (f : Fmt) (rm : RM) (sat : Bool) (x : Int) (e : Enc) : Prop :=
  (¬ Overflows f rm x → RoundsTo f rm x e.code ∧ e.nf = false)
    ∧ (Overflows f rm x → e = overflowCode f rm sat (decide (x < 0)))

/-- The NF of an operation of the S or V slots whose lane receives a code: the encode names it, or the code is a NaN or an infinity
(R113). -/
def receivedNf (f : Fmt) (e : Enc) : Bool := e.nf || (f.hasInf && decide (f.infCode ≤ e.code % 2 ^ (f.bits - 1)))

/-- FP32 with the subnormal rule of R114: where it flushes, a zero of the sign for a subnormal. -/
def flushed (flush : Bool) (c : W32) : W32 := if flush && c &&& 0x7F800000 == 0 then c &&& 0x80000000 else c

/-- An FP32 result for a finite x, in units of 2^-300, that is zero with the sign of z: rounded once, then flushed (R79, R109,
R111, R114). -/
def F32Result (flush : Bool) (rm : RM) (x : Int) (z r : W32) : Prop :=
  ∃ e, RoundedOnce .fp32 rm.noSr false x e ∧ (x = 0 → BitVec.ofNat 32 e.code = z &&& 0x80000000)
    ∧ r = flushed flush (BitVec.ofNat 32 e.code)

/-- i is x, in units of 2^-300, rounded to an integer (R80, R109). -/
def RoundsToInt (rm : RM) (x i : Int) : Prop :=
  let one : Int := 2 ^ 300
  match rm with
  | .rz => i = x.tdiv one
  | .ru => i = -((-x) / one)
  | .rd => i = x / one
  | _ => (2 * (i * one - x)).natAbs ≤ 2 ^ 300 ∧ ((2 * (i * one - x)).natAbs = 2 ^ 300 → i % 2 = 0)

/-- The state after a scalar FP32 result: X[xd][31:0] := v with bits 63:32 zero, lat cycles later, and NF at the same cycle where
v is NaN or infinite (R68, R79). -/
def fpResult (s : State) (lat : Nat) (xd : XReg) (v : W32) : State :=
  (s.pushX lat xd (v.zeroExtend 64)).pushNf lat (f32NonFinite v) (fmtNfte s.me.csr.fmt) 1 0

/-- R78 to R80: the scalar FP32 operations complete with the value and the latency of R78, under the rounding mode that FMT
holds at issue (SR as RNE), and set NF with a result that is NaN or infinite. R80: FCVT of a finite number to an integer rounds it
by the mode and saturates with NF, of a NaN it gives 0 and of an infinity the bound of its sign, each with NF; FCVT of an integer
rounds it once to FP32. -/
def Obligations.ScalarFloatResults : Prop :=
  (∀ (flush : Bool) (rm : RM) (a : W32),
     let x := unitsOf .fp32 (flushed flush a).toNat
     let toInt := fun (k : Nat) (lo hi : Int) =>
       (f32IsNaN a = true → fcvtValue k flush rm a = (0, true))
         ∧ (a = 0x7F800000 → fcvtValue k flush rm a = (BitVec.ofInt 64 hi, true))
         ∧ (a = 0xFF800000 → fcvtValue k flush rm a = (BitVec.ofInt 64 lo, true))
         ∧ (f32NonFinite a = false → ∀ i, RoundsToInt rm.noSr x i →
           fcvtValue k flush rm.noSr a = (BitVec.ofInt 64 (max lo (min hi i)), decide (i < lo ∨ hi < i)))
     toInt 0 (-2 ^ 31) (2 ^ 31 - 1) ∧ toInt 2 0 (2 ^ 32 - 1)
       ∧ (∃ r : W32, fcvtValue 1 flush rm a = (r.zeroExtend 64, false) ∧ F32Result flush rm (a.toInt * 2 ^ 300) 0 r)
       ∧ ∃ r : W32, fcvtValue 3 flush rm a = (r.zeroExtend 64, false) ∧ F32Result flush rm (a.toNat * 2 ^ 300) 0 r)
  ∧ ∀ (s : State) (tt : TT) (xd xa xb : XReg) (cond : BitVec 4), s.lane0 tt = true →
    let a := (s.me.xr xa).extractLsb' 0 32
    let b := (s.me.xr xb).extractLsb' 0 32
    let d := (s.me.xr xd).extractLsb' 0 32
    let flush := !s.me.il
    let rm := (fmtRm s.me.csr.fmt).noSr
    Runs (.fadd tt xd xa xb) s (fpResult s 4 xd (f32Add flush rm a b))
      ∧ Runs (.fsub tt xd xa xb) s (fpResult s 4 xd (f32Sub flush rm a b))
      ∧ Runs (.fmul tt xd xa xb) s (fpResult s 4 xd (f32Mul flush rm a b))
      ∧ Runs (.ffma tt xd xa xb) s (fpResult s 4 xd (f32Fma flush rm a b d))
      ∧ Runs (.fdiv tt xd xa xb) s (fpResult s 12 xd (f32Div flush rm a b))
      ∧ Runs (.fsqrt tt xd xa) s (fpResult s 12 xd (f32Sqrt flush rm a))
      ∧ Runs (.fmin tt xd xa xb) s (fpResult s 4 xd (f32MinMax false flush a b))
      ∧ Runs (.fmax tt xd xa xb) s (fpResult s 4 xd (f32MinMax true flush a b))
      ∧ ∃ v nf, fcvtValue cond.toNat flush rm a = (v, nf)
        ∧ Runs (.fcvt tt xd xa cond) s ((s.pushX 3 xd v).pushNf 3 nf (fmtNfte s.me.csr.fmt) 1 0)

/-- The integer conditions of R46 on two numbers of n bits: as unsigned numbers, as signed ones, and by their common bits. -/
def IntConditions (n : Nat) : Prop :=
  ∀ a b : BitVec n,
    (intCond 0 a b = true ↔ a.toNat = b.toNat) ∧ (intCond 1 a b = true ↔ a.toNat ≠ b.toNat)
      ∧ (intCond 2 a b = true ↔ a.toInt < b.toInt) ∧ (intCond 3 a b = true ↔ a.toInt ≤ b.toInt)
      ∧ (intCond 4 a b = true ↔ b.toInt < a.toInt) ∧ (intCond 5 a b = true ↔ b.toInt ≤ a.toInt)
      ∧ (intCond 6 a b = true ↔ a.toNat < b.toNat) ∧ (intCond 7 a b = true ↔ a.toNat ≤ b.toNat)
      ∧ (intCond 8 a b = true ↔ b.toNat < a.toNat) ∧ (intCond 9 a b = true ↔ b.toNat ≤ a.toNat)
      ∧ (intCond 10 a b = true ↔ ∃ i, a.getLsbD i = true ∧ b.getLsbD i = true)
      ∧ (intCond 11 a b = true ↔ ∀ i, ¬ (a.getLsbD i = true ∧ b.getLsbD i = true))

/-- An FP32 number as FCMP orders it: by its value, −0 and +0 alike, an infinity beyond every number of its sign (R77, R114). -/
def rankOf (flush : Bool) (w : W32) : Int :=
  if f32NonFinite w then (if w.getLsbD 31 then -2 ^ 500 else 2 ^ 500) else unitsOf .fp32 (flushed flush w).toNat

/-- The FP32 conditions of R46 on two numbers: by their order (R77). -/
def FloatConditions : Prop :=
  ∀ (flush : Bool) (a b : W32), f32IsNaN a = false → f32IsNaN b = false →
    let x := rankOf flush a
    let y := rankOf flush b
    (f32Cond flush 0 a b = true ↔ x = y) ∧ (f32Cond flush 1 a b = true ↔ x ≠ y) ∧ (f32Cond flush 2 a b = true ↔ x < y)
      ∧ (f32Cond flush 3 a b = true ↔ x ≤ y) ∧ (f32Cond flush 4 a b = true ↔ y < x) ∧ (f32Cond flush 5 a b = true ↔ y ≤ x)
      ∧ f32Cond flush 6 a b = false ∧ f32Cond flush 7 a b = true

/-- What a compare of one lane leaves of its two predicates: the rows of R76 and R93, none for no write. -/
def compareLane (type : BitVec 2) (g c : Bool) : Option (Bool × Bool) :=
  if type = 0 then (if g then some (c, !c) else none)
  else if type = 1 then (if g then some (c, !c) else some (false, false))
  else if type = 2 then (if g && !c then some (false, false) else none)
  else (if g && c then some (true, true) else none)

/-- R76, R93: CMP and FCMP of the S slot complete whatever their guard; lane 0's guard and the one condition stand for all 32
lanes, and the two predicates land at t + 2. R77: FCMP compares −0 and +0 as equal, flushes subnormal operands in exposed mode,
and of a NaN makes eq, lt, le, gt, ge and ord false and ne and un true; of two numbers eq, ne, lt, le, gt and ge are those of their
order, infinities in it by their sign, un is false and ord true. FCMP completes with predicate writes alone. R46: each integer condition of CMP, on the 64-bit operands. -/
def Obligations.ScalarCompares : Prop :=
  (∀ (s : State) (tt : TT) (pd0 pd1 : PReg) (pwt : BitVec 2) (cond : BitVec 4) (xa xb : XReg),
     let a := s.me.xr xa
     let b := s.me.xr xb
     Runs (.cmp tt pd0 pd1 pwt cond xa xb) s
         (s.pushPair pd0 pd1 (fun _ => compareLane pwt (s.lane0 tt) (intCond cond.toNat a b)))
       ∧ Runs (.fcmp tt pd0 pd1 pwt cond xa xb) s
         (s.pushPair pd0 pd1 (fun _ => compareLane pwt (s.lane0 tt)
           (f32Cond (!s.me.il) cond.toNat (a.extractLsb' 0 32) (b.extractLsb' 0 32)))))
    ∧ ((∀ flush : Bool, f32Cond flush 0 0x80000000 0x00000000 = true)
         ∧ (∀ (c : Nat) (a b a' b' : W32), (a' = a ∨ (a.extractLsb' 23 8 = 0 ∧ a' = a &&& 0x80000000))
             → (b' = b ∨ (b.extractLsb' 23 8 = 0 ∧ b' = b &&& 0x80000000)) → f32Cond true c a b = f32Cond true c a' b')
         ∧ (∀ (flush : Bool) (a b : W32), f32IsNaN a = true ∨ f32IsNaN b = true →
             f32Cond flush 0 a b = false ∧ f32Cond flush 1 a b = true ∧ f32Cond flush 2 a b = false ∧ f32Cond flush 3 a b = false
               ∧ f32Cond flush 4 a b = false ∧ f32Cond flush 5 a b = false ∧ f32Cond flush 6 a b = true ∧ f32Cond flush 7 a b = false)
         ∧ FloatConditions)
    ∧ IntConditions 64

/-- R95, R96: PLUT in either slot and PMOV complete; a table bit is picked lane by lane from three predicates read at issue, the
S form writes all lanes, the V form and PMOV those lanes whose guard holds, at latency 2. -/
def Obligations.PredicateMoves : Prop :=
  ∀ (s : State) (vu : VUnit) (tt : TT) (pd pa pb pc : PReg) (table : BitVec 8) (vd va : VReg),
    let pick := predOf (fun i => table.getLsbD (4 * b2n ((s.pr pa).getLsbD i) + 2 * b2n ((s.pr pb).getLsbD i) + b2n ((s.pr pc).getLsbD i)))
    let lanes := toVec (predOf (s.on tt))
    (s.lane0 tt = true → Runs (.plut tt pd pa pb pc table) s (s.push 2 (.p pd.toNat) (maskAt 0 32) (toVec pick)))
      ∧ (s.anyLane tt = true →
        Runs (.vPlut vu tt pd pa pb pc table) s (s.push 2 (.p pd.toNat) lanes (toVec pick))
          ∧ (s.me.vregBad va = false → Runs (.pmovToPredicate vu tt pd va) s
              (s.push 2 (.p pd.toNat) lanes (toVec (predOf (fun i => lane (s.vec va) i != 0)))))
          ∧ (s.me.vregBad vd = false → Runs (.pmovToVector vu tt vd pa) s
              (s.push 2 (s.me.vreg vd) (s.guardMask tt) (vecOf (fun i => if (s.pr pa).getLsbD i then 0xFFFFFFFF else 0)))))

/-! ## Control, loops, the end of a task -/

/-- R52, R54: BR, BRX, CALL, CALLX and RET to a target in the code range and aligned complete with the PC at the target; a CALL
writes its link at t + 1, and RET closes the levels opened since the call. -/
def Obligations.TransfersComplete : Prop :=
  ∀ (s : State) (tt : TT) (xd xa : XReg) (ofs : W32), s.lane0 tt = true →
    let x := s.me
    let rel := x.pc + 64 * ofs.signExtend 64
    let v := x.xr xa
    let link := (x.pc + 64) ||| BitVec.ofNat 64 x.levels.length
    let depth := (v.extractLsb' 0 3).toNat
    let closed := s.onMe (fun x => { x with levels := x.levels.drop (x.levels.length - depth) })
    (x.targetOk rel = true → Runs (.br tt ofs) s (s.goTo rel) ∧ Runs (.call tt xd ofs) s ((s.pushX 1 xd link).goTo rel))
      ∧ (x.targetOk v = true → Runs (.brx tt xa) s (s.goTo v) ∧ Runs (.callx tt xd xa) s ((s.pushX 1 xd link).goTo v))
      ∧ (v.extractLsb' 3 3 = 0 → depth ≤ x.levels.length → x.targetOk (v &&& ~~~(63 : W64)) = true →
          Runs (.ret tt xa) s (closed.goTo (v &&& ~~~(63 : W64))))

/-- R57: a LOOP or LOOPX that the loop rules allow completes. With no iteration it goes on past END; else it opens a level with
INDEX 0 and RRB 0, and with PRT sets P8 and clears P9 to P15 at t + 1. A LOOP or LOOPX at depth 6, at the END of the innermost
level, or with an END that does not lie before that one, raises LOOP_STACK_FAULT, and one whose 8·RSZ exceeds the window of VA or of
VB raises ILLEGAL_REGISTER with the number that lies beyond it: the bundle does not issue. R60: LBRK closes the innermost open level
and goes on at END + 64; LIDX writes INDEX of the level it names into X[xd] at t + 1. With no such level open each raises
LOOP_STACK_FAULT with the depth, and the bundle does not issue. R34, R52: the two that go on at END + 64 are transfers: outside the
code range END + 64 is a BAD_TARGET, which comes before LOOP_STACK_FAULT (R287). -/
def Obligations.LoopOperations : Prop :=
  (∀ (s : State) (tt : TT) (count eofs : BitVec 16) (xa : XReg) (rsz : BitVec 5) (prt : Bool) (epi : BitVec 3),
     s.lane0 tt = true →
     let x := s.me
     let opened := fun (n : W32) =>
       let l := x.newLevel n eofs rsz prt epi
       let r := s.onMe (fun x => { x with levels := l :: x.levels })
       if l.total = 0 then s.goTo (l.last + 64) else if prt then r.stagePredicates else r
     let last := x.pc + 64 * eofs.zeroExtend 64
     let loops := fun (n : W32) (i : Instr) =>
       ((x.newLevel n eofs rsz prt epi).total = 0 → x.targetOk (last + 64) = true) → Runs i s (opened n)
     let misses := fun (n : W32) (i : Instr) => (x.newLevel n eofs rsz prt epi).total = 0 → x.targetOk (last + 64) = false →
       Runs i s (s.takeFault s.cur.1 s.cur.2 ⟨0x03, 1, 0, last + 64⟩ x.pc)
     let c := count.zeroExtend 32
     let v := (x.xr xa).extractLsb' 0 32
     let fits := 8 * rsz.toNat ≤ x.regs.va.size ∧ 8 * rsz.toNat ≤ x.regs.vb.size
     let within := x.levels.length < 6 ∧ ∀ l rest, x.levels = l :: rest → x.pc ≠ l.last ∧ last < l.last
     let stacked := fun (n : W32) (i : Instr) =>
       ((x.newLevel n eofs rsz prt epi).total = 0 → x.targetOk (last + 64) = true) →
       Runs i s (s.takeFault s.cur.1 s.cur.2 ⟨0x04, 1, 0, BitVec.ofNat 64 x.levels.length⟩ x.pc)
     let form := fun (n : W32) (i : Instr) => (fits → within → loops n i) ∧ (fits → misses n i) ∧ (fits → ¬ within → stacked n i)
       ∧ (¬ fits → Runs i s (s.takeFault s.cur.1 s.cur.2 ⟨0x02, 1, 0, BitVec.ofNat 64 (8 * rsz.toNat - 1)⟩ x.pc))
     form c (.loop tt count eofs rsz prt epi) ∧ form v (.loopx tt xa eofs rsz prt epi))
    ∧ (∀ (s : State) (tt : TT) (xd : XReg) (level : BitVec 3), s.lane0 tt = true →
         (∀ l rest, s.me.levels = l :: rest →
             (s.me.targetOk (l.last + 64) = true → Runs (.lbrk tt) s ((s.onMe (fun x => { x with levels := rest })).goTo (l.last + 64)))
             ∧ (s.me.targetOk (l.last + 64) = false →
               Runs (.lbrk tt) s (s.takeFault s.cur.1 s.cur.2 ⟨0x03, 1, 0, l.last + 64⟩ s.me.pc)))
           ∧ (∀ l, s.me.levels[level.toNat]? = some l → Runs (.lidx tt xd level) s (s.pushX 1 xd (l.index.zeroExtend 64)))
           ∧ (s.me.levels = [] → Runs (.lbrk tt) s (s.takeFault s.cur.1 s.cur.2 ⟨0x04, 1, 0, 0⟩ s.me.pc))
           ∧ (s.me.levels.length ≤ level.toNat → Runs (.lidx tt xd level) s
             (s.takeFault s.cur.1 s.cur.2 ⟨0x04, 1, 0, BitVec.ofNat 64 s.me.levels.length⟩ s.me.pc)))

/-- R58: the loop-end rule, at the bundle at END of the innermost level. While an iteration is left the level goes round: INDEX
rises by 1, RRB is stepped, the PC is START; at the last one the level closes and the PC is END + 64. R58, R99: where a level with
PRT goes round, P15 to P9 take the values that P14 to P8 have at the bundle's issue and P8 is all ones while INDEX is below COUNT,
else 0, all landing at the cycle after; without PRT no predicate is written. R388: where the level closes, a PUTC of the END bundle
has named its level as the levels stood at its issue: one to the closed level is lost, one to an outer level reaches it. That an
INDEX of 2^32 wraps to 0 is the model's choice (DESIGN CHOICE, log 63). -/
def Obligations.LoopEndRule : Prop :=
  ∀ (s : State) (l : Level) (rest : List Level) (p : Vector W32 16), s.me.levels = l :: rest →
    (l.index.toNat + 1 < l.total → ∃ t, s.loopEnd l.last p = (t, true) ∧ t.me.pc = l.first
        ∧ t.me.levels = { l with index := l.index + 1, rrb := l.nextRrb } :: rest
        ∧ (l.prt = false → t.me.pend = s.me.pend)
        ∧ (l.prt = true → ∃ ws, t.me.pend = s.me.pend ++ ws ∧ ws.map (fun w => w.dest) = (List.range 8).map (fun j => .p (15 - j))
          ∧ (∀ w ∈ ws, w.land = s.t + 1 ∧ w.mask = maskAt 0 32 ∧ w.src = .core)
          ∧ ws.map (fun w => w.value) = (List.range 8).map (fun j =>
            if j < 7 then toVec (vget p (14 - j) 0) else if l.index + 1 < l.count then maskAt 0 32 else 0)))
      ∧ (l.total ≤ l.index.toNat + 1 → ∃ t, s.loopEnd l.last p = (t, false) ∧ t.me.pc = l.last + 64 ∧ t.me.levels = rest
        ∧ (∀ w ∈ s.me.pend, (∀ n, 0x040 ≤ n → n < 0x070 → w.dest ≠ .csr n) → w ∈ t.me.pend)
        ∧ (∀ w ∈ s.me.pend, ∀ n, 0x048 ≤ n → n < 0x070 → w.dest = .csr n → { w with dest := .csr (n - 8) } ∈ t.me.pend)
        ∧ t.me.pend.length = (s.me.pend.filter (fun w => !(List.range 8).any (fun f => w.dest == .csr (0x040 + f)))).length)
      ∧ (∀ a, a ≠ l.last → s.loopEnd a p = (s, false))

/-- R33, R56, R82, R83: outside handler mode TEND, MODE and TRAP complete. TEND leaves the context CLOSING with no loop level; each
group that it belongs to receives an implicit LEAVE at package scope (R63), and where the task has not signalled its end counts as
its SIGNAL, due once its writes have performed (R280); MODE sets the issue mode of the innermost level or of the base level, and TRAP makes SOFTWARE_TRAP pending with its code. -/
def Obligations.TaskEndModeTrap : Prop :=
  ∀ (s : State) (tt : TT) (il : Bool) (code : BitVec 16), s.lane0 tt = true → s.me.st = .bound → s.ctx? s.cur.1 s.cur.2 ≠ none →
    (∃ (t : State) (ls sg : List Op), Runs (.tend tt) s t ∧ t.me.st = .closing ∧ t.me.levels = [] ∧ t.mem = s.mem ∧ t.me.task.signalled = true
        ∧ t.myP.ops = s.myP.ops ++ ls ++ sg ∧ ls.length = s.me.groups.length
        ∧ (∀ i g : Nat, s.me.groups[i]? = some g → ∃ (o : Op) (tail : Nat), ls[i]? = some o ∧ o.core = s.cur.1 ∧ o.ctx = s.cur.2
          ∧ o.kind = .arrival g true 3 0 tail ∧ (s.isDet s.myPart = true → o.due = some (s.releaseAt s.cur.1 s.cur.2 3).1.1))
        ∧ (s.me.task.signalled = true → sg = [])
        ∧ (s.me.task.signalled = false → ∃ o : Op, sg = [o] ∧ o.core = s.cur.1 ∧ o.ctx = s.cur.2
          ∧ o.due = some (max (s.t + 1) (s.wd s.cur.1 s.cur.2 false)) ∧ o.kind = .signal s.me.task.launch s.me.task.index))
      ∧ (∃ t, Runs (.mode tt il) s t ∧ t.me.il = il ∧ t.me.regs = s.me.regs ∧ t.me.pc = s.me.pc ∧ t.mem = s.mem)
      ∧ (∃ t, Runs (.trap tt code) s t ∧ t.me.regs = s.me.regs ∧ t.me.pc = s.me.pc ∧ t.mem = s.mem
          ∧ ∃ e, t.me.traps = s.me.traps ++ [e] ∧ e.code = 0x89 ∧ e.tinfo = code.zeroExtend 64 ∧ e.handler = false)

/-! ## Control and status registers, handler mode -/

/-- R70 to R72, R81, R388: GETC writes the CSR as it stands at issue into X[xd] at t + 1; PUTC of a value within its limits
lands at t + 1, of a handler register in handler mode alone; FMTSET merges under its mask at t + 4. R70: the CSRs that name the
place of a context read as its numbers, its core, its cluster and its die. -/
def Obligations.CsrAccess : Prop :=
  (∀ (s : State) (tt : TT) (xd xa : XReg) (csr : BitVec 12) (mask : W32), s.lane0 tt = true →
     let v := s.me.xr xa
     let f := v.extractLsb' 0 32
     Runs (.getc tt xd csr) s (s.pushX 1 xd (s.csr csr.toNat))
       ∧ (s.me.putcOk csr.toNat v = true → (csrHandlerOnly csr.toNat = true → s.me.st = .handler) →
           Runs (.putc tt csr xa) s (s.push64 1 (.csr csr.toNat) v))
       ∧ (fmtLegalIn (mergeBits s.me.fmtAhead f mask).toNat mask.toNat = true →
           Runs (.fmtset tt xa mask) s (s.push 4 (.csr 0x018) (toVec mask) (toVec f))))
    ∧ (∀ s : State, s.cur.2 < 8 → s.cur.1 < 256 →
         (s.csr 0x000).toNat = s.cur.2 ∧ (s.csr 0x001).toNat = s.cur.1 ∧ (s.csr 0x002).toNat = s.cur.1 / 16
           ∧ (s.csr 0x003).toNat = s.cur.1 / 128 ∧ s.csr 0x012 = s.me.pc ∧ s.csr 0x008 = s.me.task.taskId)

/-- R291, R295 with R84: HRET of a context whose task is not closing completes: the context is BOUND at EPC, traps are unmasked,
its entries wait for their replay where it holds the buffer, which is then free, and nothing is replayed where SNAPREL has given the
buffer up; the bundle at EPC issues 8 cycles after HRET at the earliest. R297: HRET with CL set returns the context to CLOSING, and
each entry is in flight, to land at h + 8 + d. R84,
R292, R294: SNAPREL completes with traps unmasked and the context's hold on the buffer given up; SNAPST of a complete buffer to
an aligned extent that the Q slot may write completes and holds the next bundle until the image has performed; SNAPLD of a valid
image, while no other context holds the buffer, takes it and masks traps. -/
def Obligations.HandlerOperations : Prop :=
  (∀ (s : State) (tt : TT), s.lane0 tt = true → s.me.st = .handler →
     let holds := fun (b : SnapBuf) => s.myCore.snap = some b ∧ b.holder = s.cur.2
     ∃ t, Runs (.hret tt) s t ∧ t.me.masked = false ∧ t.me.cl = false ∧ t.me.regs = s.me.regs ∧ t.mem = s.mem
       ∧ (∀ b, holds b → t.myCore.snap = none) ∧ ((¬ ∃ b, holds b) → t.myCore.snap = s.myCore.snap)
       ∧ (s.me.cl = false → t.me.st = .bound ∧ t.me.pc = s.me.csr.epc ∧ t.me.issueAt = s.t + 8 ∧ t.me.pend = s.me.pend
         ∧ (∀ b, holds b → t.me.replay = some b.entries) ∧ ((¬ ∃ b, holds b) → t.me.replay = none))
       ∧ (s.me.cl = true → t.me.st = .closing
         ∧ (∀ b, holds b → ∃ ws : List Write, t.me.pend = s.me.pend ++ ws ∧ ws.map (fun w => (w.dest, w.mask, w.value, w.land))
           = b.entries.map (fun e => (e.dest, e.mask, e.value, s.t + 8 + e.d)))
         ∧ ((¬ ∃ b, holds b) → t.me.pend = s.me.pend)))
    ∧ (∀ (s : State) (tt : TT) (xa : XReg), s.lane0 tt = true → s.me.st = .handler →
         (∃ t, Runs (.snaprel tt) s t ∧ t.me.masked = false ∧ t.me.regs = s.me.regs ∧ t.mem = s.mem
             ∧ ∀ b, t.myCore.snap = some b → b.holder ≠ s.cur.2)
           ∧ (s.snapFaults .qw (s.me.xr xa) = [] → (∀ e ∈ s.heldEntries, ∃ c, e.arrive = some c ∧ c ≤ s.t) →
               ∃ t, Runs (.snapst tt xa) s t ∧ t.me.hold.isSome = true ∧ t.me.regs = s.me.regs ∧ t.mem = s.mem
                 ∧ t.heldEntries = s.heldEntries)
           ∧ (∀ es, s.snapFaults .lr (s.me.xr xa) = [] → s.snapRead (s.me.xr xa) = some es → s.snapTaken = false →
               ∃ t, Runs (.snapld tt xa) s t ∧ t.myCore.snap = some ⟨s.cur.2, es⟩ ∧ t.me.masked = true
                 ∧ t.me.hold.isSome = true ∧ t.me.regs = s.me.regs ∧ t.mem = s.mem))

/-! ## The vector slots -/

/-- Sub-lane j, n bits wide, of lane l (R140, R151). -/
def subOf (n : Nat) (v : Vec) (l j : Nat) : Nat := (lane v l).toNat / 2 ^ (n * j) % 2 ^ n

/-- A vector instruction completes with one write in flight: the lanes of VD whose guard holds, two cycles later, with f l j
modulo 2^n in sub-lane j of lane l. -/
def SubLaneResult (s : State) (tt : TT) (vd : VReg) (n : Nat) (f : Nat → Nat → Int) (i : Instr) : Prop :=
  ∃ v, Runs i s (s.push 2 (s.me.vreg vd) (s.guardMask tt) v)
    ∧ ∀ l, l < 32 → ∀ j, j < 32 / n → (subOf n v l j : Int) = f l j % 2 ^ n

/-- R149, R151: the integer forms of a V slot complete for W = 0, 1 and 2 when some lane's guard holds; each sub-lane receives
the row of R151 for its a and b, and they land at t + 2. R149, R151: CLZ, POPC and ABS of a V slot complete; a sub-lane receives
its count of leading zeros (n for 0), its count of ones, its magnitude modulo 2^n. -/
def Obligations.VectorIntegerResults : Prop :=
  (∀ (s : State) (vu : VUnit) (tt : TT) (vd va vb : VReg) (w sati : BitVec 2), s.anyLane tt = true → w.toNat ≤ 2 →
     s.me.vregBad vd = false → s.me.vregBad va = false → s.me.vregBad vb = false →
     let n := 32 / 2 ^ w.toNat
     let a := fun l j => subOf n (s.vec va) l j
     let b := fun l j => subOf n (s.vec vb) l j
     let sa := fun l j => (BitVec.ofNat n (a l j)).toInt
     let sb := fun l j => (BitVec.ofNat n (b l j)).toInt
     let clamp := fun (lo hi x : Int) => if x < lo then lo else if hi < x then hi else x
     let sat := fun (u v : Int) =>
       if sati = 0 then u else if sati = 1 then clamp (-2 ^ (n - 1)) (2 ^ (n - 1) - 1) v else clamp 0 (2 ^ n - 1) u
     let res := SubLaneResult s tt vd n
     res (fun l j => sat (a l j + b l j) (sa l j + sb l j)) (.vAdd vu tt vd va vb w sati)
       ∧ res (fun l j => sat (a l j - b l j) (sa l j - sb l j)) (.vSub vu tt vd va vb w sati)
       ∧ res (fun l j => a l j * b l j) (.vMul vu tt vd va vb w)
       ∧ res (fun l j => sa l j * sb l j / 2 ^ n) (.vMulh vu tt vd va vb w)
       ∧ res (fun l j => a l j * b l j / 2 ^ n) (.vMulhu vu tt vd va vb w)
       ∧ res (fun l j => (a l j &&& b l j : Nat)) (.vAnd vu tt vd va vb w)
       ∧ res (fun l j => (a l j ||| b l j : Nat)) (.vOr vu tt vd va vb w)
       ∧ res (fun l j => (a l j ^^^ b l j : Nat)) (.vXor vu tt vd va vb w)
       ∧ res (fun l j => (BitVec.ofNat n (a l j) &&& ~~~BitVec.ofNat n (b l j)).toNat) (.vAndn vu tt vd va vb w)
       ∧ res (fun l j => a l j * 2 ^ (b l j % n)) (.vShl vu tt vd va vb w)
       ∧ res (fun l j => a l j / 2 ^ (b l j % n)) (.vShr vu tt vd va vb w)
       ∧ res (fun l j => sa l j / 2 ^ (b l j % n)) (.vSar vu tt vd va vb w)
       ∧ res (fun l j => min (sa l j) (sb l j)) (.vMin vu tt vd va vb w)
       ∧ res (fun l j => max (sa l j) (sb l j)) (.vMax vu tt vd va vb w)
       ∧ res (fun l j => (min (a l j) (b l j) : Nat)) (.vMinu vu tt vd va vb w)
       ∧ res (fun l j => (max (a l j) (b l j) : Nat)) (.vMaxu vu tt vd va vb w))
    ∧ (∀ (s : State) (vu : VUnit) (tt : TT) (vd va : VReg) (w : BitVec 2), s.anyLane tt = true → w.toNat ≤ 2 →
         s.me.vregBad vd = false → s.me.vregBad va = false →
         let n := 32 / 2 ^ w.toNat
         let a := fun l j => subOf n (s.vec va) l j
         (∃ f : Nat → Nat → Nat, SubLaneResult s tt vd n (fun l j => f l j) (.vClz vu tt vd va w)
             ∧ ∀ l j, (a l j = 0 → f l j = n) ∧ (a l j ≠ 0 → f l j < n ∧ 2 ^ (n - 1 - f l j) ≤ a l j ∧ a l j < 2 ^ (n - f l j)))
           ∧ SubLaneResult s tt vd n (fun l j => ((List.range n).filter (fun i => (a l j).testBit i)).length) (.vPopc vu tt vd va w)
           ∧ SubLaneResult s tt vd n (fun l j => ((BitVec.ofNat n (a l j)).toInt.natAbs : Nat)) (.vAbs vu tt vd va w))

/-- R93, R155: CMP, FCMP and VNFIN of a V slot complete whatever their guard; lane i writes its bits of the two predicates from
its own condition and its own guard. VNFIN sets NF when a lane whose guard holds is NaN or infinite, and raises nothing. R46: each
integer condition of CMP, on the 32-bit lanes. R46, R77: the conditions of FCMP on two numbers are those of their order. -/
def Obligations.VectorCompares : Prop :=
  IntConditions 32 ∧ FloatConditions ∧ ∀ (s : State) (vu : VUnit) (tt : TT) (pd0 pd1 : PReg) (pwt : BitVec 2) (cond fmt : BitVec 4) (va vb : VReg),
    s.me.vregBad va = false → s.me.vregBad vb = false →
    let a := s.vec va
    let b := s.vec vb
    let half := fun (h m : W32) => h &&& m == m
    let c := fun i =>
      if fmt = 0 then half (lane a i) 0x7F800000
      else if fmt = 1 then half (lane a i) 0x7C00 || half (lane a i) 0x7C000000
      else half (lane a i) 0x7F80 || half (lane a i) 0x7F800000
    Runs (.vCmp vu tt pd0 pd1 pwt cond va vb) s
        (s.pushPair pd0 pd1 (fun i => compareLane pwt (s.on tt i) (intCond cond.toNat (lane a i) (lane b i))))
      ∧ Runs (.vFcmp vu tt pd0 pd1 pwt cond va vb) s
        (s.pushPair pd0 pd1 (fun i => compareLane pwt (s.on tt i) (f32Cond (!s.me.il) cond.toNat (lane a i) (lane b i))))
      ∧ Runs (.vnfin vu tt pd0 pd1 pwt va fmt) s
        ((s.pushPair pd0 pd1 (fun i => compareLane pwt (s.on tt i) (c i))).pushNf 2
          ((List.range 32).any (fun i => s.on tt i && c i)) false (slotV vu) 0)

/-- The state after an FP32 result of a vector form: the lanes of VD whose guard holds take f, and NF is set at the same cycle
where such a lane is NaN or infinite (R150). -/
def vectorFp (s : State) (vu : VUnit) (tt : TT) (lat : Nat) (vd : VReg) (f : Nat → W32) : State :=
  (s.push lat (s.me.vreg vd) (s.guardMask tt) (vecOf f)).nfLanes lat (slotV vu) (s.lanesOn tt) (fun i => f32NonFinite (f i))
    (fmtNfte s.me.csr.fmt)

/-- R149, R150, R152: the floating-point forms of a V slot complete, lane by lane, at t + 4, under the rounding mode of their RM
field or, for RM 0, of FMT. R79, R109, R111, R114, R152, for S and V slots: a sum, a difference, a product and a·b + c of finite
numbers is the exact result rounded once, an exact zero sum of opposite values +0, or −0 under RD; a NaN operand, ∞ − ∞ and 0 × ∞
give the canonical NaN, else an infinity stands; FMIN and FMAX order −0 below +0, and one NaN operand gives the other one. -/
def Obligations.VectorFloatResults : Prop :=
  (∀ (flush : Bool) (rm : RM) (a b c : W32),
     let x := fun (w : W32) => unitsOf .fp32 (flushed flush w).toNat
     let sign := fun (w : W32) => w &&& 0x80000000
     let inf := fun (w : W32) => w &&& 0x7FFFFFFF = 0x7F800000
     let fin := fun (w : W32) => f32NonFinite w = false
     let nan := fun (w : W32) => f32IsNaN w = true
     let isZero := fun (w : W32) => flushed flush w &&& 0x7FFFFFFF = 0
     let sumZero := fun (u w : W32) => if isZero u ∧ isZero w ∧ sign u = sign w then u else if rm = .rd then 0x80000000 else 0
     let prodSign := sign (a ^^^ b)
     let prodInf := (inf a ∧ ¬ nan b ∧ ¬ isZero b) ∨ (inf b ∧ ¬ nan a ∧ ¬ isZero a)
     let noProd := nan a ∨ nan b ∨ (inf a ∧ isZero b) ∨ (isZero a ∧ inf b)
     let key := fun (w : W32) =>
       let m : Int := (flushed flush w &&& 0x7FFFFFFF).toNat
       if sign w = 0 then m else -m - 1
     (fin a → fin b → F32Result flush rm (x a + x b) (sumZero a b) (f32Add flush rm a b)
         ∧ F32Result flush rm (x a * x b / 2 ^ 300) prodSign (f32Mul flush rm a b))
       ∧ (nan a ∨ nan b ∨ (inf a ∧ inf b ∧ a ≠ b) → f32Add flush rm a b = f32NaN)
       ∧ (inf a → fin b ∨ a = b → f32Add flush rm a b = a) ∧ (fin a → inf b → f32Add flush rm a b = b)
       ∧ (nan b → f32Sub flush rm a b = f32NaN) ∧ (¬ nan b → f32Sub flush rm a b = f32Add flush rm a (b ^^^ 0x80000000))
       ∧ (noProd → f32Mul flush rm a b = f32NaN) ∧ (prodInf → f32Mul flush rm a b = 0x7F800000 ||| prodSign)
       ∧ (fin a → fin b → fin c →
         F32Result flush rm (x a * x b / 2 ^ 300 + x c) (if x a * x b = 0 then sumZero prodSign c else if rm = .rd then 0x80000000 else 0)
           (f32Fma flush rm a b c))
       ∧ (noProd ∨ nan c ∨ (prodInf ∧ inf c ∧ c ≠ 0x7F800000 ||| prodSign) → f32Fma flush rm a b c = f32NaN)
       ∧ (prodInf → fin c ∨ c = 0x7F800000 ||| prodSign → f32Fma flush rm a b c = 0x7F800000 ||| prodSign)
       ∧ (fin a → fin b → inf c → f32Fma flush rm a b c = c)
       ∧ ∀ isMax : Bool, (nan a → nan b → f32MinMax isMax flush a b = f32NaN)
         ∧ (nan a → ¬ nan b → f32MinMax isMax flush a b = flushed flush b) ∧ (¬ nan a → nan b → f32MinMax isMax flush a b = flushed flush a)
         ∧ (¬ nan a → ¬ nan b → f32MinMax isMax flush a b = flushed flush (if decide (key a < key b) = isMax then b else a)))
  ∧ ∀ (s : State) (vu : VUnit) (tt : TT) (vd va vb vc : VReg) (rm : BitVec 3), s.anyLane tt = true →
    s.me.vregBad vd = false → s.me.vregBad va = false → s.me.vregBad vb = false → s.me.vregBad vc = false →
    let a := lane (s.vec va)
    let b := lane (s.vec vb)
    let c := lane (s.vec vc)
    let flush := !s.me.il
    let m := if rm = 0 then (fmtRm s.me.csr.fmt).noSr else (rmOfCode rm.toNat).noSr
    let sign := fun (inv : Bool) (x : W32) =>
      if f32IsNaN x then f32NaN
      else
        let y := if flush && x &&& 0x7F800000 == 0 then x &&& 0x80000000 else x
        if inv then y ^^^ 0x80000000 else y &&& 0x7FFFFFFF
    let res := vectorFp s vu tt 4 vd
    Runs (.vFadd vu tt vd va vb rm) s (res (fun i => f32Add flush m (a i) (b i)))
      ∧ Runs (.vFsub vu tt vd va vb rm) s (res (fun i => f32Sub flush m (a i) (b i)))
      ∧ Runs (.vFmul vu tt vd va vb rm) s (res (fun i => f32Mul flush m (a i) (b i)))
      ∧ Runs (.vFfma vu tt vd va vb vc rm) s (res (fun i => f32Fma flush m (a i) (b i) (c i)))
      ∧ Runs (.vFmin vu tt vd va vb) s (res (fun i => f32MinMax false flush (a i) (b i)))
      ∧ Runs (.vFmax vu tt vd va vb) s (res (fun i => f32MinMax true flush (a i) (b i)))
      ∧ Runs (.vFabs vu tt vd va) s (res (fun i => sign false (a i)))
      ∧ Runs (.vFneg vu tt vd va) s (res (fun i => sign true (a i)))

/-- A number between the same codes and midpoints of FP32 as one that is n, or that lies between n and n + 1, in units of 2^-300. -/
def nearUnits (isExact : Bool) (n : Nat) : Int := if isExact then n else (n / 2 * 2 + 1 : Nat)

/-- The values of division, square root and their reciprocals, of the S and V slots: a NaN operand gives the canonical NaN; of finite
operands the quotient and the root are rounded once (R78, R79, R109, R153); the special cases of R79 and R153. -/
def DivideValues : Prop :=
  ∀ (flush : Bool) (m : RM) (a b : W32),
    let x := fun (w : W32) => unitsOf .fp32 (flushed flush w).toNat
    let sign := fun (w : W32) => w &&& 0x80000000
    let nan := fun (w : W32) => f32IsNaN w = true
    let inf := fun (w : W32) => w &&& 0x7FFFFFFF = 0x7F800000
    let zero := fun (w : W32) => flushed flush w &&& 0x7FFFFFFF = 0
    let fin := fun (w : W32) => f32NonFinite w = false ∧ ¬ zero w
    let quotient := fun (neg : Bool) (p q : Nat) => (if neg then -1 else 1) * nearUnits (p % q == 0) (p / q)
    (nan a ∨ nan b → f32Div flush m a b = f32NaN) ∧ (nan a → f32Sqrt flush m a = f32NaN ∧ f32Rsq flush m a = f32NaN ∧ f32Rcp flush m a = f32NaN)
      ∧ (inf a → inf b → f32Div flush m a b = f32NaN) ∧ (zero a → zero b → f32Div flush m a b = f32NaN)
      ∧ (inf a → zero b ∨ fin b → f32Div flush m a b = 0x7F800000 ||| sign (a ^^^ b))
      ∧ (fin a → zero b → f32Div flush m a b = 0x7F800000 ||| sign (a ^^^ b))
      ∧ (zero a ∨ fin a → inf b → f32Div flush m a b = sign (a ^^^ b))
      ∧ (zero a → fin b → f32Div flush m a b = sign (a ^^^ b))
      ∧ (fin a → fin b → F32Result flush m
          (quotient ((a ^^^ b).getLsbD 31) ((x a).natAbs * 2 ^ 300) (x b).natAbs) (a ^^^ b) (f32Div flush m a b))
      ∧ (zero a → f32Sqrt flush m a = sign a ∧ f32Rsq flush m a = 0x7F800000 ||| sign a ∧ f32Rcp flush m a = 0x7F800000 ||| sign a)
      ∧ (inf a ∨ fin a → a.getLsbD 31 = true → f32Sqrt flush m a = f32NaN ∧ f32Rsq flush m a = f32NaN)
      ∧ (inf a → a.getLsbD 31 = false → f32Sqrt flush m a = 0x7F800000 ∧ f32Rsq flush m a = 0)
      ∧ (inf a → f32Rcp flush m a = sign a)
      ∧ (fin a → a.getLsbD 31 = false → ∀ n r : Nat,
          (n * n ≤ (x a).natAbs * 2 ^ 300 → (x a).natAbs * 2 ^ 300 < (n + 1) * (n + 1) →
            F32Result flush m (nearUnits (n * n == (x a).natAbs * 2 ^ 300) n) 0 (f32Sqrt flush m a))
          ∧ (r * r * (x a).natAbs ≤ 2 ^ 900 → 2 ^ 900 < (r + 1) * (r + 1) * (x a).natAbs →
            F32Result flush m (nearUnits (r * r * (x a).natAbs == 2 ^ 900) r) 0 (f32Rsq flush m a)))
      ∧ (fin a → F32Result flush m (quotient (a.getLsbD 31) (2 ^ 600) (x a).natAbs) a (f32Rcp flush m a))

/-- R147, R149, R153: VFDIV, VFSQRT, VFRSQ and VFRCP complete at t + 12 and take the core's divide and square-root unit for
their issue cycle. R78, R79, R109, R114, R153, for FDIV and FSQRT of the S slot too: of finite operands the exact quotient or root is
rounded once; a NaN operand, ∞ / ∞, 0 / 0 and the roots of negative numbers give NaN; division by a zero, finite / ∞, and roots and
reciprocals of zeros and infinities; in exposed mode a subnormal reads as the zero of its sign. -/
def Obligations.VectorDivides : Prop :=
  (∀ (s : State) (vu : VUnit) (tt : TT) (vd va vb : VReg) (rm : BitVec 3), s.anyLane tt = true →
     s.me.vregBad vd = false → s.me.vregBad va = false → s.me.vregBad vb = false →
     let a := lane (s.vec va)
     let b := lane (s.vec vb)
     let flush := !s.me.il
     let m := if rm = 0 then (fmtRm s.me.csr.fmt).noSr else (rmOfCode rm.toNat).noSr
     let res := fun f => (vectorFp s vu tt 12 vd f).onCore s.cur.1 (fun c => { c with lastDivide := some s.t })
     Runs (.vfdiv vu tt vd va vb rm) s (res (fun i => f32Div flush m (a i) (b i)))
       ∧ Runs (.vfsqrt vu tt vd va rm) s (res (fun i => f32Sqrt flush m (a i)))
       ∧ Runs (.vfrsq vu tt vd va rm) s (res (fun i => f32Rsq flush m (a i)))
       ∧ Runs (.vfrcp vu tt vd va rm) s (res (fun i => f32Rcp flush m (a i))))
    ∧ DivideValues

/-- R154: VFCLASS completes in both issue modes and sets no flag. The mask of a lane has exactly one of its bits 8 to 0 set, by
the class of the FP32 bits as they stand. -/
def Obligations.VectorClass : Prop :=
  (∀ (s : State) (vu : VUnit) (tt : TT) (vd va : VReg), s.anyLane tt = true → s.me.vregBad vd = false →
      s.me.vregBad va = false →
      Runs (.vfclass vu tt vd va) s (s.push 2 (s.me.vreg vd) (s.guardMask tt) (vecOf (fun i => fclass (lane (s.vec va) i)))))
    ∧ ∀ a : W32,
      let e := a.extractLsb' 23 8
      let f := a.extractLsb' 0 23
      let neg := a.getLsbD 31
      fclass a = BitVec.ofNat 32 (
        if e = 255 ∧ f ≠ 0 then 2 ^ 8 else if e = 255 then (if neg then 2 ^ 0 else 2 ^ 7)
        else if e = 0 ∧ f = 0 then (if neg then 2 ^ 3 else 2 ^ 4)
        else if e = 0 then (if neg then 2 ^ 2 else 2 ^ 5)
        else if neg then 2 ^ 1 else 2 ^ 6)

/-- R156: the lane-moving forms complete at t + 2, copy bits unchanged, and write only lanes whose guard holds. -/
def Obligations.LaneMoves : Prop :=
  ∀ (s : State) (vu : VUnit) (tt : TT) (vd va vb : VReg) (k : BitVec 5), s.me.vregBad vd = false →
    s.me.vregBad va = false → s.me.vregBad vb = false →
    let a := lane (s.vec va)
    let b := lane (s.vec vb)
    let res := fun f => s.push 2 (s.me.vreg vd) (s.guardMask tt) (vecOf f)
    (s.on tt k.toNat = true → ∃ v, Runs (.vlane vu tt vd va k) s (s.push 2 (s.me.vreg vd) (laneMask k.toNat) v)
        ∧ lane v k.toNat = a 0)
      ∧ (s.on tt k.toNat = false → Runs (.vlane vu tt vd va k) s s)
      ∧ (s.anyLane tt = true →
        Runs (.vbcast vu tt vd va k) s (res (fun _ => a k.toNat))
          ∧ Runs (.vperm vu tt vd va vb) s (res (fun i => if b i < 32 then a (b i).toNat else 0))
          ∧ Runs (.vslide vu tt vd va vb k false) s (res (fun i => if k.toNat ≤ i then a (i - k.toNat) else b (32 - k.toNat + i)))
          ∧ Runs (.vslide vu tt vd va vb k true) s
            (res (fun i => if i + k.toNat < 32 then a (i + k.toNat) else b (i + k.toNat - 32))))

/-- A finite FP32 lane through a block scale other than 0xFF, in units of 2^-300 (R106, R132). -/
def scaledUnits (s : Nat) (a : W32) : Int := unitsOf .fp32 a.toNat * 2 ^ 127 / 2 ^ s

/-- The code of an integer format for an integer, saturated with NF (R111). -/
def intCode (f : Fmt) (i : Int) : Enc :=
  let lo : Int := -2 ^ (f.bits - 1)
  let hi : Int := 2 ^ (f.bits - 1) - 1
  ⟨(max lo (min hi i) % 2 ^ f.bits).toNat, decide (i < lo ∨ hi < i)⟩

/-- The zero code of a sign (R109, R132). -/
def zeroCode (f : Fmt) (neg : Bool) : Nat := if neg && !f.isInt then 2 ^ (f.bits - 1) else 0

/-- The code of an infinity of a sign, with its flag (R112). -/
def infinityCode (f : Fmt) (sat neg : Bool) : Enc :=
  let sign := if neg then 2 ^ (f.bits - 1) else 0
  if f.hasInf then ⟨f.infCode + sign, true⟩ else if f.isInt then overflowCode f .rne sat neg
  else if f = .e4m3 ∧ sat = false then ⟨0x7F, true⟩ else ⟨f.maxCode + sign, true⟩

/-- The encode of a lane that a block scale of 0xFF makes NaN, or that is not finite itself (R106, R112). -/
def EncodesNonFinite (f : Fmt) (sat : Bool) (s : Nat) (a : W32) (e : Enc) : Prop :=
  (s = 255 ∨ f32IsNaN a = true → e = ⟨f.canonNaN, true⟩)
    ∧ (s < 255 → a &&& 0x7FFFFFFF = 0x7F800000 → e = infinityCode f sat (a.getLsbD 31))

/-- The encode of a number to which no dither applies, by a mode other than SR: rounded once, a zero with its sign (R109 to R111). -/
def EncodesNumber (f : Fmt) (rm : RM) (sat : Bool) (y : Int) (neg : Bool) (e : Enc) : Prop :=
  (f.isInt = false → RoundedOnce f rm sat y e ∧ (y = 0 → e.code = if neg then 2 ^ (f.bits - 1) else 0))
    ∧ (f.isInt = true → ∀ i, RoundsToInt rm y i → e = intCode f i)

/-- The encode of a finite lane to which no dither applies: the scaled lane (R106, R109 to R111). -/
def EncodesRounded (f : Fmt) (rm : RM) (sat : Bool) (s : Nat) (a : W32) (e : Enc) : Prop :=
  EncodesNumber f rm sat (scaledUnits s a) (a.getLsbD 31) e

/-- The encode of a number by SR (R110): the upper of two neighbours a < b where f·2^16 exceeds the draw and a half. -/
def DrawsNumber (f : Fmt) (sat : Bool) (draw : Nat) (y : Int) (neg : Bool) (e : Enc) : Prop :=
  let one : Int := 2 ^ 300
  let up := fun (part whole : Int) => decide ((2 * (draw : Int) + 1) * whole < part * 2 ^ 17)
  let max := unitsOf f f.maxCode
  let step := max - unitsOf f (f.maxCode - 1)
  (f.isInt = true → e = intCode f (y / one + if up (y % one) one then 1 else 0))
    ∧ (f.isInt = false → (y = 0 → e = ⟨zeroCode f neg, false⟩)
      ∧ (∀ lo hi, y ≠ 0 → RoundsTo f .rd y lo → RoundsTo f .ru y hi →
        e = ⟨if up (y - unitsOf f lo) (unitsOf f hi - unitsOf f lo) then hi else lo, false⟩)
      ∧ (max < y → e = if max + step ≤ y ∨ up (y - max) step then overflowCode f .sr sat false else ⟨f.maxCode, false⟩)
      ∧ (y < -max → e = if y ≤ -(max + step) ∨ ¬ up (y + max + step) step then overflowCode f .sr sat true
        else ⟨f.maxCode + 2 ^ (f.bits - 1), false⟩))

/-- The encode of a finite lane by SR: the scaled lane (R106, R110). -/
def EncodesDrawn (f : Fmt) (sat : Bool) (draw s : Nat) (a : W32) (e : Enc) : Prop :=
  DrawsNumber f sat draw (scaledUnits s a) (a.getLsbD 31) e

/-- The number of the code at place k among the finite codes in order of value, zero at place 0. -/
def placeUnits (f : Fmt) (k : Int) : Int :=
  if f.isInt then k * 2 ^ 300 else if k < 0 then -unitsOf f k.natAbs else unitsOf f k.natAbs

/-- The ULP of a number in a format, in units of 2^-300 (R131). -/
def ulpUnits (f : Fmt) (x : Int) : Int :=
  match f.float? with
  | some fs => 2 ^ (max x.natAbs.log2 (301 - fs.bias) - fs.fbits)
  | none => 2 ^ 300

/-- The decoded value of the code at place k through an offset of d 32nds of its ULP, before the scale (R133). -/
def ditheredUnits (f : Fmt) (d k : Int) : Int :=
  let v := placeUnits f k
  if k = 0 then 0 else v - d * ulpUnits f v / 32

/-- The encode of a number through an offset of d 32nds of a ULP (R132): c0 is nearest to y + d·u; of c0, its two neighbours
and zero the code is that whose decoded value lies nearest to y, then one that is even, then the smaller. -/
def DithersNumber (f : Fmt) (rm : RM) (sat : Bool) (d y : Int) (neg : Bool) (e : Enc) : Prop :=
  let z := if y = 0 then 0 else y + d * ulpUnits f y / 32
  let hi : Int := f.maxCode
  let finite := fun (k : Int) => (if f.isInt then -hi - 1 else -hi) ≤ k ∧ k ≤ hi
  let exceeds := if f.isInt then ∃ i, RoundsToInt .rne z i ∧ ¬ finite i else Overflows f .rne z
  (exceeds → e = overflowCode f rm sat (decide (z < 0)))
    ∧ (¬ exceeds → ∃ c0 k : Int,
      let near := fun (j : Int) => (placeUnits f j - z).natAbs
      let dist := fun (j : Int) => (y - ditheredUnits f d j).natAbs
      let cand := fun (j : Int) => finite j ∧ (j = c0 ∨ j = c0 + 1 ∨ j = c0 - 1 ∨ j = 0)
      finite c0 ∧ (∀ j, finite j → near c0 < near j ∨ (near c0 = near j ∧ (j = c0 ∨ c0 % 2 = 0)))
        ∧ cand k ∧ (∀ j, cand j → dist k < dist j ∨ (dist k = dist j
          ∧ (k.natAbs % 2 < j.natAbs % 2 ∨ (k.natAbs % 2 = j.natAbs % 2 ∧ k.natAbs ≤ j.natAbs))))
        ∧ e = ⟨if k = 0 then zeroCode f neg else if k < 0 then (if f.isInt then (k % 2 ^ f.bits).toNat else 2 ^ (f.bits - 1) + k.natAbs)
          else k.natAbs, false⟩)

/-- The encode of a finite lane through an offset of d 32nds of a ULP: the scaled lane (R106, R132). -/
def EncodesDithered (f : Fmt) (rm : RM) (sat : Bool) (d : Int) (s : Nat) (a : W32) (e : Enc) : Prop :=
  DithersNumber f rm sat d (scaledUnits s a) (a.getLsbD 31) e

/-- The place of a finite code among the finite codes in order of value. -/
def placeOf (f : Fmt) (c : Nat) : Int :=
  if f.isInt then (BitVec.ofNat f.bits c).toInt else if c.testBit (f.bits - 1) then -(c % 2 ^ (f.bits - 1) : Nat) else c

/-- The offset of an element in 32nds of a ULP: of R130 where the format dithers, DEN is set and the frame has a seed, else 0 (R105,
R116). -/
def OffsetRule (fr : Frame) (den : Bool) (f : Fmt) (n : W64) : Prop :=
  let d := fr.offsetFor den f n
  let dithers := (f = .e4m3 ∨ f = .e5m2 ∨ f = .e2m1 ∨ f = .int8 ∨ f = .int4) ∧ den = true ∧ fr.seed ≠ 0
  (¬ dithers → d = 0)
    ∧ (dithers → d = 2 * ((mixh fr.seed (fr.tag &&& 0xFFFFFFFF) n).toNat / 2 ^ 60 : Nat) - 15 ∧ -15 ≤ d ∧ d ≤ 15 ∧ d ≠ 0)

/-- A code of FP32, FP16 or BF16 with a zero of its sign for a subnormal, where those flush (R114). -/
def wideFlush (f : Fmt) (flush : Bool) (c : Nat) : Nat :=
  let fw := if f = .fp32 then 23 else if f = .fp16 then 10 else 7
  if flush && (f == .fp32 || f == .fp16 || f == .bf16) && decide (c % 2 ^ (f.bits - 1) < 2 ^ fw) then
    c / 2 ^ (f.bits - 1) * 2 ^ (f.bits - 1)
  else c

/-- r is the FP32 value of a code of a format, exactly: a zero with the code's sign, an infinity, the canonical NaN (R101 to R103). -/
def WidensTo (f : Fmt) (c : Nat) (r : W32) : Prop :=
  let neg := c.testBit (f.bits - 1) && !f.isInt
  (FiniteCode f c → f32NonFinite r = false ∧ unitsOf .fp32 r.toNat = unitsOf f c
      ∧ (unitsOf f c = 0 → r = if neg then 0x80000000 else 0))
    ∧ (¬ FiniteCode f c → r = if f.hasInf ∧ c % 2 ^ (f.bits - 1) = f.infCode then (if neg then 0xFF800000 else 0x7F800000) else f32NaN)

/-- R159: what VUNPK makes of a code of the formats 1 to 7: its value as FP32, or of an integer format the integer. -/
def UnpackValues : Prop :=
  ∀ (flush : Bool) (fmt : BitVec 4) (c : Nat), 1 ≤ fmt.toNat → fmt.toNat ≤ 7 → c < 2 ^ (fmt4 fmt).bits →
    let f := fmt4 fmt
    let v := unpackCode flush f c
    (f.isInt = true → v = (BitVec.ofInt 32 (BitVec.ofNat f.bits c).toInt, false))
      ∧ (f.isInt = false → WidensTo f (wideFlush f flush c) v.1 ∧ v.2 = f32NonFinite v.1)

/-- R157: what VCVT makes of a lane, by a mode other than SR: the code of the source rounded once; SAT does not govern FP32 (R150). -/
def ConvertValues : Prop :=
  ∀ (flush sat : Bool) (rm : RM) (sfmt dfmt : BitVec 4) (a : W32),
    sfmt = 0 ∨ sfmt = 1 ∨ sfmt = 2 ∨ sfmt = 10 → dfmt = 0 ∨ dfmt = 1 ∨ dfmt = 2 ∨ dfmt = 10 → sfmt ≠ dfmt → rm ≠ .sr →
    let sf := fmt4 sfmt
    let df := fmt4 dfmt
    let sat := sat && df != .fp32
    let c := a.toNat % 2 ^ sf.bits
    let neg := c.testBit (sf.bits - 1)
    ∃ e, vcvtLane flush sat rm sf df a = (BitVec.ofNat 32 (wideFlush df flush e.code), receivedNf df e)
      ∧ (FiniteCode sf c → EncodesNumber df rm sat (unitsOf sf (wideFlush sf flush c)) neg e)
      ∧ (¬ FiniteCode sf c → e = if c % 2 ^ (sf.bits - 1) = sf.infCode then infinityCode df sat neg else ⟨df.canonNaN, true⟩)

/-- R163: the block scale of VEXPO: k is ⌊log2 |x|⌋ + 300. -/
def BlockScales : Prop :=
  ∀ (flush : Bool) (fmt : BitVec 4) (a : W32), 1 ≤ fmt.toNat → fmt.toNat ≤ 7 →
    let x := unitsOf .fp32 (flushed flush a).toNat
    let e := blockScale (fmt4 fmt) (f32In flush a)
    let top : Int := [0, 15, 127, 8, 15, 2, 6, 2].getD fmt.toNat 0
    (f32NonFinite a = true → e = ⟨0xFF, true⟩) ∧ (f32NonFinite a = false → x = 0 → e = ⟨0, false⟩)
      ∧ (f32NonFinite a = false → ∀ k : Nat, 2 ^ k ≤ x.natAbs → x.natAbs < 2 ^ (k + 1) →
        e = ⟨(max 0 (min 254 ((k : Int) - 300 - top + 127))).toNat, false⟩)

/-- R164: what VSRND makes of lane i: the code of the lane by SR with the draw of its index, as FP32. -/
def StochasticValues : Prop :=
  ∀ (flush sat : Bool) (fr : Frame) (den : Bool) (fmt : BitVec 4) (i : Nat) (a : W32), 1 ≤ fmt.toNat → fmt.toNat ≤ 7 →
    let f := fmt4 fmt
    let draw := (mixh (if den then fr.seed else 0) ((fr.tag &&& 0xFFFFFFFF) + 0x100000000) (fr.n0 + BitVec.ofNat 64 i)).toNat / 2 ^ 48
    let v := vsrndLane flush sat fr den f i a
    ∃ e, WidensTo f e.code v.1 ∧ v.2 = receivedNf f e ∧ EncodesNonFinite f sat 127 (flushed flush a) e
      ∧ (f32NonFinite a = false → EncodesDrawn f sat draw 127 (flushed flush a) e)

/-- R141: what VDITH makes of a lane: the offset of the index N0 + lane, in ULPs, as FP32. -/
def DitherValues : Prop :=
  ∀ (fr : Frame) (den : Bool) (fmt : BitVec 4) (a : W32), fmt.toNat ≤ 7 →
    let n := fr.n0 + a.zeroExtend 64
    let d := fr.offsetFor den (fmt4 fmt) n
    let r := vdithLane fr den (fmt4 fmt) a
    OffsetRule fr den (fmt4 fmt) n ∧ f32NonFinite r = false ∧ unitsOf .fp32 r.toNat = d * 2 ^ 295 ∧ (d = 0 → r = 0)

/-- A write of packed codes: f names, for each lane, positions and codes of width w. Only the bits of the positions written by
lanes whose guard holds change (R140, R141, R158). -/
def PackedResult (s : State) (vu : VUnit) (tt : TT) (vd : VReg) (w : Nat) (f : Nat → List (Nat × Enc)) (i : Instr) : Prop :=
  ∃ m v, Runs i s ((s.push 3 (s.me.vreg vd) m v).nfLanes 3 (slotV vu) (s.lanesOn tt) (fun l => (f l).any (fun c => c.2.nf))
      (fmtNfte s.me.csr.fmt))
    ∧ (∀ b, b < 1024 → (m.getLsbD b = true ↔ ∃ l ∈ s.lanesOn tt, ∃ c ∈ f l, w * c.1 ≤ b ∧ b < w * (c.1 + 1)))
    ∧ ∀ l ∈ s.lanesOn tt, ∀ c ∈ f l, codeAt v w c.1 = c.2.code % 2 ^ w

/-- The state after a conversion: f gives the value of a lane and whether it sets NF (R150). -/
def vectorNf (s : State) (vu : VUnit) (tt : TT) (lat : Nat) (vd : VReg) (f : Nat → W32 × Bool) : State :=
  (s.push lat (s.me.vreg vd) (s.guardMask tt) (vecOf (fun i => (f i).1))).nfLanes lat (slotV vu) (s.lanesOn tt)
    (fun i => (f i).2) (fmtNfte s.me.csr.fmt)

/-- R140, R141, R158: VPACK of a format of codes 1 to 7 and VQENC under a uniform scale complete. VPACK writes codes i and 32 +
i of vd from lane i of va and vb, VQENC code i, FP32 codes too; every other bit of vd keeps what it holds. R139, R141, R157, R159,
R163, R164: the conversions of a V slot complete at t + 3: VUNPK from code 32·part on, VCVT, VEXPO, VSRND under the draws of its
frame, VDITH with no flag, VQDEC under a uniform scale. R105, R106, R109 to R114, R130 to R133: the code of VPACK is the lane rounded
once, of VQENC the scaled lane rounded once or, through an offset, the candidate whose decoded value lies nearest; VQDEC gives the
code's value less its offset, through the scale, rounded once to FP32; VUNPK the code's value exactly, VCVT the source rounded once,
VEXPO the clamped exponent, VSRND the code by SR under the draw of its index, VDITH the offset. NF is set where the encode names it,
or where the lane receives a NaN or an infinity. -/
def Obligations.VectorConversions : Prop :=
  (∀ (flush sat : Bool) (rm : RM) (fr : Frame) (den : Bool) (fmt : BitVec 4) (s i : Nat) (a : W32), fmt.toNat ≤ 7 → s ≤ 255 →
     let f := fmt4 fmt
     let n := fr.n0 + BitVec.ofNat 64 i
     let d := fr.offsetFor den f n
     let lane := flushed flush a
     let sat' := sat && f != .fp32
     let e := vqencLane flush sat rm fr den f s i a
     OffsetRule fr den f n
       ∧ (1 ≤ fmt.toNat → fmt.toNat ≤ 5 → rm ≠ .sr →
         ∃ r, packLane flush sat rm f a = ⟨wideFlush f flush r.code, receivedNf f r⟩ ∧ EncodesNonFinite f sat 127 lane r
           ∧ (f32NonFinite a = false → EncodesRounded f rm sat 127 lane r))
       ∧ (f.isInt = true → packLane flush sat rm f a = intCode f a.toInt)
       ∧ (∃ r, e = ⟨wideFlush f flush r.code, receivedNf f r⟩ ∧ EncodesNonFinite f sat' s lane r
         ∧ (f32NonFinite a = false → s < 255 → rm ≠ .sr →
           (d = 0 → EncodesRounded f rm sat' s lane r) ∧ (d ≠ 0 → EncodesDithered f rm sat' d s lane r)))
       ∧ ∀ c, c < 2 ^ f.bits →
         let c' := wideFlush f flush c
         let v := vqdecLane flush rm fr den f s i c
         let sign : W32 := if c.testBit (f.bits - 1) then 0x80000000 else 0
         (s = 255 → v = f32NaN)
           ∧ (s < 255 → FiniteCode f c → F32Result flush rm (ditheredUnits f d (placeOf f c') * 2 ^ s / 2 ^ 127) sign v)
           ∧ (s < 255 → ¬ FiniteCode f c → v = if f.hasInf ∧ c % 2 ^ (f.bits - 1) = f.infCode then 0x7F800000 ||| sign else f32NaN))
    ∧ UnpackValues ∧ ConvertValues ∧ BlockScales ∧ StochasticValues ∧ DitherValues
    ∧ (∀ (s : State) (vu : VUnit) (tt : TT) (vd va vb : VReg) (fmt : BitVec 4) (frame : BitVec 3) (sc : BitVec 4) (se : Bool),
     s.anyLane tt = true → s.me.vregBad vd = false → s.me.vregBad va = false → s.me.vregBad vb = false → fmt.toNat ≤ 7 →
     let flush := !s.me.il
     let sat := fmtSat s.me.csr.fmt
     let rm := (fmtRm s.me.csr.fmt).noSr
     let f := fmt4 fmt
     (1 ≤ fmt.toNat → PackedResult s vu tt vd f.bits
         (fun i => [(i, packLane flush sat rm f (lane (s.vec va) i)), (32 + i, packLane flush sat rm f (lane (s.vec vb) i))])
         (.vpack vu tt vd va vb fmt))
       ∧ (s.scaleOk se sc.toNat = true →
         PackedResult s vu tt vd f.bits
           (fun i => [(i, vqencLane flush sat rm (s.frame frame.toNat) (fmtDen s.me.csr.fmt) f (s.scale se sc.toNat) i (lane (s.vec va) i))])
           (.vqenc vu tt vd va frame sc se fmt)))
    ∧ (∀ (s : State) (vu : VUnit) (tt : TT) (vd va : VReg) (fmt sfmt dfmt : BitVec 4) (part : BitVec 2) (rm frame : BitVec 3)
         (sc : BitVec 4) (se : Bool), s.anyLane tt = true → s.me.vregBad vd = false → s.me.vregBad va = false →
         let a := lane (s.vec va)
         let flush := !s.me.il
         let sat := fmtSat s.me.csr.fmt
         let den := fmtDen s.me.csr.fmt
         let fr := s.frame frame.toNat
         let f := fmt4 fmt
         Runs (.vunpk vu tt vd va fmt part) s
             (vectorNf s vu tt 3 vd (fun i => unpackCode flush f (codeAt (s.vec va) f.bits (32 * part.toNat + i))))
           ∧ Runs (.vcvt vu tt vd va sfmt dfmt rm) s (vectorNf s vu tt 3 vd (fun i =>
               vcvtLane flush sat (if rm = 0 then (fmtRm s.me.csr.fmt).noSr else (rmOfCode rm.toNat).noSr) (fmt4 sfmt) (fmt4 dfmt) (a i)))
           ∧ Runs (.vexpo vu tt vd va fmt) s (vectorNf s vu tt 3 vd (fun i =>
               (BitVec.ofNat 32 (blockScale f (f32In flush (a i))).code, (blockScale f (f32In flush (a i))).nf)))
           ∧ Runs (.vsrnd vu tt vd va frame fmt) s (vectorNf s vu tt 3 vd (fun i => vsrndLane flush sat fr den f i (a i)))
           ∧ Runs (.vdith vu tt vd va frame fmt) s
             (s.push 3 (s.me.vreg vd) (s.guardMask tt) (vecOf (fun i => vdithLane fr den f (a i))))
           ∧ (s.scaleOk se sc.toNat = true → Runs (.vqdec vu tt vd va frame sc se fmt) s (vectorFp s vu tt 3 vd (fun i =>
               vqdecLane flush (fmtRm s.me.csr.fmt).noSr fr den f (s.scale se sc.toNat) i (codeAt (s.vec va) f.bits i)))))

/-- Level L of the pairwise tree over the lanes (R160). -/
def pairTree (op : W32 → W32 → W32) (v : Vec) : Nat → Nat → W32
  | 0, i => lane v i
  | n + 1, i => op (pairTree op v n (2 * i)) (pairTree op v n (2 * i + 1))

/-- R161, R102, R123: what VDOT4 makes of a lane of E4M3 or E5M2 codes and of the lane c, in an issue mode: a NaN operand, ∞ · 0 and
∞ − ∞ of products give NaN; a product that is infinite stands; else the exact sum of the four products, when it is not 0, is added to
c and rounded once. -/
def DotResult (f : Fmt) (flush : Bool) (a b c r : W32) : Prop :=
  let code := fun (w : W32) (j : Nat) => w.toNat / 2 ^ (8 * j) % 256
  let inf := fun (w : W32) (j : Nat) => f.hasInf = true ∧ code w j % 128 = f.infCode
  let nan := fun (w : W32) (j : Nat) => ¬ FiniteCode f (code w j) ∧ ¬ inf w j
  let zero := fun (w : W32) (j : Nat) => code w j % 128 = 0
  let neg := fun (j : Nat) => (code a j).testBit 7 != (code b j).testBit 7
  let noProduct := fun (j : Nat) => nan a j ∨ nan b j ∨ (inf a j ∧ zero b j) ∨ (zero a j ∧ inf b j)
  let infinite := fun (j : Nat) (n : Bool) => (inf a j ∨ inf b j) ∧ ¬ noProduct j ∧ neg j = n
  let noSum := (∃ j < 4, noProduct j) ∨ ((∃ j < 4, infinite j false) ∧ ∃ j < 4, infinite j true)
  let sum := ((List.range 4).map (fun j => unitsOf f (code a j) * unitsOf f (code b j) / 2 ^ 300)).sum
  let infOf := fun (n : Bool) => if n then (0xFF800000 : W32) else 0x7F800000
  (noSum ∨ f32IsNaN c = true → r = f32NaN)
    ∧ (∀ n, ¬ noSum → (∃ j < 4, infinite j n) → f32IsNaN c = false → r = if c = infOf (!n) then f32NaN else infOf n)
    ∧ ((∀ j < 4, FiniteCode f (code a j) ∧ FiniteCode f (code b j)) →
      (∀ n, c = infOf n → r = c) ∧ (f32NonFinite c = false →
        (sum = 0 → r = flushed flush c)
          ∧ (sum ≠ 0 → F32Result flush .rne (unitsOf .fp32 (flushed flush c).toNat + sum) 0 r)))

/-- R160: VRED reduces all 32 lanes, suppressed ones too, by the pairwise tree and writes the result into each lane whose guard
holds: iadd at t + 6, fadd rounded RNE, fmax and fmin at t + 10. R162: VAMAX reads every lane and writes the largest magnitude m
into each lane whose guard holds, at t + 6; with a NaN lane m is NaN; in exposed mode subnormal lanes read as zero; NF is set
when m is NaN or infinite. R161: VDOT4 completes at t + 4. For INT8 a lane receives vc plus the sum of the four signed byte
products, modulo 2^32, with no NF; for E4M3 and E5M2 the sum is the exact sum of the four products: one that is NaN gives NaN, a zero
sum leaves vc, and any other is added to vc with one rounding. -/
def Obligations.CrossLaneResults : Prop :=
  (∀ (s : State) (vu : VUnit) (tt : TT) (vd va : VReg), s.anyLane tt = true → s.me.vregBad vd = false →
     s.me.vregBad va = false →
     let flush := !s.me.il
     let root := fun op => pairTree op (s.vec va) 5 0
     Runs (.vred vu tt vd va 0) s (s.push 6 (s.me.vreg vd) (s.guardMask tt) (vecOf (fun _ => root (fun x y => x + y))))
       ∧ Runs (.vred vu tt vd va 1) s (vectorFp s vu tt 10 vd (fun _ => root (f32Add flush .rne)))
       ∧ Runs (.vred vu tt vd va 2) s (vectorFp s vu tt 10 vd (fun _ => root (f32MinMax true flush)))
       ∧ Runs (.vred vu tt vd va 3) s (vectorFp s vu tt 10 vd (fun _ => root (f32MinMax false flush))))
    ∧ (∀ (s : State) (vu : VUnit) (tt : TT) (vd va : VReg), s.anyLane tt = true → s.me.vregBad vd = false →
         s.me.vregBad va = false →
         let a := lane (s.vec va)
         let mag := fun i => if !s.me.il && a i &&& 0x7F800000 == 0 then 0 else a i &&& 0x7FFFFFFF
         ∃ m, Runs (.vamax vu tt vd va) s (vectorFp s vu tt 6 vd (fun _ => m))
           ∧ ((∃ i, i < 32 ∧ f32IsNaN (a i) = true) → m = f32NaN)
           ∧ ((∀ i, i < 32 → f32IsNaN (a i) = false) → (∀ i, i < 32 → (mag i).toNat ≤ m.toNat) ∧ ∃ i, i < 32 ∧ m = mag i))
    ∧ (∀ (s : State) (vu : VUnit) (tt : TT) (vd va vb vc : VReg), s.anyLane tt = true → s.me.vregBad vd = false →
         s.me.vregBad va = false → s.me.vregBad vb = false → s.me.vregBad vc = false →
         let byte := fun (v : Vec) i j => (lane v i).extractLsb' (8 * j) 8
         let p := fun i j => (byte (s.vec va) i j).toInt * (byte (s.vec vb) i j).toInt
         let c := lane (s.vec vc)
         let dots := fun (f : Fmt) (i : Instr) => ∃ r : Nat → W32, Runs i s (vectorFp s vu tt 4 vd r)
           ∧ ∀ l, DotResult f (!s.me.il) (lane (s.vec va) l) (lane (s.vec vb) l) (c l) (r l)
         Runs (.vdot4 vu tt vd va vb vc 6) s
             (s.push 4 (s.me.vreg vd) (s.guardMask tt) (vecOf (fun i => c i + BitVec.ofInt 32 (p i 0 + p i 1 + p i 2 + p i 3))))
           ∧ dots .e4m3 (.vdot4 vu tt vd va vb vc 3) ∧ dots .e5m2 (.vdot4 vu tt vd va vb vc 4))

/-! ## Loads, prefetch, address arithmetic -/

/-- The state after a load has been accepted: its value is in flight, and with AM the base register takes its post-increment at
t + 1 when lane 0's guard holds (R196). -/
def loaded (s : State) (tt : TT) (lab : AReg) (am : Bool) (ofs : BitVec 15) (l : LoadSpec) : State :=
  let r := s.startLoad l
  if am = true ∧ s.lane0 tt = true then r.push64 1 (.la lab.toNat) (s.la lab + ofs.signExtend 64) else r

/-- R192, R195 to R197: a load whose guarded lanes pass every check completes while the access queue has room; LDS and LDG have
no post-increment. -/
def Obligations.LoadsComplete : Prop :=
  ∀ (s : State) (tt : TT) (lvd lvi : BitVec 7) (lab las : AReg) (am : Bool) (ofs : BitVec 15) (ofsG : BitVec 12)
    (sz : BitVec 2) (sx : Bool) (rd : BitVec 2), lvd.toNat < s.me.regs.lv.size → lvi.toNat < s.me.regs.lv.size →
    s.AccessRoom →
    (s.lane0 tt = true →
        (s.LoadOk (ldSpec tt lvd lab am ofs sz sx rd false s) →
          Runs (.ld tt lvd lab am ofs sz sx rd) s (loaded s tt lab am ofs (ldSpec tt lvd lab am ofs sz sx rd false s)))
        ∧ (s.LoadOk (ldSpec tt lvd lab am ofs sz sx rd true s) →
          Runs (.ldc tt lvd lab am ofs sz sx rd) s (loaded s tt lab am ofs (ldSpec tt lvd lab am ofs sz sx rd true s))))
      ∧ (s.anyLane tt = true →
        (s.LoadOk (ldvSpec tt lvd lab am ofs rd false s) →
          Runs (.ldv tt lvd lab am ofs rd) s (loaded s tt lab am ofs (ldvSpec tt lvd lab am ofs rd false s)))
        ∧ (s.LoadOk (ldvSpec tt lvd lab am ofs rd true s) →
          Runs (.ldcv tt lvd lab am ofs rd) s (loaded s tt lab am ofs (ldvSpec tt lvd lab am ofs rd true s)))
        ∧ (s.LoadOk (ldsSpec tt lvd lab las ofs rd s) →
          Runs (.lds tt lvd lab las ofs rd) s (s.startLoad (ldsSpec tt lvd lab las ofs rd s)))
        ∧ (s.LoadOk (ldgSpec tt lvd lab lvi ofsG rd s) →
          Runs (.ldg tt lvd lab lvi ofsG rd) s (s.startLoad (ldgSpec tt lvd lab lvi ofsG rd s))))

/-- An address that a load may read, and whose bytes it reads at pa; not one of a FIFO bank. -/
def ReadsAt (s : State) (a : W64) (pa : Nat) : Prop :=
  (∃ res, translate s.ranges .lr a.toNat = .ok pa res) ∧ ∀ o, s.bankAt pa ≠ some (.fifo, o)

/-- n bytes that the issuing core sees at a physical address, lowest first, as a number (R5). -/
def seenAt (s : State) (pa n : Nat) : Nat := natOfBytes ((List.range n).map (fun i => s.coreByte s.cur.1 (pa + i)))

/-- No write of the partition is on its way, every remote one that has performed has been drained, and no engine of the partition's
cores has settled anything to write. -/
def Quiet (s : State) (p : Nat) : Prop :=
  (s.part p).ops = [] ∧ (s.part p).undrained = [] ∧ ∀ e ∈ s.cores, s.partOf e.1 = p →
    (s.core e.1).running = none ∧ ∀ c ∈ (s.core e.1).copies, c.writes = []

/-- R5, R196, R201: what a load reads. LD and LDC read SZ bytes at B + OFS, or at B with AM, little-endian, extended by SX; LDV
reads 4 bytes at A + 4i into lane i, LDS at B + OFS + i·S, LDG at B + OFS plus the index in lane i; lanes whose guard fails are
not written. R27, R181, R198, R199: a scheduled load that pops no FIFO puts one write in flight that lands λ cycles later in
LV[lvd]; λ is the largest figure of its lanes. Nothing else of the context changes. Where no write of the partition is open, its
value is the one read at issue. That a load takes its value at issue, remote ones too, and then, by a free choice, bytes of writes that
perform before its data arrive (MemoryEvents), is the model's reading (DESIGN CHOICE, log 5). -/
def Obligations.LoadEffects : Prop :=
  (∀ (s : State) (tt : TT) (lvd lvi : BitVec 7) (lab las : AReg) (am : Bool) (ofs : BitVec 15) (ofsG : BitVec 12)
     (sz : BitVec 2) (sx c : Bool) (rd : BitVec 2),
     let a := if am then s.la lab else s.la lab + ofs.signExtend 64
     let n := 2 ^ sz.toNat
     let word := fun (l : LoadSpec) (f : Nat → W64) => (∀ i, i < 32 → s.on tt i = true → ∃ pa, ReadsAt s (f i) pa) → ∀ i, i < 32 →
       (s.on tt i = true → ∀ pa, ReadsAt s (f i) pa →
           lane (s.loadValue l []) i = BitVec.ofNat 32 (seenAt s pa 4) ∧ lane l.mask i = 0xFFFFFFFF)
         ∧ (s.on tt i = false → lane l.mask i = 0)
     (s.lane0 tt = true → ∀ pa, ReadsAt s a pa →
         let l := ldSpec tt lvd lab am ofs sz sx rd c s
         let v : W64 := if sx then (BitVec.ofNat (8 * n) (seenAt s pa n)).signExtend 64 else BitVec.ofNat 64 (seenAt s pa n)
         s.loadValue l [] = v.zeroExtend 1024 ∧ l.mask = BitVec.allOnes 1024)
       ∧ word (ldvSpec tt lvd lab am ofs rd c s) (fun i => a + BitVec.ofNat 64 (4 * i))
       ∧ word (ldsSpec tt lvd lab las ofs rd s) (fun i => s.la lab + ofs.signExtend 64 + BitVec.ofNat 64 i * s.la las)
       ∧ word (ldgSpec tt lvd lab lvi ofsG rd s)
         (fun i => s.la lab + ofsG.signExtend 64 + (lane (s.lv lvi) i).zeroExtend 64))
    ∧ (∀ (s : State) (l : LoadSpec), l.cached = false → s.popBank l = none →
         ∃ w, (s.startLoad l).me = { s.me with pend := s.me.pend ++ [w] } ∧ w.dest = .lv l.lvd.toNat ∧ w.mask = l.mask
           ∧ (Quiet s s.myPart → w.value = s.loadValue l []) ∧ w.arrive = none
           ∧ w.land = s.t + maxOf ((s.laneAccs .lr l.lanes).map
             (fun a => lambdaOf (s.mult s.myPart) (clusterOf s.cur.1) a.pa a.res)))

/-- R202, R203, R196: PREF completes whatever its lines are: in DET it has no effect but its post-increment; in THR the cache takes
its lines one after another, and memory takes what each line that leaves writes back (R173), which stands over the results of update
rules in flight (R187). LAADD, LAMOV and QAADD write at t + 1 and touch no memory. -/
def Obligations.AddressArithmetic : Prop :=
  ∀ (s : State) (tt : TT) (lines : BitVec 4) (lad laa qad qaa : AReg) (am : Bool) (ofs : BitVec 15) (rd : BitVec 2)
    (imm : BitVec 24) (lvs : BitVec 7), s.lane0 tt = true →
    let inc := fun (r : State) => if am then r.push64 1 (.la laa.toNat) (s.la laa + ofs.signExtend 64) else r
    (s.isDet s.myPart = true → Runs (.pref tt lines laa am ofs rd) s (inc s))
      ∧ (s.isDet s.myPart = false →
          let c := clusterOf s.cur.1
          let pas := s.prefLines (if am then s.la laa else s.la laa + ofs.signExtend 64) (lines.toNat + 1)
          Runs (.pref tt lines laa am ofs rd) s (inc ((pas.map lineOf).eraseDups.foldl
            (fun r a => r.throughCache c (touchLine r.mem (r.cluster c) a rd.toNat)) s)))
      ∧ Runs (.laadd tt lad laa imm) s (s.push64 1 (.la lad.toNat) (s.la laa + imm.signExtend 64))
      ∧ (lvs.toNat < s.me.regs.lv.size → Runs (.lamov tt lad lvs) s
          (s.push64 1 (.la lad.toNat) (lane (s.lv lvs) 1 ++ lane (s.lv lvs) 0)))
      ∧ Runs (.qaadd tt qad qaa imm) s (s.push64 1 (.qa qad.toNat) (s.qa qaa + imm.signExtend 64))

/-- R197, R285, R287: an LD whose address is no multiple of its size raises ALIGN_FAULT, one that no entry maps RANGE_FAULT, one
whose entry withholds LR PERMISSION_FAULT; each names the address, and the bundle does not issue. Of several the lowest code is
taken. R52, R54, R286: a transfer whose target is outside the code range or misaligned does not issue: BAD_TARGET names the
target, and where the context has a handler, TCAUSE, TINFO and EPC are written and the handler is entered. R25, R98, R145: a
V-slot number beyond both windows raises ILLEGAL_REGISTER with the number as encoded, whatever the guard, and the bundle does
not issue. R36, R71, R84: outside handler mode HRET, SNAPST, SNAPLD, SNAPREL and a PUTC to a handler register are illegal
encodings, whatever their guard: the bundle does not issue. -/
def Obligations.IssueFaults : Prop :=
  (∀ (s : State) (tt : TT) (lvd : BitVec 7) (lab : AReg) (am : Bool) (ofs : BitVec 15) (sz : BitVec 2) (sx : Bool) (rd : BitVec 2),
     s.lane0 tt = true → lvd.toNat < s.me.regs.lv.size → s.AccessRoom →
     let a := if am then s.la lab else s.la lab + ofs.signExtend 64
     let faults := fun (code : Nat) =>
       Runs (.ld tt lvd lab am ofs sz sx rd) s (s.takeFault s.cur.1 s.cur.2 ⟨code, 5, 0, a⟩ s.me.pc)
     (a.toNat % 2 ^ sz.toNat ≠ 0 → faults 0x06)
       ∧ (a.toNat % 2 ^ sz.toNat = 0 → findRange s.ranges a.toNat = none → faults 0x07)
       ∧ (∀ e, a.toNat % 2 ^ sz.toNat = 0 → findRange s.ranges a.toNat = some e → e.perm.getLsbD 0 = false → faults 0x08))
    ∧ (∀ (s : State) (tt : TT) (ofs : W32) (pc : W64), s.lane0 tt = true →
         s.me.st = .bound → s.me.task.handlerPc = some pc → s.me.targetOk (s.me.pc + 64 * ofs.signExtend 64) = false →
         (s.core s.cur.1).snap = none →
         ∃ t, Runs (.br tt ofs) s t ∧ t.me.st = .handler ∧ t.me.pc = pc ∧ t.me.csr.epc = s.me.pc
           ∧ t.me.csr.tinfo = s.me.pc + 64 * ofs.signExtend 64 ∧ t.me.csr.tcause.extractLsb' 0 8 = 0x03 ∧ t.me.masked = true)
    ∧ (∀ (s : State) (vu : VUnit) (tt : TT) (vd va vb : VReg) (w sati : BitVec 2) (rm : BitVec 3), s.me.vregBad vd = true →
         s.me.vregBad va = false → s.me.vregBad vb = false →
         let t := s.takeFault s.cur.1 s.cur.2 ⟨0x02, 2 + (if vu = .v0 then 0 else 1), 0, vd.zeroExtend 64⟩ s.me.pc
         Runs (.vAdd vu tt vd va vb w sati) s t ∧ Runs (.vFadd vu tt vd va vb rm) s t ∧ Runs (.vperm vu tt vd va vb) s t
           ∧ Runs (.vfdiv vu tt vd va vb rm) s t)
    ∧ (∀ (s : State) (tt : TT) (xa : XReg) (csr : BitVec 12), s.me.st = .bound → csrHandlerOnly csr.toNat = true →
         let t := s.takeFault s.cur.1 s.cur.2 ⟨0x01, 1, 0, 0⟩ s.me.pc
         Runs (.hret tt) s t ∧ Runs (.snapst tt xa) s t ∧ Runs (.snapld tt xa) s t ∧ Runs (.snaprel tt) s t ∧ Runs (.putc tt csr xa) s t)

/-! ## Stores, atomics, contributions -/

/-- The state after a store has been accepted, with its post-increment (R196). -/
def stored (s : State) (tt : TT) (qab : AReg) (am : Bool) (inc : W64) (st : StoreSpec) : State :=
  let r := s.startStore st [] 0
  if am = true ∧ s.lane0 tt = true then r.push64 1 (.qa qab.toNat) (s.qa qab + inc) else r

/-- R192, R195 to R197, R204: a plain store whose guarded lanes pass every check completes while the access queue has room. -/
def Obligations.StoresComplete : Prop :=
  ∀ (s : State) (tt : TT) (qvs qvi : BitVec 6) (qab qas : AReg) (am : Bool) (ofs : BitVec 18) (ofsC : BitVec 16) (sz : BitVec 2),
    qvs.toNat < s.me.regs.qv.size → qvi.toNat < s.me.regs.qv.size → s.AccessRoom →
    (s.lane0 tt = true → s.StoreOk (stSpec tt qvs qab am ofs sz s) →
        Runs (.st tt qvs qab am ofs sz) s (stored s tt qab am (ofs.signExtend 64) (stSpec tt qvs qab am ofs sz s)))
      ∧ (s.anyLane tt = true →
        (s.StoreOk (stvSpec tt qvs qab am ofs s) →
          Runs (.stv tt qvs qab am ofs) s (stored s tt qab am (ofs.signExtend 64) (stvSpec tt qvs qab am ofs s)))
        ∧ (s.StoreOk (stsSpec tt qvs qab qas ofs s) →
          Runs (.sts tt qvs qab qas ofs) s (s.startStore (stsSpec tt qvs qab qas ofs s) [] 0))
        ∧ (s.StoreOk (scatSpec tt qvs qab qvi ofsC s) →
          Runs (.scat tt qvs qab qvi ofsC) s (s.startStore (scatSpec tt qvs qab qvi ofsC s) [] 0)))

/-- R5, R196, R204: what a plain store writes and where. ST writes the low SZ bytes of lanes 1 and 0 at A; STV, STS and SCAT the
4 bytes of each guarded lane, in lane order, so that the higher lane stands where two overlap. R198, R209: in DET a plain store
that pushes no FIFO puts an operation in flight that writes its pieces at their physical addresses λ cycles later, and later, by
what R181 leaves open, only where its GDDR lines exceed the partition's slots (log 29); memory, caches, registers and writes in
flight stand as before. -/
def Obligations.StoreEffects : Prop :=
  (∀ (s : State) (tt : TT) (qvs qvi : BitVec 6) (qab qas : AReg) (am : Bool) (ofs : BitVec 18) (ofsC : BitVec 16) (sz : BitVec 2),
     let a := if am then s.qa qab else s.qa qab + ofs.signExtend 64
     let v := s.qv qvs
     let bytes := fun (w n : Nat) => (List.range n).map (fun i => (BitVec.ofNat 8 (w / 2 ^ (8 * i)), (0xFF : Byte)))
     let lanes := fun (f : Nat → W64) =>
       ((List.range 32).filter (s.on tt)).map (fun i => (⟨i, f i, bytes (lane v i).toNat 4⟩ : Piece))
     (s.lane0 tt = true → (stSpec tt qvs qab am ofs sz s).pieces = [⟨0, a, bytes (lane v 1 ++ lane v 0).toNat (2 ^ sz.toNat)⟩])
       ∧ (stvSpec tt qvs qab am ofs s).pieces = lanes (fun i => a + BitVec.ofNat 64 (4 * i))
       ∧ (stsSpec tt qvs qab qas ofs s).pieces = lanes (fun i => s.qa qab + ofs.signExtend 64 + BitVec.ofNat 64 i * s.qa qas)
       ∧ (scatSpec tt qvs qab qvi ofsC s).pieces
         = lanes (fun i => s.qa qab + ofsC.signExtend 64 + (lane (s.qv qvi) i).zeroExtend 64))
    ∧ (∀ (s : State) (st : StoreSpec), s.isDet s.myPart = true → s.pushBank st = none →
         let pas := s.piecePas st.pieces
         let fig := maxOf (pas.map (fun e => lambdaOf (s.mult s.myPart) (clusterOf s.cur.1) e.2.1 e.2.2))
         let d := (s.takeSlots (pas.map (fun e => e.2))).1
         let t := s.startStore st [] 0
         t.mem = s.mem ∧ t.clusters = s.clusters ∧ t.cores = s.cores
           ∧ ∃ o late far entry, t.myP.ops = s.myP.ops ++ o :: late ∧ o.due = some (s.t + fig + d) ∧ o.core = s.cur.1
             ∧ o.ctx = s.cur.2 ∧ o.kind = .store (pas.flatMap (fun e => pieceBytes e.1 e.2.1)) far entry
             ∧ (d = 0 → late = []) ∧ ((∀ e ∈ pas, homeOf e.2.1 ≠ .gddr ∨ e.2.2 = 1) → d = 0))

/-- R205, R206: QST of a legal frame and scale, and QSTB of a legal frame and array word, complete when every guarded lane and
the block-scale byte pass their checks: the codes of R132 at their places, three cycles later than a plain store, and NF at t +
3. R105, R106, R109 to R112, R114, R130, R132: the code of a lane is the scaled lane rounded once, by SR with the draw of its
element, or, through the offset of its element, the candidate whose decoded value lies nearest; subnormals are honoured. -/
def Obligations.QuantisingStores : Prop :=
  (∀ (s : State) (fmt : BitVec 4) (fr : Frame) (addr : W64) (scale i : Nat) (v : Vec) (n : W64), 1 ≤ fmt.toNat → fmt.toNat ≤ 7 →
     scale ≤ 255 →
     let f := fmt4 fmt
     fr.index (qstAddr f addr i).1 (qstAddr f addr i).2 = some n →
     let e := s.quantCode ⟨f, fr, addr, scale⟩ v i
     let a := lane v i
     let sat := fmtSat s.me.csr.fmt
     let den := fmtDen s.me.csr.fmt
     let rm := fmtRm s.me.csr.fmt
     let d := fr.offsetFor den f n
     OffsetRule fr den f n ∧ EncodesNonFinite f sat scale a e
       ∧ (f32NonFinite a = false → scale < 255 →
         (d = 0 → rm ≠ .sr → EncodesRounded f rm sat scale a e)
         ∧ (d = 0 → rm = .sr →
           EncodesDrawn f sat ((mixh (if den then fr.seed else 0) ((fr.tag &&& 0xFFFFFFFF) + 0x100000000) n).toNat / 2 ^ 48) scale a e)
         ∧ (d ≠ 0 → EncodesDithered f rm sat d scale a e)))
  ∧ ∀ (s : State) (tt : TT) (qvs : BitVec 6) (qab : AReg) (am : Bool) (ofs : BitVec 9) (frame : BitVec 3) (fmt sc : BitVec 4)
    (se : Bool), s.anyLane tt = true → qvs.toNat < s.me.regs.qv.size → s.AccessRoom → 1 ≤ fmt.toNat → fmt.toNat ≤ 7 →
    let f := fmt4 fmt
    let inc := ofs.signExtend 64 * BitVec.ofNat 64 (4 * f.bits)
    let a := if am then s.qa qab else s.qa qab + inc
    let v := s.qv qvs
    let w := vget s.me.regs.sc sc.toNat 0
    let q := fun (scale : Nat) => (⟨f, s.frame frame.toNat, a, scale⟩ : Quant)
    let n := fun i => (s.frame frame.toNat).index (qstAddr f a i).1 (qstAddr f a i).2
    let code := fun scale i => s.quantCode (q scale) v i
    let spec := fun scale => (⟨(s.lanesOn tt).map (fun i => codePiece f a i (code scale i).code), if f.bits = 4 then 1 else f.bits / 8,
      none⟩ : StoreSpec)
    let after := fun scale more =>
      let r := (s.startStore (spec scale) more 3).nfLanes 3 6 (s.lanesOn tt) (fun i => s.on tt i && (code scale i).nf)
        (fmtNfte s.me.csr.fmt)
      if am = true ∧ s.lane0 tt = true then r.push64 1 (.qa qab.toNat) (s.qa qab + inc) else r
    (s.frame frame.toNat).valid f = true → (∀ i ∈ s.lanesOn tt, (n i).isSome = true) →
    (s.scaleOk se sc.toNat = true → s.StoreOk (spec (s.scale se sc.toNat)) →
        Runs (.qst tt qvs qab am ofs frame fmt sc se) s (after (s.scale se sc.toNat) []))
      ∧ (∀ n0, n 0 = some n0 → n0.toNat % 32 = 0 → scIsArray w = true → scLegal w = true →
        let e := (blockScale f (f32In false (amaxOf false v))).code
        let b : W64 := BitVec.ofNat 64 (scArrayAddr w + n0.toNat / 32)
        s.StoreOk (spec e) → s.Accessible .qw 1 (fun m _ => m.isScratch) b → s.Writable b 1 →
        Runs (.qstb tt qvs qab am ofs frame fmt sc) s (after e [⟨0, b, [(BitVec.ofNat 8 e, 0xFF)]⟩]))

/-- The checks of R197 that an atomic of n bytes at an address passes. -/
def AtomicOk (s : State) (a : W64) (n : Nat) : Prop :=
  s.Accessible .at_ n (fun m _ => m.isScratch) a ∧ s.Writable a n
    ∧ ∀ pa res, translate s.ranges .at_ a.toNat = .ok pa res → homeOf pa ≠ .host

/-- R192, R195 to R197, R207: an atomic that passes its checks completes: it takes the next TA number and goes on its way to its
home with lanes 1:0 or lane 0 of qvs as its value, and for ACAS lanes 3:2 or lane 2 as the new one. R207: what an atomic leaves
at its address, by opcode, for 4 and for 8 bytes. -/
def Obligations.Atomics : Prop :=
  (∀ (s : State) (tt : TT) (qvs qvd : BitVec 6) (qab : AReg) (ofs : BitVec 13) (sz : BitVec 1) (nr u : Bool),
     s.lane0 tt = true → qvs.toNat < s.me.regs.qv.size → (nr = false → qvd.toNat < s.me.regs.qv.size) → s.AccessRoom →
     let n := if sz = 1 then 8 else 4
     let a := s.qa qab + ofs.signExtend 64
     let q := lane (s.qv qvs)
     let v : W64 := if sz = 1 then q 1 ++ q 0 else (q 0).zeroExtend 64
     let new : W64 := if sz = 1 then q 3 ++ q 2 else (q 2).zeroExtend 64
     (AtomicOk s a n →
         Runs (.aadd tt qvs qvd qab ofs sz nr) s (s.startAtomic 0x10 n a false nr v new qvd)
           ∧ Runs (.amin tt qvs qvd qab ofs sz nr u) s (s.startAtomic 0x12 n a u nr v new qvd)
           ∧ Runs (.amax tt qvs qvd qab ofs sz nr u) s (s.startAtomic 0x13 n a u nr v new qvd)
           ∧ Runs (.aor tt qvs qvd qab ofs sz nr) s (s.startAtomic 0x14 n a false nr v new qvd)
           ∧ Runs (.aand tt qvs qvd qab ofs sz nr) s (s.startAtomic 0x15 n a false nr v new qvd)
           ∧ Runs (.axchg tt qvs qvd qab ofs sz nr) s (s.startAtomic 0x16 n a false nr v new qvd)
           ∧ Runs (.acas tt qvs qvd qab ofs sz nr) s (s.startAtomic 0x17 n a false nr v new qvd))
       ∧ (AtomicOk s a 4 → Runs (.afadd tt qvs qvd qab ofs nr) s
         (s.startAtomic 0x11 4 a false nr ((q 0).zeroExtend 64) ((q 2).zeroExtend 64) qvd)))
    ∧ (∀ (n : Nat) (u : Bool) (old v new : Nat), n = 4 ∨ n = 8 → old < 2 ^ (8 * n) → v < 2 ^ (8 * n) → new < 2 ^ (8 * n) →
         let so := (BitVec.ofNat (8 * n) old).toInt
         let sv := (BitVec.ofNat (8 * n) v).toInt
         atomicNew 0x10 n u old v new = (old + v) % 2 ^ (8 * n)
           ∧ (n = 4 → atomicNew 0x11 n u old v new = (f32Add false .rne (BitVec.ofNat 32 old) (BitVec.ofNat 32 v)).toNat)
           ∧ atomicNew 0x12 n true old v new = min old v ∧ atomicNew 0x13 n true old v new = max old v
           ∧ atomicNew 0x12 n false old v new = (if sv < so then v else old)
           ∧ atomicNew 0x13 n false old v new = (if so < sv then v else old)
           ∧ atomicNew 0x14 n u old v new = (old ||| v) ∧ atomicNew 0x15 n u old v new = (old &&& v)
           ∧ atomicNew 0x16 n u old v new = v ∧ atomicNew 0x17 n u old v new = (if old = v then new else old))

/-- R184, R187, R197, R208, R337: CONTRIB of a 64-byte line in GDDR under UU, and UARM of lines in GDDR under UU with a legal
word, complete: each takes the next TA number and is on its way to the line's update unit, CONTRIB with lanes 0 to 15 of qvs, or
16 to 31 with H. -/
def Obligations.UpdatesComplete : Prop :=
  ∀ (s : State) (tt : TT), s.lane0 tt = true →
    (∀ (qvs : BitVec 6) (qab qak : AReg) (ofs : BitVec 17) (h : Bool) (pa res : Nat), qvs.toNat < s.me.regs.qv.size → s.AccessRoom →
        let a := s.qa qab + ofs.signExtend 64
        a.toNat % 64 = 0 → translate s.ranges .uu a.toNat = .ok pa res → homeOf pa = .gddr → s.aliasHit a 64 = none →
        ∃ t o, Runs (.contrib tt qvs qab qak ofs h) s t ∧ t.myP.ops = s.myP.ops ++ [o] ∧ t.mem = s.mem
          ∧ (t.me.counter 3).taken = (s.me.counter 3).taken + 1
          ∧ o.kind = .contrib pa (s.qa qak).toNat ((List.range 16).map (fun i => lane (s.qv qvs) (i + if h then 16 else 0)))
            ((s.me.counter 3).taken + 1))
      ∧ ∀ (xa xb : XReg) (pa res : Nat),
        let a := s.me.xr xa
        let v := (s.me.xr xb).toNat
        let rs := v / 2 ^ 16 % 16
        a.toNat % 64 = 0 → 1 ≤ v % 2 ^ 16 → v % 2 ^ 16 ≤ 1024 → v / 2 ^ 20 % 2 ^ 12 = 0 → v / 2 ^ 48 = 0 → (s.myP.rule rs 0).toNat ≤ 1 →
        (∀ l ∈ s.myP.armLines rs a, ∃ pb rb, translate s.ranges .uu l.toNat = .ok pb rb ∧ homeOf pb = .gddr) →
        translate s.ranges .uu a.toNat = .ok pa res →
        ∃ t o, Runs (.uarm tt xa xb) s t ∧ t.myP.ops = s.myP.ops ++ [o] ∧ t.mem = s.mem
          ∧ (t.me.counter 3).taken = (s.me.counter 3).taken + 1
          ∧ o.kind = .arm pa (s.me.xr xa) ((s.me.xr xb).extractLsb' 0 16).toNat ((s.me.xr xb).extractLsb' 16 4).toNat
            ((s.me.xr xb).extractLsb' 32 16).toNat ((s.me.counter 3).taken + 1)

/-! ## Copies between register files -/

/-- R44, R86, R87: COPY, COPYB, COPYL and COPYP complete when lane 0's guard holds and their registers lie in their windows.
COPY writes a vector whole and a 64-bit register whole, COPYB lane 0 of its source in every lane, COPYL and COPYP 64 bits; both
descriptors read at issue and land at t + 2; an empty descriptor copies nothing. -/
def Obligations.CopiesComplete : Prop :=
  ∀ (s : State) (tt : TT) (c0 c1 : CopyDesc), s.lane0 tt = true → s.badCopy c0 c1 = [] →
    let x := s.me
    let src := fun (c : CopyDesc) => x.read (x.fileReg c.sf c.sr)
    let dst := fun (c : CopyDesc) => x.fileReg c.df c.dr
    let low : Vec := BitVec.ofNat 1024 (2 ^ 64 - 1)
    let whole := fun (c : CopyDesc) => if fileIsVector c.df then BitVec.allOnes 1024 else low
    let two := fun (m v : CopyDesc → Vec) => 
      let r := if c0.isEmpty then s else s.push 2 (dst c0) (m c0) (v c0)
      if c1.isEmpty then r else r.push 2 (dst c1) (m c1) (v c1)
    Runs (.copy tt c0 c1) s (two whole src)
      ∧ Runs (.copyb tt c0 c1) s (two (fun _ => BitVec.allOnes 1024) (fun c => vecOf (fun _ => lane (src c) 0)))
      ∧ Runs (.copyl tt c0 c1) s (two (fun _ => low) (fun c => src c &&& low))
      ∧ Runs (.copyp tt c0 c1) s (two (fun _ => low) (fun c => src c &&& low))

/-! ## The copy engine's commands -/

/-- R211 to R213, R216 to R218: a C-slot command whose words and extents pass every check is accepted while fewer than 16 of the
core wait: it captures its staging words and takes the next number of TC, or of TF for CSEND, CPULL and CRED. R211, R30, R32:
while 16 commands of the core wait, a C-slot command is not accepted: without a stamp the bundle waits, changing nothing. -/
def Obligations.CopyCommandsAccepted : Prop :=
  (∀ (s : State) (tt : TT) (k : BitVec 4) (rd : BitVec 2) (ha tr : Bool), s.lane0 tt = true → s.myCore.copies.length < 16 →
     let accepts := fun (opcode words rd : Nat) (ha tr : Bool) (i : Instr) =>
       s.copyFaults (s.command opcode k rd ha tr) = [] →
       ∃ t c, Runs i s t ∧ t.myCore.copies = s.myCore.copies ++ [c] ∧ t.mem = s.mem ∧ t.me.regs = s.me.regs
         ∧ c.opcode = opcode ∧ c.words = (List.range words).map (fun j => vget s.me.regs.ds (k.toNat + j) 0) ∧ c.rd = rd ∧ c.tr = tr
         ∧ c.accepted = s.t ∧ c.started = none ∧ c.id = s.nextId
         ∧ let n := if 8 ≤ opcode ∧ opcode ≤ 10 then 2 else 1
           c.number = (s.me.counter n).taken + 1 ∧ (t.me.counter n).taken = (s.me.counter n).taken + 1
     accepts 1 3 rd.toNat ha false (.cpy tt k rd ha) ∧ accepts 2 5 rd.toNat false false (.cpy2 tt k rd)
       ∧ accepts 3 6 rd.toNat false false (.cpyt tt k rd) ∧ accepts 4 4 rd.toNat false tr (.crdt tt k rd tr)
       ∧ accepts 5 5 rd.toNat false false (.cgat tt k rd) ∧ accepts 6 5 rd.toNat false false (.csct tt k rd)
       ∧ accepts 7 3 rd.toNat false false (.cfill tt k rd) ∧ accepts 8 4 rd.toNat ha false (.csend tt k rd ha)
       ∧ accepts 9 4 rd.toNat false false (.cpull tt k rd) ∧ accepts 10 4 0 false false (.cred tt k)
       ∧ accepts 11 1 0 false false (.bankset tt k))
    ∧ (∀ (s : State) (tt : TT) (k : BitVec 4) (rd : BitVec 2) (ha : Bool), s.lane0 tt = true → 16 ≤ s.myCore.copies.length →
         s.isDet s.myPart = false → Runs (.cpy tt k rd ha) s s ∧ Runs (.cfill tt k rd) s s ∧ Runs (.cred tt k) s s)

/-! ## The Grove -/

/-- The steps of R227 before the buffers that an append passes: its id is free, its operands are live, its words and shapes are
legal, and it pairs no integer with floating-point values. -/
def OperandsOk (s : State) (n : GNode) : Prop :=
  let ns := s.myCore.nodes
  let a := (findNode ns s.cur.2 n.na).getD n
  findNode ns s.cur.2 n.id = none ∧ (∀ id ∈ n.namedPreds, (liveNode ns s.cur.2 id).isSome = true)
    ∧ controlOk ns n a ((findNode ns s.cur.2 n.nb).getD a) = true
    ∧ operandsMix ns n a ((findNode ns s.cur.2 n.nb).getD a) = false

/-- Every step of R227 that an append passes. -/
def AppendOk (s : State) (n : GNode) : Prop :=
  OperandsOk s n ∧ (∀ e ∈ n.buffers, s.bufferFault e = none ∧ s.bufferAlias e = none) ∧ s.myCore.nodes.length < 64

/-- R221 to R228, R250: an append that passes the steps of R227 completes: the node stands last among the core's nodes, live,
with the staging words, FMT, FXHR and operands as they are at issue, and nothing computed. R227: the steps of an append's check,
first to last: an id in use is NODE_BUSY, the first operand that is no live node NODE_FAULT naming the operand, an illegal word or
shape BAD_CONTROL, R124: integer with floating-point operands ILLEGAL_ENCODING, the first buffer that fails its checks that fault,
a buffer that overlaps ALIAS_HAZARD with the first address; and GROVE_FULL where all else passes and 64 nodes stand. That BAD_CONTROL
comes before the mix of integer and floating-point, that of several buffers the first that fails is reported and of several overlaps
the lowest address, is read from R227's list (DEDUCED, log 47). -/
def Obligations.AppendsComplete : Prop :=
  (∀ (s : State) (tt : TT) (nd na nb : NodeId) (mk : BitVec 4) (b up unit tr : Bool) (kind : BitVec 2), s.lane0 tt = true →
     let appends := fun (opcode words fl : Nat) (na nb : NodeId) (i : Instr) =>
       let n := s.capturedNode ⟨opcode, nd, na, nb, fl, mk⟩
       AppendOk s n →
       Runs i s (s.onCore s.cur.1 (fun r => { r with nodes := r.nodes ++ [n] }))
         ∧ n.ctx = s.cur.2 ∧ n.id = nd.toNat ∧ n.opcode = opcode ∧ n.na = na.toNat ∧ n.nb = nb.toNat ∧ n.fl = fl
         ∧ n.words = (List.range words).map (fun j => vget s.me.regs.ms (mk.toNat + j) 0)
         ∧ n.fmt = s.me.csr.fmt ∧ n.fxhr = s.me.csr.fxhr ∧ n.done = [] ∧ n.dropped = false
     let two := fun (x y : Bool) => (if x then 1 else 0) + (if y then 2 else 0)
     appends 1 2 0 0 0 (.tdef tt nd mk) ∧ appends 2 2 (two b false) na nb (.tmul tt nd na nb mk b)
       ∧ appends 3 2 (two b false) na nb (.tmulb tt nd na nb mk b) ∧ appends 4 2 0 na nb (.tadd tt nd na nb mk)
       ∧ appends 5 3 0 na 0 (.tscal tt nd na mk) ∧ appends 6 3 (two b false) na 0 (.trot tt nd na mk b)
       ∧ appends 7 2 0 na 0 (.tview tt nd na mk) ∧ appends 8 2 0 na 0 (.tcvt tt nd na mk)
       ∧ appends 0x20 2 (two up unit + if tr then 4 else 0) na nb (.ttrsm tt nd na nb mk up unit tr)
       ∧ appends 0x21 3 (two b false) na 0 (.tlu tt nd na mk b) ∧ appends 0x22 2 0 na 0 (.tchol tt nd na mk)
       ∧ appends 0x23 3 0 na 0 (.tqr tt nd na mk) ∧ appends 0x24 2 kind.toNat na nb (.tapply tt nd na nb mk kind)
       ∧ appends 0x25 4 0 na nb (.tres tt nd na nb mk))
    ∧ (∀ (s : State) (n : GNode),
         let ns := s.myCore.nodes
         let find := fun (id : Nat) => ns.find? (fun m => m.ctx == s.cur.2 && m.id == id)
         let live := fun (id : Nat) => ∃ m, find id = some m ∧ m.dropped = false
         let known := find n.id = none ∧ ∀ id ∈ n.namedPreds, live id
         let a := (find n.na).getD n
         let b := (find n.nb).getD a
         let w := (n.word 1).toNat
         let fails := fun (code info : Nat) => s.appendFault n = some ⟨code, 4, 0, BitVec.ofNat 64 info⟩
         (find n.id ≠ none → fails 0x0B n.id)
           ∧ (∀ pre id post, find n.id = none → n.namedPreds = pre ++ id :: post → (∀ j ∈ pre, live j) → ¬ live id → fails 0x0C id)
           ∧ (known → controlOk ns n a b = false → fails 0x05 0)
           ∧ (known → n.opcode ≠ 7 → (2 ^ 60 ≤ w ∨ w % 2 ^ 13 = 0 ∨ 4096 < w % 2 ^ 13 ∨ w / 2 ^ 13 % 2 ^ 13 = 0
             ∨ 4096 < w / 2 ^ 13 % 2 ^ 13) → fails 0x05 0)
           ∧ (known → n.opcode = 2 → (dimsOf ns a).2 ≠ (dimsOf ns b).1 → fails 0x05 0)
           ∧ (known → controlOk ns n a b = true → operandsMix ns n a b = true → fails 0x01 0)
           ∧ (∀ pre e post f, OperandsOk s n → n.buffers = pre ++ e :: post → (∀ d ∈ pre, s.bufferFault d = none) →
             s.bufferFault e = some f → s.appendFault n = some f)
           ∧ (∀ e ∈ n.buffers, ∀ h, OperandsOk s n → (∀ d ∈ n.buffers, s.bufferFault d = none) → s.bufferAlias e = some h →
             (∀ d ∈ n.buffers, ∀ i, s.bufferAlias d = some i → h ≤ i) → fails 0x0D h)
           ∧ (OperandsOk s n → (∀ e ∈ n.buffers, s.bufferFault e = none ∧ s.bufferAlias e = none) → 64 ≤ ns.length → fails 0x0E 0)
           ∧ (s.appendFault n = none ↔ AppendOk s n))

/-- R222, R235 to R237: TFORCE of a region within a live node, TSTORE with a legal target whose rows and elements pass every
check, and TCB of an aligned codebook while no live leaf reads VQ8 enter the demand queue while fewer than 8 demands are open,
each with the next TM number. R242: TDROP of a live node that no live node names completes and the node is live no more; of an
id that names no live node it does nothing; of one that a live node names it raises NODE_BUSY, and the bundle does not issue. -/
def Obligations.DemandsComplete : Prop :=
  (∀ (s : State) (tt : TT) (nd : NodeId) (mk : BitVec 4), s.lane0 tt = true → s.myCore.openDemands.length < 8 →
     let ns := s.myCore.nodes
     let accepted := fun (opcode words node : Nat) (i : Instr) =>
       ∃ t d, Runs i s t ∧ t.myCore.demands = s.myCore.demands ++ [d] ∧ t.mem = s.mem ∧ t.me.regs = s.me.regs ∧ d.opcode = opcode
         ∧ d.node = node ∧ d.words = (List.range words).map (fun j => vget s.me.regs.ms (mk.toNat + j) 0) ∧ d.accepted = s.t
         ∧ d.tm = (s.me.counter 0).taken + 1 ∧ (t.me.counter 0).taken = (s.me.counter 0).taken + 1
     let f := s.capturedDemand 0x10 nd mk
     let g := s.capturedDemand 0x11 nd mk
     let word := vget s.me.regs.ms mk.toNat 0
     ((liveNode ns s.cur.2 nd.toNat).isSome = true → f.regionOk ns = true → accepted 0x10 1 nd.toNat (.tforce tt nd mk))
       ∧ ((liveNode ns s.cur.2 nd.toNat).isSome = true → g.regionOk ns = true → g.targetOk = true →
         (∀ e ∈ g.targetRows, s.extentFaults 4 .mw false e = [] ∧ s.extentAlias 4 e = []) → g.targetFrameFaults = [] →
         accepted 0x11 3 nd.toNat (.tstore tt nd mk))
       ∧ (word.toNat % 64 = 0 → s.extentFaults 4 .mr false (word.toNat, 1024) = [] →
         (∀ n ∈ ns, n.dropped = false → n.opcode = 1 → n.format ≠ .vq8) → accepted 9 1 0 (.tcb tt mk)))
    ∧ (∀ (s : State) (tt : TT) (nd : NodeId), s.lane0 tt = true →
         let ns := s.myCore.nodes
         let live := liveNode ns s.cur.2 nd.toNat
         let named := ∃ m ∈ ns, m.ctx = s.cur.2 ∧ m.dropped = false ∧ nd.toNat ∈ m.preds
         (live = none → Runs (.tdrop tt nd) s s)
           ∧ (live ≠ none → ¬ named → ∃ t, Runs (.tdrop tt nd) s t ∧ liveNode t.myCore.nodes s.cur.2 nd.toNat = none ∧ t.mem = s.mem
             ∧ t.me = s.me)
           ∧ (live ≠ none → named → Runs (.tdrop tt nd) s (s.takeFault s.cur.1 s.cur.2 ⟨0x0B, 4, 0, nd.zeroExtend 64⟩ s.me.pc)))

/-! ## The Y slot -/

/-- R268: WADD writes target and counter id at t + 1, the target from the counter's value, its numbers taken or X[xa]; TLINC's
increment of the context's own TS is due at t + 2, that of TLINC.c at core scope at the later of t + 2 and its release. -/
def Obligations.CounterOps : Prop :=
  ∀ (s : State) (tt : TT) (wi ctr : BitVec 3) (yk : BitVec 6) (xa : XReg), s.lane0 tt = true →
    let x := s.me
    let add := fun (v : W64) => (s.push64 1 (.wt wi.toNat) v).push64 1 (.wc wi.toNat) (ctr.zeroExtend 64)
    Runs (.wadd tt wi ctr 0 yk) s (add (BitVec.ofNat 64 ((x.counter ctr.toNat).value + yk.toNat)))
      ∧ Runs (.wadd tt wi ctr 1 yk) s (add (BitVec.ofNat 64 ((x.counter ctr.toNat).taken + yk.toNat)))
      ∧ Runs (.wadd tt wi ctr 2 yk) s (add (x.xr yk))
      ∧ Runs (.tlinc tt yk) s (s.addOp s.myPart (some (s.t + 2)) s.cur.1 s.cur.2 s.t (.tsInc s.cur.2 yk.toNat false))
      ∧ Runs (.tlincC tt xa yk) s (s.addOp s.myPart (some (max (s.t + 2) (max (s.t + 1) (s.wd s.cur.1 s.cur.2 true)))) s.cur.1
        s.cur.2 s.t (.tsInc ((x.xr xa).extractLsb' 0 3).toNat yk.toNat true))

/-- R270 to R272: in DET the fences, DRAIN, FLUSH and INVAL complete and hold the context's next bundle until the cycle of
R271's table; a range of 2^32 bytes or more is BAD_CONTROL. -/
def Obligations.FencesHold : Prop :=
  ∀ (s : State) (tt : TT) (xa xb : XReg), s.lane0 tt = true → s.isDet s.myPart = true →
    let k := s.cur.1
    let c := s.cur.2
    let all := 16 + 4 * (8192 * (cacheWays (s.cluster (clusterOf k))).length) + 90 * s.mult s.myPart
    let a := (s.me.xr xa).toNat
    let n := (s.me.xr xb).toNat
    let lines := if n = 0 then 0 else (a + n - 1) / 64 - a / 64 + 1
    let till := fun (i : Instr) (cy : Nat) => ∃ t h, Runs i s t ∧ t.me = { s.me with hold := some h } ∧ h.till = cy ∧ t.mem = s.mem
    let d := fun noHost => max (s.t + 1) (s.wd k c noHost)
    let l := max (s.t + 1) (s.ld k c)
    till (.drain tt) (d false)
      ∧ till (.fenceRel tt 0) (s.t + 1) ∧ till (.fenceRel tt 1) (d true) ∧ till (.fenceRel tt 2) (d true)
      ∧ till (.fenceRel tt 3) (d true + all) ∧ till (.fenceRel tt 4) (d false + all)
      ∧ till (.fenceAcq tt 0) (s.t + 1) ∧ till (.fenceAcq tt 1) l ∧ till (.fenceAcq tt 2) l ∧ till (.fenceAcq tt 3) (l + all)
      ∧ till (.fenceAcq tt 4) (l + all) ∧ till (.flushAll tt) (s.t + all) ∧ till (.invalAll tt) (s.t + all)
      ∧ (n < 2 ^ 32 → till (.flush tt xa xb) (s.t + 16 + 4 * lines + 90 * s.mult s.myPart)
          ∧ till (.inval tt xa xb) (s.t + 16 + 4 * lines + 90 * s.mult s.myPart))
      ∧ (2 ^ 32 ≤ n → Runs (.flush tt xa xb) s (s.takeFault k c ⟨0x05, 0, 0, 0⟩ s.me.pc)
          ∧ Runs (.inval tt xa xb) s (s.takeFault k c ⟨0x05, 0, 0, 0⟩ s.me.pc))

/-- The group object that an id names: live, of the id's generation (R62). -/
def Names (s : State) (id : W64) (i : Nat) : Prop :=
  id.toNat < 2 ^ 32 ∧ i = id.toNat % 4096 ∧ (s.myP.group i).live = true ∧ (s.myP.group i).gen.toNat = id.toNat / 4096

/-- The context is a member of a group object. -/
def Member (s : State) (i : Nat) : Prop := (s.myP.group i).has s.cur.1 s.cur.2 = true

/-- R62 to R65: with an id that names a group, the group operations complete. JOIN makes a non-member with fewer than 8
memberships a member; GFREE of a group without members frees it and steps its generation; LEAVE of a member, and BAR and ARRIVE
of a member that has not arrived, put an arrival in flight, and BAR takes the next TG number; JOIN of a member and LEAVE of a
non-member change nothing. R61, R63: GNEW completes. While an object is free one becomes live, without members and at phase 0,
and its id lands in X[xd] at t + 8; with none free all ones do. Which free object is taken is the model's free choice (log 10).
R62 to R65, R286: an id that names no group raises GROUP_FAULT with the id and the opcode and changes no group; so do BAR and
ARRIVE of a non-member, a ninth membership, and GFREE of a group with members; BAR takes its TG number then too. -/
def Obligations.GroupOps : Prop :=
  (∀ (s : State) (tt : TT) (xg : XReg) (scope : BitVec 3) (i : Nat), s.lane0 tt = true → Names s (s.me.xr xg) i →
     let arrives := fun (leave : Bool) (t : State) => ∃ o ph tail, t.myP.ops = s.myP.ops ++ [o]
       ∧ o.kind = .arrival i leave scope.toNat ph tail
     (Member s i → Runs (.join tt xg) s s
         ∧ (∃ t, Runs (.leave tt xg scope) s t ∧ arrives true t ∧ t.me = s.me)
         ∧ (s.hasArrived s.cur.1 s.cur.2 i = false →
           (∃ t, Runs (.arrive tt xg scope) s t ∧ arrives false t ∧ t.me = s.me)
           ∧ ∃ t, Runs (.bar tt xg scope) s t ∧ arrives false t ∧ (t.me.counter 4).taken = (s.me.counter 4).taken + 1
             ∧ t.me.regs = s.me.regs))
       ∧ (¬ Member s i → Runs (.leave tt xg scope) s s
         ∧ (s.me.groups.length < 8 → ∃ t, Runs (.join tt xg) s t ∧ Member t i ∧ t.me = { s.me with groups := s.me.groups ++ [i] }))
       ∧ ((s.myP.group i).members = [] → ∃ t, Runs (.gfree tt xg) s t ∧ (t.myP.group i).live = false
         ∧ (t.myP.group i).gen = (s.myP.group i).gen + 1 ∧ t.me = s.me))
    ∧ (∀ (s : State) (tt : TT) (xg : XReg), s.lane0 tt = true →
         ((∃ i, i < 4096 ∧ (s.myP.group i).live = false) → ∃ t i, Runs (.gnew tt xg) s t ∧ i < 4096 ∧ (s.myP.group i).live = false
             ∧ (t.myP.group i).live = true ∧ (t.myP.group i).members = [] ∧ (t.myP.group i).phase = 0
             ∧ ∃ w, t.me = { s.me with pend := s.me.pend ++ [w] } ∧ w.land = s.t + 8 ∧ w.dest = s.me.xDest xg.toNat
               ∧ w.value = toVec (BitVec.ofNat 64 (i + 4096 * (s.myP.group i).gen.toNat)))
           ∧ ((∀ i, i < 4096 → (s.myP.group i).live = true) → Runs (.gnew tt xg) s (s.pushX 8 xg (BitVec.allOnes 64))))
    ∧ (∀ (s : State) (tt : TT) (xg : XReg) (scope : BitVec 3), s.lane0 tt = true → s.me.st = .bound → s.ctx? s.cur.1 s.cur.2 ≠ none →
         let id := s.me.xr xg
         let faults := fun (opcode : Nat) (j : Instr) => ∃ t e, Runs j s t ∧ t.parts = s.parts
           ∧ t.me = { s.me with traps := s.me.traps ++ [e] } ∧ e.code = 0x87 ∧ e.tinfo = BitVec.ofNat 32 opcode ++ id.extractLsb' 0 32
         let bars := ∃ t e, Runs (.bar tt xg scope) s t ∧ t.parts = s.parts ∧ t.me.traps = s.me.traps ++ [e] ∧ e.code = 0x87
           ∧ e.tinfo = (BitVec.ofNat 32 0x0C ++ id.extractLsb' 0 32 : W64) ∧ t.me.regs = s.me.regs ∧ t.me.groups = s.me.groups
           ∧ (t.me.counter 4).taken = (s.me.counter 4).taken + 1
         ((¬ ∃ i, Names s id i) → faults 0x08 (.join tt xg) ∧ faults 0x09 (.leave tt xg scope) ∧ faults 0x0B (.gfree tt xg)
             ∧ bars ∧ faults 0x0D (.arrive tt xg scope))
           ∧ ∀ i, Names s id i →
             (¬ Member s i → bars ∧ faults 0x0D (.arrive tt xg scope)
               ∧ (8 ≤ s.me.groups.length → faults 0x08 (.join tt xg)))
             ∧ ((s.myP.group i).members ≠ [] → faults 0x0B (.gfree tt xg)))

/-- R280, R281: the first SIGNAL of a task puts its signal in flight, due once its writes have performed; a second has no
effect. SUBMIT of an aligned, readable packet to a queue of the partition, enabled with SRC 1, with a free slot takes the next TQ
number; its packet waits for a release at package scope. R188: ARMCTX completes. Where a context of the core is FREE and the
windows of the task fit, the lowest such context is ARMED and its number lands in X[xd] at t + 8; else all ones land and nothing is
armed. -/
def Obligations.TaskOperations : Prop :=
  (∀ (s : State) (tt : TT) (xa xb : XReg), s.lane0 tt = true →
     (s.me.task.signalled = true → Runs (.signal tt) s s)
       ∧ (s.me.task.signalled = false → ∃ t o, Runs (.signal tt) s t ∧ t.myP.ops = s.myP.ops ++ [o]
         ∧ o.due = some (max (s.t + 1) (s.wd s.cur.1 s.cur.2 false)) ∧ o.kind = .signal s.me.task.launch s.me.task.index
         ∧ t.me.task.signalled = true ∧ t.mem = s.mem)
       ∧ (∀ pa res,
         let n := (s.me.xr xb).toNat
         let q := s.queue n
         let a := (s.me.xr xa).toNat
         n < 32768 → q.en = true → q.src = true → q.part.toNat = s.myPart → a % 64 = 0 → translate s.ranges .lr a = .ok pa res →
         (q.tail - q.head).toNat + s.submitsTo s.myPart n < 2 ^ q.n.toNat →
         ∃ t o, Runs (.submit tt xa xb) s t ∧ t.myP.ops = s.myP.ops ++ [o] ∧ o.due = some (s.releaseAt s.cur.1 s.cur.2 3).1.1
           ∧ o.kind = .submit (s.me.xr xb).toNat (s.me.xr xa) ((s.me.counter 7).taken + 1) false (s.releaseAt s.cur.1 s.cur.2 3).1.2
           ∧ (t.me.counter 7).taken = (s.me.counter 7).taken + 1 ∧ t.mem = s.mem))
    ∧ (∀ (s : State) (tt : TT) (xd : XReg), s.lane0 tt = true → s.ctx? s.cur.1 s.cur.2 ≠ none →
         (∀ c bases, c < 8 → s.ctx? s.cur.1 c = none → (∀ d, d < c → s.ctx? s.cur.1 d ≠ none) → s.myCore.fit s.me.task.win = some bases →
             ∃ t, Runs (.armctx tt xd) s t ∧ (∃ x, t.ctx? s.cur.1 c = some x ∧ x.st = .armed
                 ∧ x.owner = some s.me.task.uid)
               ∧ ∃ w, t.me = { s.me with pend := s.me.pend ++ [w] } ∧ w.land = s.t + 8 ∧ w.dest = s.me.xDest xd.toNat
                 ∧ w.value = BitVec.ofNat 1024 c)
           ∧ ((∀ c, c < 8 → s.ctx? s.cur.1 c ≠ none) ∨ s.myCore.fit s.me.task.win = none →
             Runs (.armctx tt xd) s (s.pushX 8 xd (BitVec.allOnes 64))))


/-! ## Bundles, traps, writes in flight -/

/-- A context has entered its handler at pc, with traps masked, EPC written and the snapshot buffer its own. -/
def InHandler (t : State) (k c : Nat) (pc epc : W64) : Prop :=
  (t.ctx k c).st = .handler ∧ (t.ctx k c).pc = pc ∧ (t.ctx k c).masked = true ∧ (t.ctx k c).csr.epc = epc
    ∧ ∃ es, (t.core k).snap = some ⟨c, es⟩

/-- R19, R37: the header of 64 bytes of code, and those that no state makes legal: GAP 0, FORM 2 to 15, and FORM 1 with STOP, HOST,
PRE or YIELD. What stands at a PC inside the code range is the bundle that its bytes decode to, or an illegal encoding. -/
def HeaderFates : Prop :=
  (∀ w : BitVec 512,
     let bad := ∃ e, decode (bundleBytes w) = .error e
     let flags := w.getLsbD 28 || w.getLsbD 29 || w.getLsbD 30 || w.getLsbD 31
     (w.extractLsb' 0 8 = 0 → bad) ∧ (2 ≤ (w.extractLsb' 32 4).toNat → bad) ∧ (w.extractLsb' 32 4 = 1 → flags = true → bad)
       ∧ ∀ b, decode (bundleBytes w) = .ok b → b.hdr = ⟨w.extractLsb' 0 8, w.extractLsb' 8 4, w.extractLsb' 12 4, w.extractLsb' 16 4,
         w.extractLsb' 20 8, w.getLsbD 28, w.getLsbD 29, w.getLsbD 30, w.getLsbD 31, w.extractLsb' 32 4⟩)
    ∧ ∀ (s : State) (k c : Nat) (x : Ctx) (bs : List Byte), s.ctx? k c = some x → x.targetOk x.pc = true →
      s.codeBytes (s.partOf k) x.pc.toNat = some bs →
      (∀ b, decode bs = .ok b → s.fetch k c = .bundle b) ∧ ((∃ e, decode bs = .error e) → ∃ g n, s.fetch k c = .illegal g n)

/-- A write in flight that R31 holds a bundle for: due later to a register that the bundle reads, or not before the bundle's own to one
that it writes. -/
def Conflicts (v : State) (b : Bundle) (w : Write) : Prop :=
  (v.t < w.land ∧ ∃ d, (d ∈ headerReads b.hdr ∨ ∃ f ∈ v.acting b, d ∈ (f.use v).reads) ∧ d.name = w.dest.name)
    ∨ ∃ f ∈ v.acting b, ∃ e, (e ∈ (f.use v).writes ∨ e ∈ (f.use v).also) ∧ e.1 = w.dest ∧ v.t + e.2 ≤ w.land

/-- R26, R30: a boundary is GAP cycles after the bundle before; R28, R34 to R37, R42: the bundles that are illegal by what they hold
together or by the mode and the group they meet; R30 to R32: which waits, holds and engines keep a bundle from issuing, and with which
OVCAUSE bits; R16, R18: who has the issue slot. For the holds of R31 the writes in flight come of the core's own slots, and the bundle
closes its group; those of loads and atomics come besides. -/
def IssueRules : Prop :=
  ∀ (s : State) (k c : Nat) (x : Ctx) (b : Bundle), s.ctx? k c = some x → s.fetch k c = .bundle b →
    let p := s.partOf k
    let cy := s.cyc p
    let r := s.core k
    let v := s.atIssue k c b
    let named := (bundleForms b).flatMap (fun f => (f.use v).writes.map (fun w => w.1.name))
    let engines := ∀ f ∈ v.acting b, (f.sem v).holds = 0
    let entries := ((v.acting b).map (fun f => (f.sem v).aq)).foldl (· + ·) 0
    let free := s.mayUse k c = true ∧ s.forceDue k c = false
    let reached := s.atBoundary k c = true ∧ (s.stamped k c = true
      ∨ (s.stamped k c = false ∧ free ∧ s.contextHolds k c = 0 ∧ v.bundleHolds x b = 0))
    let taken := (∃ d, r.run = some d ∧ d ≠ c) ∨ r.lastIssueCycle = some cy
      ∨ (r.run = none ∧ ∃ d y, d < c ∧ s.ctx? k d = some y ∧ y.st = .bound ∧ y.live = true ∧ s.boundary k d ≤ cy)
    (∀ u, x.lastIssue = some u → (cy < u + b.hdr.gap.toNat → s.verdict k c = .nothing)
        ∧ (u + b.hdr.gap.toNat ≤ cy → x.live = true → x.traps = [] → (∀ w ∈ x.pend, w.trap = none) → s.atBoundary k c = true))
      ∧ (reached → (∀ f ∈ bundleForms b, (f.sem v).faults = []) →
        ((b.hdr.form = 1 ∧ x.st = .bound) ∨ (b.hdr.form = 0 ∧ x.st = .handler) ∨ ¬ named.Nodup
          ∨ (0 < x.group.bundles ∧ ∃ d ∈ v.bundleReads b, d.name ∈ x.group.written) ∨ (15 ≤ x.group.bundles ∧ b.hdr.stop = true)
          ∨ ((∃ i, b.v0 = some i ∧ divides i = true) ∧ ∃ i, b.v1 = some i ∧ divides i = true)) →
        ∃ f, s.verdict k c = .fault f ∧ f.code = 0x01)
      ∧ (s.atBoundary k c = true → v.bundleFaults b = [] →
        (x.replay = none → x.pending = [] → (∀ w ∈ x.pend, w.src = .core ∧ w.trap = none) → b.hdr.stop = false → engines → ∃ m, m < 16
          ∧ (m.testBit 0 = true ↔ ∃ i, i < 8 ∧ b.hdr.wait.getLsbD i = true
            ∧ (v.me.counter (vget v.me.regs.wc i 0).toNat).value < (vget v.me.regs.wt i 0).toNat)
          ∧ (m.testBit 1 = true ↔ v.me.il = true ∧ x.group.bundles = 0 ∧ ∃ w ∈ x.pend, Conflicts v b w)
          ∧ (m.testBit 2 = true ↔ x.lateLoad cy = true ∨ v.starves b.hdr = true ∨ (entries ≠ 0 ∧ 64 < v.accessEntries k + entries))
          ∧ (m.testBit 3 = true ↔ x.hold ≠ none)
          ∧ (s.stamped k c = true → ((m = 0 ∧ ¬ taken) → s.verdict k c = .issues b) ∧ (m ≠ 0 → ¬ taken → s.verdict k c = .late m)
            ∧ (taken → s.verdict k c = .late (m + 16)))
          ∧ (s.stamped k c = false → free → (m = 0 → s.verdict k c = .issues b) ∧ (m ≠ 0 → s.verdict k c = .held)))
        ∧ ∀ f ∈ v.acting b, (f.sem v).holds ≠ 0 →
          (s.stamped k c = true → ∃ m, s.verdict k c = .late m ∧ m &&& (f.sem v).holds = (f.sem v).holds)
            ∧ (s.stamped k c = false → free → s.verdict k c = .held))
      ∧ (s.isDet p = false → (∀ d, r.run = some d → d ≠ c → s.verdict k c = .nothing)
        ∧ (r.run = none → s.verdict k c ≠ .nothing → ∀ d, c < 8 → d < 8 → s.ctx? k d ≠ none → s.eligible k d = true →
          (x.st = .handler ∨ ((s.ctx k d).st ≠ .handler ∧ (c + 15 - r.lastYield % 8) % 8 ≤ (d + 15 - r.lastYield % 8) % 8))))

/-- R27, R28, R32, R285, R287: what a context's cycle brings. A bundle that may issue issues; a held one changes no context; one
with an issue fault, and one that cannot issue at its stamp, enter the task's handler with TCAUSE, TINFO, EPC and, for the second,
OVSTAMP and OVCAUSE written; a write whose cycle has come lands and is in flight no more. R16, R18, R30, R31, R34, R35, R37: when
a bundle may issue, and which bundles are illegal. -/
def Obligations.BundleEvents : Prop :=
  HeaderFates ∧ IssueRules ∧ ∀ (s : State) (k c : Nat) (x : Ctx), s.ctx? k c = some x →
    let cy := s.cyc (s.partOf k)
    let traps := fun (i : Instr) (pc cause info : W64) (ov : State → Prop) =>
      ∃ t, Runs i s t ∧ InHandler t k c pc x.pc ∧ (t.ctx k c).csr.tcause = cause ∧ (t.ctx k c).csr.tinfo = info ∧ t.mem = s.mem ∧ ov t
    (∀ b, s.verdict k c = .issues b → Runs (.bundleIssue k c) s (s.issueBundle k c b))
      ∧ (s.verdict k c = .held → ∃ t, Runs (.bundleIssue k c) s t ∧ t.ctx? k c = some x ∧ t.mem = s.mem ∧ t.parts = s.parts)
      ∧ (∀ pc, x.st = .bound → x.task.handlerPc = some pc → (s.core k).snap = none →
        (∀ f, s.verdict k c = .fault f → traps (.bundleIssue k c) pc (tcauseOf x.cl f.lane f.slot f.code) f.tinfo (fun _ => True))
        ∧ ∀ cause, s.padMissed k c = none → s.verdict k c = .late cause →
          traps (.scheduleOverrun k c) pc (tcauseOf x.cl 0 15 0x81) 0 (fun t =>
            (t.ctx k c).csr.ovcause = BitVec.ofNat 8 cause ∧ (t.ctx k c).csr.ovstamp = BitVec.ofNat 64 (cy - x.sfc0.getD cy)))
      ∧ (∀ w ∈ x.pend, w.lands cy = true → ∃ t y, Runs (.resultLands k c) s t ∧ t.ctx? k c = some y
        ∧ y.pend = x.pend.filter (fun v => !v.lands cy) ∧ t.mem = s.mem)
      ∧ (∀ w, x.landing cy = [w] → w.trap = none → Runs (.resultLands k c) s
        (s.setCtx k c (Ctx.landWrite { x with pend := x.pend.filter (fun v => !v.lands cy) } w.dest w.mask w.value)))

/-- R285, R288, R289, R293, R294, R296 to R299: a boundary of a BOUND context, and any cycle of a CLOSING one, with completion traps
pending takes one of those pending, or a NONFINITE whose flag lands now (R79), of the lowest code: with a handler, and the snapshot
buffer free, it enters the handler, of a CLOSING context with CL set and EPC 0; without one it is CLOSING, its loops closed, and its
launch fails as TRAP. A context that waits for the buffer enters its handler when it is free. A forced pre-emption takes the buffer
with traps masked, and gives up the issue slot while another context holds it; a request to pre-empt records its cycle and the save area, of a context that has one already nothing. -/
def Obligations.TrapEvents : Prop :=
  ∀ (s : State) (k c : Nat) (x : Ctx), s.ctx? k c = some x →
    let p := s.partOf k
    let cl := x.cl || x.st == .closing
    (∀ u ∈ x.traps, s.mayTrap k c = true → x.st = .bound ∨ x.st = .closing → x.preempt.hasLanded = false → (s.core k).snap = none →
        ∃ (t : State) (e : PendTrap), Runs (.trapEntry k c) s t
          ∧ (e ∈ x.traps ∨ e.code = 0x86 ∧ ∃ w ∈ x.pend, w.lands (s.cyc p) = true ∧ w.trap = some (e.slot, e.lane))
          ∧ (∀ v ∈ x.traps, e.code ≤ v.code) ∧ t.mem = s.mem
          ∧ (t.ctx k c).csr.tcause = tcauseOf cl e.lane e.slot e.code ∧ (t.ctx k c).csr.tinfo = e.tinfo
          ∧ (∀ pc, x.task.handlerPc = some pc → InHandler t k c pc (if x.st = .closing then 0 else x.pc) ∧ (t.ctx k c).cl = cl)
          ∧ (x.task.handlerPc = none → (t.ctx k c).st = .closing ∧ (x.st = .bound → (t.ctx k c).levels = [])
            ∧ ∀ l ∈ (s.part p).launches, l.number = x.task.launch → l.status = 0 →
              ∃ m ∈ (t.part p).launches, m.number = l.number ∧ m.status = 1 ∧ m.failCause = (t.ctx k c).csr.tcause))
      ∧ (∀ e pc, x.waitSnap = some e → x.task.handlerPc = some pc → (s.core k).snap = none →
        ∃ t, Runs (.snapshotBufferGained k c) s t ∧ InHandler t k c pc e.epc ∧ (t.ctx k c).csr.tcause = e.tcause ∧ t.mem = s.mem)
      ∧ (s.forceDue k c = true → s.atBoundary k c = true → (s.core k).snap = none →
        ∃ t, Runs (.forcedPreemption k c) s t ∧ (t.ctx k c).preempt = .landed true ∧ (t.ctx k c).masked = true
          ∧ (∃ es, (t.core k).snap = some ⟨c, es⟩) ∧ (t.ctx k c).regs = x.regs ∧ t.mem = s.mem)
      ∧ (s.forceDue k c = true → s.atBoundary k c = true → (s.core k).snap ≠ none → (s.core k).run = some c →
        ∃ t, Runs (.forcedPreemption k c) s t ∧ (t.core k).run = none ∧ t.ctx? k c = some x ∧ (t.core k).snap = (s.core k).snap
          ∧ t.mem = s.mem)
      ∧ ∀ area, (x.st = .bound ∨ x.st = .handler → x.preempt = .idle → Runs (.preemptRequest k c area) s
          (s.setCtx k c { x with preempt := .requested (s.cyc p), task := { x.task with saveArea := area } }))
        ∧ (x.preempt ≠ .idle → Runs (.preemptRequest k c area) s s)

/-! ## Memory operations that come to their cycle -/

/-- An operation in flight of a partition whose cycle has come. -/
def Comes (s : State) (p : Nat) (o : Op) : Prop := s.op? p o.id = some o ∧ ∃ d, o.due = some d ∧ d ≤ s.cyc p

/-- R198 to R201, R204, R207: the data of a load, and of an LDC with its TA number, reach the write that waits for them, as what it has
read of its places stands by then (R387; DESIGN CHOICE, log 5), and a line that its miss brought in holds them; of a place that
another cluster's bank refuses the load gets no bit, and BANK_MODE names that address (R177). A store into
banks in SCRATCH, as an access of its issue cycle sees them, leaves its bytes there, and one to GDDR leaves what its core reads,
where no earlier store of its context to a remote byte of its own is undrained (R209, R387; DESIGN CHOICE, log 5). An atomic leaves
the value of R207 at its home; the old value lands with its TA number. R175: a pop takes the oldest entry and waits before an empty
bank; a push that finds room enters behind the entries. -/
def Obligations.MemoryEvents : Prop :=
  ∀ (s : State) (p : Nat) (o : Op),
    let away := s.dropOp p o.id
    (Comes s p o →
        (∀ wid ta rs, o.kind = .value wid ta rs → (∀ r ∈ rs, s.remoteRefused o.core r = false) →
          let t := (away.fillValue o.core o.ctx wid (valueOf rs) (readMask rs) (s.cyc p)).onCluster (clusterOf o.core)
            (fun x => fillClean x (rs.flatMap Reading.filled))
          (ta = 0 → Runs (.loadValueLands p o.id) s t) ∧ (ta ≠ 0 → Runs (.ldcLands p o.id) s (t.complete o.core o.ctx 3 ta)))
        ∧ (∀ wid ta rs, o.kind = .value wid ta rs → ∃ t, t.mem = s.mem
          ∧ Runs (if ta = 0 then .loadValueLands p o.id else .ldcLands p o.id) s t
          ∧ (∀ c, c ≠ clusterOf o.core ∨ (∀ r ∈ rs, r.fill = false) → t.cluster c = s.cluster c)
          ∧ ∀ pre r post x, rs = pre ++ r :: post → (∀ q ∈ pre, s.remoteRefused o.core q = false) →
            s.remoteRefused o.core r = true → s.ctx? o.core o.ctx = some x → (o.handler && x.st == .handler && x.masked) = false →
            ∃ e ∈ (t.ctx o.core o.ctx).traps, e.code = 0x82 ∧ e.tinfo = r.va ∧ e.lane = r.lane)
        ∧ (∀ bs far e, o.kind = .store bs far e → ∃ t, Runs (.storePerforms p o.id) s t)
        ∧ (∀ bs, o.kind = .store bs [] none →
          (∀ b ∈ bs, ∃ m off, s.bankAt b.pa = some (m, off) ∧ m.isScratch = true) →
          (∀ b ∈ bs, s.takesFrom (clusterOf o.core) o.issued b.pa = true ∧ s.reorders p o b.pa = false) →
          ∃ t, Runs (.storePerforms p o.id) s t ∧ t.mem = memWrite s.mem bs ∧ ∀ c, t.cluster c = s.cluster c)
        ∧ (∀ bs, o.kind = .store bs [] none → s.Inv → (∀ b ∈ bs, homeOf b.pa = .gddr ∧ b.mask = 0xFF) → (bs.map (fun b => b.pa)).Nodup →
          (∀ b ∈ bs, s.reorders p o b.pa = false) →
          ∃ t, Runs (.storePerforms p o.id) s t ∧ ∀ b ∈ bs, t.coreByte o.core b.pa = b.val)
        ∧ (∀ opc n pa va u nr v new wid ta, o.kind = .atomic opc n pa va u nr v new wid ta → ∃ t, Runs (.atomicPerforms p o.id) s t
          ∧ (s.storeRefused o.core pa = false → isOwnSram (clusterOf o.core) pa = false →
            let m := 2 ^ (8 * n)
            t.mem = memWrite s.mem (bytesAt pa (bytesOf n
              (atomicNew opc n u (natOfBytes (memBlock s.mem pa n)) (v.toNat % m) (new.toNat % m))))))
        ∧ ∀ wid ta v, o.kind = .oldValue wid ta v → Runs (.atomicPerforms p o.id) s
          ((away.fillValue o.core o.ctx wid v (maskAt 0 1024) (s.cyc p)).complete o.core o.ctx 3 ta))
      ∧ (s.reachedOp p o.id = some o →
        (∀ c b wid ta at_ m, o.kind = .pop c b wid ta at_ m →
          (s.fifoEntries c b = [] → ∃ t, Runs (.fifoPopServed p o.id) s t ∧ t.clusters = s.clusters ∧ t.mem = s.mem ∧ t.cores = s.cores)
          ∧ ∀ e es, s.fifoEntries c b = e :: es → s.nextAtBank p o (fun q => q.popsBank c b) = true →
            ∃ t, Runs (.fifoPopServed p o.id) s t ∧ t.fifoEntries c b = es ∧ t.mem = s.mem)
        ∧ ∀ c b va es copy, o.kind = .push c b va es copy →
          (s.fifoFor (clusterOf o.core) o.issued c b = true → s.nextAtBank p o (fun q => q.pushesBank c b) = true →
            (s.fifoEntries c b).length + es.length ≤ 4096 →
            ∃ t, Runs (.fifoPushEnters p o.id) s t ∧ t.fifoEntries c b = s.fifoEntries c b ++ es ∧ t.mem = s.mem
              ∧ (o.due ≠ none ∨ copy ≠ none → t.cores = s.cores))
          ∧ (s.fifoFor (clusterOf o.core) o.issued c b = false → c = clusterOf o.core → o.due ≠ none ∨ copy ≠ none →
            Runs (.fifoPushEnters p o.id) s away))

/-! ## Engines -/

/-- The byte at a virtual address as an engine of a core reads it: translated, at no bank that refuses the read, as the core sees it
(R177, R219). -/
def EngineSees (s : State) (k a : Nat) (b : Byte) : Prop :=
  ∃ e pa, findRange (s.part (s.partOf k)).ranges (a % 2 ^ 64) = some e ∧ pa = e.pbase.toNat + (a % 2 ^ 64 - e.vbase.toNat)
    ∧ s.readRefused k pa = false ∧ b = s.coreByte k pa

/-- The code at column j of a row of a format, as an engine reads it: half-bytes for the 4-bit formats (R215). -/
def SeesCode (s : State) (k : Nat) (f : Fmt) (row j c : Nat) : Prop :=
  if f.bits = 4 then ∃ b, EngineSees s k (row + j / 2) b ∧ c = b.toNat / 16 ^ (j % 2) % 16
  else c < 2 ^ f.bits ∧ ∀ i, i < f.bits / 8 → EngineSees s k (row + j * (f.bits / 8) + i) (BitVec.ofNat 8 (c / 2 ^ (8 * i)))

/-- Writes that move bytes: rows, each a destination with the source address of each of its bytes, or none for a zero (R214). -/
def Moves (s : State) (k : Nat) (ws : List (Nat × List (Byte × Byte))) (rows : List (Nat × List (Option Nat))) : Prop :=
  ws.map (fun w => w.1) = rows.map (fun r => r.1)
    ∧ ∀ e ∈ ws.zip rows, e.1.2.length = e.2.2.length ∧ ∀ m ∈ e.1.2.zip e.2.2, m.1.2 = 0xFF ∧ (m.2 = none → m.1.1 = 0)
      ∧ ∀ a b, m.2 = some a → EngineSees s k a b → m.1.1 = b

/-- What a CRDT makes of a source code: decoded through its offset and scale, encoded again through those of its destination, by the
FMT of its issue (R106, R109 to R112, R132, R133, R215). -/
def Reencodes (c : CopyCmd) (dS dD : Int) (draw src : Nat) (e : Enc) : Prop :=
  let f := c.sfmt
  let g := c.dfmt
  let rm := fmtRm c.fmt
  let sat := fmtSat c.fmt
  let v := ditheredUnits f dS (placeOf f src)
  let sign := src.testBit (f.bits - 1) && !f.isInt
  let neg := if v = 0 then sign else decide (v < 0)
  (c.srcScale = 255 ∨ c.dstScale = 255 → e = ⟨g.canonNaN, true⟩)
    ∧ (c.srcScale < 255 → c.dstScale < 255 →
      (¬ FiniteCode f src → e = if f.hasInf ∧ src % 2 ^ (f.bits - 1) = f.infCode then infinityCode g sat sign else ⟨g.canonNaN, true⟩)
        ∧ (FiniteCode f src → ∀ y : Int, y * 2 ^ c.dstScale = v * 2 ^ c.srcScale →
          (dD = 0 → rm ≠ .sr → EncodesNumber g rm sat y neg e) ∧ (dD = 0 → rm = .sr → DrawsNumber g sat draw y neg e)
            ∧ (dD ≠ 0 → DithersNumber g rm sat dD y neg e)))

/-- R214, R215: what a command writes where no other write is open: CPY and CSEND their bytes, CPY2 its rows, CPYT the elements
transposed, CGAT and CSCT the elements that the list names below LIM, CFILL its pattern, CRDT each element decoded and encoded
again, and whether one of them meets NF. -/
def CopyWrites (s : State) (k : Nat) (c : CopyCmd) (ws : List (Nat × List (Byte × Byte))) (nf : Bool) : Prop :=
  let w := fun i => (c.words.getD i 0).toNat
  let low := fun i => w i % 2 ^ 32
  let high := fun i => w i / 2 ^ 32
  let bytes := fun (a n : Nat) => (List.range n).map (fun i => some (a + i))
  let size := w 5 % 16
  let count := low 3
  let es := 2 ^ (high 3 % 4)
  let lim := if low 4 = 0 then count else low 4
  let den := fmtDen c.fmt
  (c.opcode = 1 ∨ c.opcode = 8 → Moves s k ws [(w 1, bytes (w 0) (low 2))])
    ∧ (c.opcode = 2 → Moves s k ws ((List.range (high 2)).map (fun r => ((w 1 + r * w 4) % 2 ^ 64, bytes (w 0 + r * w 3) (low 2)))))
    ∧ (c.opcode = 3 → Moves s k ws ((List.range (low 2)).map (fun j => ((w 1 + j * w 4) % 2 ^ 64,
      (List.range (high 2)).flatMap (fun r => bytes (w 0 + r * w 3 + j * size) size)))))
    ∧ (∀ x : Nat → Nat, (∀ i, i < count → x i < 2 ^ 32 ∧ ∀ j, j < 4 → EngineSees s k (w 2 + 4 * i + j) (BitVec.ofNat 8 (x i / 2 ^ (8 * j)))) →
      (c.opcode = 5 → Moves s k ws [(w 1, (List.range count).flatMap (fun i =>
          if x i < lim then bytes (w 0 + x i * es) es else List.replicate es none))])
        ∧ (c.opcode = 6 → Moves s k ws ((List.range count).filterMap (fun i =>
          if x i < lim then some ((w 1 + x i * es) % 2 ^ 64, bytes (w 0 + i * es) es) else none))))
    ∧ (c.opcode = 7 → ws = [(w 0, (List.range (low 1)).map (fun j => (BitVec.ofNat 8 (w 2 / 2 ^ (8 * (j % 8))), 0xFF)))])
    ∧ (c.opcode = 4 → w 3 / 2 ^ 8 % 16 < 8 → w 3 / 2 ^ 12 % 16 < 8 → ∃ code : Nat → Nat → Enc,
      let rows := if c.tr then low 2 else high 2
      let cols := if c.tr then high 2 else low 2
      let bits := c.dfmt.bits
      ws.map (fun e => e.1) = (List.range rows).map (fun r => (w 1 + r * c.dstFrame.pitch.toNat) % 2 ^ 64)
        ∧ (nf = true ↔ ∃ r j, r < rows ∧ j < cols ∧ (code r j).nf = true)
        ∧ ∀ r j, r < rows → j < cols →
          let row := ws.getD r (0, [])
          let i := if c.tr then j else r
          let m := if c.tr then r else j
          natOfBytes (row.2.map (fun b => b.2)) = 2 ^ (bits * cols) - 1
            ∧ natOfBytes (row.2.map (fun b => b.1)) / 2 ^ (bits * j) % 2 ^ bits = (code r j).code % 2 ^ bits
            ∧ ∀ src nS nD, SeesCode s k c.sfmt (w 0 + i * c.srcFrame.pitch.toNat) m src →
              let a := c.srcElem r j
              let b := c.dstElem r j
              c.srcFrame.index a.1 a.2 = some nS → c.dstFrame.index b.1 b.2 = some nD →
              OffsetRule c.srcFrame den c.sfmt nS ∧ OffsetRule c.dstFrame den c.dfmt nD
                ∧ Reencodes c (c.srcFrame.offsetFor den c.sfmt nS) (c.dstFrame.offsetFor den c.dfmt nD)
                  ((mixh (if den then c.dstFrame.seed else 0) ((c.dstFrame.tag &&& 0xFFFFFFFF) + 0x100000000) nD).toNat / 2 ^ 48)
                  src (code r j))

/-- R176, R214, R215, R218, R219: a command whose start has come, with a credit where it needs one (R323), starts, in DET with its cost from
there on, longer only where it meets lines of GDDR that the partition's slots do not serve by then (R179; log 29); the peer of a
CSEND may keep it longer (R326). Where no other write is open, what it writes is what R214 and R215 make of its sources. One that
performs to homes leaves its bytes; at its end its number completes and it leaves the engine. A bank enters its new mode with no
content; a BANKSET ends once its last bank has. That a command takes its sources at its start, and of writes that perform while it is
at work what a free choice gives, and that memory holds what it writes from its completion on, is the model's choice (DESIGN CHOICE,
log 14), and that a bank's dirty lines are written back as it enters its mode (DESIGN CHOICE, log 63). -/
def Obligations.CopyEvents : Prop :=
  (∀ (s : State) (k start : Nat) (c : CopyCmd) (old : List CopyCmd), (s.core k).copyStartAt = some start →
      nextCopy (s.core k).copies = some (old, c) → start ≤ s.cyc (s.partOf k) → s.lacksCredits (s.partOf k) c = false →
      ∃ t, Runs (.copyStart k) s t ∧ ∃ e ∈ (t.core k).copies, e.id = c.id ∧ e.opcode = c.opcode ∧ e.words = c.words
        ∧ e.started = some (s.cyc (s.partOf k)) ∧ (c.opcode ≤ 7 → e.fault = 0)
        ∧ (Quiet s (s.partOf k) → c.opcode ≤ 8 → e.fault = 0 → CopyWrites s k c e.writes e.nonfinite)
        ∧ (s.isDet (s.partOf k) = true → c.opcode ≤ 9 → ∃ d, e.due = some d ∧ s.cyc (s.partOf k) + s.copyCost k c ≤ d
          ∧ (c.opcode ≠ 8 → (∀ ov, s.extentLines (s.partOf k) (s.readExtents k ov c ++ c.dsts) = []) →
            d = s.cyc (s.partOf k) + s.copyCost k c)))
    ∧ (∀ (s : State) (p id k : Nat) (c : CopyCmd) (x : Ctx), s.findCopy p id = some (k, c) → s.copyReady p k c = true →
      s.ctx? k c.ctx = some x → c.fault = 0 → c.nonfinite = false →
      let n := copyCounter c.opcode
      (c.performed = true → ∃ t, Runs (.copyComplete p id) s t ∧ t.mem = s.mem ∧ (∀ e ∈ (t.core k).copies, e.id ≠ id)
          ∧ (t.ctx k c.ctx).counter n = (x.counter n).complete c.number)
        ∧ (c.performed = false → ∃ t, Runs (.copyComplete p id) s t) ∧ (c.performed = false → (∀ m ∈ (s.part p).met, m.copy ≠ id) →
          ∃ t, Runs (.copyComplete p id) s t
          ∧ (c.opcode = 8 → t.mem = s.mem ∧ t.outbox = s.outbox
            ++ [.sent (bitsOf (c.word 3) 0 6) (c.words.getD 1 0) ((c.writes.flatMap (fun w => w.2)).map (fun b => b.1)) c.arrive])
          ∧ (c.opcode ≠ 8 → (∀ w ∈ c.writes,
              (c.mayPush = true → s.fifoTarget (s.fifoFor (clusterOf k) c.accepted) p w.1 w.2.length = none)
              ∧ ∀ b ∈ s.physWrite p w.1 w.2, s.storeRefused k b.pa = false ∧ s.takesFrom (clusterOf k) c.accepted b.pa = true) →
            t.mem = memWrite s.mem (c.writes.flatMap (fun w => s.physWrite p w.1 w.2)))))
    ∧ ∀ (s : State) (p id cl : Nat) (r : BankRun), s.findRun p id = some (cl, r) → r.started = true →
      let b := r.first + r.next
      (r.next < r.count → r.nextAt ≤ s.cyc p → b < 48 → ∃ t, Runs (.bankNewModeEntered p id) s t
          ∧ (∀ a, sramBase + cl * 0x2000000 + b * 0x80000 ≤ a → a < sramBase + cl * 0x2000000 + (b + 1) * 0x80000 → memGet t.mem a = 0)
          ∧ (∀ l ∈ (t.cluster cl).lines, l.way ≠ b)
          ∧ ((∀ q ∈ (s.cluster cl).runs, q.op ≠ r.op → q.names b = false) →
            (t.cluster cl).modes.getD b .cache = bankModeOf r.mode))
        ∧ (r.next = r.count → ∃ t, Runs (.banksetComplete p id) s t ∧ t.mem = s.mem ∧ ∀ q ∈ (t.cluster cl).runs, q.op ≠ r.op)

/-- A finite value in units of 2^-300. -/
def ValueIs (v : Val) (x : Int) : Prop :=
  ∃ d, v = .fin d ∧ -300 ≤ d.exp ∧ x = (if d.neg then -1 else 1) * ((d.man * 2 ^ (d.exp + 300).toNat : Nat) : Int)

/-- What one group leaves in a floating-point accumulator (R123): nothing of an exact sum of zero, else the sum with it rounded once to
nearest even; a NaN operand makes it NaN. S is the exact sum of the products. -/
def FloatGroup (acc : W32) (ps : List (Val × Val)) (acc' : W32) : Prop :=
  ((∃ p ∈ ps, p.1 = .nan ∨ p.2 = .nan) → acc' = f32NaN)
    ∧ ∀ (xs : List (Int × Int)) (sum : Int), List.Forall₂ (fun p x => ValueIs p.1 x.1 ∧ ValueIs p.2 x.2) ps xs →
      (xs.map (fun x => x.1 * x.2)).sum = sum * 2 ^ 300 →
      (sum = 0 → acc' = acc)
        ∧ (sum ≠ 0 → f32NonFinite acc = false → F32Result false .rne (unitsOf .fp32 acc.toNat + sum) 0 acc')
        ∧ (sum ≠ 0 → f32NonFinite acc = true → acc' = if f32IsNaN acc then f32NaN else acc)

/-- What one group leaves in an integer accumulator: its exact sum is added modulo 2^32 (R124). -/
def IntGroup (acc : W32) (ps : List (Val × Val)) (acc' : W32) : Prop :=
  ∀ (xs : List (Int × Int)) (sum : Int), List.Forall₂ (fun p x => ValueIs p.1 (x.1 * 2 ^ 300) ∧ ValueIs p.2 (x.2 * 2 ^ 300)) ps xs →
    (xs.map (fun x => x.1 * x.2)).sum = sum → acc' = acc + BitVec.ofInt 32 sum

/-- The value of an element of a leaf in a format of codes 0 to 7 without a block-scale array: its code decoded through its offset and
its scale (R133, R229). -/
def LeafValues : Prop :=
  ∀ (s : State) (k : Nat) (ns : List GNode) (n : GNode) (i j c : Nat), n.opcode = 1 → n.format.code < 8 →
    n.shape.se = false ∨ scIsArray n.sc = false → FiniteCode n.format c →
    SeesCode s k n.format (n.base + i * n.shape.pitch) j c →
    let scale := if n.shape.se then scUni n.sc else 127
    scale < 255 → ∀ idx, n.index i j = some idx →
    OffsetRule n.frame (fmtDen n.fmt) n.format idx
      ∧ ∃ x, ValueIs (s.val k ns n i j) x
        ∧ x * 2 ^ 127 = ditheredUnits n.format (n.frame.offsetFor (fmtDen n.fmt) n.format idx) (placeOf n.format c) * 2 ^ scale

/-- The value that a node of the arrays computes for an element, before its drain (R122 to R124, R230, R231): TMUL and TMULB take the
products in groups of G, in ascending order, TADD and TSCAL round once, TCVT not at all. -/
def NodeValue (s : State) (k : Nat) (ns : List GNode) (n : GNode) (i j : Nat) (v : Val) : Prop :=
  let a := (findNode ns n.ctx n.na).getD n
  let b := (findNode ns n.ctx n.nb).getD a
  let va := s.val k ns a
  let vb := s.val k ns b
  let size := fun (f : Fmt) => [1, 2, 2, 4, 4, 8, 4, 8, 8, 8].getD f.code 8
  let isInt := (valueFormat ns a).isInt
  (n.opcode = 2 ∨ n.opcode = 3 → ∃ acc : Nat → W32,
    let g := min (size (valueFormat ns a)) (size (valueFormat ns b))
    let len := (dimsOf ns a).2
    let m := (len + g - 1) / g
    let pair := fun (q : Nat) => (va i q, if n.opcode = 2 then vb q j else vb j q)
    (∀ t, t < m →
        let ps := (List.range (min g (len - t * g))).map (fun q => pair (t * g + q))
        if isInt then IntGroup (acc t) ps (acc (t + 1)) else FloatGroup (acc t) ps (acc (t + 1)))
      ∧ (n.fl.testBit 0 = false → acc 0 = 0)
      ∧ (n.fl.testBit 0 = true → isInt = false → ∀ c, f32IsNaN c = false → s.elemVal k n i j = f32In false c → acc 0 = c)
      ∧ (n.fl.testBit 0 = true → isInt = true → ∀ x, ValueIs (s.elemVal k n i j) (x * 2 ^ 300) → acc 0 = BitVec.ofInt 32 x)
      ∧ if isInt then ValueIs v ((acc m).toInt * 2 ^ 300) else v = f32In false (acc m))
    ∧ (n.opcode = 4 → ∃ c, v = f32In false c ∧ (va i j = .nan ∨ vb i j = .nan → c = f32NaN)
      ∧ ∀ x y, ValueIs (va i j) x → ValueIs (vb i j) y →
        (x + y = 0 → c &&& 0x7FFFFFFF = 0) ∧ (x + y ≠ 0 → F32Result false .rne (x + y) 0 c))
    ∧ (n.opcode = 5 → ∃ c, v = f32In false c
      ∧ let α : W32 := (n.word 2).truncate 32
        (f32IsNaN α = true ∨ va i j = .nan → c = f32NaN)
          ∧ (f32NonFinite α = false → ∀ x y, ValueIs (va i j) x → unitsOf .fp32 α.toNat * x = y * 2 ^ 300 →
            (y = 0 → c &&& 0x7FFFFFFF = 0) ∧ (y ≠ 0 → F32Result false .rne y 0 c)))
    ∧ (n.opcode = 8 → v = va i j)

/-- The code that a drain makes of a value (R105, R106, R109 to R112, R125): an exact zero as the code of +0, else one rounding under
the captured RM and SAT through the frame and the scale of the destination; SR only through a frame (R110). -/
def DrainsTo (n : GNode) (i j : Nat) (v : Val) (c : Nat) : Prop :=
  let f := n.format
  let rm := if n.shape.fe then fmtRm n.fmt else (fmtRm n.fmt).noSr
  let sat := fmtSat n.fmt
  let den := fmtDen n.fmt
  let scale := if n.shape.se then scUni n.sc else 127
  f.code < 8 ∨ f = .int32 → n.shape.se = false ∨ scIsArray n.sc = false → ∀ idx, n.index i j = some idx →
    let d := n.frame.offsetFor den f idx
    let draw := (mixh (if den then n.frame.seed else 0) ((n.frame.tag &&& 0xFFFFFFFF) + 0x100000000) idx).toNat / 2 ^ 48
    OffsetRule n.frame den f idx ∧ (scale = 255 ∨ v = .nan → c = f.canonNaN)
      ∧ (scale < 255 → (∀ neg, v = .inf neg → c = (infinityCode f sat neg).code)
        ∧ (ValueIs v 0 → c = 0)
        ∧ ∀ x y, ValueIs v x → x ≠ 0 → y * 2 ^ scale = x * 2 ^ 127 → ∃ e : Enc, e.code = c
          ∧ (d = 0 → rm ≠ .sr → EncodesNumber f rm sat y (decide (x < 0)) e)
          ∧ (d = 0 → rm = .sr → DrawsNumber f sat draw y (decide (x < 0)) e)
          ∧ (d ≠ 0 → DithersNumber f rm sat d y (decide (x < 0)) e))

/-- The write of a code at its place in a node's buffer (R224, R234). -/
def PlacesCode (n : GNode) (i j c : Nat) (w : Nat × List (Byte × Byte)) : Prop :=
  let bits := n.format.bits
  let half := if bits = 4 then j % 2 else 0
  w.1 = (n.base + i * n.shape.pitch + if bits = 4 then j / 2 else j * (bits / 8)) % 2 ^ 64
    ∧ natOfBytes (w.2.map (fun b => b.2)) = (2 ^ bits - 1) * 16 ^ half
    ∧ natOfBytes (w.2.map (fun b => b.1)) = c % 2 ^ bits * 16 ^ half

/-- R122 to R125, R229 to R231, R236: what the arrays compute, and that a TFORCE of a node over leaves, where no other write is open and
nothing stops it, has for every element of its region the write of the drained value. -/
def ArrayValues : Prop :=
  LeafValues
    ∧ (∀ (s : State) (k : Nat) (ns : List GNode) (n : GNode) (es : List (Nat × Nat)) (p : Nat), p < es.length →
      let e := es.getD p (0, 0)
      NodeValue s k ns n e.1 e.2 ((s.computeNode k ns n es).getD p .zero))
    ∧ (∀ (s : State) (k : Nat) (n : GNode) (i j : Nat) (v : Val), DrainsTo n i j v (s.drainCode k n i j v))
    ∧ ∀ (s : State) (k start : Nat) (d : Demand) (rest : List Demand) (n : GNode), (s.core k).demandAt = some start →
      nextDemand (s.core k).demands = some (d, rest) → start ≤ s.cyc (s.partOf k) → Quiet s (s.partOf k) →
      let ns := (s.core k).nodes
      parksBehind ns (s.core k).suspended d = none → d.opcode = 0x10 → d.abandoned = false → d.record = none →
      findNode ns d.ctx d.node = some n → n.opcode ∈ [2, 3, 4, 5, 8] → n.done = [] →
      n.format.code < 8 ∨ n.format = .int32 →
      (∀ id ∈ n.preds, ∃ a, findNode ns d.ctx id = some a ∧ a.opcode = 1) →
      ∃ t g, Runs (.demandStart k) s t ∧ (t.core k).running = some g
        ∧ (g.result = .completes → ∀ i j, d.region.row0 ≤ i → i < d.region.row0 + d.region.rows → i < n.shape.rows →
          d.region.col0 ≤ j → j < d.region.col0 + d.region.cols → j < n.shape.cols →
          ∃ v c w, NodeValue s k ns n i j v ∧ DrainsTo n i j v c ∧ PlacesCode n i j c w ∧ w ∈ g.writes)

/-- R236, R238, R240, R244, R245, R261, R389: a demand whose start has come, and that waits behind no suspended one, is in evaluation
from this cycle; at its finish its writes perform, its TM number completes and the next may start; one that a fault ends is
suspended with its record and its trap is pending, at the start of a node whose bank has left its mode by then with what the nodes
before it have done. A solver node's request waits a cycle where a vector operation has the unit. That a demand reads at its start
and leaves memory as it is until its finish or suspension, where it writes everything, is the model's choice (DESIGN CHOICE,
log 14). R122 to R125, R230, R231: TMUL and TMULB accumulate groups in ascending order, one rounding for each, TADD and TSCAL round
once, TCVT not, and the drain rounds once to the destination's format. -/
def Obligations.DemandEvents : Prop :=
  ArrayValues ∧ (∀ (s : State) (k start : Nat) (d : Demand) (rest : List Demand), (s.core k).demandAt = some start →
      nextDemand (s.core k).demands = some (d, rest) → start ≤ s.cyc (s.partOf k) →
      ∃ t, Runs (.demandStart k) s t ∧ t.mem = s.mem
        ∧ (parksBehind (s.core k).nodes (s.core k).suspended d = none → ∃ g, (t.core k).running = some g ∧ g.demand.tm = d.tm
          ∧ g.start = s.cyc (s.partOf k) ∧ (t.core k).demands = rest))
    ∧ ∀ (s : State) (k : Nat) (g : GRun) (x : Ctx), (s.core k).running = some g → s.ctx? k g.demand.ctx = some x → x.st = .bound →
      let d := g.demand
      let cy := s.cyc (s.partOf k)
      let written := fun (ws : List (Nat × List (Byte × Byte))) => memWrite s.mem ((ws.flatMap (fun w =>
        s.physWrite (s.partOf k) w.1 w.2)).filter (fun b => !s.storeRefused k b.pa && s.bankTakes b.pa))
      let suspends := fun (h : GRun) (code info : Nat) (r : GRecord) => ∃ t, Runs (.demandSuspend k) s t
        ∧ (t.core k).running = none ∧ t.mem = written h.writes
        ∧ (t.core k).suspended = (s.core k).suspended ++ [{ h.demand with record := some r }]
        ∧ ∃ e ∈ (t.ctx k d.ctx).traps, e.code = code ∧ e.tinfo = BitVec.ofNat 64 info ∧ e.order = d.tm
      (g.finish ≤ cy →
        (g.result = .completes → ∃ t, Runs (.demandComplete k) s t ∧ (t.core k).running = none ∧ (t.core k).freeAt = cy
            ∧ t.mem = written g.writes ∧ (t.ctx k d.ctx).counter 0 = (x.counter 0).complete d.tm)
          ∧ ∀ code info node bk r, g.result = .faults code info node bk r → s.stageStop k g = none → suspends g code info r)
        ∧ (∀ x f, s.stageStop k g = some (x, f) → suspends (g.cut x f) 0x83 f.1 (startRecord x.node))
        ∧ ∀ n, g.nextRequest = some n → n ≤ cy → ∃ t h, Runs (.solverUnitRequest k) s t ∧ (t.core k).running = some h ∧ t.mem = s.mem
          ∧ ((s.core k).lastDivide = some n → h.finish = g.finish + 1)
          ∧ ((s.core k).lastDivide ≠ some n → h.finish = g.finish ∧ h.requests = g.requests.erase n)

/-! ## Counters, groups, signals, update units -/

/-- R63 to R65, R268, R271, R272, R280, R281: a TLINC raises TS of its target, or is discarded and counted where a TLINC.c finds its
target FREE, ARMED or CLOSING; a hold that has come to its end is gone, a FLUSH_ALL leaves no dirty line and an INVAL_ALL none at all; an arrival
that completes its phase steps it, a LEAVE ends a membership; TG completes; a signal counts once; a SUBMIT's packet is due 160
cycles after its release and advances the tail of its queue. That a packet whose queue SUBMIT feeds no more is discarded is read from
R309 (DEDUCED, log 53), what a satisfied wait on TG still has to acquire is noted as TG completes (log 64), and a FLUSH writes all of its
lines back as it completes (DESIGN CHOICE, log 63). -/
def Obligations.SyncEvents : Prop :=
  (∀ (s : State) (p : Nat) (o : Op) (c n : Nat) (carried : Bool), s.releasedOp p o.id Op.carriesTs = some o →
      o.kind = .tsInc c n carried →
      (∀ x, s.ctx? o.core c = some x → (carried = true → x.st ≠ .armed ∧ x.st ≠ .closing) → ∃ t, Runs (.tsIncrement p o.id) s t
          ∧ ((t.ctx o.core c).counter 6).value = (x.counter 6).value + n ∧ (t.ctx o.core c).regs = x.regs ∧ t.mem = s.mem)
        ∧ (carried = true → (s.ctx? o.core c = none ∨ ∃ x, s.ctx? o.core c = some x ∧ (x.st = .armed ∨ x.st = .closing)) →
          ∃ t, Runs (.tsIncrement p o.id) s t ∧ t.cores = s.cores ∧ t.mem = s.mem
          ∧ (t.part p).counts.tlincDiscards = satInc (s.part p).counts.tlincDiscards))
    ∧ (∀ (s : State) (k c : Nat) (h : SyncHold) (task : Bool), s.endingHold k c = some (h, task) →
      ∃ t, Runs (.syncComplete k c) s t ∧ (if task then (t.ctx k c).taskHold else (t.ctx k c).hold) = none
        ∧ (h.kind = .drain ∨ h.kind = .fence → t.mem = s.mem ∧ t.clusters = s.clusters)
        ∧ (h.kind = .flushAll → ∀ l ∈ (t.cluster (clusterOf k)).lines, l.dirty = 0)
        ∧ (h.kind = .invalAll → (t.cluster (clusterOf k)).lines = []))
    ∧ (∀ (s : State) (p : Nat) (o : Op) (i scope phase tail : Nat) (leave : Bool),
      s.releasedOp p o.id Op.arrivesReleased = some o → o.kind = .arrival i leave scope phase tail →
      let g := (s.part p).group i
      ∃ t, Runs (.arrivalCounts p o.id) s t
        ∧ (leave = true → ((t.part p).group i).has o.core o.ctx = false)
        ∧ (leave = false → g.live = true → g.phase = phase → g.has o.core o.ctx = true →
          ((t.part p).group i).phase
            = if g.members.all (fun m => m.2.2 || (m.1 == o.core && m.2.1 == o.ctx)) then phase + 1 else phase))
    ∧ (∀ (s : State) (p : Nat) (o : Op) (n scope : Nat), Comes s p o → o.kind = .tg n scope →
      Runs (.tgAdvance p o.id) s (((s.dropOp p o.id).complete o.core o.ctx 4 n).onCtx o.core o.ctx
        (fun x => if 3 ≤ scope then { x with tgPackage := x.tgPackage ++ [n] } else x)))
    ∧ (∀ (s : State) (p : Nat) (o : Op) (n i : Nat), s.releasedOp p o.id (fun _ => true) = some o → o.kind = .signal n i →
      ∃ t, Runs (.taskSignalled p o.id) s t ∧ t.mem = s.mem ∧ t.cores = s.cores
        ∧ ∀ l ∈ (s.part p).launches, l.number = n → ∃ m ∈ (t.part p).launches, m.number = n ∧ m.signalled = l.signalled + 1)
    ∧ ∀ (s : State) (p : Nat) (o : Op) (q : Nat) (a : W64) (tq tail : Nat) (released : Bool),
      s.releasedOp p o.id Op.submitWaits = some o → o.kind = .submit q a tq released tail →
      ∃ t, Runs (.submitDelivery p o.id) s t
        ∧ (released = false → ∃ e ∈ (t.part p).ops, e.id = o.id ∧ e.due = some (s.cyc p + 160) ∧ e.kind = .submit q a tq true 0)
        ∧ (released = true → (s.queue q).takesSubmit p = true → (t.queue q).tail = (s.queue q).tail + 1)
        ∧ (released = true → (s.queue q).takesSubmit p = false → t.queues = s.queues ∧ t.mem = s.mem)

/-- pow(b, t) of R186. -/
def rulePower (b : W32) (t : Nat) : W32 :=
  (List.range 16).foldl (fun r i =>
    let q := f32Mul false .rne r r
    if t / 2 ^ (15 - i) % 2 = 1 then f32Mul false .rne q b else q) 0x3F800000

/-- R186 for one element of W, M and V and the sum S, from the words KIND, GS, LR, B1, C1, B2, C2, EPS and WD of a rule set. -/
def ruleResult (r : Nat → W32) (t : Nat) (w m v sum : W32) : W32 × W32 × W32 :=
  let mul := f32Mul false .rne
  let fma := f32Fma false .rne
  let g := mul (r 1) sum
  let next := fun (u : W32) => fma (r 2 ^^^ 0x80000000) (fma (r 8) w u) w
  if r 0 = 0 then
    let m1 := fma (r 3) m g
    (next m1, m1, v)
  else
    let m1 := fma (r 3) m (mul (r 4) g)
    let v1 := fma (r 5) v (mul (r 6) (mul g g))
    let k := fun (b : W32) => if t = 0 then 0x3F800000 else f32Div false .rne 0x3F800000 (f32Sub false .rne 0x3F800000 (rulePower b t))
    (next (f32Div false .rne (mul m1 (k (r 3))) (f32Add false .rne (f32Sqrt false .rne (mul v1 (k (r 5)))) (r 7))), m1, v1)

/-- R182, R184 to R187, R189: an arm that finds its line free and an entry takes it; a contribution that its unit buffers joins its
arm, one that it refuses is counted; a full arm's rule is applied to the lines as their homes hold them, with the values of R186 for
the canonical sum, in DET performing 640 cycles later, and later than that only where the partition's slots do not serve its lines
by then (R179; log 29), and its writes perform at the home and free the entry. That the rule reads its
lines when the last contribution has come is the model's choice (DESIGN CHOICE, log 17). An arrival enters its core's queue while it has room, and starts the handler of the lowest ARMED context
with x1, x2 and x3 as R189 gives them and every other X register 0. -/
def Obligations.UpdateEvents : Prop :=
  (∀ (s : State) (p : Nat) (o : Op), Comes s p o →
      let q := s.part p
      (∀ w va c rs step ta, o.kind = .arm w va c rs step ta → ∃ t, Runs (.armArrival p o.id) s t ∧ t.mem = s.mem
          ∧ ((∀ a ∈ q.armsAt (sliceOf w), a.w ≠ w) → (q.armsAt (sliceOf w)).length < 2 * q.clusters →
            ∃ a, (t.part p).arms = q.arms ++ [a] ∧ a.w = w ∧ a.c = c ∧ a.rs = rs ∧ a.step = step ∧ a.held = [] ∧ a.waiting = false))
        ∧ (∀ w n vals ta, o.kind = .contrib w n vals ta → ∃ t, Runs (.contribAccepted p o.id) s t ∧ t.mem = s.mem
          ∧ (q.contribFate w n = 0 → (t.part p).counts.updateErrors = satInc q.counts.updateErrors ∧ (t.part p).arms = q.arms)
          ∧ (q.contribFate w n = 1 → ∀ a ∈ q.arms, a.w = w → a.waiting = false →
            ∃ b ∈ (t.part p).arms, b.id = a.id ∧ b.held = a.held ++ [(n, vals)]))
        ∧ ∀ arm ws bad, o.kind = .update arm ws bad → ∃ t, Runs (.updateComplete p o.id) s t
          ∧ ((∃ a ∈ q.arms, a.id = arm) → t.mem = memWrite s.mem ws ∧ ∀ a ∈ (t.part p).arms, a.id ≠ arm))
    ∧ (∀ (s : State) (p id : Nat) (a : Arm), (s.part p).arms.find? (fun a => a.id == id) = some a → a.full = true →
      let q := s.part p
      let r := q.rule a.rs
      let stride := q.stride a.rs
      let line := fun (l : W64) j => (s.lineValues p l.toNat).getD j 0
      let els := (List.range 16).map (fun j =>
        ruleResult r a.step (line a.va j) (line (a.va + stride) j) (line (a.va + 2 * stride) j) (a.sum.getD j 0))
      let ws := els.map (fun e => e.1)
      let ms := els.map (fun e => e.2.1)
      let vs := if r 0 = 1 then els.map (fun e => e.2.2) else []
      let bytes := fun (l : W64) us => s.linePBytes p l.toNat us
      let lines := s.extentLines p ((q.armLines a.rs a.va).map (fun l => (l.toNat, 64)))
      (r 0).toNat ≤ 1 → ∃ t, Runs (.updateRuleApply p id) s t ∧ t.mem = s.mem ∧ t.cores = s.cores
        ∧ ∃ o ∈ (t.part p).ops, (s.isDet p = true →
            o.due = some (s.cyc p + 640 + (s.takeBursts (s.partOf a.core) (s.cyc p + 640) (lines ++ lines)).1))
          ∧ o.kind = .update id (bytes a.va ws ++ bytes (a.va + stride) ms ++ bytes (a.va + 2 * stride) vs)
            ((ws ++ ms ++ vs).filter f32NonFinite).length)
    ∧ (∀ (s : State) (p : Nat) (o : Op) (k : Nat) (r : ArrivalRec) (copy : Option Nat), s.reachedOp p o.id = some o →
      o.kind = .arrive k r copy → s.arrivalReady p o k copy = true →
      ∃ t, Runs (.arrival p o.id) s t ∧ t.mem = s.mem ∧ (t.core k).arrivals = (s.core k).arrivals ++ [r])
    ∧ ∀ (s : State) (k c start : Nat) (x : Ctx) (a : ArrivalRec), (s.core k).nextHandler = some (c, x, a, start) →
      start ≤ s.cyc (s.partOf k) → ∃ t y, Runs (.arrivalHandlerStart k) s t ∧ t.ctx? k c = some y ∧ y.st = .bound ∧ y.pc = a.handlerPc
        ∧ (∀ n, n < 64 → vget y.regs.x n 0 = if n = 1 then a.dst else if n = 2 then a.len else if n = 3 then a.word else 0)
        ∧ (t.core k).arrivals = (s.core k).arrivals.drop 1 ∧ t.mem = s.mem

/-! ## Contexts, queues, the scheduler -/

/-- R50, R56, R188, R301, R302, R304: a CLOSING context whose last effect has completed becomes FREE, its nodes with it and the
contexts that its task armed, and no other core changes; a THR context whose pre-emption has landed and that has nothing open is
saved: it is FREE, with the contexts that its task armed (DEDUCED, log 30), and its task waits to be restored; a valid image is
bound again as BOUND, at its PC, 16 cycles before it may issue in THR and at START in DET. R302: one that misses its START is given
up as START_MISSED. The model's choices: an image is written and read in one cycle (DESIGN CHOICE, log 14), the groups go with the
task through save and restore (DEDUCED, log 30), and an image that does not restore ends its launch with status 1 (DESIGN CHOICE,
log 63). -/
def Obligations.ContextEvents : Prop :=
  (∀ (s : State) (k c : Nat), s.mayFree k c = true → ∃ t, Runs (.contextFree k c) s t ∧ t.ctx? k c = none ∧ t.mem = s.mem
      ∧ (∀ n ∈ (t.core k).nodes, n.ctx ≠ c) ∧ (∀ j, j ≠ k → t.core j = s.core j)
      ∧ ∀ e ∈ (t.core k).ctxs, e.2.st = .armed → e.2.owner ≠ some (s.ctx k c).task.uid)
    ∧ (∀ (s : State) (k c : Nat) (x : Ctx), s.ctx? k c = some x → s.maySave k c = true → ∃ t, Runs (.contextSave k c) s t
      ∧ t.ctx? k c = none ∧ (∀ j, j ≠ k → t.core j = s.core j)
      ∧ (∀ e ∈ (t.core k).ctxs, e.2.st = .armed → e.2.owner ≠ some x.task.uid)
      ∧ (s.isDet (s.partOf k) = false → ∃ v, (t.part (s.partOf k)).saved = (s.part (s.partOf k)).saved ++ [v] ∧ v.task = x.task
        ∧ v.launch = x.task.launch ∧ v.index = x.task.index ∧ v.groups = x.groups))
    ∧ ∀ (s : State) (p id : Nat) (v : Saved), (s.part p).saved.find? (fun v => v.id == id) = some v → (s.part p).st = .running →
      let bs := s.savedFixed p v
      let restored := fun (k c at_ : Nat) => ∃ t, Runs (.contextRestore p id) s t ∧ (t.ctx k c).st = .bound
        ∧ (t.ctx k c).task = v.task ∧ (t.ctx k c).pc = BitVec.ofNat 64 (wordAt bs 8) ∧ (t.ctx k c).issueAt = at_
        ∧ (t.ctx k c).groups = v.groups ∧ t.mem = s.mem ∧ ∀ w ∈ (t.part p).saved, w.id ≠ id
      let dropped := fun (status : Nat) =>
        ∃ t, Runs (.contextRestore p id) s t ∧ t.cores = s.cores ∧ t.mem = s.mem ∧ (∀ w ∈ (t.part p).saved, w.id ≠ id)
          ∧ ∀ l ∈ (s.part p).launches, l.number = v.launch → l.status = 0 →
            ∃ m ∈ (t.part p).launches, m.number = l.number ∧ m.status = status
      (v.valid bs = true →
          (∀ cl k c b, v.place = none → s.restorePlace p id = some (cl, k, c, b) → restored k c (s.cyc p + 16))
          ∧ ∀ k c start, v.place = some (k, c, start) →
            (∀ b, s.restoreFits p v k c start = some b → restored k c start)
            ∧ (s.restoreFits p v k c start = none → start ≤ s.cyc p + 16 → dropped 2))
        ∧ (v.valid bs = false → ((∃ k c start, v.place = some (k, c, start) ∧ start ≤ s.cyc p + 16)
            ∨ (v.place = none ∧ s.restorePlace p id ≠ none)) → dropped 1)

/-- R309, R310, R313, R316, R355: QCTL enables a queue of an existing partition with HEAD, tail, COMPLCNT and ERROR at 0, and disables
it with its tail at HEAD (log 53, DEDUCED); a doorbell of the owner sets the tail, or is counted for a queue that SUBMIT feeds; any
other requester is refused. The read of the slot at HEAD finds it fresh by PHASE, a claimed count above 2^N or an unreadable slot is
an ERROR, and so is a slot that stays stale. A fresh packet becomes the next launch of its partition and HEAD advances. -/
def Obligations.QueueEvents : Prop :=
  ∀ (s : State) (q : Nat),
    let r := s.queue q
    let p := r.part.toNat
    (∀ ctl : W64, ∃ t u, Runs (.queueEnable ⟨.hyp, q⟩ ctl) s t ∧ Runs (.queueDisable ⟨.hyp, q⟩ ctl) s u ∧ t.mem = s.mem ∧ u.mem = s.mem
        ∧ (s.windowsOpen = true → q < 32768 → 4 ≤ (ctl.extractLsb' 0 4).toNat → (s.part (ctl.extractLsb' 4 4).toNat).st ≠ .none →
          (r.en = false → (t.queue q).st = .active ∧ (t.queue q).en = true ∧ (t.queue q).head = 0 ∧ (t.queue q).tail = 0
              ∧ (t.queue q).compl = 0 ∧ (t.queue q).err = 0 ∧ (t.queue q).n = ctl.extractLsb' 0 4
              ∧ (t.queue q).part = ctl.extractLsb' 4 4 ∧ (t.queue q).src = ctl.getLsbD 9)
            ∧ (r.en = true → (u.queue q).st = .disabled ∧ (u.queue q).en = false ∧ (u.queue q).tail = r.head))
        ∧ ((ctl.extractLsb' 0 4).toNat < 4 → t.queues = s.queues ∧ u.queues = s.queues))
      ∧ (∀ (who : Requester) (ctl : W64), who ≠ .hyp →
        Runs (.queueEnable ⟨who, q⟩ ctl) s s.abort ∧ Runs (.queueDisable ⟨who, q⟩ ctl) s s.abort)
      ∧ (∀ tail : W32, ∃ t, Runs (.doorbell ⟨.owner p, q⟩ tail) s t ∧ t.mem = s.mem
        ∧ (s.ownerMay p = true → q < 32768 →
          (r.src = false → (t.queue q).tail = tail)
          ∧ (r.src = true → t.queues = s.queues
            ∧ (t.part p).counts.doorbellDiscards = satInc (s.part p).counts.doorbellDiscards)))
      ∧ (∀ (who : Requester) (tail : W32), who ≠ .owner p ∨ s.ownerMay p = false → Runs (.doorbell ⟨who, q⟩ tail) s s.abort)
      ∧ (∀ at_, r.nextRead = some at_ → at_ ≤ s.now → s.serves q = true → ∃ t, Runs (.slotRead q) s t ∧ t.mem = s.mem
        ∧ t.parts = s.parts
        ∧ (r.tail ≠ r.head →
          (r.firstRead = none → 2 ^ r.n.toNat < (r.tail - r.head).toNat → (t.queue q).st = .error ∧ (t.queue q).err = 3)
          ∧ ((r.tail - r.head).toNat ≤ 2 ^ r.n.toNat →
            (s.mayAccess p .lr r.headSlot 64 = false → (t.queue q).st = .error ∧ (t.queue q).err = 2)
            ∧ (s.mayAccess p .lr r.headSlot 64 = true →
              ((t.queue q).fresh = true ↔ r.fresh = true
                ∨ ((s.homeBytes p r.headSlot 64).getD 1 0).toNat % 2 = freshPhase r.n.toNat r.head.toNat)))))
      ∧ (s.queueStale q = true → ∃ t, Runs (.queueStale q) s t ∧ (t.queue q).st = .error ∧ (t.queue q).err = 1
        ∧ t.outbox = s.outbox ++ [.queueError q 1] ∧ t.parts = s.parts)
      ∧ (s.packetReady q = true → ∃ t, Runs (.packetAccept q) s t ∧ (t.queue q).head = r.head + 1 ∧ t.mem = s.mem ∧ t.cores = s.cores
        ∧ (t.part p).launchCount = (s.part p).launchCount + 1
        ∧ ∃ l ∈ (t.part p).launches, l.number = (s.part p).launchCount + 1 ∧ l.queue = q)

/-- R282, R314, R318 to R322, R351: a task that the scheduler binds is BOUND at its launch's entry, 16 cycles before it may issue in
THR, at START in DET, with TASKID, its index and the windows of the image; one that misses its START fails its launch; waiting
raises the priority, of a task that is saved too, from its save on (R301; DEDUCED, log 54); a launch's flush leaves no dirty line in the cluster; the end of a launch writes its record and advances
COMPLCNT; a watchdog puts its queue into ERROR and asks for a drain. -/
def Obligations.SchedulerEvents : Prop :=
  (∀ (s : State) (p cl : Nat), (s.part p).cfg.mask.getLsbD cl = true →
      (∀ l full, s.pickOn p cl = .flush l full → ∃ t, Runs (.taskBind p cl) s t ∧ t.mem = s.mem ∧ t.cores = s.cores)
        ∧ ∀ d k c b, s.pickOn p cl = .bind d k c b → d.saved = none → ∃ t, Runs (.taskBind p cl) s t ∧ t.mem = s.mem
          ∧ (t.ctx k c).st = .bound ∧ (t.ctx k c).pc = d.launch.image.entry ∧ (t.ctx k c).issueAt = s.cyc p + 16
          ∧ (t.ctx k c).task = { d.launch.task d.index with uid := s.nextId } ∧ (t.cluster cl).lastBind = some (s.cyc p))
    ∧ (∀ (s : State) (p id : Nat) (l : Launch), (s.part p).launch? id = some l →
      (l.ages (s.cyc p) = true → (s.part p).cfg.det = false → ∃ t, Runs (.priorityAging p id) s t ∧ t.mem = s.mem ∧ t.cores = s.cores
          ∧ ∃ m ∈ (t.part p).launches, m.number = id ∧ m.prio = l.prio + 1)
        ∧ (∀ v ∈ (s.part p).saved, v.launch = id → v.ages (s.cyc p) = true → (s.part p).cfg.det = false →
          ∃ t, Runs (.priorityAging p id) s t ∧ t.mem = s.mem ∧ t.cores = s.cores
          ∧ ∃ w ∈ (t.part p).saved, w.id = v.id ∧ w.prio = v.prio + 1)
        ∧ (∀ i k c start, l.nextPlace = some (i, k, c, start) → (s.part p).st = .running → (s.part p).cfg.det = true →
          start ≤ s.cyc p + 16 →
          (∀ b, s.startsAt p l k c start = some b → ∃ t, Runs (.detBind p id) s t ∧ t.mem = s.mem ∧ (t.ctx k c).st = .bound
            ∧ (t.ctx k c).pc = l.image.entry ∧ (t.ctx k c).issueAt = start
            ∧ (t.ctx k c).task = { l.task i with uid := s.nextId })
          ∧ (s.startsAt p l k c start = none → l.status = 0 → ∃ t, Runs (.detBind p id) s t ∧ t.mem = s.mem ∧ t.cores = s.cores
            ∧ ∃ m ∈ (t.part p).launches, m.number = id ∧ m.status = 2 ∧ m.failTask = l.taskId i ∧ m.stopped = true))
        ∧ ((s.part p).completes l = true → ∃ t, Runs (.launchComplete p id) s t
          ∧ ((if l.completing then l else { l with completing := true }).endNeedsFlush = false →
            (l.cr = false → t.mem = s.mem)
            ∧ (l.cr = true → s.mayAccess p .qw l.compl.toNat 64 = true → t.mem = (s.homeStore p l.compl.toNat l.record).mem)
            ∧ ((s.queue l.queue).part.toNat = p → (t.queue l.queue).compl = (s.queue l.queue).compl + 1))))
    ∧ (∀ (s : State) (p : Nat) (o : Op) (n c : Nat) (full : Bool), Comes s p o → o.kind = .flush n c full →
      ∃ t, Runs (.flushPartComplete p o.id) s t ∧ (∀ l ∈ (t.cluster c).lines, l.dirty = 0)
        ∧ ∀ l ∈ (s.part p).launches, l.number = n → ∃ m ∈ (t.part p).launches, m.number = n ∧ m.flushed = l.flushed ++ [(c, full)])
    ∧ ∀ (s : State) (q : Nat), s.watchdogDue q = true →
      let p := (s.queue q).part.toNat
      ∃ t, Runs (.watchdogExpiry q) s t ∧ (t.queue q).st = .error ∧ (t.queue q).err = 4 ∧ t.mem = s.mem
        ∧ (t.part p).pevent = (s.part p).pevent ||| 2 ∧ ∃ o ∈ (t.part p).ops, o.kind = .drain 1 .none ∧ o.due = some (s.cyc p)

/-! ## Partitions and outside parties -/

/-- R343 to R345, R348, R352, R354, R355: CREATE of a partition that no check refuses leaves it CREATING, its granules of GDDR without
the old contents, which read as 0 (log 4, DESIGN CHOICE), and a refused one PERR; PTIME starts at 0 with RUNNING; RESET of a RUNNING
partition asks for a drain; a drain frees every context, forgets every launch and the range table (R167, R9; log 55), counts in
RSTCNT and ends 65,536 cycles later as RUNNING; DESTROY leads through DESTROYING to a partition of which only the hypervisor's
registers and PERR stay (log 56, DEDUCED); the hypervisor or the owner clears PEVENT's bits by writing 1, and any other write is
refused. -/
def Obligations.PartitionEvents : Prop :=
  ∀ (s : State) (p : Nat),
    let q := s.part p
    (∃ t, Runs (.create p) s t ∧ (p < 16 → s.module.flashOk = true → 6 ≤ s.module.stage → s.module.bootErr = 0 →
        (q.st ≠ .none → (t.part p).perr = 13 ∧ (t.part p).st = q.st ∧ t.mem = s.mem)
        ∧ (q.st = .none → s.createError p ≠ 0 → (t.part p).perr = s.createError p ∧ (t.part p).st = .none ∧ t.mem = s.mem)
        ∧ (q.st = .none → s.createError p = 0 → (t.part p).st = .creating ∧ (t.part p).cfg = q.cfg ∧ (t.part p).ranges = []
          ∧ (t.part p).ops = [] ∧ ∀ a, a / 2 ^ 30 ∈ q.cfg.granules → memGet t.mem a = 0)))
      ∧ (∃ t, Runs (.destroy p) s t ∧ (p < 16 → s.windowsOpen = true →
        (q.st = .running ∨ q.st = .draining → (t.part p).st = .destroying ∧ ∃ o, (t.part p).ops = [o] ∧ o.kind = .destroyed)
        ∧ (q.st ≠ .running → q.st ≠ .draining → (t.part p).perr = 13 ∧ (t.part p).st = q.st ∧ t.mem = s.mem)))
      ∧ (∃ t, Runs (.reset p) s t ∧ t.mem = s.mem ∧ (p < 16 → s.windowsOpen = true →
        (q.st = .running → (t.part p).pevent = q.pevent ||| 8 ∧ ∃ o ∈ (t.part p).ops, o.kind = .drain 2 .none ∧ o.due = some (s.cyc p))
        ∧ (q.st = .draining → t = s)
        ∧ (q.st ≠ .running → q.st ≠ .draining → (t.part p).perr = 13 ∧ (t.part p).st = q.st)))
      ∧ (q.st = .creating → q.ptime0 ≤ s.now → ∃ t, Runs (.partitionStart p) s t ∧ (t.part p).st = .running ∧ t.cyc p = 0
        ∧ t.mem = s.mem)
      ∧ (∀ o, q.drainOp (s.cyc p) = some o →
        (q.st = .running → ∃ t, Runs (.drainAndReset p) s t ∧ (t.part p).st = .draining ∧ (t.part p).rstcnt = q.rstcnt + 1
          ∧ (t.part p).launches = [] ∧ (t.part p).ranges = [] ∧ (∀ k ∈ q.coreList, (t.core k).ctxs = [])
          ∧ ∃ e, (t.part p).ops = [e] ∧ e.kind = .drainEnd ∧ e.due = some (s.cyc p + 65536))
        ∧ (q.st ≠ .running → q.st ≠ .creating → Runs (.drainAndReset p) s (s.dropOp p o.id)))
      ∧ (∀ o d, o.due = some d → d ≤ s.cyc p →
        (q.ops.find? (fun o => o.kind == .drainEnd) = some o → ∃ t, Runs (.drainEnd p) s t ∧ (t.part p).st = .running ∧ t.mem = s.mem)
        ∧ (q.ops.find? (fun o => o.kind == .destroyed) = some o → ∃ t, Runs (.destroyingDone p) s t
          ∧ t.part p = { Partition.absent with cfg := q.cfg, perr := q.perr }))
      ∧ ∀ (who : Requester) (bits : W64), ∃ t, Runs (.peventClear ⟨who, p⟩ bits) s t ∧ t.mem = s.mem
        ∧ (p < 16 → s.windowsOpen = true → who = .hyp ∨ (who = .owner p ∧ s.ownerMay p = true) →
          (t.part p).pevent = q.pevent &&& ~~~(bits.extractLsb' 0 4))
        ∧ (who ≠ .hyp → who ≠ .owner p ∨ s.ownerMay p = false → t = s.abort)

/-- R169, R183, R277 to R279, R309, R324, R331, R343, R355, R356, R367: the tables of a partition that may load them take what no
check refuses, of a range table the valid entries; the hypervisor's registers take their values; a host write takes an entry of the
buffer, or fills the one that it began, or is counted, once for both its parts, and performs at the home unless a kernel image
refuses it; a read of device memory answers the home's bytes; an SPDM request is answered, signed. A request of another party is refused, counted among the host
errors, and changes nothing else. QBASE's low bits read as 0 (log 53). -/
def Obligations.HostEvents : Prop :=
  ∀ (s : State) (p : Nat),
    let q := s.part p
    let c := q.cfg
    (s.abort = { s with module := { s.module with hostErrors := s.module.hostErrors + 1 }, outbox := s.outbox ++ [.refused] })
      ∧ (∀ es, ∃ t, Runs (.rangeTableLoad p es) s t ∧ t.mem = s.mem
        ∧ (s.mayLoad p = true → q.rangeError es = none → (t.part p).ranges = validEntries es)
        ∧ (∀ c, s.mayLoad p = true → q.rangeError es = some c → (t.part p).ranges = q.ranges ∧ (t.part p).perr = c)
        ∧ (s.mayLoad p = false → t.parts = s.parts))
      ∧ (∀ ws, ∃ t, Runs (.routeTableLoad p ws) s t ∧ t.mem = s.mem
        ∧ (s.mayLoad p = true → s.routeError p ws = none → (t.part p).routes = ws)
        ∧ (∀ c, s.mayLoad p = true → s.routeError p ws = some c → (t.part p).routes = q.routes ∧ (t.part p).perr = c))
      ∧ (∀ i ws, ∃ t, Runs (.reductionGroupLoad p i ws) s t ∧ t.mem = s.mem ∧ (s.mayLoad p = true → i < 16 →
        (c.det = true → c.sync = false → (t.part p).perr = 12 ∧ (t.part p).redGroups = q.redGroups)
        ∧ (c.det = false ∨ c.sync = true → (t.part p).redGroups.getD i [] = ws)))
      ∧ (∀ i ws, ∃ t, Runs (.ruleSetLoad p i ws) s t ∧ t.mem = s.mem
        ∧ (s.mayLoad p = true → i < 16 → (t.part p).rules.getD i [] = ws ∧ ∀ j, j ≠ i → (t.part p).rules.getD j [] = q.rules.getD j []))
      ∧ (∀ run, ∃ t, Runs (.tdispRequest p run) s t ∧ t.mem = s.mem
        ∧ (p < 16 → s.windowsOpen = true → q.st ≠ .none → (t.part p).tdisp = run))
      ∧ ((∀ r, s.module.stage = 0 → Runs (.spdmRequest r) s s.abort)
        ∧ (s.module.stage ≠ 0 →
          Runs (.spdmRequest .certificates) s (s.answer (.signed (Config.certificates ++ Config.sign Config.certificates)))
          ∧ Runs (.spdmRequest .measurements) s (s.answer (.signed (s.measurements ++ Config.sign s.measurements)))
          ∧ ∀ port st, ∃ t, Runs (.spdmRequest (.keyExchange port st)) s t ∧ t.mem = s.mem ∧ t.cores = s.cores ∧ t.queues = s.queues
            ∧ ∀ i, i ≠ port → t.module.attested.getLsbD i = s.module.attested.getLsbD i))
      ∧ (∀ sel : W64, (s.healthOpen = true →
          Runs (.hrsel ⟨.hyp, sel⟩) s { s with module := { s.module with hrsel := sel.truncate 16 } })
        ∧ (s.healthOpen = false → Runs (.hrsel ⟨.hyp, sel⟩) s s.abort) ∧ ∀ who, who ≠ .hyp → Runs (.hrsel ⟨who, sel⟩) s s.abort)
      ∧ (∀ who reg v, (∃ t, Runs (.registerWrite ⟨who, reg⟩ v) s t) ∧ (who ≠ .hyp → Runs (.registerWrite ⟨who, reg⟩ v) s s.abort))
      ∧ (∀ (v : W64) (n i : Nat),
        (v.getLsbD 8 = true → exec (.registerWrite ⟨.hyp, .qctl n⟩ v) s = exec (.queueEnable ⟨.hyp, n⟩ v) s)
        ∧ (v.getLsbD 8 = false → exec (.registerWrite ⟨.hyp, .qctl n⟩ v) s = exec (.queueDisable ⟨.hyp, n⟩ v) s)
        ∧ exec (.registerWrite ⟨.hyp, .pcmd p⟩ 1) s = exec (.create p) s
        ∧ exec (.registerWrite ⟨.hyp, .pcmd p⟩ 2) s = exec (.destroy p) s
        ∧ exec (.registerWrite ⟨.hyp, .pcmd p⟩ 3) s = exec (.reset p) s
        ∧ (3 < v.toNat → Runs (.registerWrite ⟨.hyp, .pcmd p⟩ v) s (s.answer .refused))
        ∧ (∃ t u w, Runs (.registerWrite ⟨.hyp, .qwdog n⟩ v) s t ∧ Runs (.registerWrite ⟨.hyp, .qbase n⟩ v) s u
          ∧ Runs (.registerWrite ⟨.hyp, .hctl⟩ v) s w ∧ t.mem = s.mem ∧ u.mem = s.mem ∧ w.mem = s.mem
          ∧ (s.windowsOpen = true → n < 32768 → (t.queue n).wdog = v.truncate 32 ∧ (u.queue n).qbase = v &&& ~~~(63#64))
          ∧ (s.healthOpen = true → v.toNat < 2 ^ 22 → (v.extractLsb' 0 8 ≠ 0 ∧ v.extractLsb' 8 14 ≠ 0 ∧ (v.extractLsb' 8 14).toNat ≤ 8760) →
            w.module.hctlT = v.extractLsb' 0 8 ∧ w.module.hctlW = v.extractLsb' 8 14))
        ∧ ∀ e ∈ [(HostReg.pcfg p, { c with mask := v.extractLsb' 0 16, det := v.getLsbD 16, bin := v.extractLsb' 17 2, sync := v.getLsbD 19,
                                           badCfg := decide (2 ^ 20 ≤ v.toNat) }),
                 (HostReg.pslots p, { c with slots := v }),
                 (HostReg.pvc p i, { c with vc := (List.range 4).map (fun j => if j = i then v else c.vc.getD j 0) }),
                 (HostReg.pgddr p, { c with gddr := v.truncate 16, badGddr := decide (2 ^ 16 ≤ v.toNat) }),
                 (HostReg.pstart p, { c with pstart := v })],
          ∃ t, Runs (.registerWrite ⟨.hyp, e.1⟩ v) s t ∧ t.mem = s.mem ∧ (s.windowsOpen = true → p < 16 →
            (q.st = .none → (t.part p).cfg = e.2) ∧ (q.st ≠ .none → (t.part p).cfg = c ∧ (t.part p).perr = 13)))
      ∧ (∀ w : HostWrite, w.part = p →
        (w.who ≠ .owner p ∨ s.ownerMay p = false ∨ w.ok = false → Runs (.ingressArrival w) s s.abort)
        ∧ (w.who = .owner p → s.ownerMay p = true → w.ok = true → s.ingressFull w = false →
          ∃ t, Runs (.ingressArrival w) s t ∧ t.mem = s.mem ∧ t.cores = s.cores
            ∧ (∀ e, q.partEntry w = some e → (t.part p).ingress = q.ingress.map (fun x => if x.id = e.id then e.filled w else x))
            ∧ (q.partEntry w = none → w.arriving = .rest → (t.part p).ingress = q.ingress ∧ (t.part p).counts = q.counts)
            ∧ (q.partEntry w = none → w.arriving ≠ .rest → (∀ x ∈ q.ingress, x.id ≠ s.nextId) →
              let e : Ingress := ⟨s.nextId, w.addr, w.bytes, w.mask, w.arriving != .first, false⟩
              ((s.deviceHome p w.addr.toNat).isSome = true → q.imageHas (s.ingressBytes p e) = false →
                (t.part p).ingress = q.ingress ++ [e])
              ∧ ((s.deviceHome p w.addr.toNat).isSome = false ∨ q.imageHas (s.ingressBytes p e) = true →
                (t.part p).ingress = q.ingress ∧ (t.part p).counts.ingressDiscards = satInc q.counts.ingressDiscards))))
      ∧ (∀ o n bs th, Comes s p o → o.kind = .ingress n bs th → ∃ t, Runs (.ingressPerformed p o.id) s t
        ∧ (∀ e ∈ (t.part p).ingress, e.id ≠ n)
        ∧ (q.imageHas bs = false → t.mem = memWrite s.mem (bs.filter (fun b => s.bankTakes b.pa)))
        ∧ (q.imageHas bs = true → t.mem = s.mem ∧ (t.part p).counts.ingressDiscards = satInc q.counts.ingressDiscards))
      ∧ (∀ r, ∃ t, Runs (.hostRead r) s t ∧ t.mem = s.mem ∧ t.queues = s.queues ∧ t.cores = s.cores
        ∧ ((∀ who j a n, r = .memory who j a n → s.isDet j = false) → t.parts = s.parts))
      ∧ (∀ who a n o, (who ≠ .owner p → Runs (.hostRead (.memory who p a n)) s s.abort)
        ∧ (who ≠ .hyp → Runs (.hostRead (.healthReg who o)) s s.abort)
        ∧ (who ≠ .hyp → who ≠ .owner p → Runs (.hostRead (.partReg who p o)) s s.abort)
        ∧ (who ≠ .hyp → who ≠ .owner (s.queue n).part.toNat → Runs (.hostRead (.queueReg who n o)) s s.abort))
      ∧ (∀ a n, s.ownerMay p = true → (∀ i, i < n → s.deviceHome p (a.toNat + i) ≠ none) →
        ∃ t, Runs (.hostRead (.memory (.owner p) p a n)) s t ∧ t.outbox = s.outbox ++ [.bytes (s.homeBytes p a.toNat n)]
          ∧ (s.isDet p = false → t = s.answer (.bytes (s.homeBytes p a.toNat n))))
      ∧ (p < 16 → s.windowsOpen = true → Runs (.hostRead (.partReg .hyp p 0x48)) s (s.answer (.word (q.pevent.zeroExtend 64))))

/-- Node (l, i) of the canonical tree over N contributions (R329). -/
def canonicalNode (n : Nat) (x : Nat → List W32) : Nat → Nat → List W32
  | 0, i => x i
  | l + 1, i =>
    if n ≤ (2 * i + 1) * 2 ^ l then canonicalNode n x l (2 * i)
    else ((canonicalNode n x l (2 * i)).zip (canonicalNode n x l (2 * i + 1))).map (fun e => f32Add false .rne e.1 e.2)

/-- R329, R330, R333: in canonical mode, the shares of participants that together hold every index below N once give the root of the
canonical tree, however many they are and in whatever order they have come. -/
def CanonicalReduction : Prop :=
  ∀ (q : Partition) (shares : List Share) (n v level : Nat) (x : Nat → List W32), 1 ≤ n → n ≤ 2 ^ 31 →
    (∀ i, i < n → (x i).length = v) →
    (∀ y ∈ shares, y.n = n ∧ y.v = v ∧ y.ao = false ∧ y.lo + y.cnt ≤ n ∧ y.vals = shareVals false y.lo y.cnt n x) →
    (∀ i, i < n → ∃ pre y post, shares = pre ++ y :: post ∧ y.lo ≤ i ∧ i < y.lo + y.cnt
      ∧ ∀ z ∈ pre ++ post, ¬ (z.lo ≤ i ∧ i < z.lo + z.cnt)) →
    (q.cfg.det = true → ∀ y ∈ shares, y.det = true ∧ y.bin = q.cfg.bin.toNat ∧ y.pstart = q.cfg.pstart) →
    n ≤ 2 ^ level → level = 0 ∨ 2 ^ (level - 1) < n →
    q.reduce shares = some (canonicalNode n x level 0)

/-- R323, R326, R329, R330, R333, R335, R347, R356, R363 to R365, R368, R370: a header on a port whose peer is attested is answered with the
cause of R326 or moves its bytes, and one on another port is dropped without an answer (DEDUCED, log 46); a reduction leaves the
combiner with one result, in canonical mode the root of the tree over all contributions, sent to every participant whose port carries traffic, or REDUCE_FAULT; credits count for the channel that they name, in the form of a
withheld and a returned credit that is the model's (DESIGN CHOICE, log 12); an error is counted, an uncorrectable one puts every
partition that it touches under PEVENT bit 2; an hour counts, and measures; above 95 °C or 2,800 W THR clocks fall by 100 MHz, and
above 105 °C the module is to be reset; module reset leaves no partition, queue or context, GDDR without its contents, which reads as
0 (log 4, DESIGN CHOICE), keeps HLIFE, HCE and the health units and sets HCTL back to T 3 and W 24 (DEDUCED, log 58). That a limit is
met or left when a measured value comes is the model's form (log 58). -/
def Obligations.FabricAndHealthEvents : Prop :=
  CanonicalReduction ∧ ∀ (s : State),
    (∀ h : FabricHeader, ∃ t, Runs (.fabricHeaderCheck h) s t
        ∧ (s.module.attested.getLsbD h.port = false → t = s)
        ∧ (s.module.attested.getLsbD h.port = true →
          (s.headerVerdict h ≠ 0 → t.mem = s.mem ∧ t.outbox = s.outbox ++ [.fabric (s.headerVerdict h) []])
          ∧ (s.headerVerdict h = 0 → h.write = false → t.mem = s.mem
            ∧ t.outbox = s.outbox ++ [.fabric 0 (s.homeBytes h.part h.addr.toNat h.len)])
          ∧ (s.headerVerdict h = 0 → h.write = true → h.arrive = none →
            s.fifoTarget (fun c b => ((s.cluster c).modes.getD b .cache).isFifo) h.part h.addr.toNat h.len = none →
            t.outbox = s.outbox ++ [.fabric 0 []]
            ∧ t.mem = (s.homeStore h.part h.addr.toNat (h.payload.take h.len)).mem)))
      ∧ (∀ f, ∃ t, Runs (.fragmentArrival f) s t ∧ t.mem = s.mem)
      ∧ (∀ p o g seq, Comes s p o → o.kind = .reduction g seq →
        let q := s.part p
        let res := q.reduce (((q.reductions.find? (fun r => r.group == g && r.seq == seq)).map (fun r => r.shares)).getD [])
        ∃ t, Runs (.reductionResult p o.id) s t ∧ t.mem = s.mem
          ∧ (∀ r ∈ (t.part p).reductions, ¬ (r.group = g ∧ r.seq = seq))
          ∧ t.outbox = s.outbox ++ (((List.range (q.redP g)).filter (fun i => i != q.redSelf g && s.joined p g i)).map
              (fun i => .result (q.redRoute g i) g seq res))
          ∧ ∀ k c, s.ownCred p g seq = some (k, c) → c ∈ (s.core k).copies → ∃ d ∈ (t.core k).copies, d.id = c.id ∧ d.due ≠ none
            ∧ (∀ vs, res = some vs → d.fault = 0 ∧ d.writes = [(c.word 1, wholeBytes (vs.flatMap (fun v => bytesOf 4 v.toNat)))])
            ∧ (res = none → d.fault = 16 ∧ d.writes = []))
      ∧ (∀ p port vc n, (s.part p).cfg.ownsVc port vc = true → ∃ t u, Runs (.fabricCreditsReturned p (.withheld port vc)) s t
        ∧ Runs (.fabricCreditsReturned p (.returned port vc n)) s u ∧ t.mem = s.mem ∧ u.mem = s.mem
        ∧ amGet (t.part p).credits (16 * port + vc) = some ((amGet (s.part p).credits (16 * port + vc)).getD 0)
        ∧ (∀ m, amGet (s.part p).credits (16 * port + vc) = some m → amGet (u.part p).credits (16 * port + vc) = some (m + n)))
      ∧ (∀ u holder, ∃ t, Runs (.uncorrectableError u holder) s t ∧ t.module.hue = s.module.hue + 1 ∧ t.mem = s.mem
        ∧ ∀ p ∈ s.touched u holder.holder, (s.part p).st ≠ .none → (t.part p).pevent.getLsbD 2 = true)
      ∧ (∀ u repair, ∃ t, Runs (.correctedError u repair) s t ∧ t.module.hce = s.module.hce + 1 ∧ t.mem = s.mem ∧ t.parts = s.parts
        ∧ t.cores = s.cores)
      ∧ (∀ e : Thermal, ∃ t, Runs (.thermalEvent e) s t ∧ t.mem = s.mem ∧ t.cores = s.cores ∧ t.module.htemp = e.temp
        ∧ t.module.hpwr = e.watts
        ∧ (95 * 16 < e.temp.toNat ∨ 2800 < e.watts.toNat → e.temp.toNat ≤ 105 * 16 → (s.parts.map (fun e => e.1)).Nodup →
          ∀ p ∈ s.partsIn false, 18 < s.mult p → t.mult p = s.mult p - 1 ∧ t.cyc p = s.cyc p)
        ∧ (105 * 16 < e.temp.toNat → t.inputs = (s.now, .moduleReset) :: s.inputs))
      ∧ (∃ t, Runs .lifetimeHour s t ∧ t.module.hlife = s.module.hlife + 1 ∧ t.mem = s.mem ∧ t.cores = s.cores
        ∧ (t.module.htemp.toNat ≤ 95 * 16 → t.module.hpwr.toNat ≤ 2800 → t.parts = s.parts)
        ∧ (95 * 16 < t.module.htemp.toNat ∨ 2800 < t.module.hpwr.toNat → t.module.htemp.toNat ≤ 105 * 16 →
          (s.parts.map (fun e => e.1)).Nodup → ∀ p ∈ s.partsIn false, 18 < s.mult p → t.mult p = s.mult p - 1 ∧ t.cyc p = s.cyc p)
        ∧ (105 * 16 < t.module.htemp.toNat → t.inputs = (s.now, .moduleReset) :: s.inputs))
      ∧ ∃ t, Runs .moduleReset s t ∧ t.parts = [] ∧ t.queues = [] ∧ t.cores = [] ∧ t.module.hlife = s.module.hlife
        ∧ t.module.hce = s.module.hce ∧ t.module.units = s.module.units ∧ t.module.hctlT = 3 ∧ t.module.hctlW = 24
        ∧ ∀ a, a < 2 ^ 37 → memGet t.mem a = 0

/-! ## The whole machine -/

/-- R98: a slot operation whose guard lets nothing act, with its registers inside the windows, has no effect and never holds or
traps; the compares, which also write under a failed guard (R93), and the forms of handler mode, a PUTC to a register of handler mode
among them (R36, R71), stand apart. -/
def Obligations.SuppressedSlots : Prop :=
  ∀ (i : Instr) (f : Form) (s : State), formOf i = some f → f.acts s = false → (f.use s).bad = [] → s.me.st = .bound →
    (match i with
      | .cmp .. | .fcmp .. | .vCmp .. | .vFcmp .. | .vnfin .. => False
      | .hret .. | .snapst .. | .snapld .. | .snaprel .. => False
      | .putc _ csr _ => csrHandlerOnly csr.toNat = false
      | _ => True) → Runs i s s

/-- The width of a place, and whether a context has it. -/
def widthOf (d : Dest) : Nat :=
  match d with
  | .va _ => 1024 | .vb _ => 1024 | .lv _ => 1024 | .qv _ => 1024 | .p _ => 32 | .wc _ => 3 | _ => 64

def Present (x : Ctx) (d : Dest) : Prop :=
  match d with
  | .x n => n < 64
  | .hx n => n < 8
  | .va n => n < x.regs.va.size
  | .vb n => n < x.regs.vb.size
  | .lv n => n < x.regs.lv.size
  | .qv n => n < x.regs.qv.size
  | .wt n => n < 8
  | .wc n => n < 8
  | .df n k => n < 8 ∧ k < 7
  | .csr _ => False
  | .la n => n < 16
  | .qa n => n < 16
  | .ms n => n < 16
  | .ds n => n < 16
  | .sc n => n < 16
  | .p n => n < 16

/-- R27, R71, R72, R81, R94, R141: a result in flight changes nothing but its context's list of writes; where it lands, the bits of its
mask alone change in the one place that it names: NF in FLAGS, the masked bits of FMT, the CSR that a PUTC names, LDEPTH and the loop
levels; a CSR that nothing writes stays as it is. R388: where LDEPTH lands as v, the innermost levels above v are gone and the rest
keep their fields, or new levels of zeros, with the IL of the level that encloses them, stand inside the innermost until there are v;
a write to a field of a level changes that field, and no other level. -/
def Obligations.WritesInFlightAndLanding : Prop :=
  (∀ (s : State) (lat : Nat) (d : Dest) (m v : Vec),
      let t := s.push lat d m v
      t.mem = s.mem ∧ t.parts = s.parts ∧ t.queues = s.queues ∧ t.clusters = s.clusters ∧ t.module = s.module ∧ t.now = s.now
        ∧ (∀ k, k ≠ s.cur.1 → t.core k = s.core k) ∧ (∀ c, c ≠ s.cur.2 → t.ctx? s.cur.1 c = s.ctx? s.cur.1 c)
        ∧ ∃ w, t.me = { s.me with pend := s.me.pend ++ [w] } ∧ w.land = s.t + lat ∧ w.dest = d ∧ w.mask = m ∧ w.value = v)
    ∧ (∀ (x : Ctx) (d e : Dest) (m v : Vec), (∀ n, d ≠ .csr n) → (∀ n, e ≠ .csr n) →
      let y := x.landWrite d m v
      y.pc = x.pc ∧ y.levels = x.levels ∧ y.csr = x.csr ∧ y.counters = x.counters ∧ y.pend = x.pend ∧ y.traps = x.traps
        ∧ (d ≠ e → (∀ n k, e = .df n k → k < 7) → (∀ n k, d = .df n k → k < 7) → y.read e = x.read e)
        ∧ (Present x d → ∀ b, b < widthOf d → (y.read d).getLsbD b = if m.getLsbD b then v.getLsbD b else (x.read d).getLsbD b)
        ∧ (∀ n, n < 64 → d = .x n → y.read64 d = mergeBits (x.read64 d) (v.truncate 64) (m.truncate 64))
        ∧ (∀ n, n < x.regs.va.size → d = .va n → y.read d = mergeBits (x.read d) v m)
        ∧ (∀ n, n < 16 → d = .p n → vget y.regs.p n 0 = mergeBits (vget x.regs.p n 0) (v.truncate 32) (m.truncate 32)))
    ∧ ∀ (x : Ctx) (n : Nat) (m v : Vec),
      let y := x.landWrite (.csr n) m v
      y.regs = x.regs ∧ y.pc = x.pc ∧ y.st = x.st ∧ y.counters = x.counters ∧ y.pend = x.pend ∧ y.traps = x.traps
        ∧ (n = 0x018 → y = { x with csr := { x.csr with fmt := mergeBits x.csr.fmt (v.truncate 32) (m.truncate 32) } })
        ∧ (n = 0x019 → y = { x with csr := { x.csr with nf := if m.getLsbD 0 then v.getLsbD 0 else x.csr.nf } })
        ∧ (n = 0x021 → y = { x with baseIl := if m.getLsbD 0 then v.getLsbD 0 else x.baseIl })
        ∧ (n = 0x100 → y = { x with csr := { x.csr with tcause := mergeBits x.csr.tcause (v.truncate 64) (m.truncate 64) } })
        ∧ (n = 0x101 → y = { x with csr := { x.csr with epc := mergeBits x.csr.epc (v.truncate 64) (m.truncate 64) } })
        ∧ (n = 0x104 → y = { x with csr := { x.csr with tinfo := mergeBits x.csr.tinfo (v.truncate 64) (m.truncate 64) } })
        ∧ (n = 0x124 → y = { x with csr := { x.csr with fxhr := mergeBits x.csr.fxhr (v.truncate 9) (m.truncate 9) } })
        ∧ (n = 0x020 ∨ (0x040 ≤ n ∧ n < 0x070) → y = { x with levels := y.levels })
        ∧ (n = 0x020 →
          let depth := (mergeBits (BitVec.ofNat 64 x.levels.length) (v.truncate 64) (m.truncate 64)).toNat
          (depth ≤ x.levels.length → y.levels = x.levels.drop (x.levels.length - depth))
          ∧ (x.levels.length < depth → ∃ ls, y.levels = ls ++ x.levels ∧ ls.length = depth - x.levels.length
            ∧ ∀ l ∈ ls, l = ⟨0, 0, 0, 0, 0, false, 0, 0, ((x.levels.head?).map (fun l => l.il)).getD x.baseIl⟩))
        ∧ (0x040 ≤ n → n < 0x070 → y.levels.length = x.levels.length ∧ (∀ j, j ≠ (n - 0x040) / 8 → y.levels[j]? = x.levels[j]?)
          ∧ ∀ l, x.levels[(n - 0x040) / 8]? = some l →
            let takes := fun (f : Nat) (k : Level) => (n - 0x040) % 8 = f → y.levels[(n - 0x040) / 8]? = some k
            let old : BitVec 17 := BitVec.ofBool l.il ++ l.rrb ++ l.rsz ++ BitVec.ofBool l.prt ++ l.epi
            let c := mergeBits old (v.truncate 17) (m.truncate 17)
            takes 0 { l with count := mergeBits l.count (v.truncate 32) (m.truncate 32) }
              ∧ takes 1 { l with first := mergeBits l.first (v.truncate 64) (m.truncate 64) }
              ∧ takes 2 { l with last := mergeBits l.last (v.truncate 64) (m.truncate 64) }
              ∧ takes 3 { l with index := mergeBits l.index (v.truncate 32) (m.truncate 32) }
              ∧ takes 4 { l with epi := c.extractLsb' 0 3, prt := c.getLsbD 3, rsz := c.extractLsb' 4 5, rrb := c.extractLsb' 9 7, il := c.getLsbD 16 })
        ∧ (n ≠ 0x018 → n ≠ 0x019 → n ≠ 0x020 → n ≠ 0x021 → ¬ (0x040 ≤ n ∧ n < 0x070) → n ≠ 0x100 → n ≠ 0x101 → n ≠ 0x104 →
          n ≠ 0x124 → y = x)

/-- R5: memory as its one canonical form holds it. A masked write changes the masked bits of its byte and nothing else; a block is
its bytes in order of address, lowest first; two memories that read alike are one. -/
def Obligations.MemoryBytes : Prop :=
  (∀ (m : List Host.Cell) (w : PByte) (a : Nat), Memory.wf m = true →
      memGet (memPutByte m w) w.pa = mergeBits (memGet m w.pa) w.val w.mask
        ∧ (a ≠ w.pa → memGet (memPutByte m w) a = memGet m a))
    ∧ (∀ (m : List Host.Cell) (a n : Nat), Memory.wf m = true → memBlock m a n = (List.range n).map (fun i => memGet m (a + i)))
    ∧ (∀ (m k : List Host.Cell), Memory.wf m = true → Memory.wf k = true → (∀ a, memGet m a = memGet k a) → m = k)
    ∧ ∀ n w : Nat, natOfBytes (bytesOf n w) = w % 2 ^ (8 * n)

/-- R19 to R24, R39 to R48: a few words of the spec decode to the instructions it prints beside them, one for each slot. -/
def Obligations.DecodeWords : Prop :=
  decodeSlot (.s 0x000000006484314020FF#80) = .ok (some (.cmp 0xFF 1 2 1 6 5 3))
    ∧ decodeSlot (.v .v0 0x05040000000259F0#64) = .ok (some (.vqenc .v0 0xF0 2 0 0 0 true 5))
    ∧ decodeSlot (.v .v1 0x03000000040359F0#64) = .ok (some (.vqenc .v1 0xF0 3 1 0 0 false 3))
    ∧ decodeSlot (.m 0x0200010307FF#48) = .ok (some (.tview 0xFF 3 1 2))
    ∧ decodeSlot (.m 0x0600000410FF#48) = .ok (some (.tforce 0xFF 4 6))
    ∧ decodeSlot (.c 0x00000AFF#32) = .ok (some (.cred 0xFF 0))
    ∧ decodeSlot (.l 0x0100080102FF#48) = .ok (some (.ldv 0xFF 1 0 true 128 0))
    ∧ decodeSlot (.q 0x0000104210FF#48) = .ok (some (.aadd 0xFF 2 1 1 0 0 false))
    ∧ decodeSlot (.x 0x00000000500213FF#64) = .ok (some (.copyl 0xFF ⟨1, 4, 0, 5⟩ ⟨0, 0, 0, 0⟩))
    ∧ decodeSlot (.y 0x0012C1FF#28) = .ok (some (.wadd 0xFF 3 1 1 0))
    ∧ decodeSlot (.y 0x003102FF#28) = .ok (some (.tlincC 0xFF 4 1))

/-- R20 to R24, R39 to R48: decode and encode agree, in both directions: a well-formed slot operation decodes from its word, with every
operand, and a word that decodes to an operation is its one word, and the operation is well formed. An event has no word. -/
def Obligations.DecodeEncodeAgree : Prop :=
  (∀ (i : Instr) (w : SlotWord), i.wf = true → encode i = some w → decodeSlot w = .ok (some i))
    ∧ (∀ (i : Instr) (w : SlotWord), decodeSlot w = .ok (some i) → i.wf = true ∧ encode i = some w)
    ∧ ∀ i, encode i = none ↔ formOf i = none

/-- R50, R169, R172, R309, R343, R365, R367, R371: right after reset no context is bound, every bank is in CACHE without content, no
partition exists, every queue is DISABLED, bring-up has not run, HCTL holds T 3 and W 24. That memory which nothing has written
reads as 0 (log 4), and that queues are DISABLED and banks in CACHE before bring-up and CREATE (log 6), are the model's choices. -/
def Obligations.ResetState : Prop :=
  let s := State.reset
  (∀ k c, s.ctx? k c = none) ∧ (∀ c b, b < 48 → (s.cluster c).modes.getD b .fifo = .cache) ∧ (∀ c, (s.cluster c).lines = [])
    ∧ (∀ p, (s.part p).st = .none ∧ (s.part p).ranges = []) ∧ (∀ q, (s.queue q).st = .disabled ∧ (s.queue q).en = false)
    ∧ s.module.stage = 0 ∧ s.module.hctlT = 3 ∧ s.module.hctlW = 24 ∧ ∀ a, memGet s.mem a = 0

/-- The invariant of the model holds right after reset (log 4). -/
def Obligations.ResetInvariant : Prop := State.reset.Inv

/-- From every state that keeps it, a step leads to a state that keeps the invariant: memory stands in its canonical form, addresses
strictly rising and no cell equal to what an unlisted address reads as (log 4). -/
def Obligations.StepKeepsInvariant : Prop := ∀ s t : State, s.Inv → step s = .next t → t.Inv

/-- Every fault that the spec describes is taken as a trap, reported in a register or answered to its requester, and time always
passes: from every state a step leads to a next state (R285, R355; log 3). -/
def Obligations.StepNeverStops : Prop := ∀ s : State, ∃ t, step s = .next t

/-- R19, R27, R29, R52: a step runs what it fetches. When the next event is the issue of a context's bundle, and the bytes at its PC
decode to a bundle of one operation, the step is that operation in the state that the bundle reads, after a HOST bundle has applied
the host's entries, and the context moves on; and exec of that operation has this same effect, where no TG wait of the bundle
acquires. Any other step is exec of its event, or the passage of time to a later instant. That a bundle is put together from its
operations, that one step is one event or the passage of time, and that the host writes its own memory then, is the model's form
(logs 1, 3 and 8, DESIGN CHOICE). -/
def Obligations.StepRunsDecoded : Prop :=
  (∀ (s : State) (k c : Nat) (b : Bundle) (i : Instr) (f : Form), s.nextEvent = some (.bundleIssue k c) → s.fetch k c = .bundle b →
      b.ops = [i] → formOf i = some f → s.verdict k c = .issues b →
      let u := (((s.raiseDue k c).gainSlot k c).useSlot k true).atIssue k c b
      let v := u.acquireWaits b.hdr
      step s = .next (v.closeBundle ((f.sem v).effect (if b.hdr.host then v.applyIngress else v)) k c b)
        ∧ (v = u → exec i v = .next ((f.sem v).effect v)))
    ∧ (∀ (s : State) (i : Instr), s.nextEvent = some i → step s = exec i (s.withoutInput i))
    ∧ ∀ s : State, s.nextEvent = none → step s = .next { s with now := s.nextInstant }.hostWrites ∧ s.now < s.nextInstant
end

