-- ==== Sys2Proof/Laws/Memory.lean ====
section
/-! SUPPORT. The canonical form of memory (log 4): every operation on memory keeps it. -/

namespace Sys2Proof.Machine

/-- The canonical form as an order and a condition on the cells. -/
theorem wf_iff (m : List Host.Cell) :
    Memory.wf m = true ↔ m.Pairwise (fun a b => a.1 < b.1) ∧ ∀ c ∈ m, c.2 ≠ unlisted := by
  induction m with
  | nil => simp [Memory.wf]
  | cons c r ih =>
    obtain ⟨a, b⟩ := c
    cases r with
    | nil => simp [Memory.wf]
    | cons d r =>
      obtain ⟨a', b'⟩ := d
      simp only [Memory.wf, Bool.and_eq_true, decide_eq_true_eq, bne_iff_ne, ih, List.pairwise_cons, List.mem_cons,
        forall_eq_or_imp]
      constructor
      · rintro ⟨⟨hb, h⟩, ⟨h1, h2⟩, h3, h4⟩
        exact ⟨⟨⟨h, fun x hx => Nat.lt_trans h (h1 x hx)⟩, h1, h2⟩, hb, h3, h4⟩
      · rintro ⟨⟨⟨h, -⟩, h1, h2⟩, hb, h3, h4⟩
        exact ⟨⟨hb, h⟩, ⟨h1, h2⟩, h3, h4⟩

/-- The cells after one byte has been set: old cells, and the new one where it is listed. -/
theorem mem_memPut {m : List Host.Cell} {k : Nat} {v : Byte} {c : Host.Cell} (h : c ∈ memPut m k v) :
    c ∈ m ∨ (c = (k, v) ∧ v ≠ unlisted) := by
  induction m with
  | nil =>
    simp only [memPut] at h
    split at h
    · simp at h
    · next hv => simp at h; exact .inr ⟨h, hv⟩
  | cons d r ih =>
    obtain ⟨a, b⟩ := d
    simp only [memPut] at h
    split at h
    · rcases List.mem_cons.1 h with h | h
      · exact .inl (by simp [h])
      · rcases ih h with h | h
        · exact .inl (List.mem_cons_of_mem _ h)
        · exact .inr h
    · split at h <;> split at h
      · exact .inl (List.mem_cons_of_mem _ h)
      · next hv =>
        rcases List.mem_cons.1 h with h | h
        · exact .inr ⟨h, hv⟩
        · exact .inl (List.mem_cons_of_mem _ h)
      · exact .inl h
      · next hv =>
        rcases List.mem_cons.1 h with h | h
        · exact .inr ⟨h, hv⟩
        · exact .inl h

/-- Setting a byte keeps the order of the cells. -/
theorem memPut_sorted {m : List Host.Cell} (k : Nat) (v : Byte) (h : m.Pairwise (fun a b => a.1 < b.1)) :
    (memPut m k v).Pairwise (fun a b => a.1 < b.1) := by
  induction m with
  | nil => simp only [memPut]; split <;> simp
  | cons d r ih =>
    obtain ⟨a, b⟩ := d
    rw [List.pairwise_cons] at h
    simp only [memPut]
    split
    · next hk =>
      rw [List.pairwise_cons]
      refine ⟨fun x hx => ?_, ih h.2⟩
      rcases mem_memPut hx with hx | ⟨rfl, -⟩
      · exact h.1 x hx
      · exact hk
    · split <;> split
      · exact h.2
      · next hk _ => exact List.pairwise_cons.2 ⟨fun x hx => by have := h.1 x hx; simp at this ⊢; omega, h.2⟩
      · exact List.pairwise_cons.2 h
      · next hk hn _ =>
        refine List.pairwise_cons.2 ⟨fun x hx => ?_, List.pairwise_cons.2 h⟩
        have : k < a := by omega
        rcases List.mem_cons.1 hx with rfl | hx
        · exact this
        · exact Nat.lt_trans this (h.1 x hx)

/-- Setting a byte keeps the canonical form. -/
theorem wf_memPut {m : List Host.Cell} (k : Nat) (v : Byte) (h : Memory.wf m = true) : Memory.wf (memPut m k v) = true := by
  rw [wf_iff] at h ⊢
  refine ⟨memPut_sorted k v h.1, fun c hc => ?_⟩
  rcases mem_memPut hc with hc | ⟨rfl, hv⟩
  · exact h.2 c hc
  · exact hv

/-- A masked byte written keeps the canonical form. -/
theorem wf_memPutByte {m : List Host.Cell} (w : PByte) (h : Memory.wf m = true) : Memory.wf (memPutByte m w) = true :=
  wf_memPut _ _ h

/-- Bytes written keep the canonical form. -/
theorem wf_memWrite {m : List Host.Cell} (ws : List PByte) (h : Memory.wf m = true) : Memory.wf (memWrite m ws) = true := by
  unfold memWrite
  induction ws generalizing m with
  | nil => exact h
  | cons w r ih => exact ih (wf_memPutByte w h)

/-- A part of memory dropped keeps the canonical form. -/
theorem wf_filter {m : List Host.Cell} (p : Host.Cell → Bool) (h : Memory.wf m = true) : Memory.wf (m.filter p) = true := by
  rw [wf_iff] at h ⊢
  exact ⟨h.1.filter p, fun c hc => h.2 c (List.mem_of_mem_filter hc)⟩

theorem wf_memDrop {m : List Host.Cell} (lo n : Nat) (h : Memory.wf m = true) : Memory.wf (memDrop m lo n) = true :=
  wf_filter _ h

/-- A line allocated in a cache keeps the canonical form: its victim alone is written. -/
theorem wf_allocLine {m : List Host.Cell} (c : Cluster) (a rd : Nat) (h : Memory.wf m = true) :
    Memory.wf (allocLine m c a rd).1 = true := by
  unfold allocLine
  dsimp only
  split
  · exact h
  · split
    · exact h
    · split
      · exact h
      · exact wf_memWrite _ h

theorem wf_touchLine {m : List Host.Cell} (c : Cluster) (pa rd : Nat) (h : Memory.wf m = true) :
    Memory.wf (touchLine m c pa rd).1 = true := by
  unfold touchLine
  split
  · exact h
  · exact wf_allocLine _ _ _ h

theorem wf_cacheWriteByte {m : List Host.Cell} (c : Cluster) (w : PByte) (h : Memory.wf m = true) :
    Memory.wf (cacheWriteByte m c w).1 = true := by
  unfold cacheWriteByte
  split
  · exact h
  · exact wf_memPutByte w h

/-- A step that keeps the canonical form keeps it along a list. -/
theorem wf_foldl {α : Type} (f : List Host.Cell × Cluster → α → List Host.Cell × Cluster)
    (hf : ∀ mc a, Memory.wf mc.1 = true → Memory.wf (f mc a).1 = true) (l : List α) (mc : List Host.Cell × Cluster)
    (h : Memory.wf mc.1 = true) : Memory.wf (l.foldl f mc).1 = true := by
  induction l generalizing mc with
  | nil => exact h
  | cons a r ih => exact ih _ (hf mc a h)

/-- A core's writes keep the canonical form. -/
theorem wf_cacheWrite {m : List Host.Cell} (c : Cluster) (ws : List PByte) (h : Memory.wf m = true) :
    Memory.wf (cacheWrite m c ws).1 = true := by
  unfold cacheWrite
  exact wf_foldl _ (fun mc w hm => wf_cacheWriteByte mc.2 w hm) _ _
    (wf_foldl _ (fun mc a hm => wf_touchLine mc.2 a 2 hm) _ _ h)

/-- Lines written back keep the canonical form. -/
theorem wf_flushLines {m : List Host.Cell} (c : Cluster) (p : Line → Bool) (inval : Bool) (h : Memory.wf m = true) :
    Memory.wf (flushLines m c p inval).1 = true := wf_memWrite _ h

/-- Memory right after reset has the canonical form. -/
theorem wf_reset : Memory.wf State.reset.mem = true := rfl

end Sys2Proof.Machine
end

