-- ==== Sys2Proof/Laws/State.lean ====
section
/-! SUPPORT. What each update of the state leaves of each field, true by definition, and what the accessors read after an
update, so that no later proof unfolds a record update. -/

namespace Sys2Proof.Machine

/-! ## Finite maps -/

@[simp] theorem amGet_amSet_self {α : Type} (m : AMap α) (k : Nat) (a : α) : amGet (amSet m k a) k = some a := by
  induction m with
  | nil => simp [amSet, amGet]
  | cons e r ih =>
    obtain ⟨j, b⟩ := e
    unfold amSet
    split
    · simp [amGet]
    · split
      · simp [amGet]
      · rename_i h _; simp [amGet, h, ih]

theorem amGet_amSet_of_ne {α : Type} (m : AMap α) {j k : Nat} (a : α) (h : j ≠ k) : amGet (amSet m k a) j = amGet m j := by
  induction m with
  | nil => simp [amSet, amGet, Ne.symm h]
  | cons e r ih =>
    obtain ⟨i, b⟩ := e
    unfold amSet
    split
    · rename_i hi; subst hi; simp [amGet, Ne.symm h]
    · split
      · simp [amGet, Ne.symm h]
      · simp [amGet, ih]

/-! ## Fields under the updates of a part -/

@[simp] theorem State.setPart_now (s : State) (p : Nat) (x : Partition) : (s.setPart p x).now = s.now := rfl
@[simp] theorem State.setPart_fresh (s : State) (p : Nat) (x : Partition) : (s.setPart p x).fresh = s.fresh := rfl
@[simp] theorem State.setPart_nextId (s : State) (p : Nat) (x : Partition) : (s.setPart p x).nextId = s.nextId := rfl
@[simp] theorem State.setPart_cur (s : State) (p : Nat) (x : Partition) : (s.setPart p x).cur = s.cur := rfl
@[simp] theorem State.setPart_inputs (s : State) (p : Nat) (x : Partition) : (s.setPart p x).inputs = s.inputs := rfl
@[simp] theorem State.setPart_hostStores (s : State) (p : Nat) (x : Partition) : (s.setPart p x).hostStores = s.hostStores := rfl
@[simp] theorem State.setPart_outbox (s : State) (p : Nat) (x : Partition) : (s.setPart p x).outbox = s.outbox := rfl
@[simp] theorem State.setPart_module (s : State) (p : Nat) (x : Partition) : (s.setPart p x).module = s.module := rfl
@[simp] theorem State.setPart_mem (s : State) (p : Nat) (x : Partition) : (s.setPart p x).mem = s.mem := rfl
@[simp] theorem State.setPart_queues (s : State) (p : Nat) (x : Partition) : (s.setPart p x).queues = s.queues := rfl
@[simp] theorem State.setPart_clusters (s : State) (p : Nat) (x : Partition) : (s.setPart p x).clusters = s.clusters := rfl
@[simp] theorem State.setPart_cores (s : State) (p : Nat) (x : Partition) : (s.setPart p x).cores = s.cores := rfl
@[simp] theorem State.setPart_cycles (s : State) (p : Nat) (x : Partition) : (s.setPart p x).cycles = s.cycles := rfl

@[simp] theorem State.setQueue_now (s : State) (q : Nat) (x : Queue) : (s.setQueue q x).now = s.now := rfl
@[simp] theorem State.setQueue_fresh (s : State) (q : Nat) (x : Queue) : (s.setQueue q x).fresh = s.fresh := rfl
@[simp] theorem State.setQueue_nextId (s : State) (q : Nat) (x : Queue) : (s.setQueue q x).nextId = s.nextId := rfl
@[simp] theorem State.setQueue_cur (s : State) (q : Nat) (x : Queue) : (s.setQueue q x).cur = s.cur := rfl
@[simp] theorem State.setQueue_inputs (s : State) (q : Nat) (x : Queue) : (s.setQueue q x).inputs = s.inputs := rfl
@[simp] theorem State.setQueue_hostStores (s : State) (q : Nat) (x : Queue) : (s.setQueue q x).hostStores = s.hostStores := rfl
@[simp] theorem State.setQueue_outbox (s : State) (q : Nat) (x : Queue) : (s.setQueue q x).outbox = s.outbox := rfl
@[simp] theorem State.setQueue_module (s : State) (q : Nat) (x : Queue) : (s.setQueue q x).module = s.module := rfl
@[simp] theorem State.setQueue_mem (s : State) (q : Nat) (x : Queue) : (s.setQueue q x).mem = s.mem := rfl
@[simp] theorem State.setQueue_parts (s : State) (q : Nat) (x : Queue) : (s.setQueue q x).parts = s.parts := rfl
@[simp] theorem State.setQueue_clusters (s : State) (q : Nat) (x : Queue) : (s.setQueue q x).clusters = s.clusters := rfl
@[simp] theorem State.setQueue_cores (s : State) (q : Nat) (x : Queue) : (s.setQueue q x).cores = s.cores := rfl
@[simp] theorem State.setQueue_cycles (s : State) (q : Nat) (x : Queue) : (s.setQueue q x).cycles = s.cycles := rfl

@[simp] theorem State.setCluster_now (s : State) (c : Nat) (x : Cluster) : (s.setCluster c x).now = s.now := rfl
@[simp] theorem State.setCluster_fresh (s : State) (c : Nat) (x : Cluster) : (s.setCluster c x).fresh = s.fresh := rfl
@[simp] theorem State.setCluster_nextId (s : State) (c : Nat) (x : Cluster) : (s.setCluster c x).nextId = s.nextId := rfl
@[simp] theorem State.setCluster_cur (s : State) (c : Nat) (x : Cluster) : (s.setCluster c x).cur = s.cur := rfl
@[simp] theorem State.setCluster_inputs (s : State) (c : Nat) (x : Cluster) : (s.setCluster c x).inputs = s.inputs := rfl
@[simp] theorem State.setCluster_hostStores (s : State) (c : Nat) (x : Cluster) : (s.setCluster c x).hostStores = s.hostStores := rfl
@[simp] theorem State.setCluster_outbox (s : State) (c : Nat) (x : Cluster) : (s.setCluster c x).outbox = s.outbox := rfl
@[simp] theorem State.setCluster_module (s : State) (c : Nat) (x : Cluster) : (s.setCluster c x).module = s.module := rfl
@[simp] theorem State.setCluster_mem (s : State) (c : Nat) (x : Cluster) : (s.setCluster c x).mem = s.mem := rfl
@[simp] theorem State.setCluster_parts (s : State) (c : Nat) (x : Cluster) : (s.setCluster c x).parts = s.parts := rfl
@[simp] theorem State.setCluster_queues (s : State) (c : Nat) (x : Cluster) : (s.setCluster c x).queues = s.queues := rfl
@[simp] theorem State.setCluster_cores (s : State) (c : Nat) (x : Cluster) : (s.setCluster c x).cores = s.cores := rfl
@[simp] theorem State.setCluster_cycles (s : State) (c : Nat) (x : Cluster) : (s.setCluster c x).cycles = s.cycles := rfl

@[simp] theorem State.setCore_now (s : State) (k : Nat) (x : Core) : (s.setCore k x).now = s.now := rfl
@[simp] theorem State.setCore_fresh (s : State) (k : Nat) (x : Core) : (s.setCore k x).fresh = s.fresh := rfl
@[simp] theorem State.setCore_nextId (s : State) (k : Nat) (x : Core) : (s.setCore k x).nextId = s.nextId := rfl
@[simp] theorem State.setCore_cur (s : State) (k : Nat) (x : Core) : (s.setCore k x).cur = s.cur := rfl
@[simp] theorem State.setCore_inputs (s : State) (k : Nat) (x : Core) : (s.setCore k x).inputs = s.inputs := rfl
@[simp] theorem State.setCore_hostStores (s : State) (k : Nat) (x : Core) : (s.setCore k x).hostStores = s.hostStores := rfl
@[simp] theorem State.setCore_outbox (s : State) (k : Nat) (x : Core) : (s.setCore k x).outbox = s.outbox := rfl
@[simp] theorem State.setCore_module (s : State) (k : Nat) (x : Core) : (s.setCore k x).module = s.module := rfl
@[simp] theorem State.setCore_mem (s : State) (k : Nat) (x : Core) : (s.setCore k x).mem = s.mem := rfl
@[simp] theorem State.setCore_parts (s : State) (k : Nat) (x : Core) : (s.setCore k x).parts = s.parts := rfl
@[simp] theorem State.setCore_queues (s : State) (k : Nat) (x : Core) : (s.setCore k x).queues = s.queues := rfl
@[simp] theorem State.setCore_clusters (s : State) (k : Nat) (x : Core) : (s.setCore k x).clusters = s.clusters := rfl
@[simp] theorem State.setCore_cycles (s : State) (k : Nat) (x : Core) : (s.setCore k x).cycles = s.cycles := rfl

@[simp] theorem State.onPart_now (s : State) (p : Nat) (f : Partition → Partition) : (s.onPart p f).now = s.now := rfl
@[simp] theorem State.onPart_fresh (s : State) (p : Nat) (f : Partition → Partition) : (s.onPart p f).fresh = s.fresh := rfl
@[simp] theorem State.onPart_nextId (s : State) (p : Nat) (f : Partition → Partition) : (s.onPart p f).nextId = s.nextId := rfl
@[simp] theorem State.onPart_cur (s : State) (p : Nat) (f : Partition → Partition) : (s.onPart p f).cur = s.cur := rfl
@[simp] theorem State.onPart_inputs (s : State) (p : Nat) (f : Partition → Partition) : (s.onPart p f).inputs = s.inputs := rfl
@[simp] theorem State.onPart_hostStores (s : State) (p : Nat) (f : Partition → Partition) : (s.onPart p f).hostStores = s.hostStores := rfl
@[simp] theorem State.onPart_outbox (s : State) (p : Nat) (f : Partition → Partition) : (s.onPart p f).outbox = s.outbox := rfl
@[simp] theorem State.onPart_module (s : State) (p : Nat) (f : Partition → Partition) : (s.onPart p f).module = s.module := rfl
@[simp] theorem State.onPart_mem (s : State) (p : Nat) (f : Partition → Partition) : (s.onPart p f).mem = s.mem := rfl
@[simp] theorem State.onPart_queues (s : State) (p : Nat) (f : Partition → Partition) : (s.onPart p f).queues = s.queues := rfl
@[simp] theorem State.onPart_clusters (s : State) (p : Nat) (f : Partition → Partition) : (s.onPart p f).clusters = s.clusters := rfl
@[simp] theorem State.onPart_cores (s : State) (p : Nat) (f : Partition → Partition) : (s.onPart p f).cores = s.cores := rfl
@[simp] theorem State.onPart_cycles (s : State) (p : Nat) (f : Partition → Partition) : (s.onPart p f).cycles = s.cycles := rfl

@[simp] theorem State.onQueue_now (s : State) (q : Nat) (f : Queue → Queue) : (s.onQueue q f).now = s.now := rfl
@[simp] theorem State.onQueue_fresh (s : State) (q : Nat) (f : Queue → Queue) : (s.onQueue q f).fresh = s.fresh := rfl
@[simp] theorem State.onQueue_nextId (s : State) (q : Nat) (f : Queue → Queue) : (s.onQueue q f).nextId = s.nextId := rfl
@[simp] theorem State.onQueue_cur (s : State) (q : Nat) (f : Queue → Queue) : (s.onQueue q f).cur = s.cur := rfl
@[simp] theorem State.onQueue_inputs (s : State) (q : Nat) (f : Queue → Queue) : (s.onQueue q f).inputs = s.inputs := rfl
@[simp] theorem State.onQueue_hostStores (s : State) (q : Nat) (f : Queue → Queue) : (s.onQueue q f).hostStores = s.hostStores := rfl
@[simp] theorem State.onQueue_outbox (s : State) (q : Nat) (f : Queue → Queue) : (s.onQueue q f).outbox = s.outbox := rfl
@[simp] theorem State.onQueue_module (s : State) (q : Nat) (f : Queue → Queue) : (s.onQueue q f).module = s.module := rfl
@[simp] theorem State.onQueue_mem (s : State) (q : Nat) (f : Queue → Queue) : (s.onQueue q f).mem = s.mem := rfl
@[simp] theorem State.onQueue_parts (s : State) (q : Nat) (f : Queue → Queue) : (s.onQueue q f).parts = s.parts := rfl
@[simp] theorem State.onQueue_clusters (s : State) (q : Nat) (f : Queue → Queue) : (s.onQueue q f).clusters = s.clusters := rfl
@[simp] theorem State.onQueue_cores (s : State) (q : Nat) (f : Queue → Queue) : (s.onQueue q f).cores = s.cores := rfl
@[simp] theorem State.onQueue_cycles (s : State) (q : Nat) (f : Queue → Queue) : (s.onQueue q f).cycles = s.cycles := rfl

@[simp] theorem State.onCluster_now (s : State) (c : Nat) (f : Cluster → Cluster) : (s.onCluster c f).now = s.now := rfl
@[simp] theorem State.onCluster_fresh (s : State) (c : Nat) (f : Cluster → Cluster) : (s.onCluster c f).fresh = s.fresh := rfl
@[simp] theorem State.onCluster_nextId (s : State) (c : Nat) (f : Cluster → Cluster) : (s.onCluster c f).nextId = s.nextId := rfl
@[simp] theorem State.onCluster_cur (s : State) (c : Nat) (f : Cluster → Cluster) : (s.onCluster c f).cur = s.cur := rfl
@[simp] theorem State.onCluster_inputs (s : State) (c : Nat) (f : Cluster → Cluster) : (s.onCluster c f).inputs = s.inputs := rfl
@[simp] theorem State.onCluster_hostStores (s : State) (c : Nat) (f : Cluster → Cluster) : (s.onCluster c f).hostStores = s.hostStores := rfl
@[simp] theorem State.onCluster_outbox (s : State) (c : Nat) (f : Cluster → Cluster) : (s.onCluster c f).outbox = s.outbox := rfl
@[simp] theorem State.onCluster_module (s : State) (c : Nat) (f : Cluster → Cluster) : (s.onCluster c f).module = s.module := rfl
@[simp] theorem State.onCluster_mem (s : State) (c : Nat) (f : Cluster → Cluster) : (s.onCluster c f).mem = s.mem := rfl
@[simp] theorem State.onCluster_parts (s : State) (c : Nat) (f : Cluster → Cluster) : (s.onCluster c f).parts = s.parts := rfl
@[simp] theorem State.onCluster_queues (s : State) (c : Nat) (f : Cluster → Cluster) : (s.onCluster c f).queues = s.queues := rfl
@[simp] theorem State.onCluster_cores (s : State) (c : Nat) (f : Cluster → Cluster) : (s.onCluster c f).cores = s.cores := rfl
@[simp] theorem State.onCluster_cycles (s : State) (c : Nat) (f : Cluster → Cluster) : (s.onCluster c f).cycles = s.cycles := rfl

@[simp] theorem State.onCore_now (s : State) (k : Nat) (f : Core → Core) : (s.onCore k f).now = s.now := rfl
@[simp] theorem State.onCore_fresh (s : State) (k : Nat) (f : Core → Core) : (s.onCore k f).fresh = s.fresh := rfl
@[simp] theorem State.onCore_nextId (s : State) (k : Nat) (f : Core → Core) : (s.onCore k f).nextId = s.nextId := rfl
@[simp] theorem State.onCore_cur (s : State) (k : Nat) (f : Core → Core) : (s.onCore k f).cur = s.cur := rfl
@[simp] theorem State.onCore_inputs (s : State) (k : Nat) (f : Core → Core) : (s.onCore k f).inputs = s.inputs := rfl
@[simp] theorem State.onCore_hostStores (s : State) (k : Nat) (f : Core → Core) : (s.onCore k f).hostStores = s.hostStores := rfl
@[simp] theorem State.onCore_outbox (s : State) (k : Nat) (f : Core → Core) : (s.onCore k f).outbox = s.outbox := rfl
@[simp] theorem State.onCore_module (s : State) (k : Nat) (f : Core → Core) : (s.onCore k f).module = s.module := rfl
@[simp] theorem State.onCore_mem (s : State) (k : Nat) (f : Core → Core) : (s.onCore k f).mem = s.mem := rfl
@[simp] theorem State.onCore_parts (s : State) (k : Nat) (f : Core → Core) : (s.onCore k f).parts = s.parts := rfl
@[simp] theorem State.onCore_queues (s : State) (k : Nat) (f : Core → Core) : (s.onCore k f).queues = s.queues := rfl
@[simp] theorem State.onCore_clusters (s : State) (k : Nat) (f : Core → Core) : (s.onCore k f).clusters = s.clusters := rfl
@[simp] theorem State.onCore_cycles (s : State) (k : Nat) (f : Core → Core) : (s.onCore k f).cycles = s.cycles := rfl

@[simp] theorem State.setCtx_now (s : State) (k c : Nat) (x : Ctx) : (s.setCtx k c x).now = s.now := rfl
@[simp] theorem State.setCtx_fresh (s : State) (k c : Nat) (x : Ctx) : (s.setCtx k c x).fresh = s.fresh := rfl
@[simp] theorem State.setCtx_nextId (s : State) (k c : Nat) (x : Ctx) : (s.setCtx k c x).nextId = s.nextId := rfl
@[simp] theorem State.setCtx_cur (s : State) (k c : Nat) (x : Ctx) : (s.setCtx k c x).cur = s.cur := rfl
@[simp] theorem State.setCtx_inputs (s : State) (k c : Nat) (x : Ctx) : (s.setCtx k c x).inputs = s.inputs := rfl
@[simp] theorem State.setCtx_hostStores (s : State) (k c : Nat) (x : Ctx) : (s.setCtx k c x).hostStores = s.hostStores := rfl
@[simp] theorem State.setCtx_outbox (s : State) (k c : Nat) (x : Ctx) : (s.setCtx k c x).outbox = s.outbox := rfl
@[simp] theorem State.setCtx_module (s : State) (k c : Nat) (x : Ctx) : (s.setCtx k c x).module = s.module := rfl
@[simp] theorem State.setCtx_mem (s : State) (k c : Nat) (x : Ctx) : (s.setCtx k c x).mem = s.mem := rfl
@[simp] theorem State.setCtx_parts (s : State) (k c : Nat) (x : Ctx) : (s.setCtx k c x).parts = s.parts := rfl
@[simp] theorem State.setCtx_queues (s : State) (k c : Nat) (x : Ctx) : (s.setCtx k c x).queues = s.queues := rfl
@[simp] theorem State.setCtx_clusters (s : State) (k c : Nat) (x : Ctx) : (s.setCtx k c x).clusters = s.clusters := rfl
@[simp] theorem State.setCtx_cycles (s : State) (k c : Nat) (x : Ctx) : (s.setCtx k c x).cycles = s.cycles := rfl

@[simp] theorem State.onMe_now (s : State) (f : Ctx → Ctx) : (s.onMe f).now = s.now := rfl
@[simp] theorem State.onMe_fresh (s : State) (f : Ctx → Ctx) : (s.onMe f).fresh = s.fresh := rfl
@[simp] theorem State.onMe_nextId (s : State) (f : Ctx → Ctx) : (s.onMe f).nextId = s.nextId := rfl
@[simp] theorem State.onMe_cur (s : State) (f : Ctx → Ctx) : (s.onMe f).cur = s.cur := rfl
@[simp] theorem State.onMe_inputs (s : State) (f : Ctx → Ctx) : (s.onMe f).inputs = s.inputs := rfl
@[simp] theorem State.onMe_hostStores (s : State) (f : Ctx → Ctx) : (s.onMe f).hostStores = s.hostStores := rfl
@[simp] theorem State.onMe_outbox (s : State) (f : Ctx → Ctx) : (s.onMe f).outbox = s.outbox := rfl
@[simp] theorem State.onMe_module (s : State) (f : Ctx → Ctx) : (s.onMe f).module = s.module := rfl
@[simp] theorem State.onMe_mem (s : State) (f : Ctx → Ctx) : (s.onMe f).mem = s.mem := rfl
@[simp] theorem State.onMe_parts (s : State) (f : Ctx → Ctx) : (s.onMe f).parts = s.parts := rfl
@[simp] theorem State.onMe_queues (s : State) (f : Ctx → Ctx) : (s.onMe f).queues = s.queues := rfl
@[simp] theorem State.onMe_clusters (s : State) (f : Ctx → Ctx) : (s.onMe f).clusters = s.clusters := rfl
@[simp] theorem State.onMe_cycles (s : State) (f : Ctx → Ctx) : (s.onMe f).cycles = s.cycles := rfl

/-! ## Parts after an update -/

@[simp] theorem State.setPart_part (s : State) (p : Nat) (x : Partition) : (s.setPart p x).part p = x := by
  simp [State.part, State.setPart]
@[simp] theorem State.onPart_part (s : State) (p : Nat) (f : Partition → Partition) : (s.onPart p f).part p = f (s.part p) := by
  simp [State.onPart]
theorem State.setPart_part_of_ne (s : State) {p q : Nat} (x : Partition) (h : q ≠ p) : (s.setPart p x).part q = s.part q := by
  simp [State.part, State.setPart, amGet_amSet_of_ne _ _ h]
@[simp] theorem State.setQueue_queue (s : State) (q : Nat) (x : Queue) : (s.setQueue q x).queue q = x := by
  simp [State.queue, State.setQueue]
@[simp] theorem State.onQueue_queue (s : State) (q : Nat) (f : Queue → Queue) : (s.onQueue q f).queue q = f (s.queue q) := by
  simp [State.onQueue]
theorem State.setQueue_queue_of_ne (s : State) {p q : Nat} (x : Queue) (h : p ≠ q) : (s.setQueue q x).queue p = s.queue p := by
  simp [State.queue, State.setQueue, amGet_amSet_of_ne _ _ h]
@[simp] theorem State.setCluster_cluster (s : State) (c : Nat) (x : Cluster) : (s.setCluster c x).cluster c = x := by
  simp [State.cluster, State.setCluster]
@[simp] theorem State.onCluster_cluster (s : State) (c : Nat) (f : Cluster → Cluster) :
    (s.onCluster c f).cluster c = f (s.cluster c) := by
  simp [State.onCluster]
@[simp] theorem State.setCore_core (s : State) (k : Nat) (x : Core) : (s.setCore k x).core k = x := by
  simp [State.core, State.setCore]
@[simp] theorem State.onCore_core (s : State) (k : Nat) (f : Core → Core) : (s.onCore k f).core k = f (s.core k) := by
  simp [State.onCore]
theorem State.setCore_core_of_ne (s : State) {j k : Nat} (x : Core) (h : j ≠ k) : (s.setCore k x).core j = s.core j := by
  simp [State.core, State.setCore, amGet_amSet_of_ne _ _ h]
theorem State.onCore_core_of_ne (s : State) {j k : Nat} (f : Core → Core) (h : j ≠ k) : (s.onCore k f).core j = s.core j :=
  s.setCore_core_of_ne _ h
@[simp] theorem State.setCtx_core (s : State) (k c : Nat) (x : Ctx) :
    (s.setCtx k c x).core k = { s.core k with ctxs := amSet (s.core k).ctxs c x } := by
  simp [State.setCtx]
@[simp] theorem State.setCtx_ctx? (s : State) (k c : Nat) (x : Ctx) : (s.setCtx k c x).ctx? k c = some x := by
  simp [State.ctx?]
@[simp] theorem State.setCtx_ctx (s : State) (k c : Nat) (x : Ctx) : (s.setCtx k c x).ctx k c = x := by
  simp [State.ctx]
theorem State.setCtx_ctx?_of_ne (s : State) {j k c d : Nat} (x : Ctx) (h : (j, d) ≠ (k, c)) :
    (s.setCtx k c x).ctx? j d = s.ctx? j d := by
  by_cases hj : j = k
  · subst hj
    have hd : d ≠ c := fun e => h (by rw [e])
    simp [State.ctx?, amGet_amSet_of_ne _ _ hd]
  · simp [State.ctx?, State.setCtx, State.onCore_core_of_ne _ _ hj]
@[simp] theorem State.onMe_me (s : State) (f : Ctx → Ctx) : (s.onMe f).me = f s.me := by
  simp [State.me, State.onMe]
@[simp] theorem State.onMe_myCore (s : State) (f : Ctx → Ctx) :
    (s.onMe f).myCore = { s.myCore with ctxs := amSet s.myCore.ctxs s.cur.2 (f s.me) } := by
  simp [State.myCore, State.onMe]

/-! ## What depends on the partitions and the instant alone -/

@[simp] theorem State.setQueue_partOf (s : State) (i : Nat) (x : Queue) (j : Nat) : (s.setQueue i x).partOf j = s.partOf j := rfl
@[simp] theorem State.setQueue_cyc (s : State) (i : Nat) (x : Queue) (q : Nat) : (s.setQueue i x).cyc q = s.cyc q := rfl
@[simp] theorem State.setQueue_isDet (s : State) (i : Nat) (x : Queue) (q : Nat) : (s.setQueue i x).isDet q = s.isDet q := rfl
@[simp] theorem State.setQueue_mult (s : State) (i : Nat) (x : Queue) (q : Nat) : (s.setQueue i x).mult q = s.mult q := rfl
@[simp] theorem State.setQueue_part (s : State) (i : Nat) (x : Queue) (q : Nat) : (s.setQueue i x).part q = s.part q := rfl
@[simp] theorem State.setQueue_myPart (s : State) (i : Nat) (x : Queue) : (s.setQueue i x).myPart = s.myPart := rfl
@[simp] theorem State.setQueue_myP (s : State) (i : Nat) (x : Queue) : (s.setQueue i x).myP = s.myP := rfl
@[simp] theorem State.setQueue_t (s : State) (i : Nat) (x : Queue) : (s.setQueue i x).t = s.t := rfl
@[simp] theorem State.setQueue_ranges (s : State) (i : Nat) (x : Queue) : (s.setQueue i x).ranges = s.ranges := rfl
@[simp] theorem State.setCluster_partOf (s : State) (c : Nat) (x : Cluster) (j : Nat) : (s.setCluster c x).partOf j = s.partOf j := rfl
@[simp] theorem State.setCluster_cyc (s : State) (c : Nat) (x : Cluster) (q : Nat) : (s.setCluster c x).cyc q = s.cyc q := rfl
@[simp] theorem State.setCluster_isDet (s : State) (c : Nat) (x : Cluster) (q : Nat) : (s.setCluster c x).isDet q = s.isDet q := rfl
@[simp] theorem State.setCluster_mult (s : State) (c : Nat) (x : Cluster) (q : Nat) : (s.setCluster c x).mult q = s.mult q := rfl
@[simp] theorem State.setCluster_part (s : State) (c : Nat) (x : Cluster) (q : Nat) : (s.setCluster c x).part q = s.part q := rfl
@[simp] theorem State.setCluster_myPart (s : State) (c : Nat) (x : Cluster) : (s.setCluster c x).myPart = s.myPart := rfl
@[simp] theorem State.setCluster_myP (s : State) (c : Nat) (x : Cluster) : (s.setCluster c x).myP = s.myP := rfl
@[simp] theorem State.setCluster_t (s : State) (c : Nat) (x : Cluster) : (s.setCluster c x).t = s.t := rfl
@[simp] theorem State.setCluster_ranges (s : State) (c : Nat) (x : Cluster) : (s.setCluster c x).ranges = s.ranges := rfl
@[simp] theorem State.setCore_partOf (s : State) (k : Nat) (x : Core) (j : Nat) : (s.setCore k x).partOf j = s.partOf j := rfl
@[simp] theorem State.setCore_cyc (s : State) (k : Nat) (x : Core) (q : Nat) : (s.setCore k x).cyc q = s.cyc q := rfl
@[simp] theorem State.setCore_isDet (s : State) (k : Nat) (x : Core) (q : Nat) : (s.setCore k x).isDet q = s.isDet q := rfl
@[simp] theorem State.setCore_mult (s : State) (k : Nat) (x : Core) (q : Nat) : (s.setCore k x).mult q = s.mult q := rfl
@[simp] theorem State.setCore_part (s : State) (k : Nat) (x : Core) (q : Nat) : (s.setCore k x).part q = s.part q := rfl
@[simp] theorem State.setCore_myPart (s : State) (k : Nat) (x : Core) : (s.setCore k x).myPart = s.myPart := rfl
@[simp] theorem State.setCore_myP (s : State) (k : Nat) (x : Core) : (s.setCore k x).myP = s.myP := rfl
@[simp] theorem State.setCore_t (s : State) (k : Nat) (x : Core) : (s.setCore k x).t = s.t := rfl
@[simp] theorem State.setCore_ranges (s : State) (k : Nat) (x : Core) : (s.setCore k x).ranges = s.ranges := rfl
@[simp] theorem State.onQueue_partOf (s : State) (i : Nat) (f : Queue → Queue) (j : Nat) : (s.onQueue i f).partOf j = s.partOf j := rfl
@[simp] theorem State.onQueue_cyc (s : State) (i : Nat) (f : Queue → Queue) (q : Nat) : (s.onQueue i f).cyc q = s.cyc q := rfl
@[simp] theorem State.onQueue_isDet (s : State) (i : Nat) (f : Queue → Queue) (q : Nat) : (s.onQueue i f).isDet q = s.isDet q := rfl
@[simp] theorem State.onQueue_mult (s : State) (i : Nat) (f : Queue → Queue) (q : Nat) : (s.onQueue i f).mult q = s.mult q := rfl
@[simp] theorem State.onQueue_part (s : State) (i : Nat) (f : Queue → Queue) (q : Nat) : (s.onQueue i f).part q = s.part q := rfl
@[simp] theorem State.onQueue_myPart (s : State) (i : Nat) (f : Queue → Queue) : (s.onQueue i f).myPart = s.myPart := rfl
@[simp] theorem State.onQueue_myP (s : State) (i : Nat) (f : Queue → Queue) : (s.onQueue i f).myP = s.myP := rfl
@[simp] theorem State.onQueue_t (s : State) (i : Nat) (f : Queue → Queue) : (s.onQueue i f).t = s.t := rfl
@[simp] theorem State.onQueue_ranges (s : State) (i : Nat) (f : Queue → Queue) : (s.onQueue i f).ranges = s.ranges := rfl
@[simp] theorem State.onCluster_partOf (s : State) (c : Nat) (f : Cluster → Cluster) (j : Nat) : (s.onCluster c f).partOf j = s.partOf j := rfl
@[simp] theorem State.onCluster_cyc (s : State) (c : Nat) (f : Cluster → Cluster) (q : Nat) : (s.onCluster c f).cyc q = s.cyc q := rfl
@[simp] theorem State.onCluster_isDet (s : State) (c : Nat) (f : Cluster → Cluster) (q : Nat) : (s.onCluster c f).isDet q = s.isDet q := rfl
@[simp] theorem State.onCluster_mult (s : State) (c : Nat) (f : Cluster → Cluster) (q : Nat) : (s.onCluster c f).mult q = s.mult q := rfl
@[simp] theorem State.onCluster_part (s : State) (c : Nat) (f : Cluster → Cluster) (q : Nat) : (s.onCluster c f).part q = s.part q := rfl
@[simp] theorem State.onCluster_myPart (s : State) (c : Nat) (f : Cluster → Cluster) : (s.onCluster c f).myPart = s.myPart := rfl
@[simp] theorem State.onCluster_myP (s : State) (c : Nat) (f : Cluster → Cluster) : (s.onCluster c f).myP = s.myP := rfl
@[simp] theorem State.onCluster_t (s : State) (c : Nat) (f : Cluster → Cluster) : (s.onCluster c f).t = s.t := rfl
@[simp] theorem State.onCluster_ranges (s : State) (c : Nat) (f : Cluster → Cluster) : (s.onCluster c f).ranges = s.ranges := rfl
@[simp] theorem State.onCore_partOf (s : State) (k : Nat) (f : Core → Core) (j : Nat) : (s.onCore k f).partOf j = s.partOf j := rfl
@[simp] theorem State.onCore_cyc (s : State) (k : Nat) (f : Core → Core) (q : Nat) : (s.onCore k f).cyc q = s.cyc q := rfl
@[simp] theorem State.onCore_isDet (s : State) (k : Nat) (f : Core → Core) (q : Nat) : (s.onCore k f).isDet q = s.isDet q := rfl
@[simp] theorem State.onCore_mult (s : State) (k : Nat) (f : Core → Core) (q : Nat) : (s.onCore k f).mult q = s.mult q := rfl
@[simp] theorem State.onCore_part (s : State) (k : Nat) (f : Core → Core) (q : Nat) : (s.onCore k f).part q = s.part q := rfl
@[simp] theorem State.onCore_myPart (s : State) (k : Nat) (f : Core → Core) : (s.onCore k f).myPart = s.myPart := rfl
@[simp] theorem State.onCore_myP (s : State) (k : Nat) (f : Core → Core) : (s.onCore k f).myP = s.myP := rfl
@[simp] theorem State.onCore_t (s : State) (k : Nat) (f : Core → Core) : (s.onCore k f).t = s.t := rfl
@[simp] theorem State.onCore_ranges (s : State) (k : Nat) (f : Core → Core) : (s.onCore k f).ranges = s.ranges := rfl
@[simp] theorem State.setCtx_partOf (s : State) (k c : Nat) (x : Ctx) (j : Nat) : (s.setCtx k c x).partOf j = s.partOf j := rfl
@[simp] theorem State.setCtx_cyc (s : State) (k c : Nat) (x : Ctx) (q : Nat) : (s.setCtx k c x).cyc q = s.cyc q := rfl
@[simp] theorem State.setCtx_isDet (s : State) (k c : Nat) (x : Ctx) (q : Nat) : (s.setCtx k c x).isDet q = s.isDet q := rfl
@[simp] theorem State.setCtx_mult (s : State) (k c : Nat) (x : Ctx) (q : Nat) : (s.setCtx k c x).mult q = s.mult q := rfl
@[simp] theorem State.setCtx_part (s : State) (k c : Nat) (x : Ctx) (q : Nat) : (s.setCtx k c x).part q = s.part q := rfl
@[simp] theorem State.setCtx_myPart (s : State) (k c : Nat) (x : Ctx) : (s.setCtx k c x).myPart = s.myPart := rfl
@[simp] theorem State.setCtx_myP (s : State) (k c : Nat) (x : Ctx) : (s.setCtx k c x).myP = s.myP := rfl
@[simp] theorem State.setCtx_t (s : State) (k c : Nat) (x : Ctx) : (s.setCtx k c x).t = s.t := rfl
@[simp] theorem State.setCtx_ranges (s : State) (k c : Nat) (x : Ctx) : (s.setCtx k c x).ranges = s.ranges := rfl
@[simp] theorem State.onMe_partOf (s : State) (f : Ctx → Ctx) (j : Nat) : (s.onMe f).partOf j = s.partOf j := rfl
@[simp] theorem State.onMe_cyc (s : State) (f : Ctx → Ctx) (q : Nat) : (s.onMe f).cyc q = s.cyc q := rfl
@[simp] theorem State.onMe_isDet (s : State) (f : Ctx → Ctx) (q : Nat) : (s.onMe f).isDet q = s.isDet q := rfl
@[simp] theorem State.onMe_mult (s : State) (f : Ctx → Ctx) (q : Nat) : (s.onMe f).mult q = s.mult q := rfl
@[simp] theorem State.onMe_part (s : State) (f : Ctx → Ctx) (q : Nat) : (s.onMe f).part q = s.part q := rfl
@[simp] theorem State.onMe_myPart (s : State) (f : Ctx → Ctx) : (s.onMe f).myPart = s.myPart := rfl
@[simp] theorem State.onMe_myP (s : State) (f : Ctx → Ctx) : (s.onMe f).myP = s.myP := rfl
@[simp] theorem State.onMe_t (s : State) (f : Ctx → Ctx) : (s.onMe f).t = s.t := rfl
@[simp] theorem State.onMe_ranges (s : State) (f : Ctx → Ctx) : (s.onMe f).ranges = s.ranges := rfl

/-! ## A context that exists -/

theorem State.onCtx_some {s : State} {k c : Nat} {x : Ctx} (h : s.ctx? k c = some x) (f : Ctx → Ctx) :
    s.onCtx k c f = s.setCtx k c (f x) := by
  simp [State.onCtx, h]

theorem State.onCtx_none {s : State} {k c : Nat} (h : s.ctx? k c = none) (f : Ctx → Ctx) : s.onCtx k c f = s := by
  simp [State.onCtx, h]

@[simp] theorem State.onCtx_now (s : State) (k c : Nat) (f : Ctx → Ctx) : (s.onCtx k c f).now = s.now := by
  unfold State.onCtx; split <;> rfl
@[simp] theorem State.onCtx_fresh (s : State) (k c : Nat) (f : Ctx → Ctx) : (s.onCtx k c f).fresh = s.fresh := by
  unfold State.onCtx; split <;> rfl
@[simp] theorem State.onCtx_nextId (s : State) (k c : Nat) (f : Ctx → Ctx) : (s.onCtx k c f).nextId = s.nextId := by
  unfold State.onCtx; split <;> rfl
@[simp] theorem State.onCtx_cur (s : State) (k c : Nat) (f : Ctx → Ctx) : (s.onCtx k c f).cur = s.cur := by
  unfold State.onCtx; split <;> rfl
@[simp] theorem State.onCtx_inputs (s : State) (k c : Nat) (f : Ctx → Ctx) : (s.onCtx k c f).inputs = s.inputs := by
  unfold State.onCtx; split <;> rfl
@[simp] theorem State.onCtx_hostStores (s : State) (k c : Nat) (f : Ctx → Ctx) : (s.onCtx k c f).hostStores = s.hostStores := by
  unfold State.onCtx; split <;> rfl
@[simp] theorem State.onCtx_outbox (s : State) (k c : Nat) (f : Ctx → Ctx) : (s.onCtx k c f).outbox = s.outbox := by
  unfold State.onCtx; split <;> rfl
@[simp] theorem State.onCtx_module (s : State) (k c : Nat) (f : Ctx → Ctx) : (s.onCtx k c f).module = s.module := by
  unfold State.onCtx; split <;> rfl
@[simp] theorem State.onCtx_mem (s : State) (k c : Nat) (f : Ctx → Ctx) : (s.onCtx k c f).mem = s.mem := by
  unfold State.onCtx; split <;> rfl
@[simp] theorem State.onCtx_parts (s : State) (k c : Nat) (f : Ctx → Ctx) : (s.onCtx k c f).parts = s.parts := by
  unfold State.onCtx; split <;> rfl
@[simp] theorem State.onCtx_queues (s : State) (k c : Nat) (f : Ctx → Ctx) : (s.onCtx k c f).queues = s.queues := by
  unfold State.onCtx; split <;> rfl
@[simp] theorem State.onCtx_clusters (s : State) (k c : Nat) (f : Ctx → Ctx) : (s.onCtx k c f).clusters = s.clusters := by
  unfold State.onCtx; split <;> rfl
@[simp] theorem State.onCtx_cycles (s : State) (k c : Nat) (f : Ctx → Ctx) : (s.onCtx k c f).cycles = s.cycles := by
  unfold State.onCtx; split <;> rfl
@[simp] theorem State.onCtx_partOf (s : State) (k c : Nat) (f : Ctx → Ctx) (j : Nat) : (s.onCtx k c f).partOf j = s.partOf j := by
  unfold State.onCtx; split <;> rfl
@[simp] theorem State.onCtx_cyc (s : State) (k c : Nat) (f : Ctx → Ctx) (q : Nat) : (s.onCtx k c f).cyc q = s.cyc q := by
  unfold State.onCtx; split <;> rfl
@[simp] theorem State.onCtx_isDet (s : State) (k c : Nat) (f : Ctx → Ctx) (q : Nat) : (s.onCtx k c f).isDet q = s.isDet q := by
  unfold State.onCtx; split <;> rfl
@[simp] theorem State.onCtx_mult (s : State) (k c : Nat) (f : Ctx → Ctx) (q : Nat) : (s.onCtx k c f).mult q = s.mult q := by
  unfold State.onCtx; split <;> rfl
@[simp] theorem State.onCtx_part (s : State) (k c : Nat) (f : Ctx → Ctx) (q : Nat) : (s.onCtx k c f).part q = s.part q := by
  unfold State.onCtx; split <;> rfl

/-! ## A write put in flight (R27) -/

/-- A write in flight changes the issuing context's list of writes and the count of numbers, and nothing else. -/
theorem State.pushAt_eq (s : State) (land : Nat) (d : Dest) (mask value : Vec) (src : WSrc) (arrive : Option Nat)
    (trap : Option (Nat × Nat)) :
    s.pushAt land d mask value src arrive trap =
      { s.onMe (fun x => { x with pend := x.pend ++ [⟨s.nextId, land, x.seq, d, mask, value, src, arrive, trap, x.st == .handler⟩] })
        with nextId := s.nextId + 1 } := rfl

end Sys2Proof.Machine
end

