-- ==== Sys2Proof/Laws/Parts.lean ====
section
/-! SUPPORT. What the shared operations on a part of the machine leave alone: a completed number, a pending completion trap, a
double fault, bytes that perform at their homes, free values and figures, the slots of a channel, a refused request. -/

namespace Sys2Proof.Machine

/-- A completed number leaves memory and the partitions. -/
@[simp] theorem State.complete_mem (s : State) (k c i n : Nat) : (s.complete k c i n).mem = s.mem := s.onCtx_mem ..
@[simp] theorem State.complete_parts (s : State) (k c i n : Nat) : (s.complete k c i n).parts = s.parts := s.onCtx_parts ..

/-- A pending completion trap leaves memory, and so does a double fault. -/
@[simp] theorem State.doubleFault_mem (s : State) (p : Nat) : (s.doubleFault p).mem = s.mem := rfl
@[simp] theorem State.pendTrap_mem (s : State) (k c : Nat) (t : PendTrap) : (s.pendTrap k c t).mem = s.mem := by
  unfold State.pendTrap; dsimp only; split <;> simp
@[simp] theorem State.raise_mem (s : State) (k c code : Nat) (i : W64) (slot : Nat) (h : Bool) (lane : Nat) :
    (s.raise k c code i slot h lane).mem = s.mem := s.pendTrap_mem ..

/-- A refused request changes the count of host errors and answers (R355). -/
theorem State.abort_eq (s : State) : s.abort =
    { s with module := { s.module with hostErrors := s.module.hostErrors + 1 }, outbox := s.outbox ++ [.refused] } := rfl

/-! ## Free values, figures, slots -/

/-- A free value taken, and a figure, leave memory, the cores, the clusters and the queues. -/
@[simp] theorem State.pick_mem (s : State) (p : Nat) : (s.pick p).2.mem = s.mem := by unfold State.pick; split <;> rfl
@[simp] theorem State.pick_cores (s : State) (p : Nat) : (s.pick p).2.cores = s.cores := by unfold State.pick; split <;> rfl
@[simp] theorem State.pick_clusters (s : State) (p : Nat) : (s.pick p).2.clusters = s.clusters := by unfold State.pick; split <;> rfl
@[simp] theorem State.pick_queues (s : State) (p : Nat) : (s.pick p).2.queues = s.queues := by unfold State.pick; split <;> rfl
@[simp] theorem State.figure_mem (s : State) (p n : Nat) : (s.figure p n).2.mem = s.mem := by unfold State.figure; split <;> rfl
@[simp] theorem State.figure_cores (s : State) (p n : Nat) : (s.figure p n).2.cores = s.cores := by unfold State.figure; split <;> rfl
@[simp] theorem State.figure_parts (s : State) (p n : Nat) : (s.figure p n).2.parts = s.parts := by unfold State.figure; split <;> rfl

/-! ## Bytes at their homes (R187, R387) -/

/-- What every step of a fold leaves alone, the fold leaves alone. -/
theorem foldl_keeps {α β γ : Type} (f : α → β → α) (g : α → γ) (h : ∀ a b, g (f a b) = g a) (l : List β) (a : α) :
    g (l.foldl f a) = g a := by
  induction l generalizing a with
  | nil => rfl
  | cons b l ih => rw [List.foldl_cons, ih, h]

/-- Loads in flight and commands at work that meet bytes, and the notes of undrained bytes, change the partitions alone, beside the
count of free values. -/
theorem State.offer_frame (s : State) (w : Option Writer) (c : Option Nat) (bs : List PByte) (p : Nat) :
    (s.offer w c bs p).mem = s.mem ∧ (s.offer w c bs p).clusters = s.clusters
      ∧ (s.offer w c bs p).cores = s.cores ∧ (s.offer w c bs p).queues = s.queues := by
  unfold State.offer; dsimp only; split <;> simp

theorem State.noticePart_frame (s : State) (w : Option Writer) (c : Option Nat) (bs : List PByte) (p : Nat) :
    (s.noticePart w c bs p).mem = s.mem ∧ (s.noticePart w c bs p).clusters = s.clusters
      ∧ (s.noticePart w c bs p).cores = s.cores ∧ (s.noticePart w c bs p).queues = s.queues := by
  have h := s.offer_frame w c bs p
  unfold State.noticePart; split
  · exact h
  · simpa using h

/-- Bytes that an engine has settled to write, as what is on its way comes upon them, change the partitions alone. -/
theorem State.offerAll_frame (s : State) (c : Option Nat) (bs : List PByte) :
    (s.offerAll c bs).mem = s.mem ∧ (s.offerAll c bs).clusters = s.clusters ∧ (s.offerAll c bs).cores = s.cores
      ∧ (s.offerAll c bs).queues = s.queues := by
  unfold State.offerAll; split
  · simp
  · exact ⟨foldl_keeps _ State.mem (fun s p => (s.offer_frame none c bs p).1) _ s,
      foldl_keeps _ State.clusters (fun s p => (s.offer_frame none c bs p).2.1) _ s,
      foldl_keeps _ State.cores (fun s p => (s.offer_frame none c bs p).2.2.1) _ s,
      foldl_keeps _ State.queues (fun s p => (s.offer_frame none c bs p).2.2.2) _ s⟩

theorem State.offerWrites_frame (s : State) (k : Nat) (ws : List (Nat × List (Byte × Byte))) :
    (s.offerWrites k ws).mem = s.mem ∧ (s.offerWrites k ws).clusters = s.clusters ∧ (s.offerWrites k ws).cores = s.cores
      ∧ (s.offerWrites k ws).queues = s.queues := by
  unfold State.offerWrites; dsimp only
  refine ⟨?_, ?_, ?_, ?_⟩ <;> simp [(State.offerAll_frame ..).1, (State.offerAll_frame ..).2.1, (State.offerAll_frame ..).2.2.1,
    (State.offerAll_frame ..).2.2.2]

@[simp] theorem State.notice_mem (s : State) (w : Option Writer) (c : Option Nat) (bs : List PByte) : (s.notice w c bs).mem = s.mem := by
  unfold State.notice; split
  · rfl
  · exact foldl_keeps _ State.mem (fun s p => (s.noticePart_frame w c bs p).1) _ s
@[simp] theorem State.notice_clusters (s : State) (w : Option Writer) (c : Option Nat) (bs : List PByte) :
    (s.notice w c bs).clusters = s.clusters := by
  unfold State.notice; split
  · rfl
  · exact foldl_keeps _ State.clusters (fun s p => (s.noticePart_frame w c bs p).2.1) _ s
@[simp] theorem State.notice_cores (s : State) (w : Option Writer) (c : Option Nat) (bs : List PByte) : (s.notice w c bs).cores = s.cores := by
  unfold State.notice; split
  · rfl
  · exact foldl_keeps _ State.cores (fun s p => (s.noticePart_frame w c bs p).2.2.1) _ s
@[simp] theorem State.notice_queues (s : State) (w : Option Writer) (c : Option Nat) (bs : List PByte) :
    (s.notice w c bs).queues = s.queues := by
  unfold State.notice; split
  · rfl
  · exact foldl_keeps _ State.queues (fun s p => (s.noticePart_frame w c bs p).2.2.2) _ s

/-- Bytes that stand over the results of update rules, and that loads in flight meet, change the partitions alone. -/
@[simp] theorem State.stand_mem (s : State) (bs : List PByte) (w : Option Writer) : (s.stand bs w).mem = s.mem := s.notice_mem ..
@[simp] theorem State.stand_clusters (s : State) (bs : List PByte) (w : Option Writer) : (s.stand bs w).clusters = s.clusters :=
  s.notice_clusters ..
@[simp] theorem State.stand_cores (s : State) (bs : List PByte) (w : Option Writer) : (s.stand bs w).cores = s.cores := s.notice_cores ..
@[simp] theorem State.stand_queues (s : State) (bs : List PByte) (w : Option Writer) : (s.stand bs w).queues = s.queues := s.notice_queues ..

/-- Bytes that perform at their homes are written in order, and change beside memory what update rules still write and what loads in
flight read. -/
@[simp] theorem State.writeHomes_mem (s : State) (bs : List PByte) (w : Option Writer) : (s.writeHomes bs w).mem = memWrite s.mem bs := rfl
@[simp] theorem State.writeHomes_clusters (s : State) (bs : List PByte) (w : Option Writer) :
    (s.writeHomes bs w).clusters = s.clusters := s.stand_clusters ..
@[simp] theorem State.writeHomes_cores (s : State) (bs : List PByte) (w : Option Writer) : (s.writeHomes bs w).cores = s.cores :=
  s.stand_cores ..
@[simp] theorem State.writeHomes_queues (s : State) (bs : List PByte) (w : Option Writer) :
    (s.writeHomes bs w).queues = s.queues := s.stand_queues ..

theorem State.writeHomes_inv {s : State} (bs : List PByte) (w : Option Writer) (h : s.Inv) : (s.writeHomes bs w).Inv := wf_memWrite bs h

/-- Bursts that nothing waits for leave the cores and the clusters. -/
@[simp] theorem State.useBursts_cores (s : State) (p : Nat) (l : List Nat) : (s.useBursts p l).cores = s.cores := by
  unfold State.useBursts; split <;> rfl
@[simp] theorem State.backBursts_cores (s : State) (c : Nat) (l : List Nat) : (s.backBursts c l).cores = s.cores := by
  unfold State.backBursts; split <;> simp

/-- A cluster's cache put in its new state leaves memory and the cores. -/
@[simp] theorem State.swapCache_mem (s : State) (c : Nat) (n : Cluster) : (s.swapCache c n).mem = s.mem := by
  unfold State.swapCache; dsimp only; split <;> rfl
@[simp] theorem State.swapCache_cores (s : State) (c : Nat) (n : Cluster) : (s.swapCache c n).cores = s.cores := by
  unfold State.swapCache; dsimp only; split <;> rfl

/-- Accesses through a cache leave the memory and the cluster that they make, and the cores. -/
@[simp] theorem State.throughCache_mem (s : State) (c : Nat) (r : List Host.Cell × Cluster) : (s.throughCache c r).mem = r.1 :=
  State.swapCache_mem ..
@[simp] theorem State.throughCache_cores (s : State) (c : Nat) (r : List Host.Cell × Cluster) : (s.throughCache c r).cores = s.cores := by
  simp [State.throughCache]

theorem State.throughCache_inv {s : State} (c : Nat) {r : List Host.Cell × Cluster} (h : Memory.wf r.1 = true) : (s.throughCache c r).Inv := by
  simpa [State.Inv] using h

/-- DET takes a figure exactly (R180). -/
theorem State.figure_det {s : State} {p : Nat} (h : s.isDet p = true) (n : Nat) : s.figure p n = (n, s) := by
  simp [State.figure, h]

/-- The slots of a channel taken leave memory, the cores and the clusters. -/
@[simp] theorem State.takeBursts_mem (s : State) (p d : Nat) (l : List Nat) : (s.takeBursts p d l).2.mem = s.mem := by
  unfold State.takeBursts; dsimp only; split
  · rfl
  · split <;> simp
@[simp] theorem State.takeBursts_cores (s : State) (p d : Nat) (l : List Nat) : (s.takeBursts p d l).2.cores = s.cores := by
  unfold State.takeBursts; dsimp only; split
  · rfl
  · split <;> simp
@[simp] theorem State.takeBursts_clusters (s : State) (p d : Nat) (l : List Nat) : (s.takeBursts p d l).2.clusters = s.clusters := by
  unfold State.takeBursts; dsimp only; split
  · rfl
  · split <;> simp
@[simp] theorem State.takeSlots_mem (s : State) (l : List (Nat × Nat)) : (s.takeSlots l).2.mem = s.mem := s.takeBursts_mem ..
@[simp] theorem State.takeSlots_cores (s : State) (l : List (Nat × Nat)) : (s.takeSlots l).2.cores = s.cores := s.takeBursts_cores ..
@[simp] theorem State.takeSlots_clusters (s : State) (l : List (Nat × Nat)) : (s.takeSlots l).2.clusters = s.clusters := s.takeBursts_clusters ..

/-- An access on its way leaves memory and the cores. -/
@[simp] theorem State.addAccess_mem (s : State) (due d : Nat) (k : OpKind) : (s.addAccess due d k).mem = s.mem := by
  unfold State.addAccess; dsimp only; split <;> rfl
@[simp] theorem State.addAccess_cores (s : State) (due d : Nat) (k : OpKind) : (s.addAccess due d k).cores = s.cores := by
  unfold State.addAccess; dsimp only; split <;> rfl

end Sys2Proof.Machine
end

