-- ==== Sys2Proof/Laws/Sem.lean ====
section
/-! SUPPORT. What the issue of one slot operation comes to (R25, R29, R30, R32, R98, R287): one lemma for each way in which
OpSem.run ends, and the forms of a contribution. -/

namespace Sys2Proof.Machine

/-- An operation that takes no entry is not held by the access queue. -/
theorem queueHold_zero (s : State) (k : Nat) : s.queueHold k 0 = 0 := by simp [State.queueHold]

/-- An operation that takes one entry is not held while the queue has room. -/
theorem queueHold_room {s : State} (h : s.AccessRoom) : s.queueHold s.cur.1 1 = 0 := by
  have : ¬ 64 < s.accessEntries s.cur.1 + 1 := by unfold State.AccessRoom at h; omega
  simp [State.queueHold, this]

/-- No fault, nothing that holds it: an operation has its effect. -/
theorem OpSem.run_next {o : OpSem} {slot : Nat} {s : State} (hf : o.faults = []) (hh : o.holds = 0)
    (hq : s.queueHold s.cur.1 o.aq = 0) : o.run slot [] s = .next (o.effect s) := by
  simp [OpSem.run, hf, hh, hq, windowFaults, worst]

/-- The same where the list of numbers beyond the windows is empty. -/
theorem OpSem.run_next' {o : OpSem} {slot : Nat} {bad : List Nat} {s : State} (hb : bad = []) (hf : o.faults = [])
    (hh : o.holds = 0) (hq : s.queueHold s.cur.1 o.aq = 0) : o.run slot bad s = .next (o.effect s) := by
  subst hb; exact OpSem.run_next hf hh hq

theorem OpSem.run_pure (f : State → State) (slot : Nat) (s : State) : (OpSem.pure f).run slot [] s = .next (f s) :=
  OpSem.run_next rfl rfl (queueHold_zero s _)

theorem OpSem.run_idle (slot : Nat) (s : State) : OpSem.idle.run slot [] s = .next s :=
  OpSem.run_next rfl rfl (queueHold_zero s _)

theorem OpSem.guarded_on {s : State} {tt : TT} (h : s.lane0 tt = true) (o : OpSem) : OpSem.guarded s tt o = o := by
  simp [OpSem.guarded, h]

theorem OpSem.guarded_off {s : State} {tt : TT} (h : s.lane0 tt = false) (o : OpSem) : OpSem.guarded s tt o = .idle := by
  simp [OpSem.guarded, h]

/-- A guarded result in an X register. -/
theorem aluX_run {s : State} {tt : TT} (h : s.lane0 tt = true) (lat : Nat) (xd : XReg) (v : W64) (slot : Nat) :
    (aluX s tt lat xd v).run slot [] s = .next (s.pushX lat xd v) := by
  rw [aluX, OpSem.guarded_on h, OpSem.run_pure]

/-- A guarded FP32 result in an X register. -/
theorem fpX_run {s : State} {tt : TT} (h : s.lane0 tt = true) (lat : Nat) (xd : XReg) (v : W32) (slot : Nat) :
    (fpX s tt lat xd v).run slot [] s = .next ((s.pushX lat xd (v.zeroExtend 64)).nfScalar lat (f32NonFinite v)) := by
  simp only [fpX, OpSem.guarded_on h, OpSem.run_pure]

end Sys2Proof.Machine
end

