-- ==== Sys2Proof/Tests/Slice0.lean ====
section
/-! SUPPORT. Tests: ill-formed terms that WellFormed refuses, words written out from the spec's encodings, and single steps
checked against the figures that the spec prints. -/

set_option Elab.async false

open Sys2Proof Sys2Proof.Machine

/-! ## WellFormed: one ill-formed term for each check -/

/-- R46: integer condition 12 is reserved; R76: one predicate as both destinations. -/
theorem test_wf_cmp : (Instr.cmp 0xFF 1 2 0 12 0 0).wf = false ∧ (Instr.cmp 0xFF 1 1 0 0 0 0).wf = false := by decide
/-- R46: floating condition 8 is reserved. -/
theorem test_wf_fcmp : (Instr.fcmp 0xFF 1 2 0 8 0 0).wf = false ∧ (Instr.fcmp 0xFF 3 3 0 0 0 0).wf = false := by decide
/-- R80: FCVT has four conversions. -/
theorem test_wf_fcvt : (Instr.fcvt 0xFF 0 0 4).wf = false := by decide
/-- R53: RSZ above 16, EPI without PRT, EOFS 0. -/
theorem test_wf_loop : (Instr.loop 0xFF 1 1 17 false 0).wf = false ∧ (Instr.loop 0xFF 1 1 0 false 1).wf = false
    ∧ (Instr.loopx 0xFF 0 0 0 false 0).wf = false := by decide
/-- R60: a level number above 5. -/
theorem test_wf_lidx : (Instr.lidx 0xFF 0 6).wf = false := by decide
/-- R70, R71: an unassigned CSR, a write of a read-only one. -/
theorem test_wf_csr : (Instr.getc 0xFF 0 0x007).wf = false ∧ (Instr.putc 0xFF 0x000 0).wf = false := by decide
/-- R22, R151: a number of 640, W = 3, SAT = 3. -/
theorem test_wf_vector_integer : (Instr.vAdd .v0 0xFF 640 0 0 0 0).wf = false ∧ (Instr.vAdd .v0 0xFF 0 0 0 3 0).wf = false
    ∧ (Instr.vAdd .v0 0xFF 0 0 0 0 3).wf = false ∧ (Instr.vAbs .v1 0xFF 0 1023 0).wf = false := by decide
/-- R46, R155: a reserved rounding mode, condition, format. -/
theorem test_wf_vector_float : (Instr.vFadd .v0 0xFF 0 0 0 6).wf = false ∧ (Instr.vFfma .v0 0xFF 0 0 0 640 0).wf = false
    ∧ (Instr.vCmp .v0 0xFF 0 1 0 12 0 0).wf = false ∧ (Instr.vFcmp .v0 0xFF 0 1 0 8 0 0).wf = false
    ∧ (Instr.vnfin .v0 0xFF 0 1 0 0 3).wf = false ∧ (Instr.vfrcp .v0 0xFF 0 0 7).wf = false := by decide
/-- R157 to R164: formats and parts. -/
theorem test_wf_conversions : (Instr.vpack .v0 0xFF 0 0 0 0).wf = false ∧ (Instr.vunpk .v0 0xFF 0 0 1 2).wf = false
    ∧ (Instr.vcvt .v0 0xFF 0 0 1 1 0).wf = false ∧ (Instr.vcvt .v0 0xFF 0 0 3 1 0).wf = false
    ∧ (Instr.vdot4 .v0 0xFF 0 0 0 0 5).wf = false ∧ (Instr.vexpo .v0 0xFF 0 0 8).wf = false
    ∧ (Instr.vqenc .v0 0xFF 0 0 0 1 false 3).wf = false ∧ (Instr.vdith .v0 0xFF 0 0 0 8).wf = false := by decide
/-- R96: a register number of 640 in PMOV. -/
theorem test_wf_pmov : (Instr.pmovToPredicate .v0 0xFF 0 640).wf = false ∧ (Instr.pmovToVector .v0 0xFF 640 0).wf = false := by
  decide
/-- R223: node 0, and staging words past MS15. -/
theorem test_wf_grove : (Instr.tdef 0xFF 0 0).wf = false ∧ (Instr.tdef 0xFF 1 15).wf = false ∧ (Instr.tmul 0xFF 1 0 2 0 false).wf = false
    ∧ (Instr.tstore 0xFF 1 14).wf = false ∧ (Instr.tres 0xFF 1 2 3 13).wf = false ∧ (Instr.tdrop 0xFF 0).wf = false := by decide
/-- R195: SX with SZ 3; R205, R206: formats, SC without SE; R207: a destination with NR. -/
theorem test_wf_memory : (Instr.ld 0xFF 0 0 false 0 3 true 0).wf = false ∧ (Instr.qst 0xFF 0 0 false 0 0 0 0 false).wf = false
    ∧ (Instr.qst 0xFF 0 0 false 0 0 3 1 false).wf = false ∧ (Instr.qstb 0xFF 0 0 false 0 0 2 0).wf = false
    ∧ (Instr.aadd 0xFF 0 1 0 0 0 true).wf = false := by decide
/-- R44, R86: register numbers, classes, one destination named twice, an empty descriptor before a full one. -/
theorem test_wf_copies : (Instr.copyb 0xFF ⟨1, 0, 1, 0⟩ ⟨0, 0, 0, 0⟩).wf = false ∧ (Instr.copy 0xFF ⟨0, 64, 0, 0⟩ ⟨0, 0, 0, 0⟩).wf = false
    ∧ (Instr.copyl 0xFF ⟨1, 0, 0, 5⟩ ⟨1, 1, 0, 5⟩).wf = false ∧ (Instr.copy 0xFF ⟨0, 0, 0, 0⟩ ⟨0, 1, 0, 2⟩).wf = false := by decide
/-- R212: staging words past DS15. -/
theorem test_wf_commands : (Instr.cpy 0xFF 14 0 false).wf = false ∧ (Instr.cpy 0xFF 11 0 true).wf = false
    ∧ (Instr.csend 0xFF 10 0 true).wf = false ∧ (Instr.cred 0xFF 13).wf = false := by decide
/-- R268, R270, R62: base 3, the numbers taken of TS, an increment of 0, reserved scopes. -/
theorem test_wf_sync : (Instr.wadd 0xFF 0 0 3 0).wf = false ∧ (Instr.wadd 0xFF 0 6 1 0).wf = false ∧ (Instr.tlinc 0xFF 0).wf = false
    ∧ (Instr.tlincC 0xFF 0 0).wf = false ∧ (Instr.fenceRel 0xFF 5).wf = false ∧ (Instr.leave 0xFF 0 4).wf = false := by decide
/-- R183, R277, R309, R324, R331: what the outside events carry. -/
theorem test_wf_events : (Instr.ingressArrival ⟨0, 63, [0, 0], 3, .whole, .owner 0⟩).wf = false
    ∧ (Instr.ingressArrival ⟨0, 0, [], 0, .whole, .owner 0⟩).wf = false
    ∧ (Instr.queueEnable ⟨.hyp, 0⟩ 0).wf = false ∧ (Instr.queueDisable ⟨.hyp, 0⟩ 0x100).wf = false ∧ (Instr.routeTableLoad 0 []).wf = false
    ∧ (Instr.reductionGroupLoad 0 16 (List.replicate 65 0)).wf = false ∧ (Instr.ruleSetLoad 0 0 []).wf = false := by decide

/-! ## Words written out from the encodings of the spec, one for each slot operation -/

/-- R21, R39, R73: the integer forms of the S slot. -/
theorem test_decode_scalar_integer :
    decodeSlot (.s 0x2A46101FF) = .ok (some (.add 0xFF 33 17 42)) ∧
    decodeSlot (.s 0x2A46102FF) = .ok (some (.sub 0xFF 33 17 42)) ∧
    decodeSlot (.s 0x2A46103FF) = .ok (some (.mul 0xFF 33 17 42)) ∧
    decodeSlot (.s 0x2A46104FF) = .ok (some (.mulh 0xFF 33 17 42)) ∧
    decodeSlot (.s 0x2A46105FF) = .ok (some (.mulhu 0xFF 33 17 42)) ∧
    decodeSlot (.s 0x2A46106FF) = .ok (some (.div 0xFF 33 17 42)) ∧
    decodeSlot (.s 0x2A46107FF) = .ok (some (.divu 0xFF 33 17 42)) ∧
    decodeSlot (.s 0x2A46108FF) = .ok (some (.rem 0xFF 33 17 42)) ∧
    decodeSlot (.s 0x2A46109FF) = .ok (some (.remu 0xFF 33 17 42)) ∧
    decodeSlot (.s 0x2A4610AFF) = .ok (some (.and 0xFF 33 17 42)) ∧
    decodeSlot (.s 0x2A4610BFF) = .ok (some (.or 0xFF 33 17 42)) ∧
    decodeSlot (.s 0x2A4610CFF) = .ok (some (.xor 0xFF 33 17 42)) ∧
    decodeSlot (.s 0x2A4610DFF) = .ok (some (.andn 0xFF 33 17 42)) ∧
    decodeSlot (.s 0x2A4610EFF) = .ok (some (.shl 0xFF 33 17 42)) ∧
    decodeSlot (.s 0x2A4610FFF) = .ok (some (.shr 0xFF 33 17 42)) ∧
    decodeSlot (.s 0x2A46110FF) = .ok (some (.sar 0xFF 33 17 42)) ∧
    decodeSlot (.s 0x2A46111FF) = .ok (some (.rol 0xFF 33 17 42)) ∧
    decodeSlot (.s 0x2A46112FF) = .ok (some (.min 0xFF 33 17 42)) ∧
    decodeSlot (.s 0x2A46113FF) = .ok (some (.max 0xFF 33 17 42)) ∧
    decodeSlot (.s 0x2A46114FF) = .ok (some (.minu 0xFF 33 17 42)) ∧
    decodeSlot (.s 0x2A46115FF) = .ok (some (.maxu 0xFF 33 17 42)) ∧
    decodeSlot (.s 0x46116FF) = .ok (some (.clz 0xFF 33 17)) ∧
    decodeSlot (.s 0x46117FF) = .ok (some (.ctz 0xFF 33 17)) ∧
    decodeSlot (.s 0x46118FF) = .ok (some (.popc 0xFF 33 17)) ∧
    decodeSlot (.s 0x800000010000000519FF) = .ok (some (.movi 0xFF 5 0x80000001)) ∧
    decodeSlot (.s 0x80000001000000051AFF) = .ok (some (.movh 0xFF 5 0x80000001)) ∧
    decodeSlot (.s 0x4611BFF) = .ok (some (.sext 0xFF 33 17)) ∧
    decodeSlot (.s 0x4611CFF) = .ok (some (.zext 0xFF 33 17)) := by
  repeat' constructor

/-- R76, R78, R80, R95: compares, FP32 forms and PLUT of the S slot. -/
theorem test_decode_scalar_other :
    decodeSlot (.s 0x6484314020FF) = .ok (some (.cmp 0xFF 1 2 1 6 5 3)) ∧
    decodeSlot (.s 0x7CA4314021FF) = .ok (some (.fcmp 0xFF 9 2 3 7 5 3)) ∧
    decodeSlot (.s 0x2A46128FF) = .ok (some (.fadd 0xFF 33 17 42)) ∧
    decodeSlot (.s 0x2A46129FF) = .ok (some (.fsub 0xFF 33 17 42)) ∧
    decodeSlot (.s 0x2A4612AFF) = .ok (some (.fmul 0xFF 33 17 42)) ∧
    decodeSlot (.s 0x2A4612BFF) = .ok (some (.ffma 0xFF 33 17 42)) ∧
    decodeSlot (.s 0x2A4612CFF) = .ok (some (.fdiv 0xFF 33 17 42)) ∧
    decodeSlot (.s 0x2A4612EFF) = .ok (some (.fmin 0xFF 33 17 42)) ∧
    decodeSlot (.s 0x2A4612FFF) = .ok (some (.fmax 0xFF 33 17 42)) ∧
    decodeSlot (.s 0x4612DFF) = .ok (some (.fsqrt 0xFF 33 17)) ∧
    decodeSlot (.s 0x3000046130FF) = .ok (some (.fcvt 0xFF 33 17 3)) ∧
    decodeSlot (.s 0xFC00DC614060FF) = .ok (some (.plut 0xFF 7 5 6 3 0xFC)) := by
  repeat' constructor

/-- R53, R71, R81 to R84: control, CSR and handler forms. -/
theorem test_decode_scalar_control :
    decodeSlot (.s 0xFFFFFFFE0000000040FF) = .ok (some (.br 0xFF 0xFFFFFFFE)) ∧
    decodeSlot (.s 0x24041FF) = .ok (some (.brx 0xFF 9)) ∧
    decodeSlot (.s 0x70000000342FF) = .ok (some (.call 0xFF 3 7)) ∧
    decodeSlot (.s 0x24343FF) = .ok (some (.callx 0xFF 3 9)) ∧
    decodeSlot (.s 0x24044FF) = .ok (some (.ret 0xFF 9)) ∧
    decodeSlot (.s 0x500020016400045FF) = .ok (some (.loop 0xFF 5 2 4 true 5)) ∧
    decodeSlot (.s 0x20000424046FF) = .ok (some (.loopx 0xFF 9 2 4 false 0)) ∧
    decodeSlot (.s 0x47FF) = .ok (some (.lbrk 0xFF)) ∧
    decodeSlot (.s 0x50000000348FF) = .ok (some (.lidx 0xFF 3 5)) ∧
    decodeSlot (.s 0x180000000350FF) = .ok (some (.getc 0xFF 3 0x018)) ∧
    decodeSlot (.s 0x190000024051FF) = .ok (some (.putc 0xFF 0x019 9)) ∧
    decodeSlot (.s 0xF00000024052FF) = .ok (some (.fmtset 0xFF 9 0xF0)) ∧
    decodeSlot (.s 0x10000000053FF) = .ok (some (.mode 0xFF true)) ∧
    decodeSlot (.s 0x58FF) = .ok (some (.tend 0xFF)) ∧
    decodeSlot (.s 0xBEEF0000000059FF) = .ok (some (.trap 0xFF 0xBEEF)) ∧
    decodeSlot (.s 0x5AFF) = .ok (some (.hret 0xFF)) ∧
    decodeSlot (.s 0x2405BFF) = .ok (some (.snapst 0xFF 9)) ∧
    decodeSlot (.s 0x2405CFF) = .ok (some (.snapld 0xFF 9)) ∧
    decodeSlot (.s 0x5DFF) = .ok (some (.snaprel 0xFF)) := by
  repeat' constructor

/-- R22, R40, R41: the integer forms of V0. -/
theorem test_decode_vector_integer :
    decodeSlot (.v .v0 0xA000020065801FF) = .ok (some (.vAdd .v0 0xFF 600 1 2 2 2)) ∧
    decodeSlot (.v .v0 0xA000020065802FF) = .ok (some (.vSub .v0 0xFF 600 1 2 2 2)) ∧
    decodeSlot (.v .v0 0x1000020065803FF) = .ok (some (.vMul .v0 0xFF 600 1 2 1)) ∧
    decodeSlot (.v .v0 0x1000020065804FF) = .ok (some (.vMulh .v0 0xFF 600 1 2 1)) ∧
    decodeSlot (.v .v0 0x1000020065805FF) = .ok (some (.vMulhu .v0 0xFF 600 1 2 1)) ∧
    decodeSlot (.v .v0 0x1000020065806FF) = .ok (some (.vAnd .v0 0xFF 600 1 2 1)) ∧
    decodeSlot (.v .v0 0x1000020065807FF) = .ok (some (.vOr .v0 0xFF 600 1 2 1)) ∧
    decodeSlot (.v .v0 0x1000020065808FF) = .ok (some (.vXor .v0 0xFF 600 1 2 1)) ∧
    decodeSlot (.v .v0 0x1000020065809FF) = .ok (some (.vAndn .v0 0xFF 600 1 2 1)) ∧
    decodeSlot (.v .v0 0x100002006580AFF) = .ok (some (.vShl .v0 0xFF 600 1 2 1)) ∧
    decodeSlot (.v .v0 0x100002006580BFF) = .ok (some (.vShr .v0 0xFF 600 1 2 1)) ∧
    decodeSlot (.v .v0 0x100002006580CFF) = .ok (some (.vSar .v0 0xFF 600 1 2 1)) ∧
    decodeSlot (.v .v0 0x100002006580DFF) = .ok (some (.vMin .v0 0xFF 600 1 2 1)) ∧
    decodeSlot (.v .v0 0x100002006580EFF) = .ok (some (.vMax .v0 0xFF 600 1 2 1)) ∧
    decodeSlot (.v .v0 0x100002006580FFF) = .ok (some (.vMinu .v0 0xFF 600 1 2 1)) ∧
    decodeSlot (.v .v0 0x1000020065810FF) = .ok (some (.vMaxu .v0 0xFF 600 1 2 1)) ∧
    decodeSlot (.v .v0 0x2000000065811FF) = .ok (some (.vClz .v0 0xFF 600 1 2)) ∧
    decodeSlot (.v .v0 0x2000000065812FF) = .ok (some (.vPopc .v0 0xFF 600 1 2)) ∧
    decodeSlot (.v .v0 0x2000000065813FF) = .ok (some (.vAbs .v0 0xFF 600 1 2)) ∧
    decodeSlot (.v .v0 0x20000A0026514FF) = .ok (some (.vCmp .v0 0xFF 5 6 2 2 0 10)) := by
  repeat' constructor

/-- R22, R40, R41: the floating-point forms of V1. -/
theorem test_decode_vector_float :
    decodeSlot (.v .v1 0x4000020040320FF) = .ok (some (.vFadd .v1 0xFF 3 1 2 4)) ∧
    decodeSlot (.v .v1 0x4000020040321FF) = .ok (some (.vFsub .v1 0xFF 3 1 2 4)) ∧
    decodeSlot (.v .v1 0x4000020040322FF) = .ok (some (.vFmul .v1 0xFF 3 1 2 4)) ∧
    decodeSlot (.v .v1 0x4000020040330FF) = .ok (some (.vfdiv .v1 0xFF 3 1 2 4)) ∧
    decodeSlot (.v .v1 0x600002007FE23FF) = .ok (some (.vFcmp .v1 0xFF 14 15 3 6 1 2)) ∧
    decodeSlot (.v .v1 0x5010020040324FF) = .ok (some (.vFfma .v1 0xFF 3 1 2 4 5)) ∧
    decodeSlot (.v .v1 0x20040325FF) = .ok (some (.vFmin .v1 0xFF 3 1 2)) ∧
    decodeSlot (.v .v1 0x20040326FF) = .ok (some (.vFmax .v1 0xFF 3 1 2)) ∧
    decodeSlot (.v .v1 0x40327FF) = .ok (some (.vFabs .v1 0xFF 3 1)) ∧
    decodeSlot (.v .v1 0x40328FF) = .ok (some (.vFneg .v1 0xFF 3 1)) ∧
    decodeSlot (.v .v1 0x40329FF) = .ok (some (.vfclass .v1 0xFF 3 1)) ∧
    decodeSlot (.v .v1 0x100000000BA2AFF) = .ok (some (.vnfin .v1 0xFF 10 11 0 0 1)) ∧
    decodeSlot (.v .v1 0x1000000040331FF) = .ok (some (.vfsqrt .v1 0xFF 3 1 1)) ∧
    decodeSlot (.v .v1 0x2000000040332FF) = .ok (some (.vfrsq .v1 0xFF 3 1 2)) ∧
    decodeSlot (.v .v1 0x3000000040333FF) = .ok (some (.vfrcp .v1 0xFF 3 1 3)) := by
  repeat' constructor

/-- R41, R95, R96, R139: lane moves, conversions, cross-lane and predicate forms of V0. -/
theorem test_decode_vector_lanes :
    decodeSlot (.v .v0 0x1F000000040340FF) = .ok (some (.vlane .v0 0xFF 3 1 31)) ∧
    decodeSlot (.v .v0 0x7000000040341FF) = .ok (some (.vbcast .v0 0xFF 3 1 7)) ∧
    decodeSlot (.v .v0 0x20040342FF) = .ok (some (.vperm .v0 0xFF 3 1 2)) ∧
    decodeSlot (.v .v0 0x25000020040343FF) = .ok (some (.vslide .v0 0xFF 3 1 2 5 true)) ∧
    decodeSlot (.v .v0 0x3000020040344FF) = .ok (some (.vpack .v0 0xFF 3 1 2 3)) ∧
    decodeSlot (.v .v0 0x23000000040345FF) = .ok (some (.vunpk .v0 0xFF 3 1 3 2)) ∧
    decodeSlot (.v .v0 0x1A008000040346FF) = .ok (some (.vcvt .v0 0xFF 3 1 1 10 2)) ∧
    decodeSlot (.v .v0 0x2000000040350FF) = .ok (some (.vred .v0 0xFF 3 1 2)) ∧
    decodeSlot (.v .v0 0x6010020040351FF) = .ok (some (.vdot4 .v0 0xFF 3 1 2 4 6)) ∧
    decodeSlot (.v .v0 0x40352FF) = .ok (some (.vamax .v0 0xFF 3 1)) ∧
    decodeSlot (.v .v0 0x4000000040353FF) = .ok (some (.vexpo .v0 0xFF 3 1 4)) ∧
    decodeSlot (.v .v0 0x5000060040354FF) = .ok (some (.vsrnd .v0 0xFF 3 1 6 5)) ∧
    decodeSlot (.v .v0 0x5000060040358FF) = .ok (some (.vdith .v0 0xFF 3 1 6 5)) ∧
    decodeSlot (.v .v0 0x5068060040359FF) = .ok (some (.vqenc .v0 0xFF 3 1 6 10 true 5)) ∧
    decodeSlot (.v .v0 0x500006004035AFF) = .ok (some (.vqdec .v0 0xFF 3 1 6 0 false 5)) ∧
    decodeSlot (.v .v0 0xA5010030080160FF) = .ok (some (.vPlut .v0 0xFF 1 2 3 4 0xA5)) ∧
    decodeSlot (.v .v0 0x9600961FF) = .ok (some (.pmovToPredicate .v0 0xFF 9 600)) ∧
    decodeSlot (.v .v0 0x1000000265861FF) = .ok (some (.pmovToVector .v0 0xFF 600 9)) := by
  repeat' constructor

/-- R43, R223, R249: the M slot. -/
theorem test_decode_grove :
    decodeSlot (.m 0xE0000C801FF) = .ok (some (.tdef 0xFF 200 14)) ∧
    decodeSlot (.m 0x1402030402FF) = .ok (some (.tmul 0xFF 4 3 2 4 true)) ∧
    decodeSlot (.m 0x402030403FF) = .ok (some (.tmulb 0xFF 4 3 2 4 false)) ∧
    decodeSlot (.m 0x402030404FF) = .ok (some (.tadd 0xFF 4 3 2 4)) ∧
    decodeSlot (.m 0x400030405FF) = .ok (some (.tscal 0xFF 4 3 4)) ∧
    decodeSlot (.m 0x1400030406FF) = .ok (some (.trot 0xFF 4 3 4 true)) ∧
    decodeSlot (.m 0x200010307FF) = .ok (some (.tview 0xFF 3 1 2)) ∧
    decodeSlot (.m 0x400030408FF) = .ok (some (.tcvt 0xFF 4 3 4)) ∧
    decodeSlot (.m 0xF00000009FF) = .ok (some (.tcb 0xFF 15)) ∧
    decodeSlot (.m 0x90AFF) = .ok (some (.tdrop 0xFF 9)) ∧
    decodeSlot (.m 0x600000410FF) = .ok (some (.tforce 0xFF 4 6)) ∧
    decodeSlot (.m 0x600000411FF) = .ok (some (.tstore 0xFF 4 6)) ∧
    decodeSlot (.m 0x6402030420FF) = .ok (some (.ttrsm 0xFF 4 3 2 4 false true true)) ∧
    decodeSlot (.m 0x1400030421FF) = .ok (some (.tlu 0xFF 4 3 4 true)) ∧
    decodeSlot (.m 0x10222FF) = .ok (some (.tchol 0xFF 2 1 0)) ∧
    decodeSlot (.m 0x400030423FF) = .ok (some (.tqr 0xFF 4 3 4)) ∧
    decodeSlot (.m 0x3402030424FF) = .ok (some (.tapply 0xFF 4 3 2 4 3)) ∧
    decodeSlot (.m 0x402030425FF) = .ok (some (.tres 0xFF 4 3 2 4)) := by
  repeat' constructor

/-- R193, R195: the L slot. -/
theorem test_decode_loads :
    decodeSlot (.l 0xFFFFBCE401FF) = .ok (some (.ld 0xFF 100 9 true 0x7FFF 2 true 3)) ∧
    decodeSlot (.l 0x100080102FF) = .ok (some (.ldv 0xFF 1 0 true 128 0)) ∧
    decodeSlot (.l 0x80033CE403FF) = .ok (some (.lds 0xFF 100 9 7 0x4001 2)) ∧
    decodeSlot (.l 0x80166D6404FF) = .ok (some (.ldg 0xFF 100 9 90 0x801 1)) ∧
    decodeSlot (.l 0x2D4E405FF) = .ok (some (.ldc 0xFF 100 9 false 1 3 false 1)) ∧
    decodeSlot (.l 0x214E406FF) = .ok (some (.ldcv 0xFF 100 9 false 1 1)) ∧
    decodeSlot (.l 0x21C8F08FF) = .ok (some (.pref 0xFF 15 9 true 1 1)) ∧
    decodeSlot (.l 0x8000019810FF) = .ok (some (.laadd 0xFF 8 9 0x800001)) ∧
    decodeSlot (.l 0x64811FF) = .ok (some (.lamov 0xFF 8 100)) := by
  repeat' constructor

/-- R194, R195, R205 to R208: the Q slot. -/
theorem test_decode_stores :
    decodeSlot (.q 0x41144001FF) = .ok (some (.st 0xFF 0 1 true 260 2)) ∧
    decodeSlot (.q 0x20000102FF) = .ok (some (.stv 0xFF 1 0 false 128)) ∧
    decodeSlot (.q 0x80005E7203FF) = .ok (some (.sts 0xFF 50 9 7 0x20001)) ∧
    decodeSlot (.q 0x80019A3204FF) = .ok (some (.scat 0xFF 50 9 40 0x8001)) ∧
    decodeSlot (.q 0x80E8F67205FF) = .ok (some (.qst 0xFF 50 9 true 0x101 6 3 10 true)) ∧
    decodeSlot (.q 0x80E9F27206FF) = .ok (some (.qstb 0xFF 50 9 false 0x101 6 7 10)) ∧
    decodeSlot (.q 0x80099A3210FF) = .ok (some (.aadd 0xFF 50 40 9 0x1001 1 false)) ∧
    decodeSlot (.q 0x80089A3211FF) = .ok (some (.afadd 0xFF 50 40 9 0x1001 false)) ∧
    decodeSlot (.q 0x800D9A3212FF) = .ok (some (.amin 0xFF 50 40 9 0x1001 1 false true)) ∧
    decodeSlot (.q 0x800C9A3213FF) = .ok (some (.amax 0xFF 50 40 9 0x1001 0 false true)) ∧
    decodeSlot (.q 0x80099A3214FF) = .ok (some (.aor 0xFF 50 40 9 0x1001 1 false)) ∧
    decodeSlot (.q 0x80089A3215FF) = .ok (some (.aand 0xFF 50 40 9 0x1001 0 false)) ∧
    decodeSlot (.q 0x80099A3216FF) = .ok (some (.axchg 0xFF 50 40 9 0x1001 1 false)) ∧
    decodeSlot (.q 0x80089A3217FF) = .ok (some (.acas 0xFF 50 40 9 0x1001 0 false)) ∧
    decodeSlot (.q 0x2100214FF) = .ok (some (.aor 0xFF 2 0 1 0 0 true)) ∧
    decodeSlot (.q 0x8000DE7218FF) = .ok (some (.contrib 0xFF 50 9 7 0x10001 true)) ∧
    decodeSlot (.q 0x8000019820FF) = .ok (some (.qaadd 0xFF 8 9 0x800001)) := by
  repeat' constructor

/-- R23, R44, R45: the X slot. -/
theorem test_decode_exchange :
    decodeSlot (.x 0x400181FF) = .ok (some (.copy 0xFF ⟨0, 3, 0, 4⟩ ⟨0, 0, 0, 0⟩)) ∧
    decodeSlot (.x 0x96081340080082FF) = .ok (some (.copyb 0xFF ⟨0, 1, 4, 0⟩ ⟨5, 9, 1, 600⟩)) ∧
    decodeSlot (.x 0x1FBCB080500213FF) = .ok (some (.copyl 0xFF ⟨1, 4, 0, 5⟩ ⟨2, 600, 7, 126⟩)) ∧
    decodeSlot (.x 0x7F61874FF) = .ok (some (.copyp 0xFF ⟨7, 48, 3, 127⟩ ⟨0, 0, 0, 0⟩)) := by
  repeat' constructor

/-- R43, R212: the C slot. -/
theorem test_decode_copy_engine :
    decodeSlot (.c 0x1941FF) = .ok (some (.cpy 0xFF 5 2 true)) ∧
    decodeSlot (.c 0x942FF) = .ok (some (.cpy2 0xFF 5 2)) ∧
    decodeSlot (.c 0x943FF) = .ok (some (.cpyt 0xFF 5 2)) ∧
    decodeSlot (.c 0x2944FF) = .ok (some (.crdt 0xFF 5 2 true)) ∧
    decodeSlot (.c 0x945FF) = .ok (some (.cgat 0xFF 5 2)) ∧
    decodeSlot (.c 0x946FF) = .ok (some (.csct 0xFF 5 2)) ∧
    decodeSlot (.c 0x107FF) = .ok (some (.cfill 0xFF 4 0)) ∧
    decodeSlot (.c 0x1948FF) = .ok (some (.csend 0xFF 5 2 true)) ∧
    decodeSlot (.c 0x949FF) = .ok (some (.cpull 0xFF 5 2)) ∧
    decodeSlot (.c 0xAFF) = .ok (some (.cred 0xFF 0)) ∧
    decodeSlot (.c 0x3CBFF) = .ok (some (.bankset 0xFF 15)) := by
  repeat' constructor

/-- R61 to R65, R184, R188, R268, R270, R280, R281: the Y slot. -/
theorem test_decode_sync :
    decodeSlot (.y 0x12C1FF) = .ok (some (.wadd 0xFF 3 1 1 0)) ∧
    decodeSlot (.y 0x2002FF) = .ok (some (.tlinc 0xFF 1)) ∧
    decodeSlot (.y 0x3102FF) = .ok (some (.tlincC 0xFF 4 1)) ∧
    decodeSlot (.y 0x1C3FF) = .ok (some (.fenceRel 0xFF 3)) ∧
    decodeSlot (.y 0x203FF) = .ok (some (.fenceAcq 0xFF 4)) ∧
    decodeSlot (.y 0x4FF) = .ok (some (.drain 0xFF)) ∧
    decodeSlot (.y 0x9AC5FF) = .ok (some (.flush 0xFF 0x2B 9)) ∧
    decodeSlot (.y 0x40005FF) = .ok (some (.flushAll 0xFF)) ∧
    decodeSlot (.y 0x9AC6FF) = .ok (some (.inval 0xFF 0x2B 9)) ∧
    decodeSlot (.y 0x40006FF) = .ok (some (.invalAll 0xFF)) ∧
    decodeSlot (.y 0x248FF) = .ok (some (.join 0xFF 9)) ∧
    decodeSlot (.y 0x2249FF) = .ok (some (.leave 0xFF 9 2)) ∧
    decodeSlot (.y 0x24AFF) = .ok (some (.gnew 0xFF 9)) ∧
    decodeSlot (.y 0x24BFF) = .ok (some (.gfree 0xFF 9)) ∧
    decodeSlot (.y 0x224CFF) = .ok (some (.bar 0xFF 9 2)) ∧
    decodeSlot (.y 0x324DFF) = .ok (some (.arrive 0xFF 9 3)) ∧
    decodeSlot (.y 0x10FF) = .ok (some (.signal 0xFF)) ∧
    decodeSlot (.y 0x8251FF) = .ok (some (.submit 0xFF 9 8)) ∧
    decodeSlot (.y 0x252FF) = .ok (some (.armctx 0xFF 9)) ∧
    decodeSlot (.y 0x8253FF) = .ok (some (.uarm 0xFF 9 8)) := by
  repeat' constructor

/-! ## Words that the spec refuses, and a whole bundle -/

/-- R24, R28, R46, R48, R93: the cases near the holes that the chapter on the opcode maps prints, and opcode 0 with an operand bit. -/
theorem test_decode_refused :
    decodeSlot (.v .v0 0x07000010000220CC) = .error .reservedValue ∧ decodeSlot (.v .v1 0x0000000003FF14FF) = .error .reservedValue
      ∧ decodeSlot (.v .v1 0x0000000003FE14FF) = .ok (some (.vCmp .v1 0xFF 14 15 3 0 0 0))
      ∧ decodeSlot (.s 0x1D00) = .error .unassignedOpcode ∧ decodeSlot (.s 0x10000) = .error .operandUnderNop
      ∧ decodeSlot (.y 0x0104FF) = .error .unusedField ∧ decodeSlot (.s 0xAB) = .ok none := by
  repeat' constructor

/-- R19, R20: the guarded bundle of the tour, byte by byte as the spec prints it. -/
def tourBundle : List Byte :=
  [0x02, 0x21, 0x03, 0, 0, 0, 0, 0, 0x30, 0x01, 0x43, 0x20, 0, 0, 0, 0, 0, 0, 0xCC, 0x20, 0x02, 0, 0x10, 0, 0, 0, 0xAA, 0x20, 0x03, 0, 0x10, 0]
    ++ List.replicate 32 0

theorem test_decode_bundle : (match decode tourBundle with
    | .ok b => (b.ops, b.hdr.gap.toNat, b.hdr.ga.toNat, b.hdr.gb.toNat, b.hdr.gc.toNat)
    | .error _ => ([], 0, 0, 0, 0)) = ([.add 0x30 3 1 2, .vFadd .v0 0xCC 2 0 1 0, .vFadd .v1 0xAA 3 0 1 0], 2, 1, 2, 3) := by
  decide +kernel

/-! ## Single steps -/

/-- A DET partition at reset time with one bound context. -/
def tb : State := State.reset.withFetchWord 32 0

/-- The issuing context with a register at a value. -/
def Sys2Proof.Machine.State.withReg (s : State) (d : Dest) (v : Vec) : State := s.onMe (fun x => x.landWrite d (BitVec.allOnes 1024) v)

/-- What an operation puts in flight: latency, destination and value under the mask. -/
def flight (i : Instr) (s : State) : List (Nat × Dest × Nat) :=
  match exec i s with
  | .next t => (t.me.pend.drop s.me.pend.length).map (fun w => (w.land - s.t, w.dest, (w.value &&& w.mask).toNat))
  | _ => []

/-- Latency, destination and lane n of what an operation puts in flight. -/
def flightLane (i : Instr) (s : State) (n : Nat) : List (Nat × Dest × Nat) :=
  match exec i s with
  | .next t => (t.me.pend.drop s.me.pend.length).map (fun w => (w.land - s.t, w.dest, (lane (w.value &&& w.mask) n).toNat))
  | _ => []

/-- The scalar example: MOVI −2, MOVH 1, division by zero, FCVT.i2f of 7. -/
theorem test_movi : flight (.movi 0xFF 3 0xFFFFFFFE) tb = [(1, .x 3, 0xFFFFFFFFFFFFFFFE)] := by decide +kernel
theorem test_movh : flight (.movh 0xFF 3 1) (tb.withReg (.x 3) 0xFFFFFFFFFFFFFFFE) = [(1, .x 3, 0x1FFFFFFFE)] := by decide +kernel
theorem test_div_zero : flight (.div 0xFF 4 3 2) (tb.withReg (.x 3) 0x1FFFFFFFE) = [(12, .x 4, 0xFFFFFFFFFFFFFFFF)] := by
  decide +kernel
theorem test_div_overflow : flight (.div 0xFF 4 3 2) ((tb.withReg (.x 3) 0x8000000000000000).withReg (.x 2) 0xFFFFFFFFFFFFFFFF)
    = [(12, .x 4, 0x8000000000000000)] := by decide +kernel
theorem test_rem_sign : flight (.rem 0xFF 4 3 2) ((tb.withReg (.x 3) 0xFFFFFFFFFFFFFFF9).withReg (.x 2) 2)
    = [(12, .x 4, 0xFFFFFFFFFFFFFFFF)] := by decide +kernel
theorem test_fcvt_i2f : flight (.fcvt 0xFF 6 1 1) (tb.withReg (.x 1) 7) = [(3, .x 6, 0x40E00000)] := by decide +kernel
/-- The compare of the scalar example: P1 := 0, P2 := all ones. -/
theorem test_cmp_u : flight (.cmp 0xFF 1 2 1 6 5 3) ((tb.withReg (.x 5) 0xFFFFFFFEFFFFFFFE).withReg (.x 3) 0x1FFFFFFFE)
    = [(2, .p 1, 0), (2, .p 2, 0xFFFFFFFF)] := by decide +kernel
/-- The COPYL of the scalar example. -/
theorem test_copyl : flight (.copyl 0xFF ⟨1, 4, 0, 5⟩ ⟨0, 0, 0, 0⟩) (tb.withReg (.va 4) (vecOf (fun _ => 0xFFFFFFFE)))
    = [(2, .x 5, 0xFFFFFFFEFFFFFFFE)] := by decide +kernel
theorem test_add_wraps : flight (.add 0xFF 3 1 2) ((tb.withReg (.x 1) 0xFFFFFFFFFFFFFFFF).withReg (.x 2) 2) = [(1, .x 3, 1)] := by
  decide +kernel
theorem test_mulh : flight (.mulh 0xFF 3 1 1) (tb.withReg (.x 1) 0xFFFFFFFFFFFFFFFF) = [(3, .x 3, 0)] := by decide +kernel
theorem test_mulhu : flight (.mulhu 0xFF 3 1 1) (tb.withReg (.x 1) 0xFFFFFFFFFFFFFFFF) = [(3, .x 3, 0xFFFFFFFFFFFFFFFE)] := by
  decide +kernel
theorem test_sar_amount : flight (.sar 0xFF 3 1 2) ((tb.withReg (.x 1) 0x8000000000000000).withReg (.x 2) 65)
    = [(1, .x 3, 0xC000000000000000)] := by decide +kernel
/-- A failed guard writes nothing. -/
theorem test_suppressed : exec (.add 0x00 3 1 2) tb = .next tb := rfl

/-- The chapter on the vector slots: lane 0 = 2^24, lanes 1 to 31 = 1; VRED gives 16,777,246, VAMAX 2^24, VEXPO 0x8F. -/
def redVec : Vec := vecOf (fun i => if i = 0 then 0x4B800000 else 0x3F800000)
theorem test_vred : flightLane (.vred .v0 0xFF 2 0 1) (tb.withReg (.va 0) redVec) 0 = [(10, .va 2, 0x4B80000F)] := by decide +kernel
theorem test_vamax : flightLane (.vamax .v1 0xFF 3 0) (tb.withReg (.va 0) redVec) 31 = [(6, .va 3, 0x4B800000)] := by decide +kernel
theorem test_vexpo : flightLane (.vexpo .v0 0xFF 4 3 3) (tb.withReg (.va 3) (vecOf (fun _ => 0x4B800000))) 5 = [(3, .va 4, 0x8F)] := by
  decide +kernel
/-- The lane move that the same example starts with. -/
theorem test_vlane : flight (.vlane .v0 0xFF 0 1 0) (tb.withReg (.va 1) 0x4B800000) = [(2, .va 0, 0x4B800000)] := by decide +kernel

/-- The chapter on dither: seed C1, tag 1, element 0; 5.5 in E2M1 under scale 2.0 is code 4 and decodes to 4.9375; the small E4M3
value is code 0. -/
def dithered : State :=
  (((tb.withReg (.df 0 0) 0x8F3C61D527A9B0E1).withReg (.df 0 1) 1).withReg (.sc 0) 0x8000).withReg (.p 1) 1
theorem test_vqenc_e2m1 : flightLane (.vqenc .v0 0xFF 2 0 0 0 true 5) (dithered.withReg (.va 0) 0x40B00000) 0 = [(3, .va 2, 4)] := by
  decide +kernel
theorem test_vqenc_e4m3 : flightLane (.vqenc .v1 0xFF 3 1 0 0 false 3) (dithered.withReg (.va 1) 0x3AA00000) 0 = [(3, .va 3, 0)] := by
  decide +kernel
theorem test_vqdec_e2m1 : flightLane (.vqdec .v0 0xFF 4 2 0 0 true 5) (dithered.withReg (.va 2) 4) 0 = [(3, .va 4, 0x409E0000)] := by
  decide +kernel
end

