-- ==== Sys2Proof/Tests/Witnesses.lean ====
section
/-! SUPPORT. Witnesses: for the statements of Certificates/Slice0/Obligations.lean that have hypotheses, concrete states and operands
that meet them, clause by clause and at the ends of their ranges. -/

set_option Elab.async false

open Sys2Proof Sys2Proof.Machine

/-- Bank 0 of cluster 0 as SCRATCH, the others as CACHE. -/
def wCluster : Cluster := { Cluster.reset with modes := .scratch :: List.replicate 47 .cache }

/-- The one bound context of tb with a longer code range and a handler, over GDDR at 0x10000 and the SCRATCH bank at 0x100000. -/
def wt : State :=
  { tb.onPart 0 (fun q => { q with ranges := [⟨0x10000, 0x10000, 0, 0x1FF, 0⟩, ⟨0x100000, 0x80000, BitVec.ofNat 64 sramBase, 0x1FF, 1⟩,
      ⟨0x200000, 0x10000, 0x20000, 0, 0⟩] })
    with clusters := [(0, wCluster)] }.onMe
    (fun x => { x with task := { x.task with codeHi := 0x11000, handlerPc := some 0x10FC0 } })

/-- The same context in its handler, the buffer its own and empty. -/
def wh : State :=
  (wt.onMe (fun x => { x with st := .handler, masked := true })).onCore 0 (fun k => { k with snap := some ⟨0, []⟩ })

/-- The same partition in THR. -/
def wthr : State := wt.onPart 0 (fun q => { q with cfg := { q.cfg with det := false } })

/-- The loop level at an index. -/
def wLevel (i : W32) : Level := ⟨2, 0x10040, 0x10080, i, 0, false, 0, 0, false⟩
def wl (i : W32) : State := wt.onMe (fun x => { x with levels := [wLevel i] })

/-- The guards and registers of ScalarIntegerResults, VectorIntegerResults, VectorCompares, VectorClass and CounterOps, at the ends of
the file of 64 + 64 registers. -/
theorem test_meets_guard : wt.lane0 0xFF = true ∧ wt.anyLane 0xFF = true ∧ wt.me.vregBad 127 = false ∧ wt.me.vregBad 128 = true
    ∧ wt.me.st = .bound ∧ wt.on 0xFF 31 = true ∧ wt.on 0 0 = false := by decide +kernel
theorem test_meets_BitCounts : (1 : W64) ≠ 0 ∧ BitVec.allOnes 64 ≠ (0 : W64) := by decide
theorem test_meets_ScalarDivision : wt.lane0 0xFF = true ∧ wt.me.xr 2 = 0
    ∧ ((wt.withReg (.x 1) 0x8000000000000000).withReg (.x 2) 0xFFFFFFFFFFFFFFFF).lane0 0xFF = true
    ∧ ((wt.withReg (.x 1) 0x8000000000000000).withReg (.x 2) 0xFFFFFFFFFFFFFFFF).me.xr 1 = 0x8000000000000000
    ∧ ((wt.withReg (.x 1) 0x8000000000000000).withReg (.x 2) 0xFFFFFFFFFFFFFFFF).me.xr 2 = 0xFFFFFFFFFFFFFFFF := by decide +kernel
theorem test_meets_ScalarFloatResults : f32NonFinite 0x7F7FFFFF = false ∧ f32IsNaN 0x7F800001 = true
    ∧ RoundsToInt .rz (unitsOf .fp32 (flushed true 0x4F000000).toNat) (2 ^ 31) ∧ RoundsToInt .rne 0 0 := by
  refine ⟨by decide, by decide, ?_, ?_⟩
  · show _ = _; decide +kernel
  · constructor <;> decide +kernel
theorem test_meets_VectorFloatResults : f32NonFinite 0x7F7FFFFF = false ∧ f32NonFinite 0x00000001 = false ∧ f32IsNaN 0x7F800001 = true
    ∧ (0x7F800000 : W32) &&& 0x7FFFFFFF = 0x7F800000 ∧ flushed true 0x80000001 &&& 0x7FFFFFFF = 0
    ∧ ¬ flushed false 0x80000001 &&& 0x7FFFFFFF = 0 := by decide
theorem test_meets_ScalarCompares : (1 : W32).extractLsb' 23 8 = 0 ∧ (0 : W32) = 1 &&& 0x80000000
    ∧ f32IsNaN 0x7F800001 = true ∧ f32IsNaN 0x7F800000 = false := by decide
theorem test_meets_PredicateMoves : wt.lane0 0xFF = true ∧ wt.anyLane 0xFF = true ∧ wt.me.vregBad 0 = false ∧ wt.me.vregBad 127 = false := by
  decide +kernel
theorem test_meets_TransfersComplete : wt.lane0 0xFF = true ∧ wt.me.targetOk (wt.me.pc + 64 * (0x3F : W32).signExtend 64) = true
    ∧ wt.me.targetOk (wt.me.pc + 64 * (0 : W32).signExtend 64) = true ∧ (wt.withReg (.x 9) 0x10FC0).me.targetOk 0x10FC0 = true
    ∧ wt.me.levels.length = 0 ∧ ((0x10FC0 : W64).extractLsb' 3 3) = 0 ∧ (wl 0).me.levels.length = ((0x10FC1 : W64).extractLsb' 0 3).toNat := by
  decide +kernel
/-- Six levels, the innermost with END 0x10080. -/
def wl6 : State := wt.onMe (fun x => { x with levels := List.replicate 6 (wLevel 0) })
/-- LOOP's own faults: a seventh level, the END of the innermost level, an END not before it, 128 registers in a window of 64. -/
theorem test_meets_LoopFaults : ¬ wl6.me.levels.length < 6 ∧ 8 * (0 : BitVec 5).toNat ≤ wl6.me.regs.va.size
    ∧ ((wl 0).onMe (fun x => { x with pc := 0x10080 })).me.pc = (wLevel 0).last
    ∧ ¬ (wl 0).me.pc + 64 * (0x3F : BitVec 16).zeroExtend 64 < (wLevel 0).last ∧ ¬ 8 * (16 : BitVec 5).toNat ≤ wt.me.regs.va.size := by
  decide +kernel
theorem test_meets_LoopOperations : wt.me.targetOk (wt.me.pc + 64 * (1 : BitVec 16).zeroExtend 64 + 64) = true
    ∧ (wt.me.newLevel 0 1 0 false 0).total = 0 ∧ wt.me.targetOk (wt.me.pc + 64 * (0x3F : BitVec 16).zeroExtend 64 + 64) = false
    ∧ wt.me.levels.length < 6 ∧ (∀ l rest, wt.me.levels ≠ l :: rest) ∧ (wl 0).me.targetOk ((wLevel 0).last + 64) = true
    ∧ (wl 0).me.targetOk ((0x10FC0 : W64) + 64) = false ∧ wt.lane0 0xFF = true ∧ 8 * (8 : BitVec 5).toNat ≤ wt.me.regs.va.size
    ∧ 8 * (8 : BitVec 5).toNat ≤ wt.me.regs.vb.size 
    ∧ (wl 0).me.levels = [wLevel 0] ∧ (wl 0).me.levels[(0 : BitVec 3).toNat]? = some (wLevel 0) ∧ wt.me.levels = []
    ∧ wt.me.levels.length ≤ (0 : BitVec 3).toNat ∧ (wl 0).me.levels.length ≤ (1 : BitVec 3).toNat := by
  have e : wt.me.levels = [] := by decide +kernel
  refine ⟨?_, ?_, ?_, ?_, fun l rest h => (by rw [e] at h; cases h), ?_⟩ <;> decide +kernel
/-- A PUTC to the level that closes, one to the level outside it, and one to FLAGS. -/
theorem test_meets_LevelClosed : (Write.mk 0 0 0 (.csr 0x040) 1 1 .core none none false).levelClosed = none
    ∧ (Write.mk 0 0 0 (.csr 0x04B) 1 1 .core none none false).levelClosed = some (Write.mk 0 0 0 (.csr 0x043) 1 1 .core none none false)
    ∧ ∀ n, 0x040 ≤ n → n < 0x070 → Dest.csr 0x019 ≠ .csr n := by
  refine ⟨rfl, rfl, fun n h _ e => ?_⟩
  cases e
  omega
theorem test_meets_LoopEndRule : ({ wLevel 0 with prt := true } : Level).prt = true ∧ (wLevel 0).prt = false ∧ (wl 0).me.levels = [wLevel 0] ∧ (wLevel 0).index.toNat + 1 < (wLevel 0).total
    ∧ (wl 1).me.levels = [wLevel 1] ∧ (wLevel 1).total ≤ (wLevel 1).index.toNat + 1 ∧ (wLevel 0).first ≠ (wLevel 0).last := by decide +kernel
theorem test_meets_TaskEnd : (wt.onMe (fun x => { x with groups := [3, 5] })).me.groups[1]? = some 5 ∧ wt.isDet wt.myPart = true
    ∧ wt.me.task.signalled = false ∧ (wt.onMe (fun x => { x with task := { x.task with signalled := true } })).me.task.signalled = true := by
  decide +kernel
theorem test_meets_TaskEndModeTrap : wt.lane0 0xFF = true ∧ wt.me.st = .bound ∧ wt.ctx? wt.cur.1 wt.cur.2 ≠ none := by decide +kernel
theorem test_meets_CsrAccess : wt.lane0 0xFF = true ∧ wt.me.putcOk 0x019 1 = true ∧ csrHandlerOnly 0x019 = false
    ∧ wh.lane0 0xFF = true ∧ wh.me.putcOk 0x100 5 = true ∧ csrHandlerOnly 0x100 = true ∧ wh.me.st = .handler
    ∧ fmtLegal (mergeBits wt.me.fmtAhead 5 7).toNat = true ∧ wt.cur.2 < 8 ∧ wt.cur.1 < 256 := by decide +kernel
/-- A valid image of no entry stands at 0x10000: word 0 with version 1, the task id 0. -/
def wImage : State := { wh with mem := memWrite wh.mem (bytesAt 0 ([0, 0, 1] ++ List.replicate 61 0)) }
/-- A handler that has given the buffer up, and one of a closing task. -/
def whRel : State := wh.onCore 0 (fun k => { k with snap := none })
def whCl : State := wh.onMe (fun x => { x with cl := true })
theorem test_meets_HandlerReturns : whRel.me.st = .handler ∧ whRel.lane0 0xFF = true ∧ whRel.myCore.snap = none ∧ whRel.me.cl = false
    ∧ whCl.me.st = .handler ∧ whCl.lane0 0xFF = true ∧ whCl.me.cl = true ∧ whCl.myCore.snap = some ⟨whCl.cur.2, []⟩ := by decide +kernel
theorem test_meets_HandlerOperations : wh.lane0 0xFF = true ∧ wh.me.st = .handler ∧ wh.me.cl = false
    ∧ wh.myCore.snap = some ⟨0, []⟩ ∧ wh.cur.2 = 0 ∧ (wh.withReg (.x 9) 0x10000).snapFaults .qw 0x10000 = []
    ∧ wh.heldEntries = [] ∧ wImage.lane0 0xFF = true ∧ wImage.me.st = .handler ∧ wImage.snapFaults .lr 0x10000 = []
    ∧ wImage.snapRead 0x10000 = some [] ∧ wImage.snapTaken = false := by decide +kernel
theorem test_meets_vectors : wt.anyLane 0xFF = true ∧ (2 : BitVec 2).toNat ≤ 2 ∧ wt.me.vregBad 0 = false ∧ wt.me.vregBad 63 = false
    ∧ wt.me.vregBad 64 = false ∧ wt.me.vregBad 127 = false := by decide +kernel
theorem test_meets_VectorDivides : f32IsNaN 0x00800000 = false ∧ (0x00800000 : W32) &&& 0x7F800000 ≠ 0x7F800000
    ∧ (0x00800000 : W32) &&& 0x7FFFFFFF ≠ 0 ∧ (0x00800000 : W32) &&& 0x7F800000 ≠ 0 ∧ (0x80000000 : W32) &&& 0x7FFFFFFF = 0
    ∧ (0x80800000 : W32) &&& 0x80000000 ≠ 0 ∧ (0x80800000 : W32) &&& 0x7F800000 ≠ 0 ∧ (0x80000001 : W32) &&& 0x7F800000 = 0 := by decide
theorem test_meets_LaneMoves : wt.on 0xFF (31 : BitVec 5).toNat = true ∧ wt.on 0 (31 : BitVec 5).toNat = false
    ∧ wt.anyLane 0xFF = true ∧ wt.me.vregBad 127 = false := by decide +kernel
/-- A frame with a seed dithers E4M3 and not FP16; the codes 0x7E and 0x7F of E4M3 are finite and not. -/
theorem test_meets_NarrowCodes : (let fr : Frame := ⟨mixC1, 1, 0, 1, 0, 32, 32⟩
      fr.offsetFor true .e4m3 0 = -15 ∧ fr.offsetFor true .fp16 0 = 0 ∧ fr.offsetFor false .e4m3 0 = 0)
    ∧ FiniteCode .e4m3 0x7E ∧ ¬ FiniteCode .e4m3 0x7F ∧ FiniteCode .int8 0x80 ∧ ¬ FiniteCode .fp32 0x7F800000
    ∧ Overflows .e4m3 .rne (465 * 2 ^ 300) ∧ ¬ Overflows .e4m3 .rne (464 * 2 ^ 300) := by
  refine ⟨by decide +kernel, ?_, ?_, ?_, ?_, ?_, ?_⟩
  · exact ⟨by decide, .inr (by decide)⟩
  · rintro ⟨-, h | h⟩ <;> revert h <;> decide
  · exact ⟨by decide, .inl rfl⟩
  · rintro ⟨-, h | h⟩ <;> revert h <;> decide
  · exact .inl (by decide +kernel)
  · show ¬ (_ ∨ _); decide +kernel
theorem test_meets_VectorConversions : wt.anyLane 0xFF = true ∧ 1 ≤ (1 : BitVec 4).toNat ∧ (7 : BitVec 4).toNat ≤ 7
    ∧ wt.scaleOk false 0 = true ∧ (wt.withReg (.sc 15) 0x8000).scaleOk true 15 = true := by decide +kernel
theorem test_meets_CrossLaneResults : f32IsNaN (lane (wt.vec 0) 31) = false
    ∧ f32IsNaN (lane ((wt.withReg (.va 0) (vecOf (fun _ => 0x7FC00000))).vec 0) 0) = true
    ∧ (dot4 .e4m3 0 0).isZero = true ∧ dot4 .e4m3 0x7F 0x38 = .nan := by decide +kernel

theorem test_meets_FloatConditions : f32IsNaN 0x7F800000 = false ∧ f32IsNaN 0xFF800000 = false ∧ f32IsNaN 0x7F800001 = true
    ∧ rankOf true 0x80000001 = rankOf true 0x00000000 ∧ rankOf false 0x80000001 < rankOf false 0x00000000
    ∧ rankOf false 0x7F7FFFFF < rankOf false 0x7F800000 ∧ rankOf false 0xFF800000 < rankOf false 0xFF7FFFFF := by decide +kernel
/-- One is its own root, and of the least number the root and the reciprocal root lie between these. -/
theorem test_meets_DivideValues : f32IsNaN 0x7FC00000 = true ∧ (0xFF800000 : W32) &&& 0x7FFFFFFF = 0x7F800000
    ∧ (f32NonFinite 0x00000001 = false ∧ ¬ flushed false 0x00000001 &&& 0x7FFFFFFF = 0) ∧ flushed true 0x807FFFFF &&& 0x7FFFFFFF = 0
    ∧ (let n : Nat := 2 ^ 300
      n * n ≤ (unitsOf .fp32 0x3F800000).natAbs * 2 ^ 300 ∧ (unitsOf .fp32 0x3F800000).natAbs * 2 ^ 300 < (n + 1) * (n + 1))
    ∧ (let r : Nat := 2 ^ 300
      r * r * (unitsOf .fp32 0x3F800000).natAbs ≤ 2 ^ 900 ∧ 2 ^ 900 < (r + 1) * (r + 1) * (unitsOf .fp32 0x3F800000).natAbs) := by
  decide +kernel
theorem rounds_of_small {f : Fmt} {rm : RM} {x : Int} {c : Nat} (hrm : rm = .rd ∨ rm = .ru)
    (h0 : FiniteCode f c) (h1 : x ≠ 0 → c.testBit (f.bits - 1) = decide (x < 0)) (h2 : if rm = .rd then unitsOf f c ≤ x else x ≤ unitsOf f c)
    (h3 : (List.range (2 ^ f.bits)).all (fun e =>
      if rm = .rd then decide (unitsOf f e ≤ x → unitsOf f e ≤ unitsOf f c) else decide (x ≤ unitsOf f e → unitsOf f c ≤ unitsOf f e)) = true) :
    RoundsTo f rm x c := by
  refine ⟨h0, h1, ?_⟩
  have h4 := fun e (he : FiniteCode f e) => List.all_eq_true.mp h3 e (List.mem_range.mpr he.1)
  rcases hrm with rfl | rfl
  · simp only [if_pos, decide_eq_true_eq] at h2 h4
    exact ⟨h2, h4⟩
  · have e : ¬ (RM.ru = RM.rd) := by decide
    simp only [if_neg e, decide_eq_true_eq] at h2 h4
    exact ⟨h2, h4⟩
/-- The neighbours of 1.25 in E2M1 are 1 and 1.5; past 6 the mode matters, past 8 it does not. -/
theorem test_meets_DrawsNumber : RoundsTo .e2m1 .rd (5 * 2 ^ 298) 2 ∧ RoundsTo .e2m1 .ru (5 * 2 ^ 298) 3
    ∧ unitsOf .e2m1 Fmt.e2m1.maxCode = 6 * 2 ^ 300 ∧ unitsOf .e2m1 Fmt.e2m1.maxCode - unitsOf .e2m1 (Fmt.e2m1.maxCode - 1) = 2 * 2 ^ 300 := by
  refine ⟨rounds_of_small (.inl rfl) ⟨by decide, .inr (by decide)⟩ (by decide +kernel) (by decide +kernel) (by decide +kernel),
    rounds_of_small (.inr rfl) ⟨by decide, .inr (by decide)⟩ (by decide +kernel) (by decide +kernel) (by decide +kernel), ?_⟩
  decide +kernel
/-- The ends of the ranges of the conversions' clauses: a subnormal FP16 code, the codes beside an infinity, the least FP32 number. -/
theorem test_meets_ConversionValues : (1 : Nat) < 2 ^ (fmt4 1).bits ∧ (fmt4 7).isInt = true ∧ FiniteCode .fp16 0x7BFF ∧ ¬ FiniteCode .fp16 0x7C00
    ∧ wideFlush .fp16 true 0x83FF = 0x8000 ∧ wideFlush .fp16 false 0x83FF = 0x83FF ∧ f32NonFinite 0xFF800000 = true
    ∧ (2 ^ 151 ≤ (unitsOf .fp32 1).natAbs ∧ (unitsOf .fp32 1).natAbs < 2 ^ 152) := by
  refine ⟨by decide, by decide, ⟨by decide, .inr (by decide)⟩, ?_, ?_⟩
  · rintro ⟨-, h | h⟩ <;> revert h <;> decide
  · decide +kernel
/-- E5M2: ∞ · 0 has no product, −∞ · 1 is infinite; E4M3 of one and zero is finite. -/
theorem test_meets_DotResult : Fmt.e5m2.hasInf = true ∧ (0x7C : Nat) % 128 = Fmt.e5m2.infCode ∧ ¬ FiniteCode .e5m2 0x7C
    ∧ (∀ j < 4, FiniteCode .e4m3 ((0x38007E38 : W32).toNat / 2 ^ (8 * j) % 256)) ∧ Fmt.e4m3.hasInf = false := by
  refine ⟨by decide, by decide, ?_, ?_, by decide⟩
  · rintro ⟨-, h | h⟩ <;> revert h <;> decide
  · intro j hj
    have : j = 0 ∨ j = 1 ∨ j = 2 ∨ j = 3 := by omega
    rcases this with rfl | rfl | rfl | rfl <;> exact ⟨by decide, .inr (by decide)⟩

/-! ## Memory -/

/-- The checks of R197 as a Bool. -/
def accessibleB (s : State) (perm : Perm) (size : Nat) (allowed : BankMode → Nat → Bool) (a : W64) : Bool :=
  a.toNat % size == 0 && match translate s.ranges perm a.toNat with
    | .ok pa _ => !s.bankRefuses s.cur.1 pa allowed
    | .fault _ => false

theorem accessible_of {s : State} {perm : Perm} {size : Nat} {allowed : BankMode → Nat → Bool} {a : W64}
    (h : accessibleB s perm size allowed a = true) : s.Accessible perm size allowed a := by
  simp only [accessibleB, Bool.and_eq_true, beq_iff_eq] at h
  obtain ⟨h1, h2⟩ := h
  refine ⟨h1, ?_⟩
  split at h2
  · next pa res e => exact ⟨pa, res, e, by simpa using h2⟩
  · cases h2

def writableB (s : State) (a : W64) (n : Nat) : Bool :=
  (match findRange s.ranges a.toNat with
    | some e => s.myP.imageByte (e.pbase.toNat + (a.toNat - e.vbase.toNat)) n == none
    | none => true) && s.aliasHit a n == none

theorem writable_of {s : State} {a : W64} {n : Nat} (h : writableB s a n = true) : s.Writable a n := by
  simp only [writableB, Bool.and_eq_true, beq_iff_eq] at h
  obtain ⟨h1, h2⟩ := h
  refine ⟨fun e he => ?_, h2⟩
  rw [he] at h1
  simpa using h1

theorem load_ok_of {s : State} {l : LoadSpec}
    (h : l.lanes.all (fun e => accessibleB s .lr l.bytes (l.allowed (s.popBank l).isSome) e.2) = true) : s.LoadOk l :=
  fun e he => accessible_of (List.all_eq_true.mp h e he)

theorem store_ok_of {s : State} {st : StoreSpec} (h : st.pieces.all (fun p =>
    accessibleB s .qw st.align (st.allowed ((s.pushBank st).any (fun b => b.1 == clusterOf s.cur.1))) p.va
      && writableB s p.va p.bytes.length) = true) : s.StoreOk st := fun p hp => by
  have := List.all_eq_true.mp h p hp
  simp only [Bool.and_eq_true] at this
  exact ⟨accessible_of this.1, writable_of this.2⟩

/-- LA1 and QA1 at the last word of GDDR's range, LA2 and QA2 at the SCRATCH bank, LA3, LA4 and QA3, QA4 at strides. -/
def wm : State :=
  (((((wt.withReg (.la 1) 0x1FFF8).withReg (.qa 1) 0x1FFF8).withReg (.la 2) 0x100000).withReg (.qa 2) 0x100000).withReg (.la 3) 64).withReg
    (.qa 3) 64

theorem access_room_wm : wm.AccessRoom := by show wm.accessEntries wm.cur.1 < 64; decide +kernel

theorem test_meets_LoadsComplete : (15 : BitVec 7).toNat < wm.me.regs.lv.size ∧ wm.AccessRoom ∧ wm.lane0 0xFF = true
    ∧ wm.anyLane 0xFF = true ∧ wm.LoadOk (ldSpec 0xFF 15 1 false 0 3 false 0 false wm) ∧ wm.LoadOk (ldSpec 0xFF 15 1 true 8 2 true 0 true wm)
    ∧ wm.LoadOk (ldvSpec 0xFF 15 2 false 128 0 false wm) ∧ wm.LoadOk (ldvSpec 0xFF 15 2 true 128 0 true wm)
    ∧ wm.LoadOk (ldsSpec 0xFF 15 2 3 0 0 wm) ∧ wm.LoadOk (ldgSpec 0xFF 15 2 15 0 0 wm) := by
  refine ⟨by decide +kernel, access_room_wm, by decide +kernel, by decide +kernel, load_ok_of ?_, load_ok_of ?_, load_ok_of ?_,
    load_ok_of ?_, load_ok_of ?_, load_ok_of ?_⟩ <;> decide +kernel
theorem quiet_wm : Quiet wm 0 := ⟨by decide +kernel, by decide +kernel, by decide +kernel⟩
theorem test_meets_LoadEffects : Quiet wm wm.myPart ∧ wm.lane0 0xFF = true ∧ wm.on 0xFF 31 = true ∧ wm.on 0 0 = false
    ∧ (translate wm.ranges .lr 0x1FFFF = .ok 0xFFFF 0 ∧ wm.bankAt 0xFFFF = none)
    ∧ (translate wm.ranges .lr 0x100000 = .ok sramBase 1 ∧ wm.bankAt sramBase = some (.scratch, 0))
    ∧ (ldvSpec 0xFF 15 2 false 0 0 false wm).cached = false ∧ wm.popBank (ldvSpec 0xFF 15 2 false 0 0 false wm) = none := by
  refine ⟨quiet_wm, ?_⟩; decide +kernel
theorem test_meets_PrefLines : wthr.prefLines 0x10040 2 = [0x40, 0x80] := by decide +kernel
theorem test_meets_AddressArithmetic : wm.lane0 0xFF = true ∧ wm.isDet wm.myPart = true ∧ wthr.lane0 0xFF = true
    ∧ wthr.isDet wthr.myPart = false ∧ (15 : BitVec 7).toNat < wm.me.regs.lv.size := by decide +kernel
theorem test_meets_IssueFaults : wm.lane0 0xFF = true ∧ (15 : BitVec 7).toNat < wm.me.regs.lv.size ∧ wm.AccessRoom
    ∧ (wm.withReg (.la 1) 0x1FFF1).la 1 = 0x1FFF1 ∧ findRange wm.ranges 0x20000 = none ∧ (findRange wm.ranges 0x1FFFF).isSome = true
    ∧ findRange wm.ranges 0x200000 = some ⟨0x200000, 0x10000, 0x20000, 0, 0⟩
    ∧ (wt.me.st = .bound ∧ wt.me.task.handlerPc = some 0x10FC0
      ∧ wt.me.targetOk (wt.me.pc + 64 * (0x40 : W32).signExtend 64) = false ∧ (wt.core wt.cur.1).snap = none)
    ∧ (wt.me.vregBad 128 = true ∧ wt.me.vregBad 127 = false) ∧ csrHandlerOnly 0x020 = true := by
  refine ⟨?_, ?_, access_room_wm, ?_⟩ <;> decide +kernel
theorem test_meets_StoresComplete : (7 : BitVec 6).toNat < wm.me.regs.qv.size ∧ wm.AccessRoom ∧ wm.lane0 0xFF = true
    ∧ wm.anyLane 0xFF = true ∧ wm.StoreOk (stSpec 0xFF 7 1 false 0 3 wm) ∧ wm.StoreOk (stvSpec 0xFF 7 2 true 128 wm)
    ∧ wm.StoreOk (stsSpec 0xFF 7 2 3 0 wm) ∧ wm.StoreOk (scatSpec 0xFF 7 2 7 0 wm) := by
  refine ⟨by decide +kernel, access_room_wm, by decide +kernel, by decide +kernel, store_ok_of ?_, store_ok_of ?_, store_ok_of ?_,
    store_ok_of ?_⟩ <;> decide +kernel
theorem test_meets_StoreEffects : (wm.takeSlots [(sramBase, 1)]).1 = 0 ∧ homeOf sramBase ≠ .gddr ∧ wm.lane0 0xFF = true ∧ wm.isDet wm.myPart = true ∧ wm.pushBank (stvSpec 0xFF 7 2 true 128 wm) = none := by
  decide +kernel
/-- Frame 0 over the SCRATCH bank, E4M3, one row of 1,024 elements; SC 15 names an array of block scales beside it. -/
def wq : State :=
  (((((wm.withReg (.df 0 2) 0x100000).withReg (.df 0 3) 1).withReg (.df 0 5) 1024).withReg (.df 0 6) 1024).withReg (.sc 15)
    (0x110000 + 1))
theorem test_meets_QuantisingStores : wq.anyLane 0xFF = true ∧ (7 : BitVec 6).toNat < wq.me.regs.qv.size ∧ wq.AccessRoom
    ∧ 1 ≤ (3 : BitVec 4).toNat ∧ (3 : BitVec 4).toNat ≤ 7 ∧ (wq.frame 0).valid .e4m3 = true
    ∧ (∀ i ∈ wq.lanesOn 0xFF, ((wq.frame 0).index (qstAddr .e4m3 0x100000 i).1 (qstAddr .e4m3 0x100000 i).2).isSome = true)
    ∧ wq.scaleOk false 0 = true
    ∧ (wq.frame 0).index (qstAddr .e4m3 0x100000 0).1 (qstAddr .e4m3 0x100000 0).2 = some 0 ∧ scIsArray (vget wq.me.regs.sc 15 0) = true
    ∧ scLegal (vget wq.me.regs.sc 15 0) = true
    ∧ wq.StoreOk ⟨(wq.lanesOn 0xFF).map (fun i => codePiece .e4m3 0x100000 i 0), 1, none⟩
    ∧ wq.Accessible .qw 1 (fun m _ => m.isScratch) (BitVec.ofNat 64 (scArrayAddr (vget wq.me.regs.sc 15 0)))
    ∧ wq.Writable (BitVec.ofNat 64 (scArrayAddr (vget wq.me.regs.sc 15 0))) 1 := by
  refine ⟨?_, ?_, ?_, ?_, ?_, ?_, ?_, ?_, ?_, ?_, ?_, store_ok_of ?_, accessible_of ?_, writable_of ?_⟩
  case refine_3 => show wq.accessEntries wq.cur.1 < 64; decide +kernel
  all_goals decide +kernel
theorem test_meets_Atomics : wm.lane0 0xFF = true ∧ (7 : BitVec 6).toNat < wm.me.regs.qv.size ∧ wm.AccessRoom ∧ AtomicOk wm 0x1FFF8 8
    ∧ AtomicOk wm 0x100000 4 := by
  have hg : AtomicOk wm 0x1FFF8 8 := by
    refine ⟨accessible_of (by decide +kernel), writable_of (by decide +kernel), fun pa res h => ?_⟩
    have e : translate wm.ranges .at_ (0x1FFF8 : W64).toNat = .ok 0xFFF8 0 := by decide +kernel
    rw [e] at h; cases h; decide +kernel
  have hs : AtomicOk wm 0x100000 4 := by
    refine ⟨accessible_of (by decide +kernel), writable_of (by decide +kernel), fun pa res h => ?_⟩
    have e : translate wm.ranges .at_ (0x100000 : W64).toNat = .ok sramBase 1 := by decide +kernel
    rw [e] at h; cases h; decide +kernel
  exact ⟨by decide +kernel, by decide +kernel, access_room_wm, hg, hs⟩
theorem test_meets_UpdatesComplete : wm.lane0 0xFF = true ∧ (7 : BitVec 6).toNat < wm.me.regs.qv.size ∧ wm.AccessRoom
    ∧ (0x1FFC0 : W64).toNat % 64 = 0 ∧ translate wm.ranges .uu (0x1FFC0 : W64).toNat = .ok 0xFFC0 0 ∧ homeOf 0xFFC0 = .gddr
    ∧ wm.aliasHit 0x1FFC0 64 = none ∧ (wm.myP.rule 15 0).toNat ≤ 1
    ∧ (wm.myP.armLines 15 0x1FFC0).all (fun l => match translate wm.ranges .uu l.toNat with
      | .ok pb _ => homeOf pb == .gddr
      | .fault _ => false) = true ∧ wm.uarmFaults 0x1FFC0 1 = [] ∧ wm.uarmFaults 0x1FFC0 1024 = [] := by
  refine ⟨?_, ?_, access_room_wm, ?_⟩ <;> decide +kernel
theorem test_meets_CopiesComplete : wm.lane0 0xFF = true ∧ wm.badCopy ⟨0, 63, 0, 0⟩ ⟨0, 0, 0, 63⟩ = []
    ∧ wm.badCopy ⟨1, 63, 3, 15⟩ ⟨2, 63, 4, 7⟩ = [] := by decide +kernel

/-! ## Engines -/

/-- Words in the copy staging registers. -/
def Sys2Proof.Machine.State.withDs (s : State) (ws : List W64) : State :=
  (ws.zip (List.range 16)).foldl (fun r e => r.withReg (.ds e.2) (toVec e.1)) s
/-- Words in the matrix staging registers. -/
def Sys2Proof.Machine.State.withMs (s : State) (ws : List W64) : State :=
  (ws.zip (List.range 16)).foldl (fun r e => r.withReg (.ms e.2) (toVec e.1)) s

/-- Route 0 exists, reduction group 0 has this core as its one participant, frames 0 and 1 lie over GDDR. -/
def wc : State :=
  ((((((((wm.withReg (.df 0 2) 0x10000).withReg (.df 0 3) 1).withReg (.df 0 5) 64).withReg (.df 0 6) 64).withReg (.df 1 2)
    0x12000).withReg (.df 1 3) 1).withReg (.df 1 5) 64).withReg (.df 1 6) 64).onPart 0 (fun q =>
      { q with routes := 0x20000000000 :: List.replicate 63 0, redGroups := [1 :: List.replicate 64 0] })

theorem test_meets_CopyCommandsAccepted : wc.lane0 0xFF = true ∧ wc.myCore.copies.length < 16
    ∧ (let s := wc.withDs [0x10000, 0x12000, 64]; s.copyFaults (s.command 1 0 0 false false) = [])
    ∧ (let s := wc.withDs [0x10000, 0x12000, 0x200000020, 64, 64]; s.copyFaults (s.command 2 0 0 false false) = [])
    ∧ (let s := wc.withDs [0x10000, 0x12000, 0x200000002, 64, 64, 4]; s.copyFaults (s.command 3 0 0 false false) = [])
    ∧ (let s := wc.withDs [0x10000, 0x12000, 0x100000020, 0x3310]; s.copyFaults (s.command 4 0 0 false false) = [])
    ∧ (let s := wc.withDs [0x10000, 0x12000, 0x13000, 1, 0]; s.copyFaults (s.command 5 0 0 false false) = [])
    ∧ (let s := wc.withDs [0x10000, 0x12000, 0x13000, 1, 0]; s.copyFaults (s.command 6 0 0 false false) = [])
    ∧ (let s := wc.withDs [0x12000, 64, 0]; s.copyFaults (s.command 7 0 0 false false) = [])
    ∧ (let s := wc.withDs [0x10000, 0, 64, 0]; s.copyFaults (s.command 8 0 0 false false) = [])
    ∧ (let s := wc.withDs [0, 0x12000, 64, 0]; s.copyFaults (s.command 9 0 0 false false) = [])
    ∧ (let s := wc.withDs [0x10000, 0x12000, 0x100000000, 0x100000001]; s.copyFaults (s.command 10 0 0 false false) = [])
    ∧ (let s := wc.withDs [0x1012F]; s.copyFaults (s.command 11 0 0 false false) = []) := by decide +kernel

/-! ## The Grove -/

/-- The state after an operation that runs. -/
def after (i : Instr) (s : State) : State :=
  match exec i s with
  | .next t => t
  | _ => s

/-- Leaves 1 and 2 of 4 rows and 4 columns in FP32 over GDDR, leaf 6 of one column, leaf 7 of 64 columns; staging words of a
destination in SCRATCH. -/
def wg : State :=
  (after (.tdef 0xFF 7 4) (after (.tdef 0xFF 6 2) (after (.tdef 0xFF 2 0) (after (.tdef 0xFF 1 0)
    (wm.withMs [0x10000, 0x40008004, 0x11000, 0x10002004, 0x12000, 0x400080004]))))).withMs [0x100000, 0x40008004, 0x101000]
/-- The same with the factor 3 = LU of leaf 1, and staging words for a destination beside it. -/
def wgl : State := (after (.tlu 0xFF 3 1 0 false) wg).withMs [0x102000, 0x40008004, 0]
/-- 64 live nodes of another context. -/
def wgFull : State :=
  let other : GNode := { wg.capturedNode ⟨1, 1, 0, 0, 0, 0⟩ with ctx := 5 }
  wg.onCore 0 (fun k => { k with nodes := List.replicate 64 other })

/-- Whether an append passes its checks. -/
def appendOk (s : State) (opcode : Nat) (nd na nb : NodeId) (fl : Nat) : Bool := (s.appendFault (s.capturedNode ⟨opcode, nd, na, nb, fl, 0⟩)).isNone

theorem test_meets_AppendsComplete : wg.lane0 0xFF = true ∧ appendOk wg 1 4 0 0 0 = true ∧ appendOk wg 2 4 1 2 1 = true
    ∧ appendOk wg 3 4 1 2 0 = true ∧ appendOk wg 4 4 1 2 0 = true ∧ appendOk (wg.withMs [0x100000, 0x40008004, 0]) 5 4 1 0 0 = true
    ∧ appendOk (wg.withMs [0x100000, 0x400080004, 63]) 6 4 7 0 1 = true ∧ appendOk (wg.withMs [0, 0x20000008000]) 7 4 1 0 0 = true
    ∧ appendOk wg 8 4 1 0 0 = true ∧ appendOk wg 0x20 4 1 2 7 = true ∧ appendOk wg 0x21 4 1 0 1 = true ∧ appendOk wg 0x22 4 1 0 0 = true
    ∧ appendOk wg 0x23 4 1 0 0 = true ∧ appendOk wgl 0x24 4 3 2 0 = true
    ∧ appendOk (wgl.withMs [0x102000, 0x10002004, 6, 0]) 0x25 4 1 6 0 = true := by decide +kernel
/-- An append's fault by name. -/
def appendFaultOf (s : State) (opcode : Nat) (nd na nb : NodeId) : Option Nat :=
  (s.appendFault (s.capturedNode ⟨opcode, nd, na, nb, 0, 0⟩)).map (fun f => f.code)
/-- A shape of no column; a TADD whose destination no entry maps, one over another node's buffer, one of a leaf in FP32 and a leaf in
INT8; a TMUL whose second operand is no live node, and one whose shapes do not fit. -/
theorem test_meets_AppendChecks :
    appendFaultOf (wg.withMs [0x100000, 0x40000004, 0x101000]) 2 4 1 2 = some 0x05
      ∧ (let n := wg.capturedNode ⟨4, 4, 1, 2, 0, 0⟩; findNode wg.myCore.nodes wg.cur.2 n.id = none
        ∧ (∀ id ∈ n.namedPreds, (liveNode wg.myCore.nodes wg.cur.2 id).isSome = true) ∧ n.namedPreds = [1, 2])
      ∧ appendFaultOf (wg.withMs [0x300000, 0x40008004, 0x101000]) 4 4 1 2 = some 0x07
      ∧ appendFaultOf (wgl.withMs [0x100000, 0x40008004, 0x101000]) 4 4 1 2 = some 0x0D
      ∧ (let s := after (.tdef 0xFF 3 0) (wg.withMs [0x13000, 0x1800040008004]); appendFaultOf (s.withMs [0x100000, 0x40008004]) 4 4 1 3 = some 0x01)
      ∧ (wg.capturedNode ⟨2, 4, 1, 9, 0, 0⟩).namedPreds = [1, 9] ∧ (liveNode wg.myCore.nodes wg.cur.2 1).isSome = true
      ∧ appendFaultOf wg 2 4 1 9 = some 0x0C ∧ appendFaultOf wg 2 4 6 1 = some 0x05 := by decide +kernel
theorem test_meets_AppendFaults :
    (wg.myCore.nodes.find? (fun m => m.ctx == wg.cur.2 && m.id == 1)).isSome = true
      ∧ wg.myCore.nodes.find? (fun m => m.ctx == wg.cur.2 && m.id == 4) = none
      ∧ (wg.capturedNode ⟨2, 4, 9, 2, 0, 0⟩).namedPreds.head? = some 9
      ∧ wg.myCore.nodes.find? (fun m => m.ctx == wg.cur.2 && m.id == 9) = none
      ∧ (wgFull.appendFault (wgFull.capturedNode ⟨1, 4, 0, 0, 0, 0⟩)).map (fun f => f.code) = some 0x0E
      ∧ wgFull.myCore.nodes.length = 64 := by decide +kernel

/-- Region words: all of a node of 4 rows and 4 columns. -/
def wdm : State := wg.withMs [0x20000008000, 0x101000, 0x40008004]
theorem test_meets_DemandsComplete : wdm.lane0 0xFF = true ∧ wdm.myCore.openDemands.length < 8
    ∧ (liveNode wdm.myCore.nodes wdm.cur.2 1).isSome = true ∧ (wdm.capturedDemand 0x10 1 0).regionOk wdm.myCore.nodes = true
    ∧ (wdm.capturedDemand 0x11 1 0).regionOk wdm.myCore.nodes = true ∧ (wdm.capturedDemand 0x11 1 0).targetOk = true
    ∧ (∀ e ∈ (wdm.capturedDemand 0x11 1 0).targetRows, wdm.extentFaults 4 .mw false e = [] ∧ wdm.extentAlias 4 e = [])
    ∧ (wdm.capturedDemand 0x11 1 0).targetFrameFaults = []
    ∧ (0x10000 : W64).toNat % 64 = 0 ∧ wdm.extentFaults 4 .mr false ((0x10000 : W64).toNat, 1024) = []
    ∧ (∀ n ∈ wdm.myCore.nodes, n.dropped = false → n.opcode = 1 → n.format ≠ .vq8)
    ∧ liveNode wdm.myCore.nodes wdm.cur.2 9 = none ∧ wdm.myCore.nodes.all (fun m => !m.preds.contains 6) = true
    ∧ (liveNode wgl.myCore.nodes wgl.cur.2 1).isSome = true ∧ wgl.myCore.nodes.any (fun m => m.ctx == wgl.cur.2 && !m.dropped && m.preds.contains 1) = true
    := by decide +kernel

/-! ## The Y slot -/

/-- Group 1 is live, of generation 2. -/
def wgrp (ms : List (Nat × Nat × Bool)) : State := wt.onPart 0 (fun q => { q with groups := [(1, ⟨true, 2, ms, 0, [], 0⟩)] })
def wgx (ms : List (Nat × Nat × Bool)) : State := (wgrp ms).withReg (.x 9) 0x2001

theorem amGet_range (g : GroupObj) : ∀ (n k i : Nat), i < n → amGet ((List.range' k n).map (fun j => (j, g))) (k + i) = some g := by
  intro n
  induction n with
  | zero => intro k i h; omega
  | succ n ih =>
    intro k i h
    rw [List.range'_succ, List.map_cons]
    cases i with
    | zero => simp [amGet]
    | succ i =>
      have h1 := ih (k + 1) i (by omega)
      have h2 : k ≠ k + (i + 1) := by omega
      rw [show k + 1 + i = k + (i + 1) by omega] at h1
      simpa [amGet, h2] using h1

/-- Every group object is live. -/
def wgAll : State := wt.onPart 0 (fun q => { q with groups := (List.range' 0 4096).map (fun j => (j, (⟨true, 0, [], 0, [], 0⟩ : GroupObj))) })

theorem wgAll_live (i : Nat) (h : i < 4096) : ((wgAll.part 0).group i).live = true := by
  have e : (wgAll.part 0).groups = (List.range' 0 4096).map (fun j => (j, (⟨true, 0, [], 0, [], 0⟩ : GroupObj))) := rfl
  have := amGet_range ⟨true, 0, [], 0, [], 0⟩ 4096 0 i h
  rw [Nat.zero_add] at this
  unfold Partition.group
  rw [e, this]
  rfl

theorem test_meets_FencesHold : wt.lane0 0xFF = true ∧ wt.isDet wt.myPart = true
    ∧ ((wt.withReg (.x 1) 0xFFFFFFFF).me.xr 1).toNat < 2 ^ 32 ∧ 2 ^ 32 ≤ ((wt.withReg (.x 1) 0x100000000).me.xr 1).toNat
    ∧ (wt.me.xr 1).toNat = 0 := by decide +kernel
theorem test_meets_GroupOps :
    ((wgx []).lane0 0xFF = true ∧ Names (wgx []) ((wgx []).me.xr 9) 1 ∧ ¬ Member (wgx []) 1 ∧ (wgx []).me.groups.length < 8
      ∧ ((wgx []).myP.group 1).members = [])
    ∧ (let s := wgx [(0, 0, false)]; Names s (s.me.xr 9) 1 ∧ Member s 1 ∧ s.hasArrived s.cur.1 s.cur.2 1 = false
      ∧ (s.myP.group 1).members ≠ [])
    ∧ (∃ i, i < 4096 ∧ (wt.myP.group i).live = false)
    ∧ (∀ i, i < 4096 → (wgAll.myP.group i).live = true)
    ∧ ((wgx []).me.st = .bound ∧ (wgx []).ctx? (wgx []).cur.1 (wgx []).cur.2 ≠ none ∧ ¬ ∃ i, Names wt (wt.me.xr 9) i)
    ∧ 8 ≤ ((wgx []).onMe (fun x => { x with groups := [2, 3, 4, 5, 6, 7, 8, 9] })).me.groups.length := by
  have hn : ∀ ms, (wgx ms).me.xr 9 = 0x2001 → (wgx ms).myP.group 1 = ⟨true, 2, ms, 0, [], 0⟩ → Names (wgx ms) ((wgx ms).me.xr 9) 1 :=
    fun ms e g => by rw [e]; simp [Names, g]
  refine ⟨⟨by decide +kernel, hn _ (by decide +kernel) (by decide +kernel), ?_, by decide +kernel, by decide +kernel⟩, ⟨hn _ (by decide +kernel) (by decide +kernel), ?_, by decide +kernel, by decide +kernel⟩,
    ⟨0, by decide +kernel, by decide +kernel⟩, fun i hi => wgAll_live i hi, ⟨by decide +kernel, by decide +kernel, ?_⟩, by decide +kernel⟩
  · show ¬ _ = _; decide +kernel
  · show _ = _; decide +kernel
  · rintro ⟨i, -, rfl, h, -⟩
    have : (wt.myP.group ((wt.me.xr 9).toNat % 4096)).live = false := by decide +kernel
    rw [this] at h; cases h

/-- Queue 5 of the partition takes packets of SUBMIT; its ring of 16 slots has one free. -/
def wsub : State := wt.setQueue 5 { Queue.reset with n := 4, en := true, src := true, st := .active, tail := 15 }
theorem test_meets_TaskOperations : wsub.lane0 0xFF = true ∧ wsub.me.task.signalled = false
    ∧ (wsub.onMe (fun x => { x with task := { x.task with signalled := true } })).me.task.signalled = true
    ∧ wsub.submitFaults 0x10000 5 = [] ∧ wsub.ringFull wsub.myPart 5 = false
    ∧ (wsub.queue 5).part.toNat = wsub.myPart ∧ (wsub.queue 5).en = true ∧ (wsub.queue 5).src = true
    ∧ translate wsub.ranges .lr 0x1FFC0 = .ok 0xFFC0 0
    ∧ ((wsub.queue 5).tail - (wsub.queue 5).head).toNat + wsub.submitsTo wsub.myPart 5 < 2 ^ (wsub.queue 5).n.toNat
    ∧ (wsub.ctx? wsub.cur.1 1 = none ∧ (∀ d, d < 1 → wsub.ctx? wsub.cur.1 d ≠ none) ∧ (wsub.myCore.fit wsub.me.task.win).isSome = true)
    ∧ (wsub.myCore.fit ⟨640, 0, 0, 0⟩ = none) := by decide +kernel

/-- Launch 1, of two tasks with the windows of an image at 0x10000. -/
def wLaunch : Launch :=
  { number := 1, queue := 5, tag := 0, cr := true, base := 1, prio := 1,
    image := ⟨0x10000, 0x1000, 0x10040, 0x10040, 0x11000, none, 0, 0, 1, ⟨64, 64, 16, 8⟩⟩, init := [], ex := 2, ey := 1, ez := 1,
    compl := 0x1F000, place := [], hulls := [], submitter := none, deps := [], nextTask := 0, since := none, bound := [], signalled := 0,
    extra := 0, latched := false, status := 0, failAt := 0, failTask := 0, failCause := 0, failInfo := 0, failEpc := 0, tends := 0, clusters := [],
    late := [], flushed := [], completing := false, done := false, stopped := false }
def Sys2Proof.Machine.State.withLaunch (s : State) (l : Launch) : State := s.onPart 0 (fun q => { q with launches := [l] })

/-! ## Bundles, traps, writes in flight -/

def issuesB (v : Verdict) : Bool := match v with
  | .issues _ => true
  | _ => false
def faultB (v : Verdict) : Bool := match v with
  | .fault _ => true
  | _ => false
def lateB (v : Verdict) : Bool := match v with
  | .late _ => true
  | _ => false

/-- The context waits for a drain that has not ended. -/
def wHeld (s : State) : State := s.onMe (fun x => { x with hold := some ⟨.drain, 100, 0, 0⟩ })
theorem test_meets_BundleEvents : (wt.ctx? 0 0).isSome = true ∧ issuesB (wt.verdict 0 0) = true
    ∧ (wHeld wthr).verdict 0 0 = .held ∧ faultB ((wt.onMe (fun x => { x with pc := 0x11000 })).verdict 0 0) = true
    ∧ lateB ((wHeld (wt.onMe (fun x => { x with sfc0 := some 0 }))).verdict 0 0) = true
    ∧ (wt.ctx 0 0).st = .bound ∧ (wt.ctx 0 0).task.handlerPc = some 0x10FC0 ∧ (wt.core 0).snap = none ∧ wt.padMissed 0 0 = none
    ∧ (let s := wt.push 0 (.x 3) (maskAt 0 64) 7; (s.ctx 0 0).landing (s.cyc 0) = s.me.pend ∧ s.me.pend.length = 1
      ∧ s.me.pend.all (fun w => w.trap == none && w.lands (s.cyc 0)) = true) := by decide +kernel

/-- A later instant. -/
def later (s : State) : State := { s with now := 10 ^ 17 }
/-- The word of an instruction in its slot. -/
def wS (i : Instr) : BitVec 80 := match encode i with
  | some (.s w) => w
  | _ => 0
def wV (i : Instr) : BitVec 64 := match encode i with
  | some (.v _ w) => w
  | _ => 0
def wC (i : Instr) : BitVec 32 := match encode i with
  | some (.c w) => w
  | _ => 0
/-- The code of a bundle of an S, two V and a C operation. -/
def wCode (h : Header) (si v0 v1 c : Option Instr) : BitVec 512 :=
  joinBundle h ⟨0, (si.map wS).getD 0, (v0.map wV).getD 0, (v1.map wV).getD 0, 0, 0, 0, 0, (c.map wC).getD 0⟩
/-- The same at the context's pc. -/
def wBundle (s : State) (h : Header) (si v0 v1 c : Option Instr) : State :=
  { s with mem := memWrite s.mem (bytesAt 0 (bundleBytes (wCode h si v0 v1 c))) }
def wHdr (gap wait : BitVec 8) (stop : Bool) (form : BitVec 4) : Header := ⟨gap, 0, 0, 0, wait, stop, false, false, false, form⟩
/-- The bundle that context 0 of core 0 stands at, with the state that it would read. -/
def wAt (s : State) (f : Ctx → Bundle → State → Bool) : Bool :=
  match s.ctx? 0 0, s.fetch 0 0 with
  | some x, .bundle b => f x b (s.atIssue 0 0 b)
  | _, _ => false
/-- At a boundary, with nothing that keeps the bundle and no fault of a slot. -/
def wReached (s : State) (f : Ctx → Bundle → State → Bool) : Bool := wAt s (fun x b v =>
  s.atBoundary 0 0 && (s.stamped 0 0 || (s.mayUse 0 0 && !s.forceDue 0 0 && s.contextHolds 0 0 == 0 && v.bundleHolds x b == 0))
    && (bundleForms b).all (fun f => (f.sem v).faults.isEmpty) && f x b v)
/-- At a boundary, with no fault and no engine that keeps the bundle. -/
def wClean (s : State) (f : Ctx → Bundle → State → Bool) : Bool := wAt s (fun x b v =>
  s.atBoundary 0 0 && (v.bundleFaults b).isEmpty && x.replay.isNone && x.pending.isEmpty && x.pend.all (fun w => w.src == .core && w.trap.isNone)
    && !b.hdr.stop && (v.acting b).all (fun f => (f.sem v).holds == 0) && f x b v)
def wHdr1 : Header := wHdr 1 0 false 0
def wAdd (s : State) (h : Header) : State := wBundle s h (some (.add 0xFF 3 1 2)) none none none
def wGroup (s : State) (n : Nat) : State := s.onMe (fun x => { x with group := ⟨n, [.x 1]⟩ })
def okB (w : BitVec 512) : Bool := match decode (bundleBytes w) with
  | .ok _ => true
  | .error _ => false
/-- GAP 0, FORM 2 and 15, FORM 1 with STOP; a legal bundle; the last pc of the code range, and what stands there. -/
theorem test_meets_HeaderFates : (wCode (wHdr 0 0 false 0) none none none none).extractLsb' 0 8 = 0
    ∧ ((wCode (wHdr 1 0 false 2) none none none none).extractLsb' 32 4).toNat = 2
    ∧ ((wCode (wHdr 1 0 false 15) none none none none).extractLsb' 32 4).toNat = 15
    ∧ ((wCode (wHdr 1 0 true 1) none none none none).extractLsb' 32 4 = 1 ∧ (wCode (wHdr 1 0 true 1) none none none none).getLsbD 28 = true)
    ∧ okB (wCode (wHdr 1 0 true 0) (some (.add 0xFF 3 1 2)) none none none) = true
    ∧ (wt.ctx? 0 0).isSome = true ∧ ({ wt.me with pc := 0x10FC0 } : Ctx).targetOk 0x10FC0 = true ∧ (wt.codeBytes 0 0x10FC0).isSome = true
    ∧ (wt.codeBytes 0 0x10FC0).any (fun bs => match decode bs with
      | .ok _ => false
      | .error _ => true) = true := by decide +kernel
/-- A bundle with GAP 255 after one that issued at a cycle. -/
def wGap (u : Nat) : State :=
  (later (wBundle wt (wHdr 255 0 false 0) none none none none)).onMe (fun x => { x with lastIssue := some u })
/-- A GAP that has not gone by; FORM 1 of a BOUND context, FORM 0 of a handler, one destination twice, a group's own write, a 17th
bundle, two divisions. -/
theorem test_meets_IssueRules :
    wAt (wGap ((later wt).cyc 0)) (fun x b _ => x.lastIssue == some ((wGap ((later wt).cyc 0)).cyc 0) && b.hdr.gap == 255) = true
    ∧ wAt (wGap 0) (fun x b _ => decide (b.hdr.gap.toNat ≤ (wGap 0).cyc 0) && x.live && x.traps.isEmpty && x.pend.isEmpty) = true
    ∧ wReached (wAdd wt (wHdr 1 0 false 1)) (fun x b _ => b.hdr.form == 1 && x.st == .bound) = true
    ∧ wReached (wAdd wh wHdr1) (fun x b _ => x.st == .handler && b.hdr.form == 0) = true
    ∧ wReached (wBundle wt wHdr1 none (some (.vAdd .v0 0xFF 1 2 3 0 0)) (some (.vAdd .v1 0xFF 1 2 3 0 0)) none) (fun _ b v =>
      !decide (((bundleForms b).flatMap (fun f => (f.use v).writes.map (fun w => w.1.name))).Nodup)) = true
    ∧ wReached (wGroup (wAdd wt wHdr1) 1) (fun x b v =>
      decide (0 < x.group.bundles) && (v.bundleReads b).any (fun d => x.group.written.contains d.name)) = true
    ∧ wReached (wGroup (wAdd wt (wHdr 1 0 true 0)) 15) (fun x b _ => decide (15 ≤ x.group.bundles) && b.hdr.stop) = true
    ∧ wReached (wBundle wt wHdr1 none (some (.vfdiv .v0 0xFF 1 2 3 0)) (some (.vfsqrt .v1 0xFF 4 2 0)) none) (fun _ b _ =>
      b.v0.any divides && b.v1.any divides) = true := by decide +kernel
/-- A context in an IL region with a write in flight. -/
def wIl (s : State) : State := s.onMe (fun x => { x with baseIl := true, pend := [⟨5, 100, 0, .x 1, 1, 1, .core, none, none, false⟩] })
/-- 16 commands wait in the copy engine. -/
def wFull (s : State) : State := s.onCore 0 (fun r => { r with copies := List.replicate 16 (wc.command 1 0 0 false false) })
/-- A stamped bundle that waits for TM, one that nothing keeps, one whose slot is gone, one that meets a write in flight, one whose
engine takes no command; a handler's; the contexts of THR. -/
theorem test_meets_IssueHolds : wClean (wAdd wt (wHdr 1 0x80 false 0)) (fun _ _ _ => wt.stamped 0 0) = true
    ∧ wClean (wAdd wt wHdr1) (fun _ b v => wt.stamped 0 0 && !b.hdr.wait.getLsbD 0 && v.me.pend.isEmpty) = true
    ∧ wClean (wAdd wh (wHdr 1 0 false 1)) (fun _ _ _ => !wh.stamped 0 0 && wh.mayUse 0 0 && !wh.forceDue 0 0) = true
    ∧ wClean ((wAdd wt wHdr1).onCore 0 (fun r => { r with lastIssueCycle := some (wt.cyc 0) })) (fun _ _ _ => wt.stamped 0 0) = true
    ∧ wClean (wIl (wAdd wt wHdr1)) (fun x b v => v.me.il && x.group.bundles == 0 && x.pend.all (fun w => decide (v.t < w.land)
      && (v.acting b).any (fun f => (f.use v).reads.any (fun d => d.name == w.dest.name)))) = true
    ∧ wClean (wIl (wAdd wh (wHdr 1 0 false 1))) (fun x _ v => v.me.il && x.pend.length == 1) = true
    ∧ wAt (wFull (wBundle (wc.withDs [0x100000, 64, 7]) wHdr1 none none none (some (.cfill 0xFF 0 0)))) (fun _ b v => (v.bundleFaults b).isEmpty
      && (v.acting b).any (fun f => (f.sem v).holds != 0)) = true
    ∧ (wthr.core 0).run = none ∧ wthr.isDet 0 = false ∧ issuesB (wthr.verdict 0 0) = true ∧ wthr.eligible 0 0 = true
    ∧ ((wthr.onCore 0 (fun r => { r with run := some 5 })).core 0).run = some 5 := by decide +kernel

def wTrap (s : State) : State := s.onMe (fun x => { x with traps := [⟨0x87, 0, 0, 0, false, 1, 0, none, none⟩] })
def wThrLate : State := { wthr with now := 40000000 * 10 ^ 12 }.onMe (fun x => { x with preempt := .requested 0 })
/-- A NONFINITE that lands now, on a context that is CLOSING. -/
def wNf : State := (wTrap wt).pushAt 0 (.csr 0x019) 1 1 .core (some 0) (some (2, 5))
def wClosingTrap : State := (wTrap wt).onMe (fun x => { x with st := .closing })
theorem test_meets_TrapEvents : wNf.me.pend.any (fun w => w.lands (wNf.cyc 0) && w.trap == some (2, 5)) = true
    ∧ wClosingTrap.mayTrap 0 0 = true ∧ (wClosingTrap.ctx 0 0).st = .closing
    ∧ (let l := wLaunch; (wClosingTrap.withLaunch { l with number := 0 }).mayTrap 0 0 = true ∧ l.status = 0) ∧ (wTrap wt).mayTrap 0 0 = true ∧ ((wTrap wt).ctx 0 0).traps ≠ [] ∧ ((wTrap wt).ctx 0 0).st = .bound
    ∧ ((wTrap wt).ctx 0 0).preempt.hasLanded = false ∧ ((wTrap wt).core 0).snap = none
    ∧ ((wTrap wt).onMe (fun x => { x with task := { x.task with handlerPc := none } })).mayTrap 0 0 = true
    ∧ ((wt.onMe (fun x => { x with waitSnap := some ⟨0, 0, 0, none, none⟩ })).ctx 0 0).waitSnap = some ⟨0, 0, 0, none, none⟩
    ∧ wThrLate.forceDue 0 0 = true ∧ wThrLate.atBoundary 0 0 = true ∧ (wThrLate.core 0).snap = none
    ∧ (wt.ctx 0 0).preempt = .idle ∧ (wThrLate.ctx 0 0).preempt ≠ .idle := by decide +kernel

/-! ## Memory operations -/

/-- One operation in flight, due now, on partition 0. -/
def wo (k : OpKind) : Op := ⟨7, some 0, 0, 0, 0, false, true, k⟩
def wop (k : OpKind) : State := wt.onPart 0 (fun q => { q with ops := [wo k] })

theorem wop_op (k : OpKind) : (wop k).op? 0 7 = some (wo k) := by
  simp [wop, State.op?, wo]
theorem wop_comes (k : OpKind) : Comes (wop k) 0 (wo k) := by
  refine ⟨wop_op k, 0, rfl, Nat.zero_le _⟩
theorem wop_reached (k : OpKind) : (wop k).reachedOp 0 7 = some (wo k) := by
  rw [State.reachedOp, wop_op]; simp [wo]

/-- A reading of GDDR whose line was missing, and one of a bank of cluster 1, which is in CACHE. -/
def wRead (pa : Nat) (miss : Bool) : Reading := ⟨0, 32, 4, 0, pa, 0x10040, 1, false, false, miss, miss⟩
theorem test_meets_Readings : (wop (.value 3 0 [wRead 0x40 true])).remoteRefused (wo (.value 3 0 [])).core (wRead 0x40 true) = false
    ∧ (wRead 0x40 false).miss = false ∧ (wop (.value 3 5 [wRead (sramBase + 0x2000000) false])).remoteRefused 0 (wRead (sramBase + 0x2000000) false) = true
    ∧ ((wop (.value 3 5 [])).ctx? 0 0).isSome = true := by decide +kernel
/-- Bank 1 of cluster 0 as FIFO with one entry. -/
def wfifo : Cluster := { wCluster with modes := [.scratch, .fifo] ++ List.replicate 46 .cache, fifos := [⟨1, [7]⟩] }
def wopF (k : OpKind) : State := { wop k with clusters := [(0, wfifo)] }

theorem test_meets_MemoryEvents : (∀ k, Comes (wop k) 0 (wo k) ∧ (wop k).reachedOp 0 (wo k).id = some (wo k))
    ∧ (wop (.atomic 0x10 4 0x40 0x10040 false false 1 0 3 1)).storeRefused 0 0x40 = false ∧ isOwnSram (clusterOf 0) 0x40 = false
    ∧ (wt.bankAt sramBase).any (fun b => b.1.isScratch) = true ∧ (wop (.store [⟨0x40, 1, 0xFF⟩] [] none)).Inv ∧ homeOf 0x40 = .gddr
    ∧ (wop (.store [⟨0x40, 1, 0xFF⟩] [] none)).reorders 0 (wo (.store [⟨0x40, 1, 0xFF⟩] [] none)) 0x40 = false
    ∧ (let k : OpKind := .store [⟨sramBase, 1, 0xFF⟩] [] none; (wop k).takesFrom (clusterOf (wo k).core) (wo k).issued sramBase = true
      ∧ (wop k).reorders 0 (wo k) sramBase = false ∧ (wop k).bankAt sramBase = some (.scratch, 0))
    ∧ (wop (.pop 0 1 3 0 4 0)).fifoEntries 0 1 = []
    ∧ ((wopF (.pop 0 1 3 0 4 0)).fifoEntries 0 1 = [7] ∧ (wopF (.pop 0 1 3 0 4 0)).nextAtBank 0 (wo (.pop 0 1 3 0 4 0)) (fun q => q.popsBank 0 1) = true)
    ∧ (let k : OpKind := .push 0 1 0x180000 [9] none
      (wopF k).fifoFor (clusterOf (wo k).core) (wo k).issued 0 1 = true ∧ (wopF k).nextAtBank 0 (wo k) (fun q => q.pushesBank 0 1) = true
      ∧ ((wopF k).fifoEntries 0 1).length + 1 ≤ 4096 ∧ (wop k).fifoFor (clusterOf (wo k).core) (wo k).issued 0 1 = false ∧ 0 = clusterOf (wo k).core) := by
  refine ⟨fun k => ⟨wop_comes k, wop_reached k⟩, ?_, ?_, ?_, ?_, ?_⟩
  case refine_4 => show Memory.wf _ = true; decide +kernel
  all_goals decide +kernel

/-! ## Engines -/

/-- A CPY accepted, and the same started. -/
def wcpy : State := later (after (.cpy 0xFF 0 0 false) (wc.withDs [0x10000, 0x12000, 64]))
def wcpyRun : State := { after (.copyStart 0) wcpy with now := 2 * 10 ^ 17 }
def wrun (next : Nat) : State := { later wt with clusters := [(0, { wCluster with runs := [⟨7, 0, 0, 1, 46, 2, 1, next, true, 0⟩] })] }
/-- A CFILL within the SCRATCH bank meets no line of GDDR. -/
def wfill : State := later (after (.cfill 0xFF 0 0) (wc.withDs [0x100000, 64, 7]))
theorem test_meets_CopyCost : (nextCopy (wfill.core 0).copies).all (fun e =>
    e.2.opcode == 7 && e.2.dsts == [(0x100000, 64)] && e.2.srcs == [] && e.2.list == []) = true
    ∧ wfill.extentLines 0 [(0x100000, 64)] = [] := by decide +kernel
theorem test_meets_CopyEvents : (wcpy.core 0).copyStartAt = some 1 ∧ (nextCopy (wcpy.core 0).copies).isSome = true
    ∧ 1 ≤ wcpy.cyc (wcpy.partOf 0) ∧ (nextCopy (wcpy.core 0).copies).all (fun e => !wcpy.lacksCredits (wcpy.partOf 0) e.2) = true
    ∧ wcpy.isDet (wcpy.partOf 0) = true
    ∧ (∃ c, wcpyRun.findCopy 0 0 = some (0, c) ∧ wcpyRun.copyReady 0 0 c = true ∧ (wcpyRun.ctx? 0 c.ctx).isSome = true ∧ c.fault = 0
      ∧ c.nonfinite = false ∧ c.performed = false ∧ c.opcode ≠ 8)
    ∧ (wcpyRun.core 0).copies.all (fun c => c.writes.all (fun w =>
      wcpyRun.fifoTarget (wcpyRun.fifoFor (clusterOf 0) c.accepted) 0 w.1 w.2.length == none && (wcpyRun.physWrite 0 w.1 w.2).all (fun b =>
        !wcpyRun.storeRefused 0 b.pa && wcpyRun.takesFrom (clusterOf 0) c.accepted b.pa))) = true
    ∧ (∃ r, (wrun 1).findRun 0 7 = some (0, r) ∧ r.started = true ∧ r.next < r.count ∧ r.nextAt ≤ (wrun 1).cyc 0 ∧ r.first + r.next < 48
      ∧ ∀ q ∈ ((wrun 1).cluster 0).runs, q.op ≠ r.op → q.names 47 = false)
    ∧ (∃ r, (wrun 2).findRun 0 7 = some (0, r) ∧ r.started = true ∧ r.next = r.count) := by
  refine ⟨by decide +kernel, by decide +kernel, by decide +kernel, by decide +kernel, by decide +kernel, ?_, by decide +kernel, ?_, ?_⟩
  · have h : wcpyRun.findCopy 0 0 = (wcpyRun.core 0).copies.head?.map (fun c => (0, c)) := by decide +kernel
    have g : ((wcpyRun.core 0).copies.head?.any (fun c => wcpyRun.copyReady 0 0 c && (wcpyRun.ctx? 0 c.ctx).isSome && c.fault == 0 && !c.nonfinite
      && !c.performed && c.opcode != 8)) = true := by decide +kernel
    cases e : (wcpyRun.core 0).copies.head? with
    | none => rw [e] at g; cases g
    | some c =>
      rw [e] at h g
      simp only [Option.any_some, Bool.and_eq_true, Bool.not_eq_true', beq_iff_eq, bne_iff_ne] at g
      exact ⟨c, h, g.1.1.1.1.1, g.1.1.1.1.2, g.1.1.1.2, g.1.1.2, g.1.2, g.2⟩
  · exact ⟨⟨7, 0, 0, 1, 46, 2, 1, 1, true, 0⟩, by decide +kernel⟩
  · exact ⟨⟨7, 0, 0, 1, 46, 2, 1, 2, true, 0⟩, by decide +kernel⟩

/-- A demand for leaf 1, and the same in evaluation; one for the LU factor of a matrix of zeros, which breaks down. -/
def wfd : State := later (after (.tforce 0xFF 1 0) wdm)
def wfdRun : State := { after (.demandStart 0) wfd with now := 2 * 10 ^ 17 }
def wlu : State := later (after (.tforce 0xFF 3 0) (wgl.withMs [0x20000008000]))
def wluRun : State := { after (.demandStart 0) wlu with now := 2 * 10 ^ 17 }
/-- The same with a request to the divide and square-root unit that has come. -/
def wluReq : State := wluRun.onCore 0 (fun k => { k with running := k.running.map (fun g => { g with requests := [3] }) })
def endsB : Option GRun → Option Bool
  | some g => match g.result with
    | .completes => some true
    | .faults .. => some false
  | none => none
/-- The same at the start of node 3, whose destination's bank has left SCRATCH. -/
def wluStage : State :=
  let away : State := { wluRun with clusters := [] }
  away.onCore 0 (fun k => { k with
    running := k.running.map (fun g => { g with stages := [⟨wluRun.cyc (wluRun.partOf 0), 3, 0, 0, 0, 0, 0, none⟩] }) })
theorem test_meets_DemandEvents : (wluStage.core 0).running.all (fun g => (wluStage.stageStop 0 g).isSome) = true
    ∧ (wluRun.core 0).running.all (fun g => (wluRun.stageStop 0 g).isNone) = true ∧ (wfd.core 0).demandAt = some 0 ∧ (nextDemand (wfd.core 0).demands).isSome = true ∧ 0 ≤ wfd.cyc (wfd.partOf 0)
    ∧ ((nextDemand (wfd.core 0).demands).all (fun d => (parksBehind (wfd.core 0).nodes (wfd.core 0).suspended d.1).isNone)) = true
    ∧ endsB (wfdRun.core 0).running = some true ∧ endsB (wluRun.core 0).running = some false
    ∧ (wfdRun.core 0).running.all (fun g => g.finish ≤ wfdRun.cyc (wfdRun.partOf 0) && (wfdRun.ctx? 0 g.demand.ctx).any (fun x => x.st == .bound)) = true
    ∧ (wluRun.core 0).running.all (fun g => g.finish ≤ wluRun.cyc (wluRun.partOf 0)) = true
    ∧ (wluReq.core 0).running.all (fun g => g.nextRequest == some 3) = true ∧ 3 ≤ wluReq.cyc (wluReq.partOf 0) := by decide +kernel

/-! ## What the engines write -/

/-- The accepted command of each opcode of CopyWrites, at its start. -/
def wcmds : List State :=
  let at_ := fun (i : Instr) (ws : List W64) => later (after i (wc.withDs ws))
  [wcpy, at_ (.cpy2 0xFF 0 0) [0x10000, 0x12000, 0x200000020, 64, 64], at_ (.cpyt 0xFF 0 0) [0x10000, 0x12000, 0x200000002, 64, 64, 4],
   at_ (.crdt 0xFF 0 0 false) [0x10000, 0x12000, 0x100000020, 0x3310], at_ (.cgat 0xFF 0 0) [0x10000, 0x12000, 0x13000, 1, 0],
   at_ (.csct 0xFF 0 0) [0x10000, 0x12000, 0x13000, 1, 0], at_ (.cfill 0xFF 0 0) [0x12000, 64, 0],
   let t := at_ (.csend 0xFF 0 0 false) [0x100000, 0, 64, 0];
    { t with module := { t.module with attested := 1 } }]
/-- Quiet as a Bool. -/
def quietB (s : State) : Bool :=
  (s.part 0).ops.isEmpty && (s.part 0).undrained.isEmpty && s.cores.all (fun e => s.partOf e.1 != 0
    || ((s.core e.1).running.isNone && (s.core e.1).copies.all (fun c => c.writes.isEmpty)))
/-- An engine's byte, and a code of FP32, as Bools. -/
def engineSeesB (s : State) (a : Nat) (b : Byte) : Bool :=
  match findRange (s.part (s.partOf 0)).ranges (a % 2 ^ 64) with
  | some e =>
    let pa := e.pbase.toNat + (a % 2 ^ 64 - e.vbase.toNat)
    s.readRefused 0 pa == false && b == s.coreByte 0 pa
  | none => false
theorem engine_sees_of {s : State} {a : Nat} {b : Byte} (h : engineSeesB s a b = true) : EngineSees s 0 a b := by
  unfold engineSeesB at h
  split at h
  · next e he =>
    simp only [Bool.and_eq_true, beq_iff_eq] at h
    exact ⟨e, _, he, rfl, h.1, h.2⟩
  · cases h
theorem sees_fp32_zero {s : State} {row : Nat} (h : (List.range 4).all (fun i => engineSeesB s (row + i) 0) = true) :
    SeesCode s 0 .fp32 row 0 0 := by
  have e : ¬ Fmt.fp32.bits = 4 := by decide
  rw [SeesCode, if_neg e]
  refine ⟨by decide, fun i hi => ?_⟩
  have := engine_sees_of (List.all_eq_true.mp h i (List.mem_range.mpr hi))
  simpa using this
/-- Each starts where no other write is open, as the first of its core, without a fault; what the peer answers to the CSEND is free. -/
theorem test_meets_CopyWrites : wcmds.all (fun s => quietB s && (s.core 0).copyStartAt == some 1 && decide (1 ≤ s.cyc (s.partOf 0))
      && (nextCopy (s.core 0).copies).any (fun e => decide (e.2.opcode ≤ 8) && !s.lacksCredits (s.partOf 0) e.2)
      && ((nextCopy (s.core 0).copies).any (fun e => e.2.opcode == 8)
        || ((after (.copyStart 0) s).core 0).copies.all (fun c => c.fault == 0 && c.started.isSome))) = true
    ∧ (wcmds.flatMap (fun s => ((nextCopy (s.core 0).copies).map (fun e => e.2.opcode)).toList)) = [1, 2, 3, 4, 5, 6, 7, 8]
    ∧ Quiet wcpy 0 ∧ EngineSees wcpy 0 0x10000 (wcpy.coreByte 0 0) ∧ EngineSees wcpy 0 0x1FFFF 0
    ∧ (∀ i, i < 1 → (0 : Nat) < 2 ^ 32 ∧ ∀ j, j < 4 → EngineSees wcpy 0 (0x13000 + 4 * i + j) (BitVec.ofNat 8 (0 / 2 ^ (8 * j)))) := by
  refine ⟨by decide +kernel, by decide +kernel, ⟨by decide +kernel, by decide +kernel, by decide +kernel⟩, engine_sees_of (by decide +kernel),
    engine_sees_of (by decide +kernel), fun i hi => ⟨by decide, fun j hj => ?_⟩⟩
  have hi' : i = 0 := by omega
  subst hi'
  have : j = 0 ∨ j = 1 ∨ j = 2 ∨ j = 3 := by omega
  rcases this with rfl | rfl | rfl | rfl <;> exact engine_sees_of (by decide +kernel)
/-- The CRDT: words of formats 0 to 7, scales below 0xFF, both elements in their frames, a source code. -/
theorem test_meets_Reencodes : (wcmds[3]?).any (fun s => (nextCopy (s.core 0).copies).any (fun e =>
      let c := e.2
      decide ((c.words.getD 3 0).toNat / 2 ^ 8 % 16 < 8 ∧ (c.words.getD 3 0).toNat / 2 ^ 12 % 16 < 8 ∧ c.srcScale < 255 ∧ c.dstScale < 255)
        && (c.srcFrame.index (c.srcElem 0 0).1 (c.srcElem 0 0).2).isSome && (c.dstFrame.index (c.dstElem 0 31).1 (c.dstElem 0 31).2).isSome
        && c.sfmt == .e4m3 && c.dfmt == .e4m3)) = true
    ∧ FiniteCode .e4m3 0 ∧ ¬ FiniteCode .e4m3 0x7F ∧ (∃ y : Int, y * 2 ^ 127 = ditheredUnits .e4m3 0 (placeOf .e4m3 1) * 2 ^ 127) := by
  refine ⟨by decide +kernel, ⟨by decide, .inr (by decide)⟩, ?_, ⟨_, rfl⟩⟩
  rintro ⟨-, h | h⟩ <;> revert h <;> decide
/-- No byte of a started copy has been met by another write. -/
theorem test_meets_Unmet : (wcpyRun.part 0).met = [] ∧ wcpyRun.copyReady 0 0 ((wcpyRun.core 0).copies.headD (wc.command 1 0 0 false false)) = true := by
  decide +kernel

/-- TADD of the two leaves as node 4, forced over all of its elements. -/
def wadd : State := later (after (.tforce 0xFF 4 0) ((after (.tadd 0xFF 4 1 2 0) wg).withMs [0x20000008000]))
def waddRun : State := after (.demandStart 0) wadd
def waddNode : GNode := (findNode (wadd.core 0).nodes 0 4).getD (wadd.capturedNode ⟨4, 4, 1, 2, 0, 0⟩)
def waddLeaf : GNode := (findNode (wadd.core 0).nodes 0 1).getD waddNode
theorem test_meets_ArrayValues : quietB wadd = true ∧ (wadd.core 0).demandAt = some 0 ∧ 0 ≤ wadd.cyc (wadd.partOf 0)
    ∧ (nextDemand (wadd.core 0).demands).any (fun e => let d := e.1
      (parksBehind (wadd.core 0).nodes (wadd.core 0).suspended d).isNone && d.opcode == 0x10 && !d.abandoned && d.record.isNone
        && findNode (wadd.core 0).nodes d.ctx d.node == some waddNode && decide (0 < d.region.rows ∧ 0 < d.region.cols)) = true
    ∧ waddNode.opcode ∈ [2, 3, 4, 5, 8] ∧ waddNode.done = [] ∧ waddNode.format.code < 8 ∧ waddNode.preds = [1, 2]
    ∧ ([1, 2].all (fun id => (findNode (wadd.core 0).nodes 0 id).any (fun a => a.opcode == 1))) = true
    ∧ (waddRun.core 0).running.any (fun g => g.result == .completes && g.writes.length == 16) = true
    ∧ waddLeaf.opcode = 1 ∧ waddLeaf.format = .fp32 ∧ waddLeaf.shape.se = false ∧ (waddLeaf.index 3 3).isSome = true
    ∧ FiniteCode .fp32 0 ∧ SeesCode wadd 0 .fp32 (waddLeaf.base + waddLeaf.shape.pitch) 0 0
    ∧ (waddNode.index 3 3).isSome = true ∧ waddNode.shape.se = false
    ∧ ValueIs (f32In false 0x3F800000) (2 ^ 300) ∧ ValueIs (f32In false 0) 0 := by
  refine ⟨by decide +kernel, by decide +kernel, by decide +kernel, by decide +kernel, by decide +kernel, by decide +kernel, by decide +kernel,
    by decide +kernel, by decide +kernel, by decide +kernel, by decide +kernel, by decide +kernel, by decide +kernel, by decide +kernel,
    ⟨by decide, .inr (by decide)⟩, sees_fp32_zero (by decide +kernel), by decide +kernel, by decide +kernel, ⟨⟨false, 2 ^ 23, -23⟩, ?_⟩, ⟨⟨false, 0, -149⟩, ?_⟩⟩ <;> decide +kernel
/-- An accumulator, an exact sum that is 0 and one that is not; a BETA start that FP32 holds. -/
theorem test_meets_Groups : List.Forall₂ (fun p x => ValueIs p.1 x.1 ∧ ValueIs p.2 x.2)
      [(f32In false 0x3F800000, f32In false 0x3F800000)] [((2 ^ 300 : Int), (2 ^ 300 : Int))]
    ∧ ([((2 ^ 300 : Int), (2 ^ 300 : Int))].map (fun x => x.1 * x.2)).sum = (2 ^ 300 : Int) * 2 ^ 300
    ∧ wadd.elemVal 0 waddNode 0 0 = f32In false 0 ∧ (f32IsNaN 0 = false) ∧ f32NonFinite 0x7F7FFFFF = false := by
  have h : ValueIs (f32In false 0x3F800000) (2 ^ 300) := ⟨⟨false, 2 ^ 23, -23⟩, by decide +kernel⟩
  refine ⟨.cons ⟨h, h⟩ .nil, by decide +kernel, by decide +kernel, by decide, by decide⟩

/-- Three contributions in the shares of two participants. -/
def wShares : List Share :=
  let x := fun (i : Nat) => [BitVec.ofNat 32 (0x3F800000 + i)]
  [⟨0, 3, 1, false, 0, 2, 0, 0, 0, true, 0, 0, shareVals false 0 2 3 x, 0⟩, ⟨1, 3, 1, false, 2, 1, 0, 0, 0, true, 0, 0, shareVals false 2 1 3 x, 0⟩]
theorem test_meets_CanonicalReduction : wShares.all (fun y => y.n == 3 && y.v == 1 && !y.ao && decide (y.lo + y.cnt ≤ 3)) = true
    ∧ (List.range 3).all (fun i => (wShares.filter (fun y => decide (y.lo ≤ i ∧ i < y.lo + y.cnt))).length == 1) = true
    ∧ (3 ≤ 2 ^ 2 ∧ 2 ^ (2 - 1) < 3) ∧ (wthr.part 0).cfg.det = false
    ∧ (wthr.part 0).reduce wShares = some (canonicalNode 3 (fun i => [BitVec.ofNat 32 (0x3F800000 + i)]) 2 0) := by decide +kernel

/-- The last place of each file that a context has, and one past it. -/
theorem test_meets_Present : Present wt.me (.x 63) ∧ Present wt.me (.hx 7) ∧ Present wt.me (.va 63) ∧ Present wt.me (.df 7 6)
    ∧ Present wt.me (.wc 7) ∧ Present wt.me (.p 15) ∧ ¬ Present wt.me (.x 64) ∧ ¬ Present wt.me (.csr 0x018) := by
  refine ⟨?_, ?_, ?_, ?_, ?_, ?_, ?_, ?_⟩ <;> simp only [Present] <;> decide +kernel
/-- A forced pre-emption that is due while another context holds the buffer. -/
def wForced : State := wThrLate.onCore 0 (fun r => { r with snap := some ⟨5, []⟩, run := some 0 })
theorem test_meets_ForcedWait : wForced.forceDue 0 0 = true ∧ wForced.atBoundary 0 0 = true ∧ (wForced.core 0).snap ≠ none
    ∧ (wForced.core 0).run = some 0 := by decide +kernel

/-! ## Counters, groups, update units -/

theorem wop_released (k : OpKind) (f : Op → Bool) (h : (wop k).heldWrites 0 0 0 0 = false) : (wop k).releasedOp 0 7 f = some (wo k) := by
  have hd : (wop k).dueOp 0 7 = some (wo k) := by rw [State.dueOp, wop_op]; simp [wo]
  rw [State.releasedOp, hd]
  simp [wo, h]

theorem test_meets_SyncEvents :
    (wop (.tsInc 0 3 true)).releasedOp 0 7 Op.carriesTs = some (wo (.tsInc 0 3 true)) ∧ (wt.ctx? 0 0).any (fun x => x.st == .bound) = true
    ∧ (wop (.tsInc 5 3 true)).releasedOp 0 7 Op.carriesTs = some (wo (.tsInc 5 3 true)) ∧ (wop (.tsInc 5 3 true)).ctx? 0 5 = none
    ∧ (let s := (wop (.tsInc 3 3 true)).setCtx 0 3 { wt.me with st := .armed }
      s.releasedOp 0 7 Op.carriesTs = some (wo (.tsInc 3 3 true)) ∧ (s.ctx? 0 3).any (fun x => x.st == .armed) = true)
    ∧ (wt.onMe (fun x => { x with taskHold := some ⟨.drain, 0, 0, 0⟩ })).endingHold 0 0 = some (⟨.drain, 0, 0, 0⟩, true)
    ∧ ([SyncKind.drain, .fence, .flushAll, .invalAll].all (fun k =>
      (wt.onMe (fun x => { x with hold := some ⟨k, 0, 0, 0⟩ })).endingHold 0 0 == some (⟨k, 0, 0, 0⟩, false))) = true
    ∧ (wop (.arrival 1 false 0 0 0)).releasedOp 0 7 Op.arrivesReleased = some (wo (.arrival 1 false 0 0 0))
    ∧ (wop (.arrival 1 true 0 0 0)).releasedOp 0 7 Op.arrivesReleased = some (wo (.arrival 1 true 0 0 0))
    ∧ (wop (.signal 0 0)).releasedOp 0 7 (fun _ => true) = some (wo (.signal 0 0))
    ∧ (wop (.submit 5 0x10000 1 false 0)).releasedOp 0 7 Op.submitWaits = some (wo (.submit 5 0x10000 1 false 0))
    ∧ (wop (.submit 5 0x10000 1 true 0)).releasedOp 0 7 Op.submitWaits = some (wo (.submit 5 0x10000 1 true 0))
    ∧ (wsub.queue 5).takesSubmit 0 = true ∧ (wsub.queue 6).takesSubmit 0 = false := by decide +kernel

/-- An arm of two contributions that holds n. -/
def wArm (n : Nat) : Arm := ⟨4, 0x40, 0x10040, 2, 0, 1, 0, 0, 1, (List.range n).map (fun i => (i, [])), false, false, false⟩
def wUnit (n : Nat) (k : OpKind) : State := (wop k).onPart 0 (fun q => { q with arms := [wArm n] })
/-- An ARMED context 3 and an arrival at its core. -/
def warr : State := later ((wt.setCtx 0 3 { wt.me with st := .armed, owner := some 0 }).onCore 0 (fun k =>
  { k with arrivals := [⟨0x10080, 1, 2, 3, 0⟩], armedAt := [(3, 0)] }))
theorem test_meets_UpdateEvents : (∀ k, Comes (wop k) 0 (wo k) ∧ (wop k).reachedOp 0 (wo k).id = some (wo k))
    ∧ (wt.part 0).armsAt (sliceOf 0x40) = [] ∧ 0 < 2 * (wt.part 0).clusters
    ∧ ((wUnit 1 (.contrib 0x40 1 [] 1)).part 0).contribFate 0x40 5 = 0 ∧ ((wUnit 1 (.contrib 0x40 1 [] 1)).part 0).contribFate 0x40 1 = 1
    ∧ ((wUnit 2 (.update 4 [] 0)).part 0).arms = [wArm 2] ∧ (wArm 2).full = true ∧ (wUnit 2 (.tg 0 0)).isDet 0 = true ∧ ((wUnit 2 (.tg 0 0)).part 0).rule 1 0 = 0
    ∧ (let k : OpKind := .arrive 0 ⟨0x10080, 1, 2, 3, 0⟩ none; (wop k).arrivalReady 0 (wo k) 0 none = true)
    ∧ (warr.core 0).nextHandler.any (fun e => e.1 == 3 && e.2.2.2 ≤ warr.cyc (warr.partOf 0)) = true := by
  refine ⟨fun k => ⟨wop_comes k, wop_reached k⟩, ?_⟩; decide +kernel

/-! ## Contexts, queues, the scheduler -/

def wClosing : State := wt.onMe (fun x => { x with st := .closing })
def wSaving (s : State) : State := s.onMe (fun x => { x with preempt := .landed false })
def wSaved (place : Option (Nat × Nat × Nat)) : Saved := ⟨9, 1, 0, 0x10000, (wt.ctx 0 0).task, [], [], [], [], none, [], 1, 0, place⟩
/-- A saved task of launch 1 whose image has version 1, or no version. -/
def wRest (s : State) (place : Option (Nat × Nat × Nat)) (v : Byte) : State :=
  { s.onPart 0 (fun q => { q with saved := [wSaved place] }) with mem := memWrite s.mem (bytesAt ((s.imageAt 0 0x10000) - 0x10000) [v]) }
theorem test_meets_ContextEvents : wClosing.mayFree 0 0 = true ∧ (wSaving wthr).maySave 0 0 = true ∧ ((wSaving wthr).ctx? 0 0).isSome = true
    ∧ (wSaving wthr).isDet ((wSaving wthr).partOf 0) = false ∧ (wSaving wt).maySave 0 0 = true
    ∧ (let s := wRest (wthr.withLaunch { wLaunch with nextTask := 2 }) none 1; (s.part 0).saved.find? (fun v => v.id == 9) = some (wSaved none) ∧ (s.part 0).st = .running
      ∧ (wSaved none).valid (s.savedFixed 0 (wSaved none)) = true ∧ (s.restorePlace 0 9).isSome = true)
    ∧ (let s := wRest wt (some (0, 1, 16)) 1; (wSaved (some (0, 1, 16))).valid (s.savedFixed 0 (wSaved (some (0, 1, 16)))) = true
      ∧ (s.restoreFits 0 (wSaved (some (0, 1, 16))) 0 1 16).isSome = true)
    ∧ (let s := wRest wt (some (0, 1, 16)) 0; (wSaved (some (0, 1, 16))).valid (s.savedFixed 0 (wSaved (some (0, 1, 16)))) = false
      ∧ (16 : Nat) ≤ s.cyc 0 + 16)
    ∧ (let s := wRest (wthr.withLaunch { wLaunch with nextTask := 2 }) none 0; (wSaved none).valid (s.savedFixed 0 (wSaved none)) = false ∧ s.restorePlace 0 9 ≠ none) := by
  decide +kernel

/-- Bring-up has ended; queue 5 belongs to partition 0 and its ring of 16 slots stands at 0x10000. -/
def wopen (s : State) : State := { s.onPart 0 (fun q => { q with tdisp := true }) with module := { s.module with stage := 9 } }
def wqs (f : Queue → Queue) : State :=
  (wopen wt).setQueue 5 (f { Queue.reset with qbase := 0x10000, n := 4, en := true, st := .active, nextRead := some 0, tail := 1 })
theorem test_meets_QueueEvents : (wopen wt).windowsOpen = true ∧ 4 ≤ ((4 : W64).extractLsb' 0 4).toNat
    ∧ (((wopen wt).part ((4 : W64).extractLsb' 4 4).toNat).st ≠ .none) ∧ ((wopen wt).queue 5).en = false ∧ ((wqs id).queue 5).en = true
    ∧ ((3 : W64).extractLsb' 0 4).toNat < 4
    ∧ (wqs id).ownerMay 0 = true ∧ ((wqs id).queue 5).src = false ∧ ((wqs (fun r => { r with src := true })).queue 5).src = true
    ∧ wt.ownerMay 0 = false
    ∧ ((wqs id).queue 5).nextRead = some 0 ∧ 0 ≤ (wqs id).now ∧ (wqs id).serves 5 = true ∧ ((wqs id).queue 5).tail ≠ ((wqs id).queue 5).head
    ∧ (let r := (wqs (fun r => { r with tail := 17 })).queue 5; r.firstRead = none ∧ 2 ^ r.n.toNat < (r.tail - r.head).toNat)
    ∧ (let r := (wqs (fun r => { r with tail := 16 })).queue 5; (r.tail - r.head).toNat ≤ 2 ^ r.n.toNat)
    ∧ (wqs id).mayAccess 0 .lr 0x10000 64 = true ∧ (wqs (fun r => { r with qbase := 0x20000 })).mayAccess 0 .lr 0x20000 64 = false
    ∧ (wqs (fun r => { r with firstRead := some 0, nextRead := none })).queueStale 5 = true
    ∧ (wqs (fun r => { r with fresh := true })).packetReady 5 = true := by decide +kernel

def flushB : Pick → Bool
  | .flush .. => true
  | _ => false
/-- Launch 2, whose one task waits for launch 1, which has ended with its writes in another cluster's cache. -/
def wDep : State :=
  wthr.onPart 0 (fun q => { q with launches :=
    [{ wLaunch with number := 1, nextTask := 2, completing := true, clusters := [3] },
     { wLaunch with number := 2, deps := [(1, true)] }] })
def bindB : Pick → Bool
  | .bind d _ _ _ => d.saved.isNone
  | _ => false
theorem test_meets_SchedulerEvents : flushB (wDep.pickOn 0 0) = true
    ∧ (let s := later (wthr.withLaunch wLaunch); (wSaved none).launch = 1 ∧ (wSaved none).ages (s.cyc 0) = true) ∧ (wt.part 0).cfg.mask.getLsbD 0 = true
    ∧ bindB ((wthr.withLaunch wLaunch).pickOn 0 0) = true
    ∧ (let s := later (wthr.withLaunch { wLaunch with since := some 0 }); (s.part 0).launch? 1 = some { wLaunch with since := some 0 }
      ∧ ({ wLaunch with since := some 0 } : Launch).ages (s.cyc 0) = true ∧ (s.part 0).cfg.det = false)
    ∧ (let l := { wLaunch with place := [(0, 1, 16), (0, 2, 16)] }; let s := wt.withLaunch l
      l.nextPlace = some (0, 0, 1, 16) ∧ (s.part 0).st = .running ∧ (s.part 0).cfg.det = true ∧ 16 ≤ s.cyc 0 + 16
      ∧ (s.startsAt 0 l 0 1 16).isSome = true)
    ∧ (let l := { wLaunch with place := [(0, 0, 16), (0, 2, 16)] }; let s := wt.withLaunch l
      l.nextPlace = some (0, 0, 0, 16) ∧ s.startsAt 0 l 0 0 16 = none ∧ l.status = 0)
    ∧ (let l := { wLaunch with ex := 0 }; let s := wt.withLaunch l
      (s.part 0).completes l = true ∧ ({ l with completing := true } : Launch).endNeedsFlush = false ∧ l.cr = true
      ∧ s.mayAccess 0 .qw l.compl.toNat 64 = true)
    ∧ (wop (.flush 1 0 false)).op? 0 7 = some (wo (.flush 1 0 false))
    ∧ (later (wqs (fun r => { r with wdog := 5, timer := some 0 }))).watchdogDue 5 = true := by decide +kernel

/-! ## Partitions and outside parties -/

/-- Partition 1 with registers written and not yet created; partition 0 as before. -/
def wcfg (f : PCfg → PCfg) : State :=
  ((wopen wt).onPart 0 (fun q => { q with cfg := { q.cfg with slots := 2 } })).onPart 1
    (fun q => { q with cfg := f { PCfg.zero with mask := 2, det := true, slots := 1, gddr := 0x0101 } })
def wst (st : PState) : State := (wopen wt).onPart 0 (fun q => { q with st := st })
theorem test_meets_PartitionEvents : (wcfg id).module.flashOk = true ∧ 6 ≤ (wcfg id).module.stage ∧ (wcfg id).module.bootErr = 0
    ∧ ((wcfg id).part 0).st ≠ .none ∧ ((wcfg id).part 1).st = .none ∧ (wcfg id).createError 1 = 0
    ∧ (wcfg (fun c => { c with mask := 1 })).createError 1 = 1 ∧ (wcfg id).windowsOpen = true
    ∧ ((wst .running).part 0).st = .running ∧ ((wst .draining).part 0).st = .draining ∧ ((wst .creating).part 0).st = .creating
    ∧ ((wst .creating).part 0).ptime0 ≤ (wst .creating).now
    ∧ ((wop (.drain 1 .none)).part 0).drainOp ((wop (.drain 1 .none)).cyc 0) = some (wo (.drain 1 .none))
    ∧ ((wop (.drain 1 .none)).part 0).st = .running
    ∧ ((wop (.drain 1 .none)).onPart 0 (fun q => { q with st := .draining })).part 0 ≠ (wop (.drain 1 .none)).part 0
    ∧ (wst .running).windowsOpen = true ∧ (wst .running).ownerMay 0 = true ∧ wt.ownerMay 0 = false ∧ Requester.owner 1 ≠ .owner 0
    ∧ ((wop .drainEnd).part 0).ops.find? (fun o => o.kind == .drainEnd) = some (wo .drainEnd)
    ∧ ((wop .destroyed).part 0).ops.find? (fun o => o.kind == .destroyed) = some (wo .destroyed)
    ∧ (wo .destroyed).due = some 0 ∧ 0 ≤ (wop .destroyed).cyc 0 := by decide +kernel

/-- Partition 0 with the granule of GDDR that its tables may name. -/
def wload (f : PCfg → PCfg) : State :=
  (wopen wt).onPart 0 (fun q => { q with cfg := f { q.cfg with gddr := 0x0100, vc := 0xFFFF :: List.replicate 3 0 } })
def wWrite : HostWrite := ⟨0, 0x1003F, [1], 1, .whole, .owner 0⟩
/-- An ingress buffer with the beginning of wWrite's write. -/
def wPart : State :=
  (wload id).onPart 0 (fun q => { q with ingress := [⟨3, 0x1003F, [0], 0, false, false⟩] })
/-- The kernel image of a launch in progress over the same bytes. -/
def wKernel : State := (wload id).onPart 0 (fun q => { q with launches := [wLaunch] })
def wTable : RangeWords := ⟨0x10001, 0x10000, 0, 0x1FF⟩
theorem test_meets_HostEvents : (wload id).mayLoad 0 = true ∧ ((wload id).part 0).rangeError [wTable] = none
    ∧ ((wload id).part 0).rangeError [wTable, wTable] = some 7
    ∧ ((wload id).part 0).partEntry wWrite = none ∧ (wPart.part 0).partEntry { wWrite with arriving := .rest } = some ⟨3, 0x1003F, [0], 0, false, false⟩
    ∧ wPart.ingressFull { wWrite with arriving := .rest } = false ∧ (∀ x ∈ ((wload id).part 0).ingress, x.id ≠ (wload id).nextId)
    ∧ (let e : Ingress := ⟨(wload id).nextId, 0x1003F, [1], 1, true, false⟩
      ((wload id).part 0).imageHas ((wload id).ingressBytes 0 e) = false ∧ (wKernel.part 0).imageHas (wKernel.ingressBytes 0 e) = true)
    ∧ State.reset.module.stage = 0 ∧ (wload id).module.stage ≠ 0 ∧ (3 : W64).getLsbD 8 = false ∧ (0x100 : W64).getLsbD 8 = true
    ∧ 3 < (4 : W64).toNat ∧ Requester.other ≠ .hyp
    ∧ State.reset.mayLoad 0 = false ∧ (wload id).routeError 0 (List.replicate 64 0) = none
    ∧ (wload id).routeError 0 (0x200000000 :: List.replicate 63 0) ≠ none
    ∧ ((wload id).part 0).cfg.det = true ∧ ((wload id).part 0).cfg.sync = false
    ∧ ((wload (fun c => { c with det := false })).part 0).cfg.det = false ∧ (wload id).windowsOpen = true ∧ ((wload id).part 0).st ≠ .none
    ∧ (wload id).healthOpen = true ∧ State.reset.healthOpen = false ∧ ((wload id).part 1).st = .none
    ∧ (0x2005 : W64).toNat < 2 ^ 22 ∧ (0x2005 : W64).extractLsb' 0 8 ≠ 0 ∧ ((0x2005 : W64).extractLsb' 8 14).toNat ≤ 8760
    ∧ (wload id).ingressFull wWrite = false ∧ (wload id).ownerMay 0 = true ∧ wWrite.ok = true
    ∧ (wload id).deviceHome 0 0x1003F = some 0x3F ∧ (wload id).deviceHome 0 0x20000 = none
    ∧ (∀ i, i < 2 → (wload id).deviceHome 0 ((0x10000 : W64).toNat + i) ≠ none) := by decide +kernel
/-- The rest of a write whose beginning has been discarded; reads of memory in DET and in THR. -/
theorem test_meets_HostRest : ((wload id).part 0).partEntry { wWrite with arriving := .rest } = none
    ∧ (wload id).ingressFull { wWrite with arriving := .rest } = false ∧ ({ wWrite with arriving := .rest } : HostWrite).ok = true
    ∧ (wload id).isDet 0 = true ∧ (wload (fun c => { c with det := false })).isDet 0 = false := by decide +kernel
theorem test_meets_IngressPerformed : ∀ n bs th, Comes (wop (.ingress n bs th)) 0 (wo (.ingress n bs th)) := fun _ _ _ => wop_comes _

/-- Partition 0 owns virtual channel 0 of port 0, whose peer is attested and whose link withholds credits. -/
def wport : State :=
  let s := wload id
  { s.onPart 0 (fun q => { q with credits := [(0, 2)] }) with module := { s.module with attested := 1 } }
/-- A CRED of group 0 in the engine of core 0. -/
def wcred : State := after (.cred 0xFF 0) (wc.withDs [0x10000, 0x12000, 0x100000000, 0x100000001])
theorem test_meets_FabricAndHealthEvents : wport.headerVerdict ⟨0, 0, 0, 0x10000, 64, true, List.replicate 64 1, none⟩ = 0
    ∧ wport.headerVerdict ⟨0, 0, 0, 0x10000, 64, false, [], none⟩ = 0 ∧ wport.headerVerdict ⟨0, 0, 0, 0x20000, 64, false, [], none⟩ = 1
    ∧ wport.module.attested.getLsbD 0 = true ∧ wport.module.attested.getLsbD 1 = false
    ∧ wport.fifoTarget (fun c b => ((wport.cluster c).modes.getD b .cache).isFifo) 0 0x10000 64 = none
    ∧ (wcred.ownCred 0 0 0).any (fun e => e.1 == 0 && (wcred.core 0).copies.contains e.2) = true
    ∧ (wport.part 0).cfg.ownsVc 0 0 = true ∧ amGet (wport.part 0).credits 0 = some 2 ∧ 0 ∈ wt.touched (.core 0) 0 ∧ (wt.part 0).st ≠ .none
    ∧ (wthr.parts.map (fun e => e.1)).Nodup ∧ 0 ∈ wthr.partsIn false ∧ 18 < wthr.mult 0 := by decide +kernel
theorem test_meets_reductions : ∀ g n, Comes (wop (.reduction g n)) 0 (wo (.reduction g n)) := fun _ _ => wop_comes _

/-! ## The whole machine -/

theorem test_meets_SuppressedSlots : (formOf (.add 0 3 1 2)).isSome = true
    ∧ (formOf (.add 0 3 1 2)).all (fun f => !f.acts wt && (f.use wt).bad.isEmpty) = true ∧ wt.me.st = .bound
    ∧ (formOf (.putc 0 0x019 1)).all (fun f => !f.acts wt && (f.use wt).bad.isEmpty) = true
    ∧ csrHandlerOnly (0x019 : BitVec 12).toNat = false := by decide +kernel
theorem test_meets_WritesInFlight : (∀ n, Dest.va 1 ≠ .csr n) ∧ Dest.va 1 ≠ Dest.va 2 ∧ (∀ n k, Dest.va 1 = .df n k → k < 7)
    ∧ (63 : Nat) < 64 ∧ 63 < wt.me.regs.va.size ∧ (15 : Nat) < 16 := by
  refine ⟨?_, ?_, ?_, ?_⟩
  · intro n h; cases h
  · decide
  · intro n k h; cases h
  · decide +kernel
theorem test_meets_MemoryBytes : Memory.wf wt.mem = true ∧ Memory.wf [] = true ∧ (0x41 : Nat) ≠ (⟨0x40, 1, 0xFF⟩ : PByte).pa := by decide +kernel
theorem test_meets_DecodeEncodeAgree : (Instr.vqenc .v1 0xFF 639 0 7 15 true 7).wf = true
    ∧ (encode (.vqenc .v1 0xFF 639 0 7 15 true 7)).isSome = true ∧ decodeSlot (.y 0x0012C1FF) = .ok (some (.wadd 0xFF 3 1 1 0)) := by
  decide +kernel
theorem test_meets_DepthLanding : (mergeBits (BitVec.ofNat 64 (wl 0).me.levels.length) ((0 : Vec).truncate 64) ((maskAt 0 64).truncate 64)).toNat
      ≤ (wl 0).me.levels.length
    ∧ wt.me.levels.length < (mergeBits (BitVec.ofNat 64 wt.me.levels.length) ((6 : Vec).truncate 64) ((maskAt 0 64).truncate 64)).toNat := by
  decide +kernel
theorem test_meets_CsrLanding : (0x018 : Nat) ≠ 0x019 ∧ (0x040 ≤ 0x06F ∧ 0x06F < 0x070) ∧ ¬ (0x040 ≤ 0x070 ∧ 0x070 < 0x070) := by decide
theorem test_meets_ResetState : (0 : Nat) < 48 := by decide
theorem test_meets_StepKeepsInvariant : wt.Inv ∧ ∃ t, step wt = .next t := by
  refine ⟨by show Memory.wf _ = true; decide +kernel, ?_⟩
  have h : (match step wt with
    | .next _ => true
    | _ => false) = true := by decide +kernel
  cases e : step wt with
  | next t => exact ⟨t, rfl⟩
  | fault f => rw [e] at h; cases h
  | refused r => rw [e] at h; cases h

/-- A bundle of one command: CFILL from DS4 on, over 64 bytes. -/
def wone : State :=
  let s := State.reset.withFetchWord 32 0x000107FF
  (s.withReg (.ds 4) 0x10000).withReg (.ds 5) 64
theorem test_meets_StepRunsDecoded : wone.nextEvent = some (.bundleIssue 0 0) ∧ issuesB (wone.verdict 0 0) = true
    ∧ (match wone.fetch 0 0 with
      | .bundle b =>
        let u := (((wone.raiseDue 0 0).gainSlot 0 0).useSlot 0 true).atIssue 0 0 b
        decide (u.acquireWaits b.hdr = u)
      | _ => false) = true
    ∧ (match wone.fetch 0 0 with
      | .bundle b => b.ops == [.cfill 0xFF 4 0]
      | _ => false) = true
    ∧ (formOf (.cfill 0xFF 4 0)).isSome = true ∧ State.reset.nextEvent = none := by decide +kernel
end

section
/-! Memory reads back what was written (R5). -/

namespace Sys2Proof.Machine

/-! ## Bytes read and set -/

/-- An address below every listed one reads as an unlisted one. -/
theorem memGet_eq_unlisted {m : List Host.Cell} {a : Nat} (h : ∀ c ∈ m, a < c.1) : memGet m a = unlisted := by
  induction m with
  | nil => rfl
  | cons c r ih =>
    obtain ⟨k, b⟩ := c
    have hk : ¬ k = a := (Nat.ne_of_lt (h (k, b) (by simp))).symm
    simp [memGet, hk, ih (fun c hc => h c (List.mem_cons_of_mem _ hc))]

/-- A byte set reads back. -/
theorem memGet_memPut_self {m : List Host.Cell} (k : Nat) (v : Byte) (h : m.Pairwise (fun a b => a.1 < b.1)) :
    memGet (memPut m k v) k = v := by
  induction m with
  | nil => unfold memPut; split <;> simp_all [memGet]
  | cons c r ih =>
    obtain ⟨a, b⟩ := c
    obtain ⟨hlt, hr⟩ := List.pairwise_cons.1 h
    unfold memPut
    split
    · next hak => simpa [memGet, Nat.ne_of_lt hak] using ih hr
    · split
      · next _ hak =>
        subst hak
        have : memGet r a = unlisted := memGet_eq_unlisted hlt
        split <;> simp_all [memGet]
      · next hka hne =>
        have hk : ∀ c ∈ (a, b) :: r, k < c.1 := fun c hc => by
          rcases List.mem_cons.1 hc with rfl | hc
          · show k < a; omega
          · have := hlt c hc; simp at this; omega
        have := memGet_eq_unlisted hk
        split <;> simp_all [memGet]

/-- A byte set changes no other. -/
theorem memGet_memPut_of_ne (m : List Host.Cell) {k a : Nat} (v : Byte) (h : a ≠ k) : memGet (memPut m k v) a = memGet m a := by
  induction m with
  | nil => unfold memPut; split <;> simp [memGet, h.symm]
  | cons c r ih =>
    obtain ⟨j, b⟩ := c
    unfold memPut
    split
    · simp [memGet, ih]
    · split
      · next hj => subst hj; split <;> simp [memGet, h.symm]
      · split <;> simp [memGet, h.symm]

/-- Bits taken under a full mask are the new ones. -/
theorem mergeBits_allOnes {n : Nat} (old new : BitVec n) : mergeBits old new (BitVec.allOnes n) = new := by simp [mergeBits]

/-- A masked byte written takes the masked bits. -/
theorem memGet_memPutByte_self {m : List Host.Cell} (w : PByte) (h : Memory.wf m = true) :
    memGet (memPutByte m w) w.pa = mergeBits (memGet m w.pa) w.val w.mask := by
  unfold memPutByte
  rw [memGet_memPut_self _ _ ((wf_iff m).1 h).1]
  split
  · next hm => rw [hm]; exact (mergeBits_allOnes (n := 8) _ _).symm
  · rfl

/-! ## Blocks -/

/-- Cells below an address do not count from it on. -/
theorem memGet_dropWhile (m : List Host.Cell) {a k : Nat} (h : a ≤ k) :
    memGet (m.dropWhile (fun c => decide (c.1 < a))) k = memGet m k := by
  induction m with
  | nil => rfl
  | cons c r ih =>
    obtain ⟨j, b⟩ := c
    by_cases hj : j < a
    · have : ¬ j = k := by omega
      simp [hj, ih, memGet, this]
    · simp [hj]

/-- The cells left once those below an address are dropped stand at it or above it. -/
theorem le_of_mem_dropWhile {m : List Host.Cell} (a : Nat) (h : m.Pairwise (fun a b => a.1 < b.1)) :
    ∀ c ∈ m.dropWhile (fun c => decide (c.1 < a)), a ≤ c.1 := by
  induction m with
  | nil => simp
  | cons d r ih =>
    obtain ⟨hlt, hr⟩ := List.pairwise_cons.1 h
    by_cases hd : d.1 < a
    · simpa [hd] using ih hr
    · simp only [hd, decide_false, Bool.false_eq_true, not_false_eq_true, List.dropWhile_cons_of_neg, List.mem_cons]
      rintro c (rfl | hc)
      · omega
      · have := hlt c hc; omega

/-- A block taken from cells at its address and above is its bytes in order. -/
theorem blockFrom_eq_map (n a : Nat) {m : List Host.Cell} (h : m.Pairwise (fun a b => a.1 < b.1)) (ha : ∀ c ∈ m, a ≤ c.1) :
    blockFrom n a m = (List.range n).map (fun i => memGet m (a + i)) := by
  induction n generalizing a m with
  | zero => rfl
  | succ n ih =>
    have shift : (fun i => memGet m (a + (i + 1))) = fun i => memGet m (a + 1 + i) := by
      funext i; rw [Nat.add_comm i 1, Nat.add_assoc]
    rw [List.range_succ_eq_map, List.map_cons, List.map_map]
    show _ = memGet m a :: (List.range n).map (fun i => memGet m (a + (i + 1)))
    rw [shift]
    cases m with
    | nil => simp [blockFrom, memGet, ih (a + 1) List.Pairwise.nil]
    | cons c r =>
      obtain ⟨k, b⟩ := c
      obtain ⟨hlt, hr⟩ := List.pairwise_cons.1 h
      unfold blockFrom
      split
      · next hk =>
        subst hk
        have skip : ∀ i, memGet ((k, b) :: r) (k + 1 + i) = memGet r (k + 1 + i) := fun i => by
          simp [memGet, show ¬ k = k + 1 + i by omega]
        simp only [skip, ih (k + 1) hr hlt]
        simp [memGet]
      · next hk =>
        have above : ∀ c ∈ (k, b) :: r, a < c.1 := fun c hc => by
          have hak : a ≤ k := ha (k, b) (by simp)
          rcases List.mem_cons.1 hc with rfl | hc
          · show a < k; omega
          · have := hlt c hc; simp at this; omega
        rw [ih (a + 1) h above, memGet_eq_unlisted above]

/-- A block is its bytes in order of address. -/
theorem memBlock_eq_map {m : List Host.Cell} (a n : Nat) (h : Memory.wf m = true) :
    memBlock m a n = (List.range n).map (fun i => memGet m (a + i)) := by
  have hs := ((wf_iff m).1 h).1
  rw [memBlock, blockFrom_eq_map n a (hs.sublist (List.dropWhile_sublist _)) (le_of_mem_dropWhile a hs)]
  exact List.map_congr_left fun i _ => memGet_dropWhile m (Nat.le_add_right a i)

/-! ## Memories that read alike -/

/-- The cells of a canonical memory are what it reads as other than unlisted. -/
theorem mem_iff_memGet {m : List Host.Cell} (h : Memory.wf m = true) (c : Host.Cell) :
    c ∈ m ↔ memGet m c.1 = c.2 ∧ c.2 ≠ unlisted := by
  obtain ⟨hs, hu⟩ := (wf_iff m).1 h
  clear h
  induction m with
  | nil => simp [memGet, eq_comm]
  | cons d r ih =>
    obtain ⟨k, b⟩ := d
    obtain ⟨hlt, hr⟩ := List.pairwise_cons.1 hs
    obtain ⟨a, v⟩ := c
    have hb : b ≠ unlisted := hu (k, b) (by simp)
    have ih := ih hr (fun c hc => hu c (List.mem_cons_of_mem _ hc))
    rw [List.mem_cons, ih, Prod.mk.injEq]
    by_cases hk : k = a
    · subst hk
      have : memGet r k = unlisted := memGet_eq_unlisted hlt
      simp only [memGet, if_true, this, true_and]
      constructor
      · rintro (rfl | ⟨hv, hv'⟩)
        · exact ⟨rfl, hb⟩
        · exact absurd hv.symm hv'
      · rintro ⟨rfl, -⟩; exact .inl rfl
    · simp [memGet, hk, Ne.symm hk]

/-- Two canonical memories that read alike are one. -/
theorem eq_of_memGet_eq {m k : List Host.Cell} (hm : Memory.wf m = true) (hk : Memory.wf k = true)
    (h : ∀ a, memGet m a = memGet k a) : m = k := by
  have : Std.Irrefl (fun a b : Host.Cell => a.1 < b.1) := ⟨fun a => Nat.lt_irrefl a.1⟩
  have : Std.Antisymm (fun a b : Host.Cell => a.1 < b.1) := ⟨fun a b hab hba => absurd (Nat.lt_trans hab hba) (Nat.lt_irrefl _)⟩
  exact ((wf_iff m).1 hm).1.eq_of_mem_iff ((wf_iff k).1 hk).1 fun c => by
    rw [mem_iff_memGet hm, mem_iff_memGet hk, h]

/-! ## Bytes of a number -/

/-- The bytes of a number: its lowest, then those of the rest. -/
theorem bytesOf_succ (n w : Nat) : bytesOf (n + 1) w = BitVec.ofNat 8 w :: bytesOf n (w / 256) := by
  simp only [bytesOf, List.range_succ_eq_map, List.map_cons, List.map_map, Nat.mul_zero, Nat.pow_zero, Nat.div_one]
  refine congrArg _ (List.map_congr_left fun i _ => ?_)
  rw [Function.comp_apply, Nat.div_div_eq_div_mul, Nat.succ_eq_add_one, Nat.mul_add, Nat.pow_add, Nat.mul_comm (2 ^ (8 * i))]

/-- The low n bytes of a number make its low 8n bits. -/
theorem natOfBytes_bytesOf (n w : Nat) : natOfBytes (bytesOf n w) = w % 2 ^ (8 * n) := by
  induction n generalizing w with
  | zero => simp [bytesOf, natOfBytes, Nat.mod_one]
  | succ n ih =>
    rw [bytesOf_succ, natOfBytes, ih, BitVec.toNat_ofNat, Nat.mul_add, Nat.add_comm (8 * n), Nat.pow_add, Nat.mod_mul]

/-- Settles O53: reads after a masked write, blocks, extensionality, and the bytes of a number. -/
theorem memoryBytes : Obligations.MemoryBytes := by
  unfold Obligations.MemoryBytes
  exact ⟨fun m w a h => ⟨memGet_memPutByte_self w h, fun ha => memGet_memPut_of_ne m _ ha⟩, fun m a n h => memBlock_eq_map a n h,
    fun m k hm hk h => eq_of_memGet_eq hm hk h, natOfBytes_bytesOf⟩

/-- Settles O57: memory lists nothing right after reset. -/
theorem resetInvariant : Obligations.ResetInvariant := wf_reset

end Sys2Proof.Machine
end

section
/-! What each operation of the machine does to memory: most leave it alone, and those that write it keep its canonical form. -/

namespace Sys2Proof.Machine

/-- What every step of a fold keeps in canonical form, the fold keeps. -/
theorem foldl_wf {α : Type} (f : State → α → State) (hf : ∀ s a, Memory.wf s.mem = true → Memory.wf (f s a).mem = true) (l : List α)
    (s : State) (h : Memory.wf s.mem = true) : Memory.wf (l.foldl f s).mem = true :=
  List.foldlRecOn l f h fun s hs a _ => hf s a hs

@[simp] theorem State.offer_mem (s : State) (w : Option Writer) (c : Option Nat) (bs : List PByte) (p : Nat) :
    (s.offer w c bs p).mem = s.mem :=
  (s.offer_frame w c bs p).1
@[simp] theorem State.noticePart_mem (s : State) (w : Option Writer) (c : Option Nat) (bs : List PByte) (p : Nat) :
    (s.noticePart w c bs p).mem = s.mem := (s.noticePart_frame w c bs p).1
@[simp] theorem State.offerAll_mem (s : State) (c : Option Nat) (bs : List PByte) :
    (s.offerAll c bs).mem = s.mem := (s.offerAll_frame c bs).1
@[simp] theorem State.offerWrites_mem (s : State) (k : Nat) (ws : List (Nat × List (Byte × Byte))) : (s.offerWrites k ws).mem = s.mem :=
  (s.offerWrites_frame k ws).1

/-! ## Time, registers, writes in flight, traps (Machine/Ops.lean) -/

@[simp] theorem State.tick_mem (s : State) : s.tick.2.mem = s.mem := rfl
@[simp] theorem State.within_mem (s : State) (p bound : Nat) : (s.within p bound).2.mem = s.mem := by unfold State.within; split <;> simp
@[simp] theorem State.newId_mem (s : State) : s.newId.2.mem = s.mem := rfl
@[simp] theorem State.addOpAs_mem (s : State) (p : Nat) (due : Option Nat) (core ctx issued : Nat) (handler queued : Bool)
    (kind : OpKind) :
    (s.addOpAs p due core ctx issued handler queued kind).mem = s.mem := rfl
@[simp] theorem State.addOp_mem (s : State) (p : Nat) (due : Option Nat) (core ctx issued : Nat) (kind : OpKind) :
    (s.addOp p due core ctx issued kind).mem = s.mem := rfl
@[simp] theorem State.follow_mem (s : State) (p : Nat) (o : Op) (due : Option Nat) (kind : OpKind) :
    (s.follow p o due kind).mem = s.mem := rfl
@[simp] theorem State.dropOp_mem (s : State) (p id : Nat) : (s.dropOp p id).mem = s.mem := rfl
@[simp] theorem State.answer_mem (s : State) (a : Answer) : (s.answer a).mem = s.mem := rfl
@[simp] theorem State.pushAt_mem (s : State) (land : Nat) (d : Dest) (mask value : Vec) (src : WSrc) (arrive : Option Nat)
    (trap : Option (Nat × Nat)) :
    (s.pushAt land d mask value src arrive trap).mem = s.mem := rfl
@[simp] theorem State.push_mem (s : State) (lat : Nat) (d : Dest) (mask value : Vec) : (s.push lat d mask value).mem = s.mem := rfl
@[simp] theorem State.push64_mem (s : State) (lat : Nat) (d : Dest) (v : W64) : (s.push64 lat d v).mem = s.mem := rfl
@[simp] theorem State.pushX_mem (s : State) (lat : Nat) (n : XReg) (v : W64) : (s.pushX lat n v).mem = s.mem := rfl
@[simp] theorem State.pushNf_mem (s : State) (lat : Nat) (nf nfte : Bool) (slot lane : Nat) :
    (s.pushNf lat nf nfte slot lane).mem = s.mem := by
  unfold State.pushNf; split <;> simp
@[simp] theorem State.takeNumber_mem (s : State) (i : Nat) : (s.takeNumber i).2.mem = s.mem := rfl
@[simp] theorem State.raiseNonFinite_mem (s : State) (k c slot lane : Nat) (handler : Bool) (grv : Option (W64 × BitVec 8)) :
    (s.raiseNonFinite k c slot lane handler grv).mem = s.mem := by
  simp [State.raiseNonFinite]
@[simp] theorem State.raiseOverrun_mem (s : State) (k c cause : Nat) (handler : Bool) : (s.raiseOverrun k c cause handler).mem = s.mem := by
  simp [State.raiseOverrun]
@[simp] theorem State.raiseLate_mem (s : State) (k c : Nat) (handler : Bool) : (s.raiseLate k c handler).mem = s.mem := by
  simp [State.raiseLate]
@[simp] theorem State.releaseAt_mem (s : State) (k c scope : Nat) : (s.releaseAt k c scope).2.mem = s.mem := by
  unfold State.releaseAt; split <;> simp
@[simp] theorem State.heldWriteDone_mem (s : State) (p : Nat) (o : Op) : (s.heldWriteDone p o).mem = s.mem := by simp [State.heldWriteDone]
@[simp] theorem State.useBursts_mem (s : State) (p : Nat) (lines : List Nat) : (s.useBursts p lines).mem = s.mem := by
  unfold State.useBursts; split <;> simp
@[simp] theorem State.backBursts_mem (s : State) (c : Nat) (lines : List Nat) : (s.backBursts c lines).mem = s.mem := by
  unfold State.backBursts; split <;> simp
@[simp] theorem State.flushCluster_wf {s : State} (c : Nat) (p : Line → Bool) (inval : Bool) (h : Memory.wf s.mem = true) :
    Memory.wf (s.flushCluster c p inval).mem = true := by
  simpa [State.flushCluster] using wf_flushLines _ p inval h
@[simp] theorem State.endRun_mem (s : State) (k c : Nat) : (s.endRun k c).mem = s.mem := rfl
@[simp] theorem State.onLaunch_mem (s : State) (p n : Nat) (f : Launch → Launch) : (s.onLaunch p n f).mem = s.mem := rfl
@[simp] theorem State.leaveAll_mem (s : State) (k c : Nat) : (s.leaveAll k c).mem = s.mem :=
  foldl_keeps _ State.mem (fun _ _ => by simp) _ _
@[simp] theorem State.signalTask_mem (s : State) (k c : Nat) : (s.signalTask k c).mem = s.mem := by
  unfold State.signalTask; dsimp only; split <;> simp
@[simp] theorem State.toClosing_mem (s : State) (k c : Nat) : (s.toClosing k c).mem = s.mem := by simp [State.toClosing]
@[simp] theorem State.capture_mem (s : State) (k c : Nat) (e : TrapEntry) (pc : W64) : (s.capture k c e pc).mem = s.mem := rfl
@[simp] theorem State.trapNoHandler_mem (s : State) (k c : Nat) (e : TrapEntry) : (s.trapNoHandler k c e).mem = s.mem := by
  unfold State.trapNoHandler; dsimp only; split <;> simp
@[simp] theorem State.takeTrap_mem (s : State) (k c : Nat) (e : TrapEntry) : (s.takeTrap k c e).mem = s.mem := by
  unfold State.takeTrap; dsimp only; (repeat' split) <;> simp
@[simp] theorem State.takePending_mem (s : State) (k c : Nat) (tr : PendTrap) (rest : List PendTrap) :
    (s.takePending k c tr rest).mem = s.mem := by
  simp [State.takePending]
@[simp] theorem State.takeFault_mem (s : State) (k c : Nat) (f : IssueFault) (epc : W64) : (s.takeFault k c f epc).mem = s.mem := by
  unfold State.takeFault; dsimp only; split <;> simp
@[simp] theorem State.returnFromTrap_mem (s : State) (k c : Nat) : (s.returnFromTrap k c).mem = s.mem := by
  unfold State.returnFromTrap; dsimp only; (repeat' split) <;> simp
@[simp] theorem State.fillValue_mem (s : State) (k c id : Nat) (v mask : Vec) (cy : Nat) : (s.fillValue k c id v mask cy).mem = s.mem := by
  simp [State.fillValue]

/-! ## Flags (Machine/Flags.lean) -/

@[simp] theorem State.nfScalar_mem (s : State) (lat : Nat) (nf : Bool) : (s.nfScalar lat nf).mem = s.mem := by simp [State.nfScalar]
@[simp] theorem State.nfLanes_mem (s : State) (lat slot : Nat) (ls : List Nat) (f : Nat → Bool) (nfte : Bool) :
    (s.nfLanes lat slot ls f nfte).mem = s.mem := by
  unfold State.nfLanes; split <;> simp
@[simp] theorem State.pushPair_mem (s : State) (pd0 pd1 : PReg) (w : Nat → Option (Bool × Bool)) : (s.pushPair pd0 pd1 w).mem = s.mem := by
  unfold State.pushPair
  extract_lets m
  split
  · rfl
  · rw [State.push_mem, State.push_mem]

/-! ## The issue of one operation (Machine/Sem.lean) -/

@[simp] theorem State.overrun_mem (s : State) (k c cause : Nat) : (s.overrun k c cause).mem = s.mem := by simp [State.overrun]

/-! ## Transfers and loops (Machine/Control.lean) -/

@[simp] theorem State.goTo_mem (s : State) (a : W64) : (s.goTo a).mem = s.mem := rfl
@[simp] theorem State.stagePredicates_mem (s : State) : s.stagePredicates.mem = s.mem := by
  have cleared : ∀ (l : List Nat) (r : State), (l.foldl (fun r j => r.push 1 (.p (9 + j)) (maskAt 0 32) 0) r).mem = r.mem :=
    fun l r => foldl_keeps _ State.mem (fun _ _ => State.push_mem ..) l r
  exact (cleared _ _).trans (State.push_mem ..)
@[simp] theorem State.shiftPredicates_mem (s : State) (p : Vector W32 16) (p8 : Bool) : (s.shiftPredicates p p8).mem = s.mem := by
  unfold State.shiftPredicates
  rw [State.push_mem, foldl_keeps _ State.mem (fun _ _ => State.push_mem ..)]
@[simp] theorem State.loopEnd_mem (s : State) (a : W64) (p : Vector W32 16) : (s.loopEnd a p).1.mem = s.mem := by
  unfold State.loopEnd; (repeat' split) <;> simp

/-! ## Accesses through the caches (Machine/Access.lean) -/

@[simp] theorem State.touchLines_wf {s : State} (k rd : Nat) (pas : List Nat) (h : Memory.wf s.mem = true) :
    Memory.wf (s.touchLines k rd pas).mem = true :=
  foldl_wf _ (fun s a hs => by simpa using wf_touchLine _ a rd hs) _ _ h
@[simp] theorem State.noteHits_mem (s : State) (k : Nat) (lines : List Nat) : (s.noteHits k lines).mem = s.mem := by
  unfold State.noteHits; split <;> simp
@[simp] theorem postInc_mem (am lane0 : Bool) (d : Dest) (v : W64) (r : State) : (postInc am lane0 d v r).mem = r.mem := by
  unfold postInc; split <;> simp
@[simp] theorem State.choose_mem (s : State) (p : Nat) (gs : List (List PByte)) : (s.choose p gs).2.mem = s.mem := by
  unfold State.choose; split <;> simp

/-! ## Launches (Machine/Launches.lean) -/

@[simp] theorem State.startFlush_mem (s : State) (p : Nat) (l : Launch) (full : Bool) (c : Nat) :
    (s.startFlush p l full c).mem = s.mem := by
  unfold State.startFlush; split <;> simp
@[simp] theorem State.startFlushes_mem (s : State) (p : Nat) (l : Launch) (full : Bool) : (s.startFlushes p l full).mem = s.mem :=
  foldl_keeps _ State.mem (fun _ _ => State.startFlush_mem ..) _ _
@[simp] theorem State.settleLaunches_mem (s : State) (p : Nat) : (s.settleLaunches p).mem = s.mem :=
  (foldl_keeps _ State.mem (fun _ _ => State.startFlushes_mem ..) _ _).trans (State.onPart_mem ..)

/-! ## Loads (Machine/Load.lean) -/

@[simp] theorem State.loadOverlay_mem (s : State) (n : Nat) (accs : List LaneAcc) : (s.loadOverlay n accs).2.mem = s.mem := by
  simp [State.loadOverlay]
@[simp] theorem State.startLoad_wf {s : State} (l : LoadSpec) (h : Memory.wf s.mem = true) : Memory.wf (s.startLoad l).mem = true := by
  have taken : (if l.cached then s.takeNumber ctrTA else (0, s)).2.mem = s.mem := by split <;> simp
  unfold State.startLoad
  dsimp only
  split
  · split <;> simp [taken, h]
  · simp [taken, h]
@[simp] theorem State.laPost_mem (s : State) (tt : TT) (lab : AReg) (am : Bool) (ofs : BitVec 15) (r : State) :
    (State.laPost s tt lab am ofs r).mem = r.mem := by
  simp [State.laPost]

/-! ## Stores (Machine/Store.lean) -/

@[simp] theorem State.startStore_mem (s : State) (st : StoreSpec) (more : List Piece) (extra : Nat) :
    (s.startStore st more extra).mem = s.mem := by
  unfold State.startStore; dsimp only; (repeat' split) <;> simp
@[simp] theorem State.qaPost_mem (s : State) (tt : TT) (qab : AReg) (am : Bool) (inc : W64) (r : State) :
    (State.qaPost s tt qab am inc r).mem = r.mem := by
  simp [State.qaPost]
@[simp] theorem State.startAtomic_mem (s : State) (opcode n : Nat) (a : W64) (unsig nr : Bool) (v new : W64) (qvd : BitVec 6) :
    (s.startAtomic opcode n a unsig nr v new qvd).mem = s.mem := by
  unfold State.startAtomic; (repeat' split) <;> simp

/-! ## Loads, stores, atomics and FIFO accesses in flight (Machine/MemEvents.lean) -/

@[simp] theorem State.raiseDue_mem (s : State) (k c : Nat) : (s.raiseDue k c).mem = s.mem := by
  unfold State.raiseDue
  dsimp only
  split
  · rfl
  · rw [foldl_keeps _ State.mem (fun _ _ => State.raiseNonFinite_mem ..), State.setCtx_mem]
@[simp] theorem State.landResults_mem (s : State) (k c : Nat) : (s.landResults k c).mem = s.mem := by simp [State.landResults]
@[simp] theorem State.loadArrives_mem (s : State) (p : Nat) (o : Op) (wid ta : Nat) (reads : List Reading) :
    (s.loadArrives p o wid ta reads).mem = s.mem := by
  unfold State.loadArrives; dsimp only; (repeat' split) <;> simp
@[simp] theorem State.performBytes_wf {s : State} (o : Op) (bs : List PByte) (h : Memory.wf s.mem = true) :
    Memory.wf (s.performBytes o bs).mem = true := by
  simp [State.performBytes, wf_memWrite, wf_cacheWrite, h]
@[simp] theorem State.noteUndrained_mem (s : State) (p : Nat) (o : Op) (ta : Nat) (pas : List Nat) :
    (s.noteUndrained p o ta pas).mem = s.mem := by
  unfold State.noteUndrained; split <;> simp
@[simp] theorem State.performRemote_wf {s : State} (p : Nat) (o : Op) (bs : List PByte) (h : Memory.wf s.mem = true) :
    Memory.wf (s.performRemote p o bs).mem = true := by
  unfold State.performRemote
  dsimp only
  split <;> simp [h]
@[simp] theorem State.performStore_wf {s : State} (p : Nat) (o : Op) (bs : List PByte) (remote : List RemoteByte) (entry : Option Vec)
    (h : Memory.wf s.mem = true) : Memory.wf (s.performStore p o bs remote entry).mem = true := by
  unfold State.performStore
  dsimp only
  split
  · split <;> simp [h]
  · split <;> simp [h]
@[simp] theorem State.hurryStores_wf {s : State} (p : Nat) (o : Op) (pa n : Nat) (h : Memory.wf s.mem = true) :
    Memory.wf (s.hurryStores p o pa n).mem = true := by
  unfold State.hurryStores
  rw [State.onPart_mem]
  exact foldl_wf _ (fun s q hs => by split <;> simp [wf_memWrite, hs]) _ _ h
@[simp] theorem State.endAtomic_mem (s : State) (p : Nat) (o : Op) (nr : Bool) (wid ta old : Nat) :
    (s.endAtomic p o nr wid ta old).mem = s.mem := by
  unfold State.endAtomic; split <;> simp
@[simp] theorem State.performAtomic_wf {s : State} (p : Nat) (o : Op) (opcode n pa : Nat) (va : W64) (unsig nr : Bool) (v new : W64)
    (wid ta : Nat) (h : Memory.wf s.mem = true) : Memory.wf (s.performAtomic p o opcode n pa va unsig nr v new wid ta).mem = true := by
  unfold State.performAtomic
  dsimp only
  split
  · simp [h]
  · split <;> simp [wf_memWrite, h]
@[simp] theorem State.oldValueLands_mem (s : State) (p : Nat) (o : Op) (wid ta : Nat) (v : Vec) :
    (s.oldValueLands p o wid ta v).mem = s.mem := by
  simp [State.oldValueLands]
@[simp] theorem State.holdOp_mem (s : State) (p : Nat) (o : Op) : (s.holdOp p o).mem = s.mem := rfl
@[simp] theorem State.setFifo_mem (s : State) (c b : Nat) (es : List Vec) : (s.setFifo c b es).mem = s.mem := by
  unfold State.setFifo; dsimp only; (repeat' split) <;> simp
@[simp] theorem State.servePop_mem (s : State) (p : Nat) (o : Op) (c b wid ta lands : Nat) (mask : Vec) :
    (s.servePop p o c b wid ta lands mask).mem = s.mem := by
  unfold State.servePop; (repeat' split) <;> simp
@[simp] theorem State.carried_mem (s : State) (p : Nat) (copy : Option Nat) : (s.carried p copy).mem = s.mem := by
  unfold State.carried; split <;> simp
@[simp] theorem State.pushDone_mem (s : State) (p : Nat) (o : Op) (copy : Option Nat) : (s.pushDone p o copy).mem = s.mem := by
  unfold State.pushDone; split <;> simp
@[simp] theorem State.enterPush_mem (s : State) (p : Nat) (o : Op) (c b : Nat) (va : W64) (es : List Vec) (copy : Option Nat) :
    (s.enterPush p o c b va es copy).mem = s.mem := by
  unfold State.enterPush; dsimp only; (repeat' split) <;> simp

/-! ## Copies between the register files (Machine/Exchange.lean) -/

@[simp] theorem copyEffect_mem (x : Ctx) (form : Nat) (c : CopyDesc) (r : State) : (copyEffect x form c r).mem = r.mem := by
  unfold copyEffect; split <;> simp

/-! ## Commands of the copy engine (Machine/Copy.lean) -/

@[simp] theorem State.acceptCopy_mem (s : State) (c : CopyCmd) : (s.acceptCopy c).mem = s.mem := by unfold State.acceptCopy; split <;> simp

/-! ## The copy engine at work (Machine/Engine.lean) -/

@[simp] theorem State.touchSources_wf {s : State} (k rd : Nat) (es : List (Nat × Nat)) (h : Memory.wf s.mem = true) :
    Memory.wf (s.touchSources k rd es).mem = true := by
  simp [State.touchSources, h]
@[simp] theorem State.engineOverlay_mem (s : State) (k c since till : Nat) (es : List (Nat × Nat)) :
    (s.engineOverlay k c since till es).2.mem = s.mem := by
  unfold State.engineOverlay; dsimp only; split <;> simp
@[simp] theorem State.engineBursts_mem (s : State) (k c d id : Nat) (handler : Bool) (lines : List Nat) :
    (s.engineBursts k c d id handler lines).2.mem = s.mem := by
  unfold State.engineBursts; dsimp only; split <;> simp
@[simp] theorem State.freeBehind_mem (s : State) (k : Nat) (e : CopyCmd) : (s.freeBehind k e).mem = s.mem := rfl
@[simp] theorem State.onCopy_mem (s : State) (k id : Nat) (f : CopyCmd → CopyCmd) : (s.onCopy k id f).mem = s.mem := rfl
@[simp] theorem State.activateRuns_mem (s : State) (p cl : Nat) : (s.activateRuns p cl).mem = s.mem := by
  unfold State.activateRuns
  rw [State.onCluster_mem, foldl_keeps _ (fun acc : State × List BankRun => State.mem acc.1)]
  intro acc r
  split <;> simp
@[simp] theorem State.startBankset_mem (s : State) (k : Nat) (c : CopyCmd) : (s.startBankset k c).mem = s.mem := by
  unfold State.startBankset
  rw [State.activateRuns_mem, State.onCluster_mem]
@[simp] theorem State.peerSends_mem (s : State) (p : Nat) (c : CopyCmd) : (s.peerSends p c).2.2.2.mem = s.mem := by simp [State.peerSends]
@[simp] theorem State.startMove_wf {s : State} (k : Nat) (c : CopyCmd) (h : Memory.wf s.mem = true) :
    Memory.wf (s.startMove k c).mem = true := by
  unfold State.startMove
  dsimp only
  split <;> split <;> split <;> simp [h]
@[simp] theorem State.takeShare_mem (s : State) (p g seq : Nat) (x : Share) : (s.takeShare p g seq x).mem = s.mem := by
  unfold State.takeShare; dsimp only; (repeat' split) <;> simp
@[simp] theorem State.startCred_wf {s : State} (k : Nat) (c : CopyCmd) (h : Memory.wf s.mem = true) :
    Memory.wf (s.startCred k c).mem = true := by
  unfold State.startCred
  dsimp only
  split <;> split <;> simp [h]
@[simp] theorem State.startCopy_wf {s : State} (k : Nat) (c : CopyCmd) (h : Memory.wf s.mem = true) :
    Memory.wf (s.startCopy k c).mem = true := by
  unfold State.startCopy
  dsimp only
  (repeat' split) <;> simp [h]
@[simp] theorem State.homeWrite_wf (s : State) (cl accepted : Nat) (bs cached : List PByte) (h : Memory.wf s.mem = true) :
    Memory.wf (s.homeWrite cl accepted bs cached).mem = true := by
  simp [State.homeWrite, h, wf_memWrite]
@[simp] theorem State.performWrite_wf (s : State) (k : Nat) (c : CopyCmd) (w : Nat × List (Byte × Byte))
    (h : Memory.wf s.mem = true) :
    Memory.wf (s.performWrite k c w).1.mem = true := by
  unfold State.performWrite; dsimp only; (repeat' split) <;> simp [h]
@[simp] theorem State.performWrites_wf {s : State} (k : Nat) (c : CopyCmd) (ws : List (Nat × List (Byte × Byte)))
    (h : Memory.wf s.mem = true) : Memory.wf (s.performWrites k c ws).1.mem = true := by
  unfold State.performWrites
  exact List.foldlRecOn ws _ (motive := fun acc : State × Option Nat => Memory.wf acc.1.mem = true) h
    fun _ hs _ _ => State.performWrite_wf _ _ _ _ hs
@[simp] theorem State.performCopy_wf {s : State} (k : Nat) (c : CopyCmd) (h : Memory.wf s.mem = true) :
    Memory.wf (s.performCopy k c).mem = true := by
  unfold State.performCopy
  dsimp only
  (repeat' split) <;> simp [h]
@[simp] theorem State.copyNonFinite_mem (s : State) (k : Nat) (c : CopyCmd) : (s.copyNonFinite k c).mem = s.mem := by
  simp [State.copyNonFinite]
@[simp] theorem State.finishCopy_mem (s : State) (k : Nat) (c : CopyCmd) : (s.finishCopy k c).mem = s.mem := by
  unfold State.finishCopy; (repeat' split) <;> simp
@[simp] theorem State.completeCopy_wf {s : State} (k : Nat) (c : CopyCmd) (h : Memory.wf s.mem = true) :
    Memory.wf (s.completeCopy k c).mem = true := by
  unfold State.completeCopy
  dsimp only
  (repeat' split) <;> simp [h]
@[simp] theorem State.emptyReads_mem (s : State) (cl b : Nat) : (s.emptyReads cl b).mem = s.mem := rfl
@[simp] theorem State.enterMode_wf {s : State} (cl : Nat) (r : BankRun) (b : Nat) (h : Memory.wf s.mem = true) :
    Memory.wf (s.enterMode cl r b).mem = true := by
  unfold State.enterMode
  rw [State.onCluster_mem]
  exact wf_memDrop _ _ (by simp [h])

/-! ## Demands (Machine/Grove.lean) -/

@[simp] theorem State.acceptDemand_mem (s : State) (d : Demand) : (s.acceptDemand d).mem = s.mem := rfl

/-! ## The Grove at work (Machine/Demand.lean) -/

@[simp] theorem State.hitLines_mem (s : State) (k : Nat) (lines : List Nat) : (s.hitLines k lines).mem = s.mem := by simp [State.hitLines]
@[simp] theorem State.runOf_mem (s : State) (k : Nat) (d : Demand) : (s.runOf k d).2.mem = s.mem := by
  unfold State.runOf; dsimp only; (repeat' split) <;> simp
@[simp] theorem State.startDemand_mem (s : State) (k : Nat) (d : Demand) (rest : List Demand) : (s.startDemand k d rest).mem = s.mem := by
  unfold State.startDemand; dsimp only; split <;> simp
@[simp] theorem State.performGrove_wf (s : State) (k : Nat) (d : Demand) (ws : List (Nat × List (Byte × Byte)))
    (h : Memory.wf s.mem = true) :
    Memory.wf (s.performGrove k d ws).mem = true := by
  unfold State.performGrove; dsimp only; (repeat' split) <;> simp [h, wf_memWrite]
@[simp] theorem State.settleRun_wf (s : State) (k : Nat) (g : GRun) (h : Memory.wf s.mem = true) :
    Memory.wf (s.settleRun k g).mem = true := by
  unfold State.settleRun; split <;> simp [h]
@[simp] theorem State.completeDemand_wf (s : State) (k : Nat) (g : GRun) (h : Memory.wf s.mem = true) :
    Memory.wf (s.completeDemand k g).mem = true := by
  unfold State.completeDemand; dsimp only; (repeat' split) <;> simp [h]
@[simp] theorem State.raiseGrove_mem (s : State) (k : Nat) (d : Demand) (code tinfo node : Nat) (bk : Option (W64 × Option W32)) :
    (s.raiseGrove k d code tinfo node bk).mem = s.mem := by
  simp [State.raiseGrove]
@[simp] theorem State.suspendDemand_wf (s : State) (k : Nat) (g : GRun) (code tinfo node : Nat) (bk : Option
    (W64 × Option W32)) (r : GRecord) (h : Memory.wf s.mem = true) :
    Memory.wf (s.suspendDemand k g code tinfo node bk r).mem = true := by
  unfold State.suspendDemand; dsimp only; (repeat' split) <;> simp [h]
@[simp] theorem State.replanFrom_mem (s : State) (k : Nat) (g : GRun) (x : GStage) : (s.replanFrom k g x).mem = s.mem := by
  unfold State.replanFrom; dsimp only; (repeat' split) <;> simp
@[simp] theorem State.replan_mem (s : State) (k cl b : Nat) : (s.replan k cl b).mem = s.mem := by
  unfold State.replan; (repeat' split) <;> simp
@[simp] theorem State.resumeDemands_mem (s : State) (k c : Nat) : (s.resumeDemands k c).mem = s.mem := rfl
@[simp] theorem State.solverRequest_mem (s : State) (k : Nat) (g : GRun) (t : Nat) : (s.solverRequest k g t).mem = s.mem := rfl

/-! ## Banks that change their mode (Machine/Banks.lean) -/

@[simp] theorem State.replanAll_mem (s : State) (p cl b : Nat) : (s.replanAll p cl b).mem = s.mem :=
  foldl_keeps _ State.mem (fun _ _ => State.replan_mem ..) _ _
@[simp] theorem State.stepRun_wf {s : State} (p cl : Nat) (r : BankRun) (h : Memory.wf s.mem = true) :
    Memory.wf (s.stepRun p cl r).mem = true := by
  unfold State.stepRun
  simp only [State.onCluster_mem, State.within_mem, State.replanAll_mem]
  exact State.enterMode_wf _ _ _ h
@[simp] theorem State.endRunOfBanks_mem (s : State) (p cl : Nat) (r : BankRun) : (s.endRunOfBanks p cl r).mem = s.mem := by
  unfold State.endRunOfBanks
  simp only [State.activateRuns_mem, State.onCluster_mem, State.complete_mem]
  split <;> simp

/-! ## Synchronization (Machine/Sync.lean) -/

@[simp] theorem State.holdNext_mem (s : State) (kind : SyncKind) (till needs : Nat) (tail : Nat) :
    (s.holdNext kind till needs tail).mem = s.mem := rfl
@[simp] theorem State.acquireAt_mem (s : State) (k c scope : Nat) : (s.acquireAt k c scope).2.mem = s.mem := by
  unfold State.acquireAt; split <;> simp
@[simp] theorem State.onGroup_mem (s : State) (p i : Nat) (f : GroupObj → GroupObj) : (s.onGroup p i f).mem = s.mem := rfl
@[simp] theorem State.groupFault_mem (s : State) (id : W64) (opcode : Nat) : (s.groupFault id opcode).mem = s.mem := by
  simp [State.groupFault]
/-- An operation on a group object keeps memory where its effect on the named object does. -/
theorem State.withGroup_mem {s : State} (id : W64) (opcode : Nat) {f : State → Nat → GroupObj → State}
    (hf : ∀ s i g, (f s i g).mem = s.mem) : (s.withGroup id opcode f).mem = s.mem := by
  unfold State.withGroup
  split
  · simp
  · exact hf ..
@[simp] theorem State.release_mem (s : State) (i : Nat) (leave : Bool) (scope phase : Nat) :
    (s.release i leave scope phase).mem = s.mem := by
  simp [State.release]
@[simp] theorem State.armCtx_mem (s : State) (k c : Nat) (t : Task) (bases : WinSizes) : (s.armCtx k c t bases).mem = s.mem := rfl
@[simp] theorem State.armDue_mem (s : State) (w : Nat) : (s.armDue w).2.mem = s.mem := by unfold State.armDue; dsimp only; split <;> simp

/-! ## Holds, arrivals, submissions (Machine/SyncEvents.lean) -/

@[simp] theorem State.incrementTs_mem (s : State) (p : Nat) (o : Op) (c k : Nat) (carried : Bool) :
    (s.incrementTs p o c k carried).mem = s.mem := by
  unfold State.incrementTs; dsimp only; (repeat' split) <;> simp
@[simp] theorem State.endHold_wf {s : State} (k : Nat) (hold : SyncHold) (h : Memory.wf s.mem = true) :
    Memory.wf (s.endHold k hold).mem = true := by
  unfold State.endHold
  dsimp only
  split <;> simp [h]
@[simp] theorem State.settlePhase_mem (s : State) (p i : Nat) : (s.settlePhase p i).mem = s.mem := by
  unfold State.settlePhase
  dsimp only
  split
  · rw [foldl_keeps _ State.mem (fun _ _ => by simp), State.onGroup_mem]
  · rfl
@[simp] theorem State.countArrival_wf {s : State} (p : Nat) (o : Op) (i : Nat) (leave : Bool) (scope phase : Nat)
    (h : Memory.wf s.mem = true) : Memory.wf (s.countArrival p o i leave scope phase).mem = true := by
  unfold State.countArrival
  dsimp only
  (repeat' split) <;> simp [h]
@[simp] theorem State.wakeQueue_mem (s : State) (q : Nat) : (s.wakeQueue q).mem = s.mem := by
  unfold State.wakeQueue; dsimp only; split <;> simp
@[simp] theorem State.homeStore_wf (s : State) (p a : Nat) (bs : List Byte) (h : Memory.wf s.mem = true) :
    Memory.wf (s.homeStore p a bs).mem = true := by
  simp [State.homeStore, h, wf_memWrite]
@[simp] theorem State.deliver_wf (s : State) (p : Nat) (o : Op) (q a tq : Nat) (h : Memory.wf s.mem = true) :
    Memory.wf (s.deliver p o q a tq).mem = true := by
  unfold State.deliver; dsimp only; (repeat' split) <;> simp [h]
@[simp] theorem State.submitStep_wf {s : State} (p : Nat) (o : Op) (q : Nat) (a : W64) (tq : Nat) (released : Bool)
    (h : Memory.wf s.mem = true) : Memory.wf (s.submitStep p o q a tq released).mem = true := by
  unfold State.submitStep
  split <;> simp [h]

/-! ## Update units (Machine/Update.lean) -/

@[simp] theorem State.dropArm_mem (s : State) (a : Arm) : (s.dropArm a).mem = s.mem := by simp [State.dropArm]
@[simp] theorem State.placeArm_mem (s : State) (p : Nat) (a : Arm) : (s.placeArm p a).mem = s.mem := by
  unfold State.placeArm; dsimp only; (repeat' split) <;> simp
@[simp] theorem State.takeContrib_mem (s : State) (p : Nat) (o : Op) (w k : Nat) (vals : List W32) (ta : Nat) :
    (s.takeContrib p o w k vals ta).mem = s.mem := by
  unfold State.takeContrib; dsimp only; (repeat' split) <;> simp
@[simp] theorem State.applyRule_mem (s : State) (p : Nat) (a : Arm) : (s.applyRule p a).mem = s.mem := by simp [State.applyRule]
@[simp] theorem State.retryArms_mem (s : State) (p slice : Nat) : (s.retryArms p slice).mem = s.mem :=
  foldl_keeps _ State.mem (fun _ _ => State.placeArm_mem ..) _ _
@[simp] theorem State.completeUpdate_wf (s : State) (p : Nat) (o : Op) (arm : Nat) (ws : List PByte) (bad : Nat)
    (h : Memory.wf s.mem = true) :
    Memory.wf (s.completeUpdate p o arm ws bad).mem = true := by
  unfold State.completeUpdate; dsimp only; (repeat' split) <;> simp [h, wf_memWrite]
@[simp] theorem State.takeArrival_mem (s : State) (p : Nat) (o : Op) (core : Nat) (r : ArrivalRec) (copy : Option Nat) :
    (s.takeArrival p o core r copy).mem = s.mem := by
  unfold State.takeArrival; dsimp only; (repeat' split) <;> simp
@[simp] theorem State.startHandler_mem (s : State) (k c : Nat) (x : Ctx) (a : ArrivalRec) : (s.startHandler k c x a).mem = s.mem := rfl

/-! ## The snapshot buffer (Machine/Handler.lean) -/

@[simp] theorem State.snapStore_mem (s : State) (a : W64) (bs : List Byte) : (s.snapStore a bs).2.mem = s.mem := by
  unfold State.snapStore; dsimp only; split <;> simp
@[simp] theorem State.snapTake_mem (s : State) (es : List SnapEntry) : (s.snapTake es).mem = s.mem := rfl
@[simp] theorem State.releaseSnap_mem (s : State) (k c : Nat) : (s.releaseSnap k c).mem = s.mem := rfl

/-! ## The issue of a bundle (Machine/Bundle.lean) -/

@[simp] theorem State.atIssue_mem (s : State) (k c : Nat) (b : Bundle) : (s.atIssue k c b).mem = s.mem := rfl
@[simp] theorem State.acquirePackage_wf {v : State} (hd : Header) (h : Memory.wf v.mem = true) :
    Memory.wf (v.acquirePackage hd).mem = true := by
  unfold State.acquirePackage
  split <;> simp [h]
@[simp] theorem State.acquireWaits_wf {v : State} (hd : Header) (h : Memory.wf v.mem = true) :
    Memory.wf (v.acquireWaits hd).mem = true := by
  unfold State.acquireWaits
  (repeat' split) <;> simp [h]
@[simp] theorem State.applyEntry_mem (s : State) (e : Ingress) : (s.applyEntry e).mem = s.mem := by
  unfold State.applyEntry; dsimp only; split <;> simp
@[simp] theorem State.applyIngress_mem (s : State) : s.applyIngress.mem = s.mem :=
  foldl_keeps _ State.mem State.applyEntry_mem _ _
@[simp] theorem State.advance_mem (v r : State) : (State.advance v r).1.mem = r.mem := by unfold State.advance; split <;> simp
@[simp] theorem State.landPreempt_mem (s : State) (k c : Nat) (round : Bool) (h : Header) : (s.landPreempt k c round h).mem = s.mem := by
  unfold State.landPreempt; dsimp only; (repeat' split) <;> simp
@[simp] theorem State.gainSlot_mem (s : State) (k c : Nat) : (s.gainSlot k c).mem = s.mem := by unfold State.gainSlot; split <;> simp
@[simp] theorem State.useSlot_mem (s : State) (k : Nat) (used : Bool) : (s.useSlot k used).mem = s.mem := by
  unfold State.useSlot; split <;> simp
@[simp] theorem State.closeBundle_mem (v r : State) (k c : Nat) (b : Bundle) : (State.closeBundle v r k c b).mem = r.mem := by
  unfold State.closeBundle; (repeat' split) <;> simp
@[simp] theorem State.missPadded_mem (s : State) (k c : Nat) (o : Op) : (s.missPadded k c o).mem = s.mem := by
  have dropped : ∀ (l : List Nat), (l.foldl (fun s i => s.dropOp (s.partOf k) i) s).mem = s.mem :=
    fun l => foldl_keeps _ State.mem (fun _ _ => State.dropOp_mem ..) l s
  unfold State.missPadded
  dsimp only
  split <;> simp [dropped]
@[simp] theorem State.forcePreempt_mem (s : State) (k c : Nat) : (s.forcePreempt k c).mem = s.mem := by simp [State.forcePreempt]

/-! ## The end of a task, saving and restoring (Machine/Ending.lean) -/

@[simp] theorem State.removeCtx_mem (s : State) (k c : Nat) : (s.removeCtx k c).mem = s.mem := rfl
@[simp] theorem State.freeCtx_mem (s : State) (k c : Nat) : (s.freeCtx k c).mem = s.mem := rfl
@[simp] theorem State.failRestore_mem (s : State) (p launch : Nat) (task : W64) (status : Nat) :
    (s.failRestore p launch task status).mem = s.mem := rfl
@[simp] theorem State.dropSaved_mem (s : State) (p : Nat) (v : Saved) (status : Nat) : (s.dropSaved p v status).mem = s.mem := rfl
@[simp] theorem State.saveCtx_wf {s : State} (k c : Nat) (h : Memory.wf s.mem = true) : Memory.wf (s.saveCtx k c).mem = true := by
  have stored : ∀ (image : List (Nat × List Byte)) (p base : Nat) (t : State), Memory.wf t.mem = true →
      Memory.wf (image.foldl (fun s e => s.homeStore p (base + e.1) e.2) t).mem = true :=
    fun image p base t ht => foldl_wf _ (fun s e hs => State.homeStore_wf _ _ _ _ hs) _ _ ht
  unfold State.saveCtx
  dsimp only
  (repeat' split) <;> simp [stored, h]
@[simp] theorem State.restoreCtx_mem (s : State) (p : Nat) (v : Saved) (k c issueAt : Nat) (bases : WinSizes) :
    (s.restoreCtx p v k c issueAt bases).mem = s.mem := by
  simp [State.restoreCtx]

/-! ## Queues (Machine/Queues.lean) -/

@[simp] theorem State.abort_mem (s : State) : s.abort.mem = s.mem := rfl
@[simp] theorem State.writeQctl_mem (s : State) (who : Requester) (q : Nat) (v : W64) : (s.writeQctl who q v).mem = s.mem := by
  unfold State.writeQctl; dsimp only; (repeat' split) <;> simp
@[simp] theorem State.ringDoorbell_mem (s : State) (who : Requester) (q : Nat) (tail : W32) : (s.ringDoorbell who q tail).mem = s.mem := by
  unfold State.ringDoorbell; dsimp only; (repeat' split) <;> simp
@[simp] theorem State.readSlot_mem (s : State) (q : Nat) : (s.readSlot q).mem = s.mem := by
  unfold State.readSlot; dsimp only; (repeat' split) <;> simp
@[simp] theorem State.acceptPacket_mem (s : State) (q : Nat) (k : Packet) (c : Option Checked) : (s.acceptPacket q k c).mem = s.mem := by
  unfold State.acceptPacket
  simp only [State.settleLaunches_mem, State.wakeQueue_mem, State.setQueue_mem, State.onPart_mem]
  (repeat' split) <;> simp

/-! ## The scheduler (Machine/Scheduler.lean) -/

@[simp] theorem State.bindTask_mem (s : State) (p : Nat) (l : Launch) (index k c issueAt : Nat) (bases : WinSizes) :
    (s.bindTask p l index k c issueAt bases).mem = s.mem := rfl
@[simp] theorem State.restoreDet_mem (s : State) (p : Nat) (v : Saved) (k c start : Nat) : (s.restoreDet p v k c start).mem = s.mem := by
  unfold State.restoreDet; split <;> simp
@[simp] theorem State.writeRecord_wf (s : State) (p : Nat) (l : Launch) (h : Memory.wf s.mem = true) :
    Memory.wf (s.writeRecord p l).mem = true := by
  unfold State.writeRecord; (repeat' split) <;> simp [h]
@[simp] theorem State.finishLaunch_wf (s : State) (p : Nat) (l : Launch) (h : Memory.wf s.mem = true) :
    Memory.wf (s.finishLaunch p l).mem = true := by
  unfold State.finishLaunch; dsimp only; (repeat' split) <;> simp [h]
@[simp] theorem State.restartTimer_mem (s : State) (p q : Nat) : (s.restartTimer p q).mem = s.mem := by
  unfold State.restartTimer; split <;> simp
@[simp] theorem State.completeLaunch_wf {s : State} (p : Nat) (l : Launch) (h : Memory.wf s.mem = true) :
    Memory.wf (s.completeLaunch p l).mem = true := by
  unfold State.completeLaunch
  dsimp only
  split <;> simp [h]

/-! ## Partitions (Machine/Partitions.lean) -/

@[simp] theorem State.clearCluster_wf (s : State) (c : Nat) (h : Memory.wf s.mem = true) : Memory.wf (s.clearCluster c).mem = true := by
  simp [State.clearCluster, h, wf_memDrop]
@[simp] theorem State.abandon_wf (s : State) (p : Nat) (bs : List PByte) (h : Memory.wf s.mem = true) :
    Memory.wf (s.abandon p bs).mem = true := by
  simp [State.abandon, h, wf_memWrite]
@[simp] theorem State.failReduction_mem (s : State) (p : Nat) (r : Reduction) : (s.failReduction p r).mem = s.mem :=
  foldl_keeps _ State.mem (fun _ _ => State.answer_mem ..) _ _
@[simp] theorem State.drain_wf {s : State} (p : Nat) (failing : Failing) (h : Memory.wf s.mem = true) :
    Memory.wf (s.drain p failing).mem = true := by
  unfold State.drain
  dsimp only
  rw [State.addOp_mem]
  refine foldl_wf _ (fun _ _ hs => State.finishLaunch_wf _ _ _ hs) _ _ ?_
  rw [State.onPart_mem]
  refine foldl_wf _ (fun _ _ hs => State.clearCluster_wf _ _ hs) _ _ ?_
  rw [foldl_keeps _ State.mem (fun _ _ => State.onCore_mem ..), foldl_keeps _ State.mem (fun _ _ => State.failReduction_mem ..)]
  exact State.abandon_wf _ _ _ h
@[simp] theorem State.askDrain_mem (s : State) (p : Nat) (bit : BitVec 4) (reason : Nat) (failing : Failing) :
    (s.askDrain p bit reason failing).mem = s.mem := by
  unfold State.askDrain; split <;> simp
@[simp] theorem State.perr_mem (s : State) (p : Nat) (code : BitVec 8) : (s.perr p code).mem = s.mem := rfl
@[simp] theorem State.retireUnits_mem (s : State) : (s.retireUnits).mem = s.mem := rfl
@[simp] theorem State.countCycles_mem (s : State) (q : Partition) (more : Nat → Nat) : (s.countCycles q more).mem = s.mem := rfl
@[simp] theorem State.create_wf {s : State} (p : Nat) (h : Memory.wf s.mem = true) : Memory.wf (s.create p).mem = true := by
  unfold State.create
  refine wf_memDrop _ _ ?_
  rw [foldl_keeps _ State.mem (fun _ _ => State.setCore_mem ..)]
  exact foldl_wf _ (fun _ _ hs => State.clearCluster_wf _ _ hs) _ _ h
@[simp] theorem State.cmdCreate_wf {s : State} (p : Nat) (h : Memory.wf s.mem = true) : Memory.wf (s.cmdCreate p).mem = true := by
  unfold State.cmdCreate
  (repeat' split) <;> simp [h]
@[simp] theorem State.cmdDestroy_wf {s : State} (p : Nat) (h : Memory.wf s.mem = true) : Memory.wf (s.cmdDestroy p).mem = true := by
  unfold State.cmdDestroy
  dsimp only
  (repeat' split) <;> simp [h]
@[simp] theorem State.cmdReset_mem (s : State) (p : Nat) : (s.cmdReset p).mem = s.mem := by
  unfold State.cmdReset; dsimp only; (repeat' split) <;> simp
@[simp] theorem State.clearPevent_mem (s : State) (who : Requester) (p : Nat) (bits : W64) : (s.clearPevent who p bits).mem = s.mem := by
  unfold State.clearPevent; split <;> simp
@[simp] theorem State.refuseLoad_mem (s : State) (p : Nat) : (s.refuseLoad p).mem = s.mem := by unfold State.refuseLoad; split <;> simp

/-! ## Host ports (Machine/Ports.lean) -/

@[simp] theorem State.writeCfg_mem (s : State) (p : Nat) (f : PCfg → PCfg) : (s.writeCfg p f).mem = s.mem := by
  unfold State.writeCfg; (repeat' split) <;> simp
@[simp] theorem State.writeHctl_mem (s : State) (v : W64) : (s.writeHctl v).mem = s.mem := by
  unfold State.writeHctl; dsimp only; (repeat' split) <;> simp
@[simp] theorem State.writePcmd_wf {s : State} (p : Nat) (v : W64) (h : Memory.wf s.mem = true) :
    Memory.wf (s.writePcmd p v).mem = true := by
  unfold State.writePcmd
  (repeat' split) <;> simp [h]
@[simp] theorem State.writeReg_wf {s : State} (reg : HostReg) (v : W64) (h : Memory.wf s.mem = true) :
    Memory.wf (s.writeReg reg v).mem = true := by
  unfold State.writeReg
  (repeat' split) <;> simp [h]
@[simp] theorem State.takeEntry_mem (s : State) (w : HostWrite) (e : Ingress) : (s.takeEntry w e).mem = s.mem := by
  unfold State.takeEntry; dsimp only; split <;> simp
@[simp] theorem State.arriveIngress_mem (s : State) (w : HostWrite) : (s.arriveIngress w).mem = s.mem := by
  unfold State.arriveIngress; (repeat' split) <;> simp
@[simp] theorem State.performIngress_wf (s : State) (p : Nat) (o : Op) (entry : Nat) (bs : List PByte) (th : Nat)
    (h : Memory.wf s.mem = true) :
    Memory.wf (s.performIngress p o entry bs th).mem = true := by
  unfold State.performIngress; dsimp only; (repeat' split) <;> simp [h, wf_memWrite]
@[simp] theorem State.answerWord_mem (s : State) (w : Option Nat) : (s.answerWord w).mem = s.mem := by
  unfold State.answerWord; split <;> simp
@[simp] theorem State.readBy_mem (s : State) (who : Requester) (p : Nat) (read : Bool → Option Nat) :
    (s.readBy who p read).mem = s.mem := by
  unfold State.readBy; (repeat' split) <;> simp
@[simp] theorem State.readDevice_mem (s : State) (p : Nat) (a : W64) (n : Nat) : (s.readDevice p a n).mem = s.mem := by
  unfold State.readDevice; split <;> simp
@[simp] theorem State.joinDomain_mem (s : State) (stime : W64) : (s.joinDomain stime).mem = s.mem := rfl

/-! ## The fabric (Machine/Fabric.lean) -/

@[simp] theorem State.invalidatePayload_mem (s : State) (p core a n : Nat) : (s.invalidatePayload p core a n).mem = s.mem := by
  simp [State.invalidatePayload]
@[simp] theorem State.takePayload_wf (s : State) (hd : FabricHeader) (h : Memory.wf s.mem = true) :
    Memory.wf (s.takePayload hd).mem = true := by
  unfold State.takePayload; dsimp only; (repeat' split) <;> simp [h]
@[simp] theorem State.landResult_mem (s : State) (p g seq due : Nat) (vals : Option (List W32)) :
    (s.landResult p g seq due vals).mem = s.mem := by
  unfold State.landResult; split <;> simp
@[simp] theorem State.meetResult_mem (s : State) (p g seq : Nat) (vals : Option (List W32)) : (s.meetResult p g seq vals).mem = s.mem := by
  unfold State.meetResult; split <;> simp
@[simp] theorem State.finishReduction_mem (s : State) (p : Nat) (o : Op) (g seq : Nat) : (s.finishReduction p o g seq).mem = s.mem := by
  unfold State.finishReduction
  rw [State.meetResult_mem, foldl_keeps _ State.mem (fun _ _ => State.answer_mem ..), State.onPart_mem, State.dropOp_mem]
@[simp] theorem State.takeFragment_mem (s : State) (f : Fragment) : (s.takeFragment f).mem = s.mem := by
  unfold State.takeFragment; dsimp only; (repeat' split) <;> simp

/-! ## Health (Machine/Health.lean) -/

@[simp] theorem State.deviceFault_mem (s : State) (p : Nat) (failing : Failing) : (s.deviceFault p failing).mem = s.mem := by
  unfold State.deviceFault; split <;> simp
@[simp] theorem State.setClock_mem (s : State) (p mult : Nat) : (s.setClock p mult).mem = s.mem := rfl
@[simp] theorem State.sample_mem (s : State) : (s.sample).mem = s.mem := rfl
@[simp] theorem State.thermalLimit_mem (s : State) : s.thermalLimit.mem = s.mem := by
  unfold State.thermalLimit
  dsimp only
  split
  · exact foldl_keeps _ State.mem (fun _ _ => State.deviceFault_mem ..) _ _
  · exact foldl_keeps _ State.mem (fun _ _ => State.setClock_mem ..) _ _
@[simp] theorem State.thermalRelief_mem (s : State) : s.thermalRelief.mem = s.mem :=
  foldl_keeps _ State.mem (fun _ _ => State.setClock_mem ..) _ _
@[simp] theorem State.overheat_mem (s : State) : s.overheat.mem = s.mem :=
  foldl_keeps _ State.mem (fun _ _ => State.deviceFault_mem ..) _ _
/-- A reading beyond a limit changes no byte, and one within the limits leaves the state that it would leave calm. -/
theorem State.meetLimits_mem {s calm : State} (h : calm.mem = s.mem) : (s.meetLimits calm).mem = s.mem := by
  unfold State.meetLimits
  (repeat' split) <;> simp [h]
@[simp] theorem State.moduleReset_wf {s : State} (h : Memory.wf s.mem = true) : Memory.wf s.moduleReset.mem = true := by
  unfold State.moduleReset
  refine foldl_wf _ (fun t c ht => ?_) _ _ (wf_memDrop _ _ (wf_memDrop _ _ h))
  split
  · exact ht
  · exact ht

/-! ## Inputs and the passage of time (Machine/Schedule.lean) -/

@[simp] theorem State.withoutInput_mem (s : State) (i : Instr) : (s.withoutInput i).mem = s.mem := by
  unfold State.withoutInput; (repeat' split) <;> simp
@[simp] theorem State.hostWrites_wf (s : State) (h : Memory.wf s.mem = true) : Memory.wf (s.hostWrites).mem = true := by
  simp [State.hostWrites, h, wf_memWrite]

end Sys2Proof.Machine
end

section
/-! The effect of every slot operation keeps memory in its canonical form. -/

namespace Sys2Proof.Machine

/-- The effect of an operation keeps memory in its canonical form. -/
def OpSem.KeepsWf (o : OpSem) : Prop := ∀ r : State, Memory.wf r.mem = true → Memory.wf (o.effect r).mem = true

/-! ## Forms of a contribution -/

@[simp] theorem OpSem.keepsWf_mk (fs : List IssueFault) (holds aq : Nat) (f : State → State) :
    (OpSem.mk fs holds aq f).KeepsWf ↔ ∀ r : State, Memory.wf r.mem = true → Memory.wf (f r).mem = true := Iff.rfl

@[simp] theorem OpSem.keepsWf_pure (f : State → State) :
    (OpSem.pure f).KeepsWf ↔ ∀ r : State, Memory.wf r.mem = true → Memory.wf (f r).mem = true := Iff.rfl

@[simp] theorem OpSem.keepsWf_idle : OpSem.idle.KeepsWf := fun _ h => h

@[simp] theorem OpSem.keepsWf_guarded {o : OpSem} (s : State) (tt : TT) (h : o.KeepsWf) : (OpSem.guarded s tt o).KeepsWf := by
  unfold OpSem.guarded
  split
  · exact h
  · exact OpSem.keepsWf_idle

@[simp] theorem OpSem.keepsWf_inHandler {o : OpSem} (s : State) (only : Bool) (h : o.KeepsWf) : (OpSem.inHandler s only o).KeepsWf := by
  unfold OpSem.inHandler
  split
  · exact OpSem.keepsWf_idle
  · exact h

@[simp] theorem OpSem.keepsWf_outsideHandler {o : OpSem} (s : State) (h : o.KeepsWf) : (OpSem.outsideHandler s o).KeepsWf := by
  unfold OpSem.outsideHandler
  split
  · exact OpSem.keepsWf_idle
  · exact h

@[simp] theorem OpSem.keepsWf_withScale {o : OpSem} (s : State) (vu : VUnit) (tt : TT) (se : Bool) (k : Nat) (h : o.KeepsWf) :
    (o.withScale s vu tt se k).KeepsWf := by
  unfold OpSem.withScale
  split <;> exact h

@[simp] theorem OpSem.keepsWf_takesDivider {o : OpSem} (s : State) (tt : TT) (h : o.KeepsWf) : (o.takesDivider s tt).KeepsWf := by
  unfold OpSem.takesDivider
  split <;> exact h

/-! ## Results of the S and V slots -/

@[simp] theorem aluX_keepsWf (s : State) (tt : TT) (lat : Nat) (xd : XReg) (v : W64) : (aluX s tt lat xd v).KeepsWf := by simp [aluX]

@[simp] theorem fpX_keepsWf (s : State) (tt : TT) (lat : Nat) (xd : XReg) (v : W32) : (fpX s tt lat xd v).KeepsWf := by simp [fpX]

@[simp] theorem transfer_keepsWf (s : State) (tt : TT) (target : W64) (link : Option XReg) : (transfer s tt target link).KeepsWf := by
  cases link <;> simp [transfer]

@[simp] theorem openLoop_keepsWf (s : State) (tt : TT) (count : W32) (eofs : BitVec 16) (rsz : BitVec 5) (prt : Bool) (epi : BitVec 3) :
    (openLoop s tt count eofs rsz prt epi).KeepsWf := by
  refine OpSem.keepsWf_guarded _ _ fun r h => ?_
  dsimp only
  (repeat' split) <;> simp [h]

@[simp] theorem vecOp_keepsWf (s : State) (tt : TT) (lat : Nat) (vd : VReg) (f : Nat → W32) : (vecOp s tt lat vd f).KeepsWf := by
  unfold vecOp
  dsimp only
  split <;> simp

@[simp] theorem vecNf_keepsWf (s : State) (vu : VUnit) (tt : TT) (lat : Nat) (vd : VReg) (f : Nat → W32 × Bool) :
    (vecNf s vu tt lat vd f).KeepsWf := by
  unfold vecNf
  dsimp only
  split <;> simp

@[simp] theorem vecCodes_keepsWf (s : State) (vu : VUnit) (tt : TT) (lat : Nat) (vd : VReg) (w : Nat) (f : Nat → List (Nat × Enc)) :
    (vecCodes s vu tt lat vd w f).KeepsWf := by
  unfold vecCodes
  dsimp only
  split <;> simp

/-- A pair of predicate results. (The state that it leaves is named, so that the kernel compares it as a term and does not evaluate
which predicates are written.) -/
theorem OpSem.keepsWf_pushPair (pd0 pd1 : PReg) (w : Nat → Option (Bool × Bool)) : (OpSem.pure fun r => r.pushPair pd0 pd1 w).KeepsWf := by
  intro r h
  obtain ⟨t, ht⟩ : ∃ t, r.pushPair pd0 pd1 w = t := ⟨_, rfl⟩
  have effect_eq : (OpSem.pure fun r => r.pushPair pd0 pd1 w).effect r = t := ht
  rw [effect_eq, ← ht, State.pushPair_mem]
  exact h

@[simp] theorem cmpSem_keepsWf (tt : TT) (pd0 pd1 : PReg) (pwt : BitVec 2) (cond : BitVec 4) (xa xb : XReg) (s : State) :
    (cmpSem tt pd0 pd1 pwt cond xa xb s).KeepsWf := OpSem.keepsWf_pushPair _ _ _

@[simp] theorem fcmpSem_keepsWf (tt : TT) (pd0 pd1 : PReg) (pwt : BitVec 2) (cond : BitVec 4) (xa xb : XReg) (s : State) :
    (fcmpSem tt pd0 pd1 pwt cond xa xb s).KeepsWf := OpSem.keepsWf_pushPair _ _ _

@[simp] theorem vCmpSem_keepsWf (vu : VUnit) (tt : TT) (pd0 pd1 : PReg) (pwt : BitVec 2) (cond : BitVec 4) (va vb : VReg) (s : State) :
    (vCmpSem vu tt pd0 pd1 pwt cond va vb s).KeepsWf := OpSem.keepsWf_pushPair _ _ _

@[simp] theorem vFcmpSem_keepsWf (vu : VUnit) (tt : TT) (pd0 pd1 : PReg) (pwt : BitVec 2) (cond : BitVec 4) (va vb : VReg) (s : State) :
    (vFcmpSem vu tt pd0 pd1 pwt cond va vb s).KeepsWf := OpSem.keepsWf_pushPair _ _ _

@[simp] theorem lbrkSem_keepsWf (tt : TT) (s : State) : (lbrkSem tt s).KeepsWf := by
  unfold lbrkSem
  split <;> simp

@[simp] theorem lidxSem_keepsWf (tt : TT) (xd : XReg) (level : BitVec 3) (s : State) : (lidxSem tt xd level s).KeepsWf := by
  unfold lidxSem
  split <;> simp

@[simp] theorem vlaneSem_keepsWf (vu : VUnit) (tt : TT) (vd va : VReg) (l : BitVec 5) (s : State) : (vlaneSem vu tt vd va l s).KeepsWf := by
  unfold vlaneSem
  dsimp only
  split <;> simp

@[simp] theorem vredSem_keepsWf (vu : VUnit) (tt : TT) (vd va : VReg) (red : BitVec 2) (s : State) :
    (vredSem vu tt vd va red s).KeepsWf := by
  unfold vredSem
  dsimp only
  split <;> simp [vecFp]

@[simp] theorem vPlutSem_keepsWf (vu : VUnit) (tt : TT) (pd pa pb pc : PReg) (table : BitVec 8) (s : State) :
    (vPlutSem vu tt pd pa pb pc table s).KeepsWf := by
  unfold vPlutSem
  dsimp only
  split <;> simp

@[simp] theorem pmovToPredicateSem_keepsWf (vu : VUnit) (tt : TT) (pd : PReg) (va : VReg) (s : State) :
    (pmovToPredicateSem vu tt pd va s).KeepsWf := by
  unfold pmovToPredicateSem
  dsimp only
  split <;> simp

/-! ## Accesses to memory -/

@[simp] theorem loadSem_keepsWf (s : State) (l : LoadSpec) (post : State → State) (hp : ∀ r, (post r).mem = r.mem) :
    (loadSem s l post).KeepsWf := by
  intro r h
  simp only [loadSem, hp]
  split
  · exact h
  · exact State.startLoad_wf l h

@[simp] theorem prefSem_keepsWf (tt : TT) (lines : BitVec 4) (lab : AReg) (am : Bool) (ofs : BitVec 15) (rd : BitVec 2) (s : State) :
    (prefSem tt lines lab am ofs rd s).KeepsWf := by
  refine OpSem.keepsWf_guarded _ _ fun r h => ?_
  simp only [OpSem.pure, State.laPost_mem]
  split
  · exact h
  · exact State.touchLines_wf _ _ _ h

@[simp] theorem storeSem_keepsWf (s : State) (st : StoreSpec) (post : State → State) (hp : ∀ r, (post r).mem = r.mem) :
    (storeSem s st post).KeepsWf := by
  intro r h
  simp only [storeSem, hp]
  split
  · exact h
  · simpa using h

@[simp] theorem quantSem_keepsWf (s : State) (tt : TT) (q : Quant) (v : Vec) (more : List Piece) (whole : List IssueFault)
    (post : State → State) (hp : ∀ r, (post r).mem = r.mem) : (quantSem s tt q v more whole post).KeepsWf := by
  unfold quantSem
  dsimp only
  split <;> simp [hp]

@[simp] theorem atomicSem_keepsWf (s : State) (tt : TT) (opcode : Nat) (qvs qvd : BitVec 6) (qab : AReg) (ofs : BitVec 13)
    (big nr unsig : Bool) : (atomicSem s tt opcode qvs qvd qab ofs big nr unsig).KeepsWf := by
  simp [atomicSem]

@[simp] theorem contribSem_keepsWf (tt : TT) (qvs : BitVec 6) (qab qak : AReg) (ofs : BitVec 17) (h : Bool) (s : State) :
    (contribSem tt qvs qab qak ofs h s).KeepsWf := by
  refine OpSem.keepsWf_guarded _ _ fun r hr => ?_
  dsimp only
  split <;> simp [hr]

/-! ## Commands, nodes, demands -/

@[simp] theorem copySemOf_keepsWf (form : Nat) (tt : TT) (c0 c1 : CopyDesc) (s : State) : (copySemOf form tt c0 c1 s).KeepsWf := by
  simp [copySemOf]

@[simp] theorem copyCmdSem_keepsWf (s : State) (tt : TT) (opcode : Nat) (k : BitVec 4) (rd : Nat) (ha tr : Bool) :
    (copyCmdSem s tt opcode k rd ha tr).KeepsWf := by
  simp [copyCmdSem]

@[simp] theorem appendSem_keepsWf (s : State) (tt : TT) (m : MOp) : (appendSem s tt m).KeepsWf := by simp [appendSem]

@[simp] theorem tdropSem_keepsWf (tt : TT) (nd : NodeId) (s : State) : (tdropSem tt nd s).KeepsWf := by
  refine OpSem.keepsWf_guarded _ _ fun r hr => ?_
  dsimp only
  split <;> simp [hr]

/-! ## Synchronization and the handler -/

@[simp] theorem flushRange_keepsWf (s : State) (tt : TT) (xa xb : XReg) (kind : Nat → Nat → SyncKind) :
    (flushRange s tt xa xb kind).KeepsWf := by
  simp [flushRange]

@[simp] theorem flushWhole_keepsWf (s : State) (tt : TT) (kind : SyncKind) : (flushWhole s tt kind).KeepsWf := by simp [flushWhole]

/-- An operation on a group object keeps the canonical form where its effect on the named object leaves memory alone. -/
theorem OpSem.keepsWf_withGroup {fs : List IssueFault} {holds aq : Nat} {id : W64} {opcode : Nat} {g : State → State}
    {f : State → Nat → GroupObj → State} (hg : ∀ r, (g r).mem = r.mem) (hf : ∀ s i o, (f s i o).mem = s.mem) :
    (OpSem.mk fs holds aq fun r => (g r).withGroup id opcode f).KeepsWf := fun r h => by
  simpa only [State.withGroup_mem id opcode hf, hg] using h

@[simp] theorem joinSem_keepsWf (tt : TT) (xg : XReg) (s : State) : (joinSem tt xg s).KeepsWf :=
  OpSem.keepsWf_guarded _ _ (OpSem.keepsWf_withGroup (g := id) (fun _ => rfl) fun s i o => by (repeat' split) <;> simp)

@[simp] theorem leaveSem_keepsWf (tt : TT) (xg : XReg) (scope : BitVec 3) (s : State) : (leaveSem tt xg scope s).KeepsWf :=
  OpSem.keepsWf_guarded _ _ (OpSem.keepsWf_withGroup (g := id) (fun _ => rfl) fun s i o => by split <;> simp)

@[simp] theorem gfreeSem_keepsWf (tt : TT) (xg : XReg) (s : State) : (gfreeSem tt xg s).KeepsWf :=
  OpSem.keepsWf_guarded _ _ (OpSem.keepsWf_withGroup (g := id) (fun _ => rfl) fun s i o => by split <;> simp)

@[simp] theorem barSem_keepsWf (tt : TT) (xg : XReg) (scope : BitVec 3) (s : State) : (barSem tt xg scope s).KeepsWf := by
  refine OpSem.keepsWf_guarded _ _ fun r h => ?_
  dsimp only
  rw [State.withGroup_mem _ _ fun s i o => by split <;> simp]
  simpa using h

@[simp] theorem arriveSem_keepsWf (tt : TT) (xg : XReg) (scope : BitVec 3) (s : State) : (arriveSem tt xg scope s).KeepsWf :=
  OpSem.keepsWf_guarded _ _ (OpSem.keepsWf_withGroup (g := id) (fun _ => rfl) fun s i o => by split <;> simp)

@[simp] theorem gnewSem_keepsWf (tt : TT) (xg : XReg) (s : State) : (gnewSem tt xg s).KeepsWf := by
  refine OpSem.keepsWf_guarded _ _ fun r h => ?_
  simp only [OpSem.pure]
  split <;> simp [h]

@[simp] theorem armctxSem_keepsWf (tt : TT) (xd : XReg) (s : State) : (armctxSem tt xd s).KeepsWf := by
  refine OpSem.keepsWf_guarded _ _ fun r h => ?_
  simp only [OpSem.pure]
  split <;> simp [h]

@[simp] theorem uarmSem_keepsWf (tt : TT) (xa xb : XReg) (s : State) : (uarmSem tt xa xb s).KeepsWf := by
  refine OpSem.keepsWf_guarded _ _ fun r h => ?_
  dsimp only
  split <;> simp [h]

@[simp] theorem snapldSem_keepsWf (tt : TT) (xa : XReg) (s : State) : (snapldSem tt xa s).KeepsWf := by
  refine OpSem.keepsWf_inHandler _ _ (OpSem.keepsWf_guarded _ _ fun r h => ?_)
  simp [h]

/-! ## The forms -/

theorem scalarForm_keepsWf {i : Instr} {f : Form} (h : scalarForm i = some f) (s : State) : (f.sem s).KeepsWf := by
  unfold scalarForm at h
  split at h <;> simp only [Option.some.injEq, reduceCtorEq] at h <;> subst h
  all_goals simp [addSem, subSem, mulSem, mulhSem, mulhuSem, divSem, divuSem, remSem, remuSem, andSem, orSem, xorSem, andnSem,
    shlSem, shrSem, sarSem, rolSem, minSem, maxSem, minuSem, maxuSem, clzSem, ctzSem, popcSem, moviSem, movhSem, sextSem,
    zextSem, faddSem, fsubSem, fmulSem, ffmaSem, fdivSem, fsqrtSem, fminSem, fmaxSem, fcvtSem, brSem, brxSem, callSem,
    callxSem, retSem, loopSem, loopxSem, getcSem, putcSem, fmtsetSem, modeSem, tendSem, trapSem, hretSem, snapstSem,
    snaprelSem, plutSem]

theorem vectorForm_keepsWf {i : Instr} {f : Form} (h : vectorForm i = some f) (s : State) : (f.sem s).KeepsWf := by
  unfold vectorForm at h
  split at h <;> simp only [Option.some.injEq, reduceCtorEq] at h <;> subst h
  all_goals simp [vAddSem, vSubSem, vMulSem, vMulhSem, vMulhuSem, vAndSem, vOrSem, vXorSem, vAndnSem, vShlSem, vShrSem,
    vSarSem, vMinSem, vMaxSem, vMinuSem, vMaxuSem, vClzSem, vPopcSem, vAbsSem, vFaddSem, vFsubSem, vFmulSem, vFfmaSem,
    vFminSem, vFmaxSem, vFabsSem, vFnegSem, vfclassSem, vnfinSem, vfdivSem, vfsqrtSem, vfrsqSem, vfrcpSem, vbcastSem,
    vpermSem, vslideSem, vpackSem, vunpkSem, vcvtSem, vdot4Sem, vamaxSem, vexpoSem, vsrndSem, vdithSem, vqencSem, vqdecSem,
    pmovToVectorSem, vecInt2, vecInt1, vecFp]

theorem groveForm_keepsWf {i : Instr} {f : Form} (h : groveForm i = some f) (s : State) : (f.sem s).KeepsWf := by
  unfold groveForm at h
  split at h <;> simp only [Option.some.injEq, reduceCtorEq] at h <;> subst h
  all_goals simp [tdefSem, tmulSem, tmulbSem, taddSem, tscalSem, trotSem, tviewSem, tcvtSem, tcbSem, tforceSem, tstoreSem,
    ttrsmSem, tluSem, tcholSem, tqrSem, tapplySem, tresSem]

theorem loadForm_keepsWf {i : Instr} {f : Form} (h : loadForm i = some f) (s : State) : (f.sem s).KeepsWf := by
  unfold loadForm at h
  split at h <;> simp only [Option.some.injEq, reduceCtorEq] at h <;> subst h
  all_goals simp [ldSem, ldvSem, ldsSem, ldgSem, ldcSem, ldcvSem, laaddSem, lamovSem]

theorem storeForm_keepsWf {i : Instr} {f : Form} (h : storeForm i = some f) (s : State) : (f.sem s).KeepsWf := by
  unfold storeForm at h
  split at h <;> simp only [Option.some.injEq, reduceCtorEq] at h <;> subst h
  all_goals simp [stSem, stvSem, stsSem, scatSem, qstSem, qstbSem, aaddSem, afaddSem, aminSem, amaxSem, aorSem, aandSem,
    axchgSem, acasSem, qaaddSem]

theorem exchangeForm_keepsWf {i : Instr} {f : Form} (h : exchangeForm i = some f) (s : State) : (f.sem s).KeepsWf := by
  unfold exchangeForm at h
  split at h <;> simp only [Option.some.injEq, reduceCtorEq] at h <;> subst h
  all_goals simp [copySem, copybSem, copylSem, copypSem]

theorem copyForm_keepsWf {i : Instr} {f : Form} (h : copyForm i = some f) (s : State) : (f.sem s).KeepsWf := by
  unfold copyForm at h
  split at h <;> simp only [Option.some.injEq, reduceCtorEq] at h <;> subst h
  all_goals simp [cpySem, cpy2Sem, cpytSem, crdtSem, cgatSem, csctSem, cfillSem, csendSem, cpullSem, credSem, banksetSem]

theorem syncForm_keepsWf {i : Instr} {f : Form} (h : syncForm i = some f) (s : State) : (f.sem s).KeepsWf := by
  unfold syncForm at h
  split at h <;> simp only [Option.some.injEq, reduceCtorEq] at h <;> subst h
  all_goals simp [waddSem, tlincSem, tlincCSem, fenceAcqSem, fenceRelSem, drainSem, flushSem, flushAllSem, invalSem,
    invalAllSem, signalSem, submitSem]

end Sys2Proof.Machine
end

section
/-! Every event, and so every step, keeps memory in its canonical form (log 4). -/

namespace Sys2Proof.Machine

/-! ## The issue of a bundle -/

/-- A form is one of its slot's table. -/
theorem formOf_cases {i : Instr} {f : Form} (h : formOf i = some f) :
    scalarForm i = some f ∨ vectorForm i = some f ∨ groveForm i = some f ∨ loadForm i = some f ∨ storeForm i = some f
      ∨ exchangeForm i = some f ∨ copyForm i = some f ∨ syncForm i = some f := by
  simp only [formOf, Option.orElse_eq_or, Option.or_eq_some_iff] at h
  tauto

/-- The effect of every form keeps the canonical form. -/
theorem formOf_keepsWf {i : Instr} {f : Form} (h : formOf i = some f) (s : State) : (f.sem s).KeepsWf := by
  rcases formOf_cases h with h | h | h | h | h | h | h | h
  · exact scalarForm_keepsWf h s
  · exact vectorForm_keepsWf h s
  · exact groveForm_keepsWf h s
  · exact loadForm_keepsWf h s
  · exact storeForm_keepsWf h s
  · exact exchangeForm_keepsWf h s
  · exact copyForm_keepsWf h s
  · exact syncForm_keepsWf h s

/-- The slots of a bundle, one after another. -/
theorem State.performSlots_wf (v : State) {r : State} (b : Bundle) (h : Memory.wf r.mem = true) :
    Memory.wf (v.performSlots r b).mem = true := by
  unfold State.performSlots
  refine foldl_wf _ (fun r n hr => ?_) _ _ h
  refine List.foldlRecOn (motive := fun r : State => Memory.wf r.mem = true) _ _ hr fun r hr f hf => ?_
  obtain ⟨i, -, hi⟩ := List.mem_filterMap.1 (List.mem_of_mem_filter hf)
  exact formOf_keepsWf hi v r hr

theorem State.issueBundle_wf {s : State} (k c : Nat) (b : Bundle) (h : Memory.wf s.mem = true) :
    Memory.wf (s.issueBundle k c b).mem = true := by
  unfold State.issueBundle
  extract_lets v
  have hv : Memory.wf v.mem = true := State.acquireWaits_wf _ (by simpa using h)
  rw [State.closeBundle_mem]
  refine State.performSlots_wf _ _ ?_
  split
  · rwa [State.applyIngress_mem]
  · exact hv

/-! ## The events -/

/-- An outcome whose next state, where there is one, has memory in its canonical form. -/
def OutcomeWf : Host.Outcome State Fault Refusal → Prop
  | .next t => Memory.wf t.mem = true
  | .fault _ => True
  | .refused _ => True

@[simp] theorem outcomeWf_next (t : State) : OutcomeWf (.next t) ↔ Memory.wf t.mem = true := Iff.rfl
@[simp] theorem outcomeWf_notDue : OutcomeWf notDue := trivial

theorem OpSem.run_wf {o : OpSem} {s : State} (slot : Nat) (bad : List Nat) (ho : o.KeepsWf) (h : Memory.wf s.mem = true) :
    OutcomeWf (o.run slot bad s) := by
  unfold OpSem.run
  dsimp only
  split
  · exact h
  · split
    · simpa using h
    · split
      · exact ho s h
      · simpa using h

theorem execBundleIssue_wf {s : State} (core ctx : Nat) (h : Memory.wf s.mem = true) : OutcomeWf (execBundleIssue core ctx s) := by
  unfold execBundleIssue
  split
  · simp
  · split
    · simp
    · simp
    · simp [h]
    · extract_lets used s1 s2
      have hs2 : Memory.wf s2.mem = true := by
        unfold s2
        split <;> simp [s1, h]
      simpa using hs2
    · exact State.issueBundle_wf _ _ _ h

theorem execScheduleOverrun_wf {s : State} (core ctx : Nat) (h : Memory.wf s.mem = true) : OutcomeWf (execScheduleOverrun core ctx s) := by
  unfold execScheduleOverrun
  (repeat' split) <;> simp [h]

theorem execResultLands_wf {s : State} (core ctx : Nat) (h : Memory.wf s.mem = true) : OutcomeWf (execResultLands core ctx s) := by
  unfold execResultLands
  (repeat' split) <;> simp [h]

theorem State.enterTrap_wf {s t : State} {k c : Nat} (e : s.enterTrap k c = some t) (h : Memory.wf s.mem = true) :
    Memory.wf t.mem = true := by
  unfold State.enterTrap at e
  dsimp only at e
  split at e
  · cases e
  · cases e
    simpa using h

theorem execTrapEntry_wf {s : State} (core ctx : Nat) (h : Memory.wf s.mem = true) : OutcomeWf (execTrapEntry core ctx s) := by
  unfold execTrapEntry
  split
  · simp
  · split
    · split
      · next e => simpa using State.enterTrap_wf e h
      · simp
    · simp

theorem execSnapshotBufferGained_wf {s : State} (core ctx : Nat) (h : Memory.wf s.mem = true) :
    OutcomeWf (execSnapshotBufferGained core ctx s) := by
  unfold execSnapshotBufferGained
  (repeat' split) <;> simp [h]

theorem execDemandStart_wf {s : State} (core : Nat) (h : Memory.wf s.mem = true) : OutcomeWf (execDemandStart core s) := by
  unfold execDemandStart
  (repeat' split) <;> simp [h]

theorem execDemandComplete_wf {s : State} (core : Nat) (h : Memory.wf s.mem = true) : OutcomeWf (execDemandComplete core s) := by
  unfold execDemandComplete
  (repeat' split) <;> simp [h]

theorem execDemandSuspend_wf {s : State} (core : Nat) (h : Memory.wf s.mem = true) : OutcomeWf (execDemandSuspend core s) := by
  unfold execDemandSuspend
  (repeat' split) <;> simp [h]

theorem execSolverUnitRequest_wf {s : State} (core : Nat) (h : Memory.wf s.mem = true) : OutcomeWf (execSolverUnitRequest core s) := by
  unfold execSolverUnitRequest
  (repeat' split) <;> simp [h]

theorem execLoadValueLands_wf {s : State} (p id : Nat) (h : Memory.wf s.mem = true) : OutcomeWf (execLoadValueLands p id s) := by
  unfold execLoadValueLands
  (repeat' split) <;> simp [h]

theorem execLdcLands_wf {s : State} (p id : Nat) (h : Memory.wf s.mem = true) : OutcomeWf (execLdcLands p id s) := by
  unfold execLdcLands
  (repeat' split) <;> simp [h]

theorem execStorePerforms_wf {s : State} (p id : Nat) (h : Memory.wf s.mem = true) : OutcomeWf (execStorePerforms p id s) := by
  unfold execStorePerforms
  (repeat' split) <;> simp [h]

theorem execAtomicPerforms_wf {s : State} (p id : Nat) (h : Memory.wf s.mem = true) : OutcomeWf (execAtomicPerforms p id s) := by
  unfold execAtomicPerforms
  (repeat' split) <;> simp [h]

theorem execFifoPopServed_wf {s : State} (p id : Nat) (h : Memory.wf s.mem = true) : OutcomeWf (execFifoPopServed p id s) := by
  unfold execFifoPopServed
  (repeat' split) <;> simp [h]

theorem execFifoPushEnters_wf {s : State} (p id : Nat) (h : Memory.wf s.mem = true) : OutcomeWf (execFifoPushEnters p id s) := by
  unfold execFifoPushEnters
  (repeat' split) <;> simp [h]

theorem execCopyStart_wf {s : State} (core : Nat) (h : Memory.wf s.mem = true) : OutcomeWf (execCopyStart core s) := by
  unfold execCopyStart
  (repeat' split) <;> simp [h]

theorem execCopyComplete_wf {s : State} (p id : Nat) (h : Memory.wf s.mem = true) : OutcomeWf (execCopyComplete p id s) := by
  unfold execCopyComplete
  (repeat' split) <;> simp [h]

theorem execBanksetComplete_wf {s : State} (p id : Nat) (h : Memory.wf s.mem = true) : OutcomeWf (execBanksetComplete p id s) := by
  unfold execBanksetComplete
  (repeat' split) <;> simp [h]

theorem execTsIncrement_wf {s : State} (p id : Nat) (h : Memory.wf s.mem = true) : OutcomeWf (execTsIncrement p id s) := by
  unfold execTsIncrement
  (repeat' split) <;> simp [h]

theorem execSyncComplete_wf {s : State} (core ctx : Nat) (h : Memory.wf s.mem = true) : OutcomeWf (execSyncComplete core ctx s) := by
  unfold execSyncComplete
  dsimp only
  (repeat' split) <;> simp [h]

theorem execArrivalCounts_wf {s : State} (p id : Nat) (h : Memory.wf s.mem = true) : OutcomeWf (execArrivalCounts p id s) := by
  unfold execArrivalCounts
  (repeat' split) <;> simp [h]

theorem execTgAdvance_wf {s : State} (p id : Nat) (h : Memory.wf s.mem = true) : OutcomeWf (execTgAdvance p id s) := by
  unfold execTgAdvance
  (repeat' split) <;> simp [h]

theorem execTaskSignalled_wf {s : State} (p id : Nat) (h : Memory.wf s.mem = true) : OutcomeWf (execTaskSignalled p id s) := by
  unfold execTaskSignalled
  (repeat' split) <;> simp [h]

theorem execSubmitDelivery_wf {s : State} (p id : Nat) (h : Memory.wf s.mem = true) : OutcomeWf (execSubmitDelivery p id s) := by
  unfold execSubmitDelivery
  (repeat' split) <;> simp [h]

theorem execArmArrival_wf {s : State} (p id : Nat) (h : Memory.wf s.mem = true) : OutcomeWf (execArmArrival p id s) := by
  unfold execArmArrival
  (repeat' split) <;> simp [h]

theorem execContribAccepted_wf {s : State} (p id : Nat) (h : Memory.wf s.mem = true) : OutcomeWf (execContribAccepted p id s) := by
  unfold execContribAccepted
  (repeat' split) <;> simp [h]

theorem execUpdateRuleApply_wf {s : State} (p id : Nat) (h : Memory.wf s.mem = true) : OutcomeWf (execUpdateRuleApply p id s) := by
  unfold execUpdateRuleApply
  (repeat' split) <;> simp [h]

theorem execUpdateComplete_wf {s : State} (p id : Nat) (h : Memory.wf s.mem = true) : OutcomeWf (execUpdateComplete p id s) := by
  unfold execUpdateComplete
  (repeat' split) <;> simp [h]

theorem execArrival_wf {s : State} (p id : Nat) (h : Memory.wf s.mem = true) : OutcomeWf (execArrival p id s) := by
  unfold execArrival
  (repeat' split) <;> simp [h]

theorem execArrivalHandlerStart_wf {s : State} (core : Nat) (h : Memory.wf s.mem = true) : OutcomeWf (execArrivalHandlerStart core s) := by
  unfold execArrivalHandlerStart
  (repeat' split) <;> simp [h]

theorem execContextFree_wf {s : State} (core ctx : Nat) (h : Memory.wf s.mem = true) : OutcomeWf (execContextFree core ctx s) := by
  unfold execContextFree
  split <;> simp [h]

theorem execForcedPreemption_wf {s : State} (core ctx : Nat) (h : Memory.wf s.mem = true) :
    OutcomeWf (execForcedPreemption core ctx s) := by
  unfold execForcedPreemption
  (repeat' split) <;> simp [h]

theorem execContextSave_wf {s : State} (core ctx : Nat) (h : Memory.wf s.mem = true) : OutcomeWf (execContextSave core ctx s) := by
  unfold execContextSave
  split <;> simp [h]

theorem State.restoreTask_wf {s t : State} {p : Nat} {v : Saved} (e : s.restoreTask p v = some t) (h : Memory.wf s.mem = true) :
    Memory.wf t.mem = true := by
  unfold State.restoreTask at e
  (repeat' split at e) <;> cases e <;> simpa using h

theorem execContextRestore_wf {s : State} (p id : Nat) (h : Memory.wf s.mem = true) : OutcomeWf (execContextRestore p id s) := by
  unfold execContextRestore
  split
  · simp
  · split
    · next e => exact State.restoreTask_wf e h
    · simp

theorem execSlotRead_wf {s : State} (q : Nat) (h : Memory.wf s.mem = true) : OutcomeWf (execSlotRead q s) := by
  unfold execSlotRead
  (repeat' split) <;> simp [h]

theorem execQueueStale_wf {s : State} (q : Nat) (h : Memory.wf s.mem = true) : OutcomeWf (execQueueStale q s) := by
  unfold execQueueStale
  split <;> simp [h]

theorem execPacketAccept_wf {s : State} (q : Nat) (h : Memory.wf s.mem = true) : OutcomeWf (execPacketAccept q s) := by
  unfold execPacketAccept
  dsimp only
  split <;> simp [h]

theorem execTaskBind_wf {s : State} (p cluster : Nat) (h : Memory.wf s.mem = true) : OutcomeWf (execTaskBind p cluster s) := by
  unfold execTaskBind
  (repeat' split) <;> simp [h]

theorem execPriorityAging_wf {s : State} (p id : Nat) (h : Memory.wf s.mem = true) : OutcomeWf (execPriorityAging p id s) := by
  unfold execPriorityAging
  (repeat' split) <;> simp [h]

theorem execDetBind_wf {s : State} (p id : Nat) (h : Memory.wf s.mem = true) : OutcomeWf (execDetBind p id s) := by
  unfold execDetBind
  dsimp only
  (repeat' split) <;> simp [h]

theorem execLaunchComplete_wf {s : State} (p id : Nat) (h : Memory.wf s.mem = true) : OutcomeWf (execLaunchComplete p id s) := by
  unfold execLaunchComplete
  (repeat' split) <;> simp [h]

theorem execWatchdogExpiry_wf {s : State} (q : Nat) (h : Memory.wf s.mem = true) : OutcomeWf (execWatchdogExpiry q s) := by
  unfold execWatchdogExpiry
  split <;> simp [h]

theorem execDrainAndReset_wf {s : State} (p : Nat) (h : Memory.wf s.mem = true) : OutcomeWf (execDrainAndReset p s) := by
  unfold execDrainAndReset
  (repeat' split) <;> simp [h]

theorem execDrainEnd_wf {s : State} (p : Nat) (h : Memory.wf s.mem = true) : OutcomeWf (execDrainEnd p s) := by
  unfold execDrainEnd
  dsimp only
  (repeat' split) <;> simp [h]

theorem execPartitionStart_wf {s : State} (p : Nat) (h : Memory.wf s.mem = true) : OutcomeWf (execPartitionStart p s) := by
  unfold execPartitionStart
  dsimp only
  split <;> simp [h]

theorem execIngressPerformed_wf {s : State} (p id : Nat) (h : Memory.wf s.mem = true) : OutcomeWf (execIngressPerformed p id s) := by
  unfold execIngressPerformed
  (repeat' split) <;> simp [h]

theorem execReductionResult_wf {s : State} (p id : Nat) (h : Memory.wf s.mem = true) : OutcomeWf (execReductionResult p id s) := by
  unfold execReductionResult
  (repeat' split) <;> simp [h]

theorem execFlushPartComplete_wf {s : State} (p id : Nat) (h : Memory.wf s.mem = true) : OutcomeWf (execFlushPartComplete p id s) := by
  unfold execFlushPartComplete
  (repeat' split) <;> simp [h]

theorem execBankNewModeEntered_wf {s : State} (p id : Nat) (h : Memory.wf s.mem = true) : OutcomeWf (execBankNewModeEntered p id s) := by
  unfold execBankNewModeEntered
  (repeat' split) <;> simp [h]

theorem execDestroyingDone_wf {s : State} (p : Nat) (h : Memory.wf s.mem = true) : OutcomeWf (execDestroyingDone p s) := by
  have cleared : ∀ (l : List Nat) (t : State), Memory.wf t.mem = true → Memory.wf (l.foldl (fun s c => s.clearCluster c) t).mem = true :=
    fun l t ht => foldl_wf _ (fun _ _ hs => State.clearCluster_wf _ _ hs) l t ht
  unfold execDestroyingDone
  dsimp only
  (repeat' split) <;> simp [cleared, h]

theorem execRegisterWrite_wf {s : State} (reg : By HostReg) (value : W64) (h : Memory.wf s.mem = true) :
    OutcomeWf (execRegisterWrite reg value s) := by
  unfold execRegisterWrite
  split <;> simp [h]

theorem execDoorbell_wf {s : State} (q : By Nat) (tail : W32) (h : Memory.wf s.mem = true) : OutcomeWf (execDoorbell q tail s) := by
  simp [execDoorbell, h]

theorem execIngressArrival_wf {s : State} (write : HostWrite) (h : Memory.wf s.mem = true) : OutcomeWf (execIngressArrival write s) := by
  unfold execIngressArrival
  (repeat' split) <;> simp [h]

theorem execHostRead_wf {s : State} (read : HostRead) (h : Memory.wf s.mem = true) : OutcomeWf (execHostRead read s) := by
  unfold execHostRead
  (repeat' split) <;> simp [h]

theorem execPeventClear_wf {s : State} (p : By Nat) (bits : W64) (h : Memory.wf s.mem = true) : OutcomeWf (execPeventClear p bits s) := by
  simp [execPeventClear, h]

theorem execPreemptRequest_wf {s : State} (core ctx : Nat) (area : W64) (h : Memory.wf s.mem = true) :
    OutcomeWf (execPreemptRequest core ctx area s) := by
  unfold execPreemptRequest
  (repeat' split) <;> simp [h]

theorem execQueueEnable_wf {s : State} (q : By Nat) (ctl : W64) (h : Memory.wf s.mem = true) : OutcomeWf (execQueueEnable q ctl s) := by
  simp [execQueueEnable, h]

theorem execRangeTableLoad_wf {s : State} (p : Nat) (entries : List RangeWords) (h : Memory.wf s.mem = true) :
    OutcomeWf (execRangeTableLoad p entries s) := by
  unfold execRangeTableLoad
  (repeat' split) <;> simp [h]

theorem execQueueDisable_wf {s : State} (q : By Nat) (ctl : W64) (h : Memory.wf s.mem = true) : OutcomeWf (execQueueDisable q ctl s) := by
  simp [execQueueDisable, h]

theorem execCreate_wf {s : State} (p : Nat) (h : Memory.wf s.mem = true) : OutcomeWf (execCreate p s) := by simp [execCreate, h]

theorem execDestroy_wf {s : State} (p : Nat) (h : Memory.wf s.mem = true) : OutcomeWf (execDestroy p s) := by simp [execDestroy, h]

theorem execReset_wf {s : State} (p : Nat) (h : Memory.wf s.mem = true) : OutcomeWf (execReset p s) := by simp [execReset, h]

theorem execHrsel_wf {s : State} (sel : By W64) (h : Memory.wf s.mem = true) : OutcomeWf (execHrsel sel s) := by
  unfold execHrsel
  split <;> simp [h]

theorem execRouteTableLoad_wf {s : State} (p : Nat) (words : List W64) (h : Memory.wf s.mem = true) :
    OutcomeWf (execRouteTableLoad p words s) := by
  unfold execRouteTableLoad
  (repeat' split) <;> simp [h]

theorem execReductionGroupLoad_wf {s : State} (p index : Nat) (words : List W64) (h : Memory.wf s.mem = true) :
    OutcomeWf (execReductionGroupLoad p index words s) := by
  unfold execReductionGroupLoad
  dsimp only
  (repeat' split) <;> simp [h]

theorem execRuleSetLoad_wf {s : State} (p index : Nat) (words : List W32) (h : Memory.wf s.mem = true) :
    OutcomeWf (execRuleSetLoad p index words s) := by
  unfold execRuleSetLoad
  split <;> simp [h]

theorem execFabricHeaderCheck_wf {s : State} (header : FabricHeader) (h : Memory.wf s.mem = true) :
    OutcomeWf (execFabricHeaderCheck header s) := by
  unfold execFabricHeaderCheck
  dsimp only
  (repeat' split) <;> simp [h]

theorem execFragmentArrival_wf {s : State} (fragment : Fragment) (h : Memory.wf s.mem = true) :
    OutcomeWf (execFragmentArrival fragment s) := by
  simp [execFragmentArrival, h]

theorem execUncorrectableError_wf {s : State} (unit : ErrorUnit) (holder : Struck) (h : Memory.wf s.mem = true) :
    OutcomeWf (execUncorrectableError unit holder s) := by
  unfold execUncorrectableError
  extract_lets m m1
  rw [outcomeWf_next, foldl_keeps _ State.mem (fun _ _ => State.deviceFault_mem ..)]
  exact h

theorem execCorrectedError_wf {s : State} (unit : ErrorUnit) (repair : Bool) (h : Memory.wf s.mem = true) :
    OutcomeWf (execCorrectedError unit repair s) := by
  simp [execCorrectedError, h]

theorem execThermalEvent_wf {s : State} (event : Thermal) (h : Memory.wf s.mem = true) : OutcomeWf (execThermalEvent event s) := by
  unfold execThermalEvent
  extract_lets m t
  rw [outcomeWf_next, State.meetLimits_mem t.thermalRelief_mem]
  exact h

theorem execModuleReset_wf {s : State} (h : Memory.wf s.mem = true) : OutcomeWf (execModuleReset s) := by simp [execModuleReset, h]

theorem execFabricCreditsReturned_wf {s : State} (p : Nat) (credits : CreditReturn) (h : Memory.wf s.mem = true) :
    OutcomeWf (execFabricCreditsReturned p credits s) := by
  simp [execFabricCreditsReturned, h]

theorem execSpdmRequest_wf {s : State} (request : SpdmRequest) (h : Memory.wf s.mem = true) : OutcomeWf (execSpdmRequest request s) := by
  unfold execSpdmRequest
  split
  · simp [h]
  · split
    · simp [h]
    · simp [h]
    · extract_lets n ok bit t m
      have ht : t.mem = s.mem := by
        unfold t
        split <;> rfl
      rw [outcomeWf_next]
      exact ht ▸ h

theorem execTdispRequest_wf {s : State} (p : Nat) (run : Bool) (h : Memory.wf s.mem = true) : OutcomeWf (execTdispRequest p run s) := by
  unfold execTdispRequest
  split <;> simp [h]

theorem execLifetimeHour_wf {s : State} (h : Memory.wf s.mem = true) : OutcomeWf (execLifetimeHour s) := by
  unfold execLifetimeHour
  extract_lets t m u
  rw [outcomeWf_next, State.meetLimits_mem rfl]
  exact h

/-! ## Every instruction and every step -/

/-- exec of a slot operation runs the contribution of its form. -/
theorem exec_eq_run {i : Instr} {f : Form} (h : formOf i = some f) (s : State) :
    ∃ slot bad, exec i s = (f.sem s).run slot bad s := by
  rcases formOf_cases h with h | h | h | h | h | h | h | h
  · unfold scalarForm at h; split at h <;> cases h <;> exact ⟨slotS, [], rfl⟩
  · unfold vectorForm at h; split at h <;> cases h <;> exact ⟨_, _, rfl⟩
  · unfold groveForm at h; split at h <;> cases h <;> exact ⟨_, _, rfl⟩
  · unfold loadForm at h; split at h <;> cases h <;> exact ⟨_, _, rfl⟩
  · unfold storeForm at h; split at h <;> cases h <;> exact ⟨_, _, rfl⟩
  · unfold exchangeForm at h; split at h <;> cases h <;> exact ⟨_, _, rfl⟩
  · unfold copyForm at h; split at h <;> cases h <;> exact ⟨_, _, rfl⟩
  · unfold syncForm at h; split at h <;> cases h <;> exact ⟨_, _, rfl⟩

/-- Every event keeps the canonical form: what is no event has a form. -/
theorem exec_event_wf {i : Instr} (hi : formOf i = none) {s : State} (h : Memory.wf s.mem = true) : OutcomeWf (exec i s) := by
  cases i
  case bundleIssue core ctx => exact execBundleIssue_wf _ _ h
  case scheduleOverrun core ctx => exact execScheduleOverrun_wf _ _ h
  case resultLands core ctx => exact execResultLands_wf _ _ h
  case trapEntry core ctx => exact execTrapEntry_wf _ _ h
  case snapshotBufferGained core ctx => exact execSnapshotBufferGained_wf _ _ h
  case demandStart core => exact execDemandStart_wf _ h
  case demandComplete core => exact execDemandComplete_wf _ h
  case demandSuspend core => exact execDemandSuspend_wf _ h
  case solverUnitRequest core => exact execSolverUnitRequest_wf _ h
  case loadValueLands p id => exact execLoadValueLands_wf _ _ h
  case ldcLands p id => exact execLdcLands_wf _ _ h
  case storePerforms p id => exact execStorePerforms_wf _ _ h
  case atomicPerforms p id => exact execAtomicPerforms_wf _ _ h
  case fifoPopServed p id => exact execFifoPopServed_wf _ _ h
  case fifoPushEnters p id => exact execFifoPushEnters_wf _ _ h
  case copyStart core => exact execCopyStart_wf _ h
  case copyComplete p id => exact execCopyComplete_wf _ _ h
  case banksetComplete p id => exact execBanksetComplete_wf _ _ h
  case tsIncrement p id => exact execTsIncrement_wf _ _ h
  case syncComplete core ctx => exact execSyncComplete_wf _ _ h
  case arrivalCounts p id => exact execArrivalCounts_wf _ _ h
  case tgAdvance p id => exact execTgAdvance_wf _ _ h
  case taskSignalled p id => exact execTaskSignalled_wf _ _ h
  case submitDelivery p id => exact execSubmitDelivery_wf _ _ h
  case armArrival p id => exact execArmArrival_wf _ _ h
  case contribAccepted p id => exact execContribAccepted_wf _ _ h
  case updateRuleApply p id => exact execUpdateRuleApply_wf _ _ h
  case updateComplete p id => exact execUpdateComplete_wf _ _ h
  case arrival p id => exact execArrival_wf _ _ h
  case arrivalHandlerStart core => exact execArrivalHandlerStart_wf _ h
  case contextFree core ctx => exact execContextFree_wf _ _ h
  case forcedPreemption core ctx => exact execForcedPreemption_wf _ _ h
  case contextSave core ctx => exact execContextSave_wf _ _ h
  case contextRestore p id => exact execContextRestore_wf _ _ h
  case slotRead q => exact execSlotRead_wf _ h
  case queueStale q => exact execQueueStale_wf _ h
  case packetAccept q => exact execPacketAccept_wf _ h
  case taskBind p cluster => exact execTaskBind_wf _ _ h
  case priorityAging p id => exact execPriorityAging_wf _ _ h
  case detBind p id => exact execDetBind_wf _ _ h
  case launchComplete p id => exact execLaunchComplete_wf _ _ h
  case watchdogExpiry q => exact execWatchdogExpiry_wf _ h
  case drainAndReset p => exact execDrainAndReset_wf _ h
  case drainEnd p => exact execDrainEnd_wf _ h
  case partitionStart p => exact execPartitionStart_wf _ h
  case ingressPerformed p id => exact execIngressPerformed_wf _ _ h
  case reductionResult p id => exact execReductionResult_wf _ _ h
  case flushPartComplete p id => exact execFlushPartComplete_wf _ _ h
  case bankNewModeEntered p id => exact execBankNewModeEntered_wf _ _ h
  case destroyingDone p => exact execDestroyingDone_wf _ h
  case registerWrite reg value => exact execRegisterWrite_wf _ _ h
  case doorbell q tail => exact execDoorbell_wf _ _ h
  case ingressArrival write => exact execIngressArrival_wf _ h
  case hostRead read => exact execHostRead_wf _ h
  case peventClear p bits => exact execPeventClear_wf _ _ h
  case preemptRequest core ctx area => exact execPreemptRequest_wf _ _ _ h
  case queueEnable q ctl => exact execQueueEnable_wf _ _ h
  case rangeTableLoad p entries => exact execRangeTableLoad_wf _ _ h
  case queueDisable q ctl => exact execQueueDisable_wf _ _ h
  case create p => exact execCreate_wf _ h
  case destroy p => exact execDestroy_wf _ h
  case reset p => exact execReset_wf _ h
  case hrsel sel => exact execHrsel_wf _ h
  case routeTableLoad p words => exact execRouteTableLoad_wf _ _ h
  case reductionGroupLoad p index words => exact execReductionGroupLoad_wf _ _ _ h
  case ruleSetLoad p index words => exact execRuleSetLoad_wf _ _ _ h
  case fabricHeaderCheck header => exact execFabricHeaderCheck_wf _ h
  case fragmentArrival fragment => exact execFragmentArrival_wf _ h
  case uncorrectableError unit holder => exact execUncorrectableError_wf _ _ h
  case correctedError unit repair => exact execCorrectedError_wf _ _ h
  case thermalEvent event => exact execThermalEvent_wf _ h
  case moduleReset => exact execModuleReset_wf h
  case fabricCreditsReturned p credits => exact execFabricCreditsReturned_wf _ _ h
  case spdmRequest request => exact execSpdmRequest_wf _ h
  case tdispRequest p run => exact execTdispRequest_wf _ _ h
  case lifetimeHour => exact execLifetimeHour_wf h
  all_goals cases hi

/-- Every instruction keeps memory in its canonical form. -/
theorem exec_wf (i : Instr) {s : State} (h : Memory.wf s.mem = true) : OutcomeWf (exec i s) := by
  cases hi : formOf i with
  | none => exact exec_event_wf hi h
  | some f =>
    obtain ⟨slot, bad, e⟩ := exec_eq_run hi s
    rw [e]
    exact OpSem.run_wf slot bad (formOf_keepsWf hi s) h

/-- A step keeps memory in its canonical form, whether it makes an event or lets time pass. -/
theorem step_wf {s : State} (h : Memory.wf s.mem = true) : OutcomeWf (step s) := by
  unfold step State.advanceMachine
  split
  · exact exec_wf _ (by rwa [State.withoutInput_mem])
  · exact State.hostWrites_wf _ h

/-- Settles O58: every event and the passage of time keep memory in its canonical form. -/
theorem stepKeepsInvariant : Obligations.StepKeepsInvariant := by
  intro s t hs e
  have h := step_wf hs
  rw [e] at h
  exact h

end Sys2Proof.Machine
end

section
/-! What a plain store writes and where, and the operation that it puts in flight (R196, R198, R204, R209). -/

namespace Sys2Proof.Machine

/-! ## The partition of the issuing context under a change of its own partition -/

/-- The first key of a map whose value satisfies P; partOfCluster searches the partitions so. -/
def firstKey {α : Type} (P : α → Bool) (m : AMap α) : Option Nat := (m.find? (fun e => P e.2)).map (·.1)

theorem firstKey_cons {α : Type} (P : α → Bool) (j : Nat) (b : α) (r : AMap α) :
    firstKey P ((j, b) :: r) = if P b then some j else firstKey P r := by
  unfold firstKey
  cases h : P b <;> simp [h]

theorem State.partOfCluster_eq (s : State) (c : Nat) :
    s.partOfCluster c = firstKey (fun q => q.st != .none && q.cfg.mask.getLsbD c) s.parts := rfl

theorem firstKey_ne_none_of_amGet {α : Type} {P : α → Bool} {m : AMap α} {k : Nat} {x : α} (hx : amGet m k = some x)
    (hP : P x = true) : firstKey P m ≠ none := by
  induction m with
  | nil => cases hx
  | cons e r ih =>
    obtain ⟨j, b⟩ := e
    rw [firstKey_cons]
    rw [amGet] at hx
    split at hx
    · cases hx
      simp [hP]
    · split
      · simp
      · exact ih hx

/-- The first key whose value satisfies P stays where the value of that key, and of no other, changes to one that satisfies P as the
old one did. -/
theorem firstKey_amSet {α : Type} {P : α → Bool} {d : α} (hd : P d = false) {k : Nat} {a : α} (m : AMap α)
    (hk : ∀ j, firstKey P m = some j → j = k) (ha : P a = P ((amGet m k).getD d)) :
    firstKey P (amSet m k a) = firstKey P m := by
  induction m with
  | nil =>
    rw [amSet, firstKey_cons, ha]
    simp [amGet, hd]
  | cons e r ih =>
    obtain ⟨j, b⟩ := e
    rw [firstKey_cons] at hk ⊢
    rw [amGet] at ha
    rw [amSet]
    by_cases hj : j = k
    · rw [if_pos hj, Option.getD_some] at ha
      rw [if_pos hj, firstKey_cons, ha, hj]
    · have hb : P b = false := by
        cases hPb : P b with
        | false => rfl
        | true => exact absurd (hk j (by simp [hPb])) hj
      simp only [hb, hj, Bool.false_eq_true, ↓reduceIte] at hk ha ⊢
      split
      · rw [firstKey_cons, firstKey_cons, hb]
        cases hPa : P a with
        | false => rfl
        | true =>
          obtain ⟨x, hx⟩ : ∃ x, amGet r k = some x := by
            cases hx : amGet r k with
            | some x => exact ⟨x, rfl⟩
            | none => rw [hx, Option.getD_none, hd, hPa] at ha; cases ha
          rw [hx, Option.getD_some, hPa] at ha
          obtain ⟨y, hy⟩ := Option.ne_none_iff_exists'.1 (firstKey_ne_none_of_amGet hx ha.symm)
          rw [if_pos rfl, hy, hk y hy]
      · rw [firstKey_cons, hb]
        exact ih hk ha

/-- A change of the issuing context's partition that leaves its state and its clusters leaves the context that partition. -/
theorem State.onPart_myPart {s : State} {f : Partition → Partition} (hst : (f s.myP).st = s.myP.st)
    (hcfg : (f s.myP).cfg = s.myP.cfg) : (s.onPart s.myPart f).myPart = s.myPart := by
  have key : (s.onPart s.myPart f).partOfCluster (clusterOf s.cur.1) = s.partOfCluster (clusterOf s.cur.1) := by
    rw [State.partOfCluster_eq, State.partOfCluster_eq]
    refine firstKey_amSet (d := Partition.absent) rfl _ (fun j hj => ?_) (by rw [← State.myP.eq_1, hst, hcfg]; rfl)
    rw [State.myPart, State.partOf, State.partOfCluster_eq, hj, Option.getD_some]
  exact congrArg (·.getD 16) key

theorem State.onPart_myP {s : State} {f : Partition → Partition} (hst : (f s.myP).st = s.myP.st) (hcfg : (f s.myP).cfg = s.myP.cfg) :
    (s.onPart s.myPart f).myP = f s.myP := by
  rw [State.myP, State.onPart_myPart hst hcfg, State.onPart_part, State.myP]

/-- One that leaves its operations in flight too leaves the context those. -/
theorem State.onPart_ops {s : State} {f : Partition → Partition} (hst : (f s.myP).st = s.myP.st) (hcfg : (f s.myP).cfg = s.myP.cfg)
    (hops : (f s.myP).ops = s.myP.ops) : (s.onPart s.myPart f).myP.ops = s.myP.ops := by
  rw [State.onPart_myP hst hcfg, hops]

/-! ## Operations in flight of the issuing context's partition -/

@[simp] theorem State.addAccess_clusters (s : State) (due d : Nat) (k : OpKind) : (s.addAccess due d k).clusters = s.clusters := by
  unfold State.addAccess; dsimp only; split <;> rfl

theorem State.addOp_myPart (s : State) (due : Option Nat) (core ctx issued : Nat) (kind : OpKind) :
    (s.addOp s.myPart due core ctx issued kind).myPart = s.myPart :=
  State.onPart_myPart (s := s) (f := fun x => { x with ops := x.ops ++ [_] }) rfl rfl

/-- An operation put in flight stands behind those of its partition. -/
theorem State.addOp_ops (s : State) (due : Option Nat) (core ctx issued : Nat) (kind : OpKind) :
    (s.addOp s.myPart due core ctx issued kind).myP.ops
      = s.myP.ops ++ [⟨s.nextId, due, core, ctx, issued, (s.ctx core ctx).st == .handler, kind.takesEntry, kind⟩] :=
  congrArg Partition.ops (State.onPart_myP (s := s) (f := fun x => { x with ops := x.ops ++ [_] }) rfl rfl)

/-- An access puts its operation in flight, and behind it, where its channel delays it, the check of its padded time (R181). -/
theorem State.addAccess_ops (s : State) (due delay : Nat) (kind : OpKind) :
    ∃ (o : Op) (late : List Op), (s.addAccess due delay kind).myP.ops = s.myP.ops ++ o :: late ∧ o.due = some (due + delay)
      ∧ o.core = s.cur.1 ∧ o.ctx = s.cur.2 ∧ o.kind = kind ∧ (delay = 0 → late = []) := by
  unfold State.addAccess
  extract_lets r
  have hops : r.myP.ops = s.myP.ops ++ [_] := s.addOp_ops ..
  split
  next => exact ⟨_, [], hops, rfl, rfl, rfl, rfl, fun _ => rfl⟩
  next h =>
    have hp : r.myPart = s.myPart := s.addOp_myPart ..
    have hlate := r.addOp_ops (some due) s.cur.1 s.cur.2 s.t (.padded s.nextId)
    rw [hp, hops, List.append_assoc, List.singleton_append] at hlate
    exact ⟨_, _, hlate, rfl, rfl, rfl, rfl, fun h0 => absurd h0 h⟩

/-! ## The slots that an access takes (R181) -/

@[simp] theorem State.takeBursts_cur (s : State) (p d : Nat) (l : List Nat) : (s.takeBursts p d l).2.cur = s.cur := by
  unfold State.takeBursts State.pick; dsimp only; split
  · rfl
  · split
    · split <;> rfl
    · rfl

@[simp] theorem State.takeSlots_cur (s : State) (l : List (Nat × Nat)) : (s.takeSlots l).2.cur = s.cur := s.takeBursts_cur ..

theorem State.pick_myPart (s : State) : (s.pick s.myPart).2.myPart = s.myPart := by
  unfold State.pick
  split
  · exact State.onPart_myPart rfl rfl
  · rfl

theorem State.pick_ops (s : State) : (s.pick s.myPart).2.myP.ops = s.myP.ops := by
  unfold State.pick
  split
  · exact State.onPart_ops rfl rfl rfl
  · rfl

/-- The bursts of an access leave the issuing context its partition, and that its operations. -/
theorem State.takeBursts_myPart_ops (s : State) (d : Nat) (l : List Nat) :
    (s.takeBursts s.myPart d l).2.myPart = s.myPart ∧ (s.takeBursts s.myPart d l).2.myP.ops = s.myP.ops := by
  unfold State.takeBursts
  split
  · exact ⟨rfl, rfl⟩
  · extract_lets cy use s1
    have hp : s1.myPart = s.myPart := State.onPart_myPart rfl rfl
    have ho : s1.myP.ops = s.myP.ops := State.onPart_ops rfl rfl rfl
    split
    · have hq : (s1.pick s.myPart).2.myPart = s1.myPart := hp ▸ s1.pick_myPart
      have hr : (s1.pick s.myPart).2.myP.ops = s1.myP.ops := hp ▸ s1.pick_ops
      exact ⟨hq.trans hp, hr.trans ho⟩
    · exact ⟨hp, ho⟩

/-- An access without a line of GDDR of a range with RES 0 takes no burst, and nothing delays it. -/
theorem State.takeSlots_none (s : State) {l : List (Nat × Nat)} (h : ∀ a ∈ l, homeOf a.1 ≠ .gddr ∨ a.2 = 1) :
    s.takeSlots l = (0, s) := by
  have hl : l.filter (fun a => homeOf a.1 == .gddr && a.2 != 1) = [] := by
    refine List.filter_eq_nil_iff.2 fun a ha hb => ?_
    simp only [Bool.and_eq_true, beq_iff_eq, bne_iff_ne] at hb
    exact (h a ha).elim (fun h => h hb.1) hb.2
  simp [State.takeSlots, burstLines, hl, State.takeBursts]

/-! ## Stores -/

/-- A store of bytes without more pieces that pushes no FIFO, in DET: it takes its slots and puts its bytes on their way. -/
theorem State.startStore_det {s : State} (st : StoreSpec) (hd : s.isDet s.myPart = true) (hb : s.pushBank st = none) :
    ∃ far entry, s.startStore st [] 0 =
      (s.takeSlots ((s.piecePas st.pieces).map (fun e => e.2))).2.addAccess
        (s.t + maxOf ((s.piecePas st.pieces).map (fun e => lambdaOf (s.mult s.myPart) (clusterOf s.cur.1) e.2.1 e.2.2)))
        (s.takeSlots ((s.piecePas st.pieces).map (fun e => e.2))).1
        (.store ((s.piecePas st.pieces).flatMap (fun e => pieceBytes e.1 e.2.1)) far entry) := by
  refine ⟨((s.piecePas st.pieces).filter (fun e => isOtherSram (clusterOf s.cur.1) e.2.1)).map remoteOf,
    st.head.bind (fun h => h.2), ?_⟩
  unfold State.startStore
  simp only [State.figure_det hd, hb, State.localOrder, hd, Bool.true_or, ↓reduceIte, State.piecePas, List.filterMap_nil,
    List.nil_append, Nat.add_zero]

/-- The low 64 bits of a vector are its lanes 1 and 0. -/
theorem lanes10_toNat (v : Vec) : (lane v 1 ++ lane v 0).toNat = v.toNat % 2 ^ 64 := by
  have h : lane v 1 ++ lane v 0 = v.extractLsb' 0 64 := by
    refine BitVec.eq_of_getLsbD_eq fun i hi => ?_
    simp only [lane, BitVec.getLsbD_append, BitVec.getLsbD_extractLsb']
    grind
  rw [h, BitVec.extractLsb'_toNat, Nat.shiftRight_zero]

/-- The low n bytes, up to eight, of a number are those of its low 64 bits. -/
theorem bytesOf_mod {n : Nat} (hn : n ≤ 8) (w : Nat) : bytesOf n (w % 2 ^ 64) = bytesOf n w := by
  refine List.map_congr_left fun i hi => BitVec.eq_of_toNat_eq ?_
  have hi : i < n := List.mem_range.1 hi
  have hs : 64 = 8 * i + 8 * (8 - i) := by omega
  rw [BitVec.toNat_ofNat, BitVec.toNat_ofNat, hs, Nat.pow_add, Nat.mod_mul_right_div_self]
  exact Nat.mod_mod_of_dvd _ (Nat.pow_dvd_pow 2 (by omega))

/-- A whole-byte piece by its bytes. -/
theorem Piece.whole_eq (i : Nat) (a : W64) (n w : Nat) :
    Piece.whole i a n w = ⟨i, a, (List.range n).map (fun j => (BitVec.ofNat 8 (w / 2 ^ (8 * j)), 0xFF))⟩ := by
  simp [Piece.whole, bytesOf]

/-- ST writes the low bytes of lanes 1 and 0. -/
theorem stSpec_pieces {s : State} {tt : TT} (h : s.lane0 tt = true) (qvs : BitVec 6) (qab : AReg) (am : Bool) (ofs : BitVec 18)
    (sz : BitVec 2) :
    (stSpec tt qvs qab am ofs sz s).pieces = [Piece.whole 0 (addrOf am (s.qa qab) (ofs.signExtend 64)) (2 ^ sz.toNat)
      (lane (s.qv qvs) 1 ++ lane (s.qv qvs) 0).toNat] := by
  have hn : 2 ^ sz.toNat ≤ 8 := Nat.pow_le_pow_right  (n := 2) (j := 3) (by decide) (by have := sz.isLt; omega)
  rw [lanes10_toNat]
  simp only [stSpec, h, ↓reduceIte, Piece.whole, bytesOf_mod hn]

/-- Settles O26: the pieces are those of the forms; in DET the access takes its slots and puts its bytes in flight. -/
theorem storeEffects : Obligations.StoreEffects := by
  unfold Obligations.StoreEffects
  refine ⟨fun s tt qvs qvi qab qas am ofs ofsC sz => ?_, fun s st hd hb => ?_⟩
  · extract_lets a v bytes lanes
    have hl : ∀ f : Nat → W64, lanePieces v ((s.lanesOn tt).map (fun i => (i, f i))) = lanes f := fun f => by
      simp only [lanePieces, List.map_map, lanes, bytes, State.lanesOn, Function.comp_def, Piece.whole_eq]
    exact ⟨fun h => by rw [stSpec_pieces h, Piece.whole_eq]; rfl, hl _, hl _, hl _⟩
  · extract_lets pas fig d t
    obtain ⟨far, entry, ht⟩ := State.startStore_det st hd hb
    obtain ⟨-, hops⟩ := s.takeBursts_myPart_ops (s.t + figGddr (s.mult s.myPart)) (burstLines (pas.map (fun e => e.2)))
    obtain ⟨o, late, ho, hdue, hcore, hctx, hkind, hlate⟩ :=
      State.addAccess_ops (s.takeSlots (pas.map (fun e => e.2))).2 (s.t + fig) d
        (.store (pas.flatMap (fun e => pieceBytes e.1 e.2.1)) far entry)
    refine ⟨?_, ?_, ?_, o, late, far, entry, ?_, hdue, ?_, ?_, hkind, hlate, fun h => ?_⟩
    · exact (congrArg State.mem ht).trans (by simp)
    · exact (congrArg State.clusters ht).trans (by simp)
    · exact (congrArg State.cores ht).trans (by simp)
    · exact (congrArg (fun r => r.myP.ops) ht).trans (ho.trans (congrArg (· ++ o :: late) hops))
    · simpa using hcore
    · simpa using hctx
    · exact congrArg Prod.fst (s.takeSlots_none (by simpa using fun a b x => h (x, a, b)))

end Sys2Proof.Machine
end

section
/-! What a load reads, and the write that it puts in flight (R5, R196, R198, R199, R201). -/

namespace Sys2Proof.Machine

/-! ## What leaves the issuing context alone -/

@[simp] theorem State.pick_me (s : State) (p : Nat) : (s.pick p).2.me = s.me := by unfold State.pick; split <;> rfl
@[simp] theorem State.figure_me (s : State) (p n : Nat) : (s.figure p n).2.me = s.me := by unfold State.figure; split <;> rfl
@[simp] theorem State.choose_me (s : State) (p : Nat) (gs : List (List PByte)) : (s.choose p gs).2.me = s.me := by
  unfold State.choose; split <;> simp
@[simp] theorem State.loadOverlay_me (s : State) (n : Nat) (accs : List LaneAcc) : (s.loadOverlay n accs).2.me = s.me := by
  simp [State.loadOverlay]
@[simp] theorem State.offer_me (s : State) (w : Option Writer) (c : Option Nat) (bs : List PByte) (p : Nat) :
    (s.offer w c bs p).me = s.me := by
  unfold State.offer; split
  · exact s.pick_me p
  · rfl
@[simp] theorem State.noticePart_me (s : State) (w : Option Writer) (c : Option Nat) (bs : List PByte) (p : Nat) :
    (s.noticePart w c bs p).me = s.me := by
  unfold State.noticePart; split
  · exact s.offer_me w c bs p
  · exact s.offer_me w c bs p
@[simp] theorem State.stand_me (s : State) (bs : List PByte) (w : Option Writer) : (s.stand bs w).me = s.me := by
  have h : (s.notice w none bs).me = s.me := by
    unfold State.notice; split
    · rfl
    · exact foldl_keeps _ State.me (fun s p => s.noticePart_me w none bs p) _ s
  exact h
@[simp] theorem State.backBursts_me (s : State) (c : Nat) (l : List Nat) : (s.backBursts c l).me = s.me := by
  unfold State.backBursts State.useBursts; split
  · rfl
  · split <;> rfl
@[simp] theorem State.swapCache_me (s : State) (c : Nat) (n : Cluster) : (s.swapCache c n).me = s.me := by
  unfold State.swapCache; dsimp only; split <;> rfl
@[simp] theorem State.throughCache_me (s : State) (c : Nat) (r : List Host.Cell × Cluster) : (s.throughCache c r).me = s.me := by
  unfold State.throughCache
  rw [State.swapCache_me]
  exact (State.stand_me ..).trans (State.backBursts_me ..)
@[simp] theorem State.touchLines_me (s : State) (k rd : Nat) (pas : List Nat) : (s.touchLines k rd pas).me = s.me :=
  foldl_keeps _ State.me (fun _ _ => State.throughCache_me ..) _ _
@[simp] theorem State.takeSlots_me (s : State) (l : List (Nat × Nat)) : (s.takeSlots l).2.me = s.me := by
  unfold State.takeSlots State.takeBursts; dsimp only; split
  · rfl
  · split
    · exact State.pick_me ..
    · rfl
@[simp] theorem State.addAccess_me (s : State) (due d : Nat) (k : OpKind) : (s.addAccess due d k).me = s.me := by
  unfold State.addAccess; dsimp only; split <;> rfl

/-- A write put in flight stands behind those of the issuing context. -/
theorem State.pushAt_me (s : State) (land : Nat) (d : Dest) (mask value : Vec) (src : WSrc) (arrive : Option Nat)
    (trap : Option (Nat × Nat)) :
    (s.pushAt land d mask value src arrive trap).me = { s.me with
      pend := s.me.pend ++ [⟨s.nextId, land, s.me.seq, d, mask, value, src, arrive, trap, s.me.st == .handler⟩] } :=
  s.onMe_me fun x => { x with pend := x.pend ++ [⟨s.nextId, land, x.seq, d, mask, value, src, arrive, trap, x.st == .handler⟩] }

/-! ## Where no write of the partition is open -/

theorem State.enginesRacing_of_quiet {s : State} {p : Nat} (h : Quiet s p) (cl lo hi : Nat) (within : Nat → Bool) :
    s.enginesRacing p cl lo hi within = [] := by
  obtain ⟨-, -, hcores⟩ := h
  refine List.flatMap_eq_nil_iff.2 fun e he => ?_
  split
  next hp =>
    obtain ⟨hrun, hcopies⟩ := hcores e he hp
    have hw : (s.core e.1).copies.flatMap (fun c => if c.performed || c.opcode == 8 then [] else c.writes) = [] :=
      List.flatMap_eq_nil_iff.2 fun c hc => by rw [hcopies c hc, ite_self]
    rw [State.stillWrites, hrun, hw]
    rfl
  next => rfl

theorem State.pendingLocal_of_quiet {s : State} {k : Nat} (h : Quiet s (s.partOf k)) (c : Nat) : s.pendingLocal k c = [] := by
  obtain ⟨hops, -, -⟩ := h
  simp [State.pendingLocal, State.pendingBefore, State.ownWrites, hops, inOrder, sortBy, State.laidOver]

theorem State.replaced_of_quiet {s : State} {k : Nat} (h : Quiet s (s.partOf k)) (c : Nat) (within : Nat → Bool) :
    s.replaced k c within = [] := by
  obtain ⟨-, hundrained, -⟩ := h
  simp [State.replaced, hundrained, singles]

/-- A load finds nothing laid over the bytes that stand. -/
theorem State.loadOverlay_of_quiet {s : State} (h : Quiet s s.myPart) (n : Nat) (accs : List LaneAcc) :
    (s.loadOverlay n accs).1 = [] := by
  have h' : Quiet s (s.partOf s.cur.1) := h
  simp [State.loadOverlay, State.enginesRacing_of_quiet h, State.replaced_of_quiet h', State.pendingLocal_of_quiet h', singles,
    State.choose]

/-! ## The write of a load in flight -/

/-- What is still to be put into the cache is no part of a load's value. -/
theorem State.valueOf_toFill (s : State) (rs : List Reading) : valueOf (s.toFill rs) = valueOf rs := by
  rw [valueOf, State.toFill, List.map_map]
  rfl

/-- A scheduled load that pops no FIFO puts its value in flight, landing λ later, and then its access. -/
theorem State.startLoad_eq {s : State} {l : LoadSpec} (hc : l.cached = false) (hp : s.popBank l = none) :
    ∃ (r : State) (due delay : Nat) (kind : OpKind), r.me = s.me ∧ s.startLoad l =
      (r.pushAt (s.t + s.lambda (s.laneAccs .lr l.lanes)) (.lv l.lvd.toNat) l.mask
        (s.loadValue l (s.loadOverlay l.bytes (s.laneAccs .lr l.lanes)).1) .load none none).addAccess due delay kind := by
  unfold State.startLoad
  simp only [hp, hc, Bool.false_eq_true, ↓reduceIte, State.valueOf_toFill, State.loadFigure, Bool.false_and]
  exact ⟨_, _, _, _, by simp, rfl⟩

/-- It changes nothing else of its context. -/
theorem State.startLoad_me {s : State} {l : LoadSpec} (hc : l.cached = false) (hp : s.popBank l = none) :
    ∃ w, (s.startLoad l).me = { s.me with pend := s.me.pend ++ [w] } ∧ w.dest = .lv l.lvd.toNat ∧ w.mask = l.mask
      ∧ w.value = s.loadValue l (s.loadOverlay l.bytes (s.laneAccs .lr l.lanes)).1 ∧ w.arrive = none
      ∧ w.land = s.t + s.lambda (s.laneAccs .lr l.lanes) := by
  obtain ⟨r, due, delay, kind, hr, h⟩ := State.startLoad_eq hc hp
  rw [h, State.addAccess_me, State.pushAt_me, hr]
  exact ⟨_, rfl, rfl, rfl, rfl, rfl, rfl⟩

/-! ## The lanes of a vector (R140) -/

/-- The lanes of a vector as digits of a number, lane 0 lowest. -/
def lanesNum (f : Nat → W32) (n : Nat) : Nat := (List.range n).foldl (fun acc i => acc + (f i).toNat * 2 ^ (32 * i)) 0

theorem vecOf_eq (f : Nat → W32) : vecOf f = BitVec.ofNat 1024 (lanesNum f 32) := rfl

theorem lanesNum_succ (f : Nat → W32) (n : Nat) : lanesNum f (n + 1) = lanesNum f n + (f n).toNat * 2 ^ (32 * n) := by
  simp only [lanesNum, List.range_succ, List.foldl_append, List.foldl_cons, List.foldl_nil]

theorem lanesNum_lt (f : Nat → W32) {n w : Nat} (hw : w = 32 * n) : lanesNum f n < 2 ^ w := by
  subst hw
  induction n with
  | zero => simp [lanesNum]
  | succ n ih =>
    have hf : (f n).toNat * 2 ^ (32 * n) ≤ (2 ^ 32 - 1) * 2 ^ (32 * n) := Nat.mul_le_mul_right _ (by have := (f n).isLt; omega)
    rw [lanesNum_succ, Nat.mul_succ, Nat.pow_add]
    omega

/-- Digit i of the number is lane i. -/
theorem lanesNum_digit (f : Nat → W32) {i n : Nat} (h : i < n) : lanesNum f n / 2 ^ (32 * i) % 2 ^ 32 = (f i).toNat := by
  induction n with
  | zero => omega
  | succ n ih =>
    rw [lanesNum_succ]
    rcases Nat.lt_succ_iff_lt_or_eq.1 h with h | rfl
    · obtain ⟨d, rfl⟩ : ∃ d, n = i + 1 + d := ⟨n - (i + 1), by omega⟩
      have e : (f (i + 1 + d)).toNat * 2 ^ (32 * (i + 1 + d)) = 2 ^ (32 * i) * (2 ^ 32 * ((f (i + 1 + d)).toNat * 2 ^ (32 * d))) := by
        rw [show 32 * (i + 1 + d) = 32 * i + 32 + 32 * d by omega, Nat.pow_add, Nat.pow_add]
        ring
      rw [e, Nat.add_mul_div_left _ _ (by positivity), Nat.add_mul_mod_self_left, ih h]
    · rw [Nat.add_mul_div_right _ _ (by positivity), Nat.div_eq_of_lt (lanesNum_lt f rfl), Nat.zero_add, Nat.mod_eq_of_lt (f i).isLt]

theorem toNat_ofNat_lt {w x : Nat} (h : x < 2 ^ w) : (BitVec.ofNat w x).toNat = x := by
  rw [BitVec.toNat_ofNat, Nat.mod_eq_of_lt h]

theorem toNat_vecOf (f : Nat → W32) : (vecOf f).toNat = lanesNum f 32 := toNat_ofNat_lt (lanesNum_lt f rfl)

theorem lane_vecOf (f : Nat → W32) {i : Nat} (h : i < 32) : lane (vecOf f) i = f i := by
  apply BitVec.eq_of_toNat_eq
  rw [lane, BitVec.extractLsb'_toNat, toNat_vecOf, Nat.shiftRight_eq_div_pow, lanesNum_digit f h]

theorem lane_lanesMask (g : Nat → Bool) {i : Nat} (h : i < 32) : lane (lanesMask g) i = if g i then 0xFFFFFFFF else 0 :=
  lane_vecOf _ h

theorem ofNat_allOnes (w : Nat) : BitVec.ofNat w ((2 ^ w - 1) * 2 ^ 0) = BitVec.allOnes w := by
  apply BitVec.eq_of_toNat_eq
  rw [BitVec.toNat_allOnes, Nat.pow_zero, Nat.mul_one, toNat_ofNat_lt (Nat.sub_lt (Nat.two_pow_pos w) Nat.one_pos)]

theorem maskAt_allOnes : maskAt 0 1024 = BitVec.allOnes 1024 := ofNat_allOnes 1024

/-! ## What a lane reads (R5, R201) -/

theorem natOfBytes_lt (bs : List Byte) : natOfBytes bs < 256 ^ bs.length := by
  induction bs with
  | nil => simp [natOfBytes]
  | cons b bs ih =>
    have hb := b.isLt
    rw [natOfBytes, List.length_cons, Nat.pow_succ]
    omega

theorem seenAt_lt (s : State) (pa n : Nat) : seenAt s pa n < 256 ^ n := by
  simpa [seenAt] using natOfBytes_lt ((List.range n).map (fun i => s.coreByte s.cur.1 (pa + i)))

/-- The physical address that a load reads at an address. -/
def State.readPa (s : State) (a : W64) : Nat :=
  match translate s.ranges .lr a.toNat with
  | .ok pa _ => pa
  | .fault _ => 0

theorem readPa_of_readsAt {s : State} {a : W64} {pa : Nat} (h : ReadsAt s a pa) : s.readPa a = pa := by
  obtain ⟨⟨res, hres⟩, -⟩ := h
  rw [State.readPa, hres]

/-- A lane whose byte is not of a FIFO bank reads the bytes that its core sees. -/
theorem State.laneRaw_of_readsAt {s : State} {a : LaneAcc} (h : ReadsAt s a.va a.pa) (l : LoadSpec) :
    s.laneRaw [] l a = seenAt s a.pa l.bytes := by
  unfold State.laneRaw
  split
  next hb => exact absurd hb (h.2 _)
  next => rfl

/-- The lanes that may be read, each with its physical address. -/
theorem State.laneAccs_of_readsAt {s : State} {f : Nat → W64} {L : List Nat} (h : ∀ i ∈ L, ∃ pa, ReadsAt s (f i) pa) :
    ∃ res : Nat → Nat, s.laneAccs .lr (L.map (fun i => (i, f i))) = L.map (fun i => ⟨i, f i, s.readPa (f i), res i⟩) := by
  refine ⟨fun i => match translate s.ranges .lr (f i).toNat with | .ok _ r => r | .fault _ => 0, ?_⟩
  induction L with
  | nil => rfl
  | cons i L ih =>
    obtain ⟨pa, ⟨res, hres⟩, -⟩ := h i (by simp)
    have := ih fun j hj => h j (by simp [hj])
    simp_all [State.laneAccs, State.readPa]

/-- The lanes of a vector load, all of whose guarded lanes may be read, in its destination. -/
theorem State.loadValue_lanes {s : State} {l : LoadSpec} {tt : TT} {f : Nat → W64}
    (hlanes : l.lanes = (s.lanesOn tt).map (fun i => (i, f i)))
    (hbytes : l.bytes = 4) (hscalar : l.scalar = false) (h : ∀ i, i < 32 → s.on tt i = true → ∃ pa, ReadsAt s (f i) pa) :
    s.loadValue l [] = vecOf (fun i => if s.on tt i then BitVec.ofNat 32 (seenAt s (s.readPa (f i)) 4) else 0) := by
  have hread : ∀ i ∈ s.lanesOn tt, ∃ pa, ReadsAt s (f i) pa := fun i hi => by
    obtain ⟨hi, hon⟩ := List.mem_filter.1 hi
    exact h i (List.mem_range.1 hi) hon
  obtain ⟨res, hres⟩ := State.laneAccs_of_readsAt hread
  have hvals : (s.readings l []).map Reading.value = (s.lanesOn tt).map (fun i => seenAt s (s.readPa (f i)) 4 * 2 ^ (32 * i)) := by
    rw [State.readings, hlanes, hres, List.map_map, List.map_map]
    refine List.map_congr_left fun i hi => ?_
    obtain ⟨pa, hpa⟩ := hread i hi
    have hraw := State.laneRaw_of_readsAt (a := ⟨i, f i, s.readPa (f i), res i⟩) (readPa_of_readsAt hpa ▸ hpa) l
    simp [State.laneReading, Reading.value, hscalar, hraw, hbytes]
  rw [State.loadValue, valueOf, hvals, vecOf_eq, lanesNum, List.foldl_map, State.lanesOn, List.foldl_filter]
  congr 2
  funext acc i
  have hlt : seenAt s (s.readPa (f i)) 4 < 2 ^ 32 := seenAt_lt s _ 4
  split
  · rw [toNat_ofNat_lt hlt]
  · simp

/-- Every word that a guarded lane reads, and the mask of the lanes. -/
theorem State.loadValue_lane {s : State} {l : LoadSpec} {tt : TT} {f : Nat → W64}
    (hlanes : l.lanes = (s.lanesOn tt).map (fun i => (i, f i)))
    (hbytes : l.bytes = 4) (hscalar : l.scalar = false) (h : ∀ i, i < 32 → s.on tt i = true → ∃ pa, ReadsAt s (f i) pa)
    {i : Nat} (hi : i < 32) :
    (s.on tt i = true → ∀ pa, ReadsAt s (f i) pa →
        lane (s.loadValue l []) i = BitVec.ofNat 32 (seenAt s pa 4) ∧ lane l.mask i = 0xFFFFFFFF)
      ∧ (s.on tt i = false → lane l.mask i = 0) := by
  have hmask : lane l.mask i = if s.on tt i then 0xFFFFFFFF else 0 := by
    have hany : l.lanes.any (fun e => e.1 == i) = s.on tt i := by
      rw [Bool.eq_iff_iff]
      simp [hlanes, State.lanesOn, hi]
    rw [LoadSpec.mask, hscalar, if_neg Bool.false_ne_true, lane_lanesMask _ hi, hany]
  refine ⟨fun hon pa hpa => ?_, fun hon => by simp [hmask, hon]⟩
  rw [State.loadValue_lanes hlanes hbytes hscalar h, lane_vecOf _ hi, hmask, if_pos hon, if_pos hon, readPa_of_readsAt hpa]
  exact ⟨rfl, rfl⟩

/-! ## LD and LDC -/

theorem signed_eq_toInt {w : Nat} (hw : 0 < w) (x : Nat) : signed w x = (BitVec.ofNat w x).toInt := by
  obtain ⟨n, rfl⟩ : ∃ n, w = n + 1 := ⟨w - 1, by omega⟩
  rw [signed, BitVec.toInt, BitVec.toNat_ofNat, Nat.add_sub_cancel, Nat.pow_succ]
  split <;> split <;> omega

theorem unsignedOf_signed {w : Nat} (hw : 0 < w) (x : Nat) :
    unsignedOf 64 (signed w x) = ((BitVec.ofNat w x).signExtend 64).toNat := by
  rw [unsignedOf, signed_eq_toInt hw]
  rfl

/-- LD and LDC whose address may be read: the bytes that the core sees, extended, as the whole of the destination. -/
theorem State.loadValue_scalar {s : State} {l : LoadSpec} {a : W64} {pa n : Nat} (hlanes : l.lanes = [(0, a)]) (hbytes : l.bytes = n)
    (hn : n ≤ 8) (hpos : 0 < n) (hscalar : l.scalar = true) (h : ReadsAt s a pa) :
    s.loadValue l [] = (if l.sx then (BitVec.ofNat (8 * n) (seenAt s pa n)).signExtend 64
      else BitVec.ofNat 64 (seenAt s pa n)).zeroExtend 1024 := by
  obtain ⟨res, hres⟩ := h.1
  have hacc : s.laneAccs .lr l.lanes = [⟨0, a, pa, res⟩] := by simp [State.laneAccs, hlanes, hres]
  have hraw := State.laneRaw_of_readsAt (a := ⟨0, a, pa, res⟩) h l
  have hlt : seenAt s pa n < 2 ^ 64 :=
    (seenAt_lt s pa n).trans_le (Nat.pow_le_pow_right (n := 256) (j := 8) (by decide) hn)
  have hval : s.loadValue l [] =
      BitVec.ofNat 1024 (if l.sx then unsignedOf 64 (signed (8 * n) (seenAt s pa n)) else seenAt s pa n) := by
    simp [State.loadValue, valueOf, State.readings, hacc, State.laneReading, Reading.value, hscalar, hraw, hbytes]
  rw [hval]
  split
  · rw [unsignedOf_signed (by omega)]
    exact BitVec.ofNat_toNat ..
  · have hnat : seenAt s pa n = (BitVec.ofNat 64 (seenAt s pa n)).toNat := (toNat_ofNat_lt hlt).symm
    exact (congrArg (BitVec.ofNat 1024) hnat).trans (BitVec.ofNat_toNat ..)

theorem ldSpec_lanes {s : State} {tt : TT} (h : s.lane0 tt = true) (lvd : BitVec 7) (lab : AReg) (am : Bool) (ofs : BitVec 15)
    (sz : BitVec 2) (sx : Bool) (rd : BitVec 2) (c : Bool) :
    (ldSpec tt lvd lab am ofs sz sx rd c s).lanes = [(0, addrOf am (s.la lab) (ofs.signExtend 64))] := by
  simp only [ldSpec, lane0Only, h, ↓reduceIte]

/-- Settles O22: the value of each form lane by lane, and the one write that a load puts in flight. -/
theorem loadEffects : Obligations.LoadEffects := by
  unfold Obligations.LoadEffects
  refine ⟨fun s tt lvd lvi lab las am ofs ofsG sz sx c rd => ?_, fun s l hc hp => ?_⟩
  · extract_lets a n word
    have hword : ∀ (l : LoadSpec) (f : Nat → W64), l.lanes = (s.lanesOn tt).map (fun i => (i, f i)) → l.bytes = 4 →
        l.scalar = false → word l f := fun l f h1 h2 h3 hread i hi => State.loadValue_lane h1 h2 h3 hread hi
    refine ⟨fun h0 pa hpa => ⟨?_, ?_⟩, hword _ _ rfl rfl rfl, hword _ _ rfl rfl rfl, hword _ _ rfl rfl rfl⟩
    · refine State.loadValue_scalar (ldSpec_lanes h0 ..) rfl ?_ (Nat.two_pow_pos _) rfl hpa
      exact Nat.pow_le_pow_right (n := 2) (j := 3) (by decide) (by have := sz.isLt; omega)
    · exact maskAt_allOnes
  · obtain ⟨w, hme, hdest, hmask, hvalue, harrive, hland⟩ := State.startLoad_me hc hp
    exact ⟨w, hme, hdest, hmask, fun hq => by rw [hvalue, State.loadOverlay_of_quiet hq], harrive, hland⟩

end Sys2Proof.Machine
end

section
/-! The encoder and the decoder are inverse to each other (R20 to R24, R39 to R48): a slot's word and its fields determine each
other, and so do the fields and the operation that they name. -/

namespace Sys2Proof

/-! ## Fields of an appended word

The appended fields of a slot stand at a literal width, which is a sum of widths only up to evaluation: no_index lets simp
find them all the same. -/

section
variable {v w : Nat} {hi : BitVec v} {lo : BitVec w} {x : BitVec w}

@[simp] theorem extract_append_lo {start len : Nat} (h : start + len ≤ w) :
    BitVec.extractLsb' start len (no_index (hi ++ lo)) = BitVec.extractLsb' start len lo :=
  BitVec.extractLsb'_append_eq_of_add_le h

@[simp] theorem extract_append_hi {start len : Nat} (h : w ≤ start) :
    BitVec.extractLsb' start len (no_index (hi ++ lo)) = BitVec.extractLsb' (start - w) len hi :=
  BitVec.extractLsb'_append_eq_of_le h

@[simp] theorem getLsbD_append_lo {i : Nat} (h : i < w) : (no_index (hi ++ lo)).getLsbD i = lo.getLsbD i := by
  rw [BitVec.getLsbD_append, if_pos h]

@[simp] theorem getLsbD_append_hi {i : Nat} (h : w ≤ i) : (no_index (hi ++ lo)).getLsbD i = hi.getLsbD (i - w) := by
  rw [BitVec.getLsbD_append, if_neg (by omega)]

/-- Two fields that stand side by side are one. -/
theorem extract_append_extract {a b m n : Nat} (h : b = a + m) :
    @HAppend.hAppend _ _ (no_index (BitVec (n + m))) _ (x.extractLsb' b n) (x.extractLsb' a m) = x.extractLsb' a (n + m) :=
  BitVec.extractLsb'_append_extractLsb'_eq_extractLsb' h

theorem ofBool_getLsbD (i : Nat) : BitVec.ofBool (x.getLsbD i) = x.extractLsb' i 1 := by
  refine BitVec.eq_of_getLsbD_eq fun j hj => ?_
  obtain rfl : j = 0 := by omega
  simp

end

/-! ## A slot's word and its fields -/

theorem splitS_joinS (r : SRaw) : splitS (joinS r) = r := by simp [splitS, joinS]
theorem splitV_joinV (r : VRaw) : splitV (joinV r) = r := by simp [splitV, joinV]
theorem splitM_joinM (r : MRaw) : splitM (joinM r) = r := by simp [splitM, joinM]
theorem splitL_joinL (r : LRaw) : splitL (joinL r) = r := by simp [splitL, joinL]
theorem splitQ_joinQ (r : QRaw) : splitQ (joinQ r) = r := by simp [splitQ, joinQ]
theorem splitX_joinX (r : XRaw) : splitX (joinX r) = r := by simp [splitX, joinX]
theorem splitC_joinC (r : CRaw) : splitC (joinC r) = r := by simp [splitC, joinC, -BitVec.getLsbD_eq_getElem]
theorem splitY_joinY (r : YRaw) : splitY (joinY r) = r := by simp [splitY, joinY]

theorem joinS_splitS (w : BitVec 80) : joinS (splitS w) = w := by simp [splitS, joinS, extract_append_extract]
theorem joinV_splitV (w : BitVec 64) : joinV (splitV w) = w := by simp [splitV, joinV, extract_append_extract]
theorem joinM_splitM (w : BitVec 48) : joinM (splitM w) = w := by simp [splitM, joinM, extract_append_extract]
theorem joinL_splitL (w : BitVec 48) : joinL (splitL w) = w := by simp [splitL, joinL, extract_append_extract]
theorem joinQ_splitQ (w : BitVec 48) : joinQ (splitQ w) = w := by simp [splitQ, joinQ, extract_append_extract]
theorem joinX_splitX (w : BitVec 64) : joinX (splitX w) = w := by simp [splitX, joinX, extract_append_extract]
theorem joinY_splitY (w : BitVec 28) : joinY (splitY w) = w := by simp [splitY, joinY, extract_append_extract]

/-- A C slot's word is that of its fields where its reserved bits are 0 (R212). -/
theorem joinC_splitC {w : BitVec 32} (h : w.extractLsb' 22 10 = 0#10) : joinC (splitC w) = w := by
  simp [splitC, joinC, ← h, extract_append_extract, ofBool_getLsbD, -BitVec.getLsbD_eq_getElem]

theorem reserved_joinC (r : CRaw) : (joinC r).extractLsb' 22 10 = 0 := by simp [joinC]

/-! ## An operation and its fields -/

/-- The opcode of an operation's fields names the operation, and every operand is read from its own place. -/
theorem candS_rawOf {i : Instr} {r : SRaw} (h : rawOf i = .s r) : candS r = some i := by
  cases i <;> cases h <;> simp [candS, -BitVec.getLsbD_eq_getElem]
theorem candV_rawOf {i : Instr} {vu : VUnit} {r : VRaw} (h : rawOf i = .v vu r) : candV vu r = some i := by
  cases i <;> cases h <;> simp [candV, -BitVec.getLsbD_eq_getElem]
theorem candM_rawOf {i : Instr} {r : MRaw} (h : rawOf i = .m r) : candM r = some i := by
  cases i <;> cases h <;> simp [candM, -BitVec.getLsbD_eq_getElem]
theorem candL_rawOf {i : Instr} {r : LRaw} (h : rawOf i = .l r) : candL r = some i := by
  cases i <;> cases h <;> simp [candL, -BitVec.getLsbD_eq_getElem]
theorem candQ_rawOf {i : Instr} {r : QRaw} (h : rawOf i = .q r) : candQ r = some i := by
  cases i <;> cases h <;> simp [candQ, -BitVec.getLsbD_eq_getElem]
theorem candX_rawOf {i : Instr} {r : XRaw} (h : rawOf i = .x r) : candX r = some i := by cases i <;> cases h <;> rfl
theorem candC_rawOf {i : Instr} {r : CRaw} (h : rawOf i = .c r) : candC r = some i := by cases i <;> cases h <;> rfl
theorem candY_rawOf {i : Instr} {r : YRaw} (h : rawOf i = .y r) : candY r = some i := by
  cases i <;> cases h <;> simp [candY, -BitVec.getLsbD_eq_getElem]

theorem accept_eq_ok {r : Raw} {c : Option Instr} {i : Instr} :
    accept r c = .ok (some i) ↔ c = some i ∧ rawOf i = r ∧ i.wf = true := by
  cases c with
  | none => simp [accept]
  | some j =>
    rw [accept]
    split
    next hr =>
      split
      next hw => simp only [Except.ok.injEq, Option.some.injEq]; grind
      next hw => simp only [reduceCtorEq, Option.some.injEq, false_iff]; grind
    next hr => simp only [reduceCtorEq, Option.some.injEq, false_iff]; grind

/-- Fields whose opcode names what it is the opcode of decode to the operations whose fields they are. -/
theorem nopOr_accept_eq_ok {r : Raw} {c : Option Instr} {nop zero : Bool} {i : Instr} (hc : rawOf i = r → c = some i)
    (hnop : nop = true → c = none) : nopOr nop zero (accept r c) = .ok (some i) ↔ rawOf i = r ∧ i.wf = true := by
  cases nop with
  | false => rw [nopOr, if_neg Bool.false_ne_true, accept_eq_ok]; tauto
  | true =>
    have hr : rawOf i ≠ r := fun h => by simpa [hnop rfl] using hc h
    cases zero <;> simp [nopOr, hr]

/-- Opcode 0 names no operation of any slot (R24). -/
theorem candS_nop {r : SRaw} (h : (r.op == 0) = true) : candS r = none := by simp [candS, beq_iff_eq.1 h]
theorem candV_nop {vu : VUnit} {r : VRaw} (h : (r.op == 0) = true) : candV vu r = none := by simp [candV, beq_iff_eq.1 h]
theorem candM_nop {r : MRaw} (h : (r.op == 0) = true) : candM r = none := by simp [candM, beq_iff_eq.1 h]
theorem candL_nop {r : LRaw} (h : (r.op == 0) = true) : candL r = none := by simp [candL, beq_iff_eq.1 h]
theorem candQ_nop {r : QRaw} (h : (r.op == 0) = true) : candQ r = none := by simp [candQ, beq_iff_eq.1 h]
theorem candX_nop {r : XRaw} (h : (r.op == 0) = true) : candX r = none := by simp [candX, beq_iff_eq.1 h]
theorem candC_nop {r : CRaw} (h : (r.op == 0) = true) : candC r = none := by simp [candC, beq_iff_eq.1 h]
theorem candY_nop {r : YRaw} (h : (r.op == 0) = true) : candY r = none := by simp [candY, beq_iff_eq.1 h]

/-- Fields decode to the well-formed operations whose fields they are. -/
theorem decodeRaw_eq_ok {r : Raw} (hr : r ≠ .event) {i : Instr} : decodeRaw r = .ok (some i) ↔ rawOf i = r ∧ i.wf = true := by
  cases r with
  | s f => exact nopOr_accept_eq_ok candS_rawOf candS_nop
  | v vu f => exact nopOr_accept_eq_ok candV_rawOf candV_nop
  | m f => exact nopOr_accept_eq_ok candM_rawOf candM_nop
  | l f => exact nopOr_accept_eq_ok candL_rawOf candL_nop
  | q f => exact nopOr_accept_eq_ok candQ_rawOf candQ_nop
  | x f => exact nopOr_accept_eq_ok candX_rawOf candX_nop
  | c f => exact nopOr_accept_eq_ok candC_rawOf candC_nop
  | y f => exact nopOr_accept_eq_ok candY_rawOf candY_nop
  | event => exact absurd rfl hr

/-! ## An operation and its word -/

/-- The word of fields; an event has none. -/
def Raw.word : Raw → Option SlotWord
  | .s r => some (.s (joinS r))
  | .v vu r => some (.v vu (joinV r))
  | .m r => some (.m (joinM r))
  | .l r => some (.l (joinL r))
  | .q r => some (.q (joinQ r))
  | .x r => some (.x (joinX r))
  | .c r => some (.c (joinC r))
  | .y r => some (.y (joinY r))
  | .event => none

theorem encode_eq (i : Instr) : encode i = (rawOf i).word := rfl

/-- The fields of a word. -/
def SlotWord.raw : SlotWord → Raw
  | .s w => .s (splitS w)
  | .v vu w => .v vu (splitV w)
  | .m w => .m (splitM w)
  | .l w => .l (splitL w)
  | .q w => .q (splitQ w)
  | .x w => .x (splitX w)
  | .c w => .c (splitC w)
  | .y w => .y (splitY w)

/-- The bits of a C slot that no field holds are 0 (R212). -/
def SlotWord.reservedZero : SlotWord → Prop
  | .c w => w.extractLsb' 22 10 = 0#10
  | _ => True

theorem SlotWord.raw_ne_event (w : SlotWord) : w.raw ≠ .event := by cases w <;> exact nofun

theorem SlotWord.word_raw {w : SlotWord} (h : w.reservedZero) : w.raw.word = some w := by
  cases w with
  | s w => exact congrArg (some ∘ SlotWord.s) (joinS_splitS w)
  | v vu w => exact congrArg (some ∘ SlotWord.v vu) (joinV_splitV w)
  | m w => exact congrArg (some ∘ SlotWord.m) (joinM_splitM w)
  | l w => exact congrArg (some ∘ SlotWord.l) (joinL_splitL w)
  | q w => exact congrArg (some ∘ SlotWord.q) (joinQ_splitQ w)
  | x w => exact congrArg (some ∘ SlotWord.x) (joinX_splitX w)
  | c w => exact congrArg (some ∘ SlotWord.c) (joinC_splitC h)
  | y w => exact congrArg (some ∘ SlotWord.y) (joinY_splitY w)

theorem Raw.raw_word {r : Raw} {w : SlotWord} (h : r.word = some w) : w.raw = r ∧ w.reservedZero := by
  cases r <;> cases h
  case s r => exact ⟨congrArg Raw.s (splitS_joinS r), trivial⟩
  case v vu r => exact ⟨congrArg (Raw.v vu) (splitV_joinV r), trivial⟩
  case m r => exact ⟨congrArg Raw.m (splitM_joinM r), trivial⟩
  case l r => exact ⟨congrArg Raw.l (splitL_joinL r), trivial⟩
  case q r => exact ⟨congrArg Raw.q (splitQ_joinQ r), trivial⟩
  case x r => exact ⟨congrArg Raw.x (splitX_joinX r), trivial⟩
  case c r => exact ⟨congrArg Raw.c (splitC_joinC r), reserved_joinC r⟩
  case y r => exact ⟨congrArg Raw.y (splitY_joinY r), trivial⟩

/-- A word decodes as its fields do where its reserved bits are 0, and to nothing else. -/
theorem decodeSlot_of_reservedZero {w : SlotWord} (h : w.reservedZero) : decodeSlot w = decodeRaw w.raw := by
  cases w
  case c w => exact if_pos h
  all_goals rfl

theorem reservedZero_of_decodeSlot {w : SlotWord} {o : Option Instr} (h : decodeSlot w = .ok o) : w.reservedZero := by
  cases w
  case c w =>
    rw [decodeSlot] at h
    split at h
    next hz => exact hz
    next => cases h
  all_goals trivial

/-- A word decodes to the well-formed operations that it encodes. -/
theorem decodeSlot_eq_ok {w : SlotWord} {i : Instr} : decodeSlot w = .ok (some i) ↔ i.wf = true ∧ encode i = some w := by
  constructor
  · intro h
    have hz := reservedZero_of_decodeSlot h
    rw [decodeSlot_of_reservedZero hz, decodeRaw_eq_ok w.raw_ne_event] at h
    obtain ⟨hraw, hwf⟩ := h
    exact ⟨hwf, by rw [encode_eq, hraw, SlotWord.word_raw hz]⟩
  · rintro ⟨hwf, henc⟩
    obtain ⟨hraw, hz⟩ := Raw.raw_word (encode_eq i ▸ henc)
    rw [decodeSlot_of_reservedZero hz, decodeRaw_eq_ok w.raw_ne_event]
    exact ⟨hraw.symm, hwf⟩

/-- An event has no word, and a slot operation has one. -/
theorem encode_isNone (i : Instr) : (encode i).isNone = (Machine.formOf i).isNone := by
  cases i <;> rfl

/-- Settles O55: a word decodes to the well-formed operations that it encodes, and an operation has a form where it has a word. -/
theorem decodeEncodeAgree : Obligations.DecodeEncodeAgree := by
  unfold Obligations.DecodeEncodeAgree
  refine ⟨fun i w hwf henc => decodeSlot_eq_ok.2 ⟨hwf, henc⟩, fun i w h => decodeSlot_eq_ok.1 h, fun i => ?_⟩
  rw [← Option.isNone_iff_eq_none, ← Option.isNone_iff_eq_none, encode_isNone]

/-- Settles O54: each word is decoded. -/
theorem decodeWords : Obligations.DecodeWords := by
  unfold Obligations.DecodeWords
  decide

end Sys2Proof
end

section
/-! A write in flight, and what its landing changes: one place, and of that the bits of its mask (R27, R71, R72, R81, R94, R141, R388). -/

namespace Sys2Proof.Machine

/-! ## Merged bits -/

theorem getLsbD_mergeBits {n : Nat} (old new mask : BitVec n) (i : Nat) :
    (mergeBits old new mask).getLsbD i = if mask.getLsbD i then new.getLsbD i else old.getLsbD i := by
  by_cases h : i < n
  · cases hm : mask.getLsbD i <;> simp [mergeBits, h, hm, -BitVec.getLsbD_eq_getElem]
  · simp [BitVec.getLsbD_of_ge, Nat.le_of_not_lt h]

theorem setWidth_mergeBits {n : Nat} (k : Nat) (old new mask : BitVec n) :
    (mergeBits old new mask).setWidth k = mergeBits (old.setWidth k) (new.setWidth k) (mask.setWidth k) := by
  refine BitVec.eq_of_getLsbD_eq fun i hi => ?_
  simp [getLsbD_mergeBits, hi, -BitVec.getLsbD_eq_getElem]

theorem setWidth_toVec {n k : Nat} (hk : k ≤ 1024) (v : BitVec n) : (toVec v).setWidth k = v.setWidth k :=
  BitVec.setWidth_setWidth_of_le v hk

theorem getLsbD_toVec {n i : Nat} (hn : n ≤ 1024) (v : BitVec n) : (toVec v).getLsbD i = v.getLsbD i := by
  rw [toVec, BitVec.getLsbD_setWidth]
  by_cases h : i < n
  · simp [show i < 1024 by omega]
  · simp [BitVec.getLsbD_of_ge, Nat.le_of_not_lt h]

/-! ## Register files -/

theorem vget_putAt_self {α : Type} {n : Nat} (v : Vector α n) {i : Nat} (h : i < n) (a d : α) : vget (putAt v i a) i d = a := by
  simp [vget, putAt, h]

theorem vget_putAt_of_ne {α : Type} {n : Nat} (v : Vector α n) {i j : Nat} (h : i ≠ j) (a d : α) :
    vget (putAt v i a) j d = vget v j d := by
  simp [vget, putAt, h]

theorem putAt_of_ge {α : Type} {n : Nat} (v : Vector α n) {i : Nat} (h : n ≤ i) (a : α) : putAt v i a = v := by
  ext j hj
  simp [putAt, show i ≠ j by omega]

theorem Window.get_put_self (w : Window) {n : Nat} (h : n < w.size) (v : Vec) : (w.put n v).get n = v := by
  have h : n < w.regs.length := h
  simp [Window.get, Window.put, h]

theorem Window.get_put_of_ne (w : Window) {m n : Nat} (h : m ≠ n) (v : Vec) : (w.put m v).get n = w.get n := by
  simp [Window.get, Window.put, h]

theorem Frame.word_setWord_self (f : Frame) {k : Nat} (h : k < 7) (v : W64) : (f.setWord k v).word k = v := by
  interval_cases k <;> rfl

theorem Frame.word_setWord_of_ne (f : Frame) {j k : Nat} (hj : j < 7) (hk : k < 7) (h : j ≠ k) (v : W64) :
    (f.setWord j v).word k = f.word k := by
  interval_cases j
  all_goals
    interval_cases k
    all_goals simp [Frame.setWord, Frame.word] at h ⊢

/-! ## A place written and read -/

/-- A register that is written is no part of another one. -/
theorem Ctx.read_write_of_ne (x : Ctx) {d e : Dest} (v : Vec) (hd : ∀ n, d ≠ .csr n) (h : d ≠ e)
    (hek : ∀ n k, e = .df n k → k < 7) (hdk : ∀ n k, d = .df n k → k < 7) : (x.write d v).read e = x.read e := by
  cases d
  case csr n => exact absurd rfl (hd n)
  all_goals cases e <;> try rfl
  case x.x | hx.hx | la.la | qa.qa | ms.ms | ds.ds | sc.sc | wt.wt | wc.wc | p.p =>
    exact congrArg toVec (vget_putAt_of_ne _ (fun e => h (by rw [e])) _ _)
  case va.va | vb.vb | lv.lv | qv.qv => exact Window.get_put_of_ne _ (fun e => h (by rw [e])) _
  case df.df m j n k =>
    have hj : j < 7 := hdk m j rfl
    have hk : k < 7 := hek n k rfl
    by_cases hmn : m = n
    · subst hmn
      have hjk : j ≠ k := fun e => h (by rw [e])
      rw [Ctx.read, Ctx.write, Ctx.read]
      by_cases hm : m < 8
      · rw [vget_putAt_self _ hm, Frame.word_setWord_of_ne _ hj hk hjk]
      · rw [putAt_of_ge _ (Nat.le_of_not_lt hm)]
    · exact congrArg (fun f => toVec (Frame.word f k)) (vget_putAt_of_ne _ hmn _ _)

/-- A register of the context that is written holds the bits of its width. -/
theorem Ctx.read_write_self {x : Ctx} {d : Dest} (h : Present x d) (v : Vec) {b : Nat} (hb : b < widthOf d) :
    ((x.write d v).read d).getLsbD b = v.getLsbD b := by
  cases d
  case csr n => exact h.elim
  case va n | vb n | lv n | qv n => exact congrArg (·.getLsbD b) (Window.get_put_self _ h v)
  case df n k =>
    rw [Ctx.write, Ctx.read, vget_putAt_self _ h.1, Frame.word_setWord_self _ h.2, getLsbD_toVec (by decide), BitVec.getLsbD_setWidth]
    simp [show b < 64 from hb]
  case wc n =>
    have hb : b < 3 := hb
    rw [Ctx.write, Ctx.read, vget_putAt_self _ h, getLsbD_toVec (by decide)]
    simp [hb]
  case p n =>
    rw [Ctx.write, Ctx.read, vget_putAt_self _ h, getLsbD_toVec (by decide), BitVec.getLsbD_setWidth]
    simp [show b < 32 from hb]
  all_goals
    rw [Ctx.write, Ctx.read, vget_putAt_self _ h, getLsbD_toVec (by decide), BitVec.getLsbD_setWidth]
    simp [show b < 64 from hb]

/-! ## Where a write lands -/

/-- A register that is written leaves the rest of its context. -/
theorem Ctx.write_frame (x : Ctx) {d : Dest} (v : Vec) (hd : ∀ n, d ≠ .csr n) : x.write d v = { x with regs := (x.write d v).regs } := by
  cases d
  case csr n => exact absurd rfl (hd n)
  all_goals rfl

/-- The bits of its mask alone change in the register that a write names. -/
theorem Ctx.getLsbD_landWrite {x : Ctx} {d : Dest} (h : Present x d) (m v : Vec) {b : Nat} (hb : b < widthOf d) :
    ((x.landWrite d m v).read d).getLsbD b = if m.getLsbD b then v.getLsbD b else (x.read d).getLsbD b := by
  rw [Ctx.landWrite, Ctx.read_write_self h _ hb, getLsbD_mergeBits]

/-- An X register, and a predicate, that a write names is merged with it. -/
theorem Ctx.read64_landWrite_x (x : Ctx) {n : Nat} (h : n < 64) (m v : Vec) :
    (x.landWrite (.x n) m v).read64 (.x n) = mergeBits (x.read64 (.x n)) (v.truncate 64) (m.truncate 64) := by
  rw [Ctx.landWrite, Ctx.read64, Ctx.read64, Ctx.write, Ctx.read, vget_putAt_self _ h, BitVec.truncate_eq_setWidth,
    setWidth_toVec (by decide), BitVec.setWidth_eq]
  exact setWidth_mergeBits ..

theorem Ctx.p_landWrite (x : Ctx) {n : Nat} (h : n < 16) (m v : Vec) :
    vget (x.landWrite (.p n) m v).regs.p n 0 = mergeBits (vget x.regs.p n 0) (v.truncate 32) (m.truncate 32) := by
  rw [Ctx.landWrite, Ctx.write, Ctx.read, vget_putAt_self _ h, BitVec.truncate_eq_setWidth, setWidth_mergeBits,
    setWidth_toVec (by decide), BitVec.setWidth_eq]

/-- A write into a CSR sets it to its value merged with the write's (R71, R81). -/
theorem Ctx.landWrite_csr (x : Ctx) (n : Nat) (m v : Vec) :
    x.landWrite (.csr n) m v = x.setCsr n (mergeBits (x.csrValue n) (v.truncate 64) (m.truncate 64)) := by
  rw [Ctx.landWrite, Ctx.write, Ctx.read, BitVec.truncate_eq_setWidth, setWidth_mergeBits, setWidth_toVec (by decide), BitVec.setWidth_eq]

theorem setWidth_setWidth_self {n k : Nat} (h : n ≤ k) (w : BitVec n) : (w.setWidth k).setWidth n = w := by
  rw [BitVec.setWidth_setWidth_of_le _ h, BitVec.setWidth_eq]

/-- A narrow register within its CSR of 64 bits takes the bits of its own width. -/
theorem setWidth_mergeBits_csr {n : Nat} (h : n ≤ 64) (old : BitVec n) (v m : Vec) :
    (mergeBits (old.setWidth 64) (v.setWidth 64) (m.setWidth 64)).setWidth n = mergeBits old (v.setWidth n) (m.setWidth n) := by
  rw [setWidth_mergeBits, setWidth_setWidth_self h, BitVec.setWidth_setWidth_of_le _ h, BitVec.setWidth_setWidth_of_le _ h]

/-- A flag within its CSR of 64 bits. -/
theorem getLsbD_mergeBits_flag (old : Bool) (v m : Vec) :
    (mergeBits ((BitVec.ofBool old).setWidth 64) (v.setWidth 64) (m.setWidth 64)).getLsbD 0 = if m.getLsbD 0 then v.getLsbD 0 else old := by
  simp [getLsbD_mergeBits, -BitVec.getLsbD_eq_getElem]

/-- LDEPTH as it lands (R388). -/
theorem Ctx.setDepth_le {x : Ctx} {v : Nat} (h : v ≤ x.levels.length) :
    x.setDepth v = { x with levels := x.levels.drop (x.levels.length - v) } := if_pos h

theorem Ctx.setDepth_gt {x : Ctx} {v : Nat} (h : x.levels.length < v) :
    x.setDepth v = { x with
      levels := List.replicate (v - x.levels.length)
        ⟨0, 0, 0, 0, 0, false, 0, 0, (x.levels.head?.map (fun l => l.il)).getD x.baseIl⟩ ++ x.levels } := by
  rw [Ctx.setDepth, if_neg (by omega)]
  cases x.levels <;> rfl

theorem Ctx.setDepth_frame (x : Ctx) (v : Nat) : x.setDepth v = { x with levels := (x.setDepth v).levels } := by
  unfold Ctx.setDepth
  dsimp only
  split <;> rfl

/-- A field of a loop level, by the number of its CSR (R70). -/
theorem Ctx.setCsr_level {x : Ctx} {n : Nat} (lo : 0x040 ≤ n) (hi : n < 0x070) (v : W64) :
    x.setCsr n v = { x with levels := x.levels.modify ((n - 0x040) / 8) (fun l => l.setField ((n - 0x040) % 8) v) } := by
  have : n ≠ 0x018 ∧ n ≠ 0x019 ∧ n ≠ 0x020 ∧ n ≠ 0x021 := by omega
  rw [Ctx.setCsr]
  simp only [this, lo, hi, and_self, ↓reduceIte]
  rw [List.modify_eq_set_getElem?]
  cases x.levels[(n - 0x040) / 8]? <;> rfl

theorem Ctx.csrValue_level {x : Ctx} {n : Nat} (lo : 0x040 ≤ n) (hi : n < 0x070) {l : Level} (h : x.levels[(n - 0x040) / 8]? = some l) :
    x.csrValue n = l.field ((n - 0x040) % 8) := by
  have : n ≠ 0x018 ∧ n ≠ 0x019 ∧ n ≠ 0x020 ∧ n ≠ 0x021 := by omega
  rw [Ctx.csrValue]
  simp only [this, lo, hi, and_self, ↓reduceIte, h]

/-- A number that no writable CSR has names no place. -/
theorem Ctx.setCsr_other {x : Ctx} {n : Nat} (v : W64) (h18 : n ≠ 0x018) (h19 : n ≠ 0x019) (h20 : n ≠ 0x020) (h21 : n ≠ 0x021)
    (hl : ¬ (0x040 ≤ n ∧ n < 0x070)) (h100 : n ≠ 0x100) (h101 : n ≠ 0x101) (h104 : n ≠ 0x104) (h124 : n ≠ 0x124) :
    x.setCsr n v = x := by
  rw [Ctx.setCsr]
  simp only [h18, h19, h20, h21, hl, h100, h101, h104, h124, ↓reduceIte]

/-- A CSR that is set leaves the registers, the PC, the counters, the writes in flight and the traps of its context. -/
theorem Ctx.setCsr_frame (x : Ctx) (n : Nat) (v : W64) :
    x.setCsr n v = { x with csr := (x.setCsr n v).csr, levels := (x.setCsr n v).levels, baseIl := (x.setCsr n v).baseIl } := by
  by_cases hl : 0x040 ≤ n ∧ n < 0x070
  · rw [Ctx.setCsr_level hl.1 hl.2]
  · unfold Ctx.setCsr Ctx.setDepth
    rw [if_neg hl]
    dsimp only
    repeat' split
    all_goals rfl

/-! ## The statement's clauses -/

theorem State.push_core_of_ne (s : State) (lat : Nat) (d : Dest) (m v : Vec) {k : Nat} (h : k ≠ s.cur.1) :
    (s.push lat d m v).core k = s.core k := by
  have hget : (s.push lat d m v).core k = (s.onMe fun x => { x with pend := (s.push lat d m v).me.pend }).core k := by
    rw [State.push, s.pushAt_me]; rfl
  rw [hget]
  exact s.onCore_core_of_ne _ h

/-- Where LDEPTH lands (R388). -/
theorem Ctx.landWrite_depth (x : Ctx) (m v : Vec) :
    x.landWrite (.csr 0x020) m v
      = x.setDepth (mergeBits (BitVec.ofNat 64 x.levels.length) (v.truncate 64) (m.truncate 64)).toNat :=
  x.landWrite_csr 0x020 m v

/-- Where a field of a level lands: that level's field alone is merged (R70, R71, R388). -/
theorem Ctx.landWrite_level (x : Ctx) {n : Nat} (lo : 0x040 ≤ n) (hi : n < 0x070) (m v : Vec) :
    x.landWrite (.csr n) m v = { x with
      levels := x.levels.modify ((n - 0x040) / 8) (fun l =>
        l.setField ((n - 0x040) % 8) (mergeBits (l.field ((n - 0x040) % 8)) (v.truncate 64) (m.truncate 64))) } := by
  rw [Ctx.landWrite_csr, Ctx.setCsr_level lo hi]
  congr 1
  cases h : x.levels[(n - 0x040) / 8]? with
  | none => simp [List.modify_eq_set_getElem?, h]
  | some l => simp [List.modify_eq_set_getElem?, h, Ctx.csrValue_level lo hi h]

/-- LCTL holds its five fields side by side (R70). -/
theorem Level.setField_lctl (l : Level) (v m : Vec) :
    let old : BitVec 17 := BitVec.ofBool l.il ++ l.rrb ++ l.rsz ++ BitVec.ofBool l.prt ++ l.epi
    let c := mergeBits old (v.truncate 17) (m.truncate 17)
    l.setField 4 (mergeBits (l.field 4) (v.truncate 64) (m.truncate 64))
      = { l with epi := c.extractLsb' 0 3, prt := c.getLsbD 3, rsz := c.extractLsb' 4 5, rrb := c.extractLsb' 9 7, il := c.getLsbD 16 } := by
  intro old c
  have hc : (mergeBits (l.field 4) (v.truncate 64) (m.truncate 64)).setWidth 17 = c := setWidth_mergeBits_csr (by decide) old v m
  have hbit : ∀ i < 17, (mergeBits (l.field 4) (v.truncate 64) (m.truncate 64)).getLsbD i = c.getLsbD i := fun i hi => by
    rw [← hc, BitVec.getLsbD_setWidth, decide_eq_true hi, Bool.true_and]
  have hfield : ∀ a k, a + k ≤ 17 → (mergeBits (l.field 4) (v.truncate 64) (m.truncate 64)).extractLsb' a k = c.extractLsb' a k :=
    fun a k h => BitVec.eq_of_getLsbD_eq fun i hi => by
      rw [BitVec.getLsbD_extractLsb', BitVec.getLsbD_extractLsb', hbit _ (by omega)]
  simp only [Level.setField, hbit 3 (by decide), hbit 16 (by decide), hfield 0 3 (by decide), hfield 4 5 (by decide), hfield 9 7 (by decide)]

/-- Settles O52: a push by its frame; a landing in a register by what the register reads as; one in a CSR by the case of setCsr
that its number names. -/
theorem writesInFlightAndLanding : Obligations.WritesInFlightAndLanding := by
  unfold Obligations.WritesInFlightAndLanding
  refine ⟨fun s lat d m v => ⟨rfl, rfl, rfl, rfl, rfl, rfl, fun k hk => s.push_core_of_ne _ _ _ _ hk,
    fun c hc => State.setCtx_ctx?_of_ne s _ fun e => hc (congrArg Prod.snd e), _, s.pushAt_me .., rfl, rfl, rfl, rfl⟩,
    fun x d e m v hd he => ?_, fun x n m v => ?_⟩
  · have hframe := x.write_frame (mergeBits (x.read d) v m) hd
    refine ⟨(congrArg Ctx.pc hframe :), (congrArg Ctx.levels hframe :), (congrArg Ctx.csr hframe :), (congrArg Ctx.counters hframe :),
      (congrArg Ctx.pend hframe :), (congrArg Ctx.traps hframe :), fun h hk hj => x.read_write_of_ne _ hd h hk hj,
      fun h b hb => x.getLsbD_landWrite h m v hb, ?_, ?_, ?_⟩
    · rintro n hn rfl
      exact x.read64_landWrite_x hn m v
    · rintro n hn rfl
      exact Window.get_put_self _ hn _
    · rintro n hn rfl
      exact x.p_landWrite hn m v
  · intro y
    have hy : y = x.setCsr n (mergeBits (x.csrValue n) (v.truncate 64) (m.truncate 64)) := x.landWrite_csr n m v
    have hframe := hy.trans (x.setCsr_frame n _)
    refine ⟨(congrArg Ctx.regs hframe :), (congrArg Ctx.pc hframe :), (congrArg Ctx.st hframe :), (congrArg Ctx.counters hframe :),
      (congrArg Ctx.pend hframe :), (congrArg Ctx.traps hframe :),
      ?_, ?_, ?_, ?_, ?_, ?_, ?_, ?_, ?_, fun lo hi => ?_, fun h18 h19 h20 h21 hl h100 h101 h104 h124 =>
        hy.trans (Ctx.setCsr_other _ h18 h19 h20 h21 hl h100 h101 h104 h124)⟩
    · rintro rfl
      exact hy.trans (congrArg (fun f => { x with csr := { x.csr with fmt := f } }) (setWidth_mergeBits_csr (by decide) ..))
    · rintro rfl
      exact hy.trans (congrArg (fun f => { x with csr := { x.csr with nf := f } }) (getLsbD_mergeBits_flag ..))
    · rintro rfl
      exact hy.trans (congrArg (fun f => { x with baseIl := f }) (getLsbD_mergeBits_flag ..))
    · rintro rfl
      exact hy
    · rintro rfl
      exact hy
    · rintro rfl
      exact hy
    · rintro rfl
      exact hy.trans (congrArg (fun f => { x with csr := { x.csr with fxhr := f } }) (setWidth_mergeBits_csr (by decide) ..))
    · rintro (rfl | ⟨lo, hi⟩)
      · have h := x.landWrite_depth m v
        exact h.trans ((Ctx.setDepth_frame ..).trans (by rw [← h]))
      · exact (x.landWrite_level lo hi m v).trans (by rw [show y = _ from x.landWrite_level lo hi m v])
    · rintro rfl depth
      have h : y = x.setDepth depth := x.landWrite_depth m v
      refine ⟨fun hle => by rw [h, Ctx.setDepth_le hle], fun hgt => ?_⟩
      rw [h, Ctx.setDepth_gt hgt]
      exact ⟨_, rfl, List.length_replicate, fun l hl => List.eq_of_mem_replicate hl⟩
    · rw [show y = _ from x.landWrite_level lo hi m v]
      refine ⟨List.length_modify .., fun j hj => by simp [hj.symm], fun l hl => ?_⟩
      extract_lets takes old c
      have htakes : ∀ f k, (l.setField f (mergeBits (l.field f) (v.truncate 64) (m.truncate 64))) = k → takes f k := by
        rintro f k rfl rfl
        simp [hl]
      exact ⟨htakes 0 _ (congrArg (fun f => { l with count := f }) (setWidth_mergeBits_csr (by decide) ..)), htakes 1 _ rfl, htakes 2 _ rfl,
        htakes 3 _ (congrArg (fun f => { l with index := f }) (setWidth_mergeBits_csr (by decide) ..)), htakes 4 _ (l.setField_lctl v m)⟩

end Sys2Proof.Machine
end

section
/-! What TEND leaves behind: the implicit LEAVE of each group at package scope and the task's signal (R56, R63, R280); MODE and TRAP
(R33, R82, R83). -/

namespace Sys2Proof.Machine

/-! ## Operations put in flight behind those of the issuing context's partition -/

/-- Between s and t the issuing context's partition has got the operations ls, none of them a write, and nothing else that a release
or the context reads has changed. -/
structure State.Appends (s t : State) (ls : List Op) : Prop where
  cores : t.cores = s.cores
  mem : t.mem = s.mem
  cur : t.cur = s.cur
  now : t.now = s.now
  clusters : t.clusters = s.clusters
  part : t.myPart = s.myPart
  myP : t.myP = { s.myP with ops := s.myP.ops ++ ls }
  reads : ∀ o ∈ ls, o.isWrite = false

theorem State.Appends.refl (s : State) : s.Appends s [] :=
  ⟨rfl, rfl, rfl, rfl, rfl, rfl, by rw [List.append_nil], by simp⟩

theorem State.Appends.trans {s t u : State} {ls ms : List Op} (h : s.Appends t ls) (h' : t.Appends u ms) : s.Appends u (ls ++ ms) where
  cores := h'.cores.trans h.cores
  mem := h'.mem.trans h.mem
  cur := h'.cur.trans h.cur
  now := h'.now.trans h.now
  clusters := h'.clusters.trans h.clusters
  part := h'.part.trans h.part
  myP := by rw [h'.myP, h.myP, List.append_assoc]
  reads := by
    intro o ho
    rcases List.mem_append.1 ho with ho | ho
    · exact h.reads o ho
    · exact h'.reads o ho

section
variable {s t : State} {ls : List Op} (h : s.Appends t ls)
include h

theorem State.Appends.t_eq : t.t = s.t := by
  show t.myP.clock.at_ t.now = s.myP.clock.at_ s.now
  rw [h.myP, h.now]

theorem State.Appends.ctx?_eq (k c : Nat) : t.ctx? k c = s.ctx? k c := by
  rw [State.ctx?, State.core, h.cores]; rfl

theorem State.Appends.me_eq : t.me = s.me := by
  rw [State.me, State.ctx, h.ctx?_eq, h.cur]; rfl

/-- Operations that write nothing leave Wd. -/
theorem State.Appends.wd_eq (noHost : Bool) : t.wd t.cur.1 t.cur.2 noHost = s.wd s.cur.1 s.cur.2 noHost := by
  have hnone : ls.filter (fun o => o.core == s.cur.1 && o.ctx == s.cur.2 && o.isWrite && !(noHost && o.isHost)) = [] :=
    List.filter_eq_nil_iff.2 fun o ho => by simp [h.reads o ho]
  show maxOf ((t.myP.ops.filter _).map _) = maxOf ((s.myP.ops.filter _).map _)
  rw [h.myP, h.cur, List.filter_append, hnone, List.append_nil]

/-- In DET a release at package scope takes the same time. -/
theorem State.Appends.release_eq (hd : s.isDet s.myPart = true) :
    (t.releaseAt t.cur.1 t.cur.2 3).1.1 = (s.releaseAt s.cur.1 s.cur.2 3).1.1 := by
  have hflush : t.flushCost t.cur.1 = s.flushCost s.cur.1 := by
    have hcl : t.cluster (clusterOf t.cur.1) = s.cluster (clusterOf s.cur.1) := by
      rw [State.cluster, State.cluster, h.clusters, h.cur]
    have hmult : t.mult (t.partOf t.cur.1) = s.mult (s.partOf s.cur.1) := congrArg (fun p => p.clock.mult) h.myP
    rw [State.flushCost, State.flushCost, hcl, hmult]
  have hdt : t.isDet t.myPart = true := by
    show t.myP.cfg.det = true
    rw [h.myP]; exact hd
  show max (t.t + 1) (t.wd t.cur.1 t.cur.2 true) + (t.figure t.myPart (t.flushCost t.cur.1)).1
    = max (s.t + 1) (s.wd s.cur.1 s.cur.2 true) + (s.figure s.myPart (s.flushCost s.cur.1)).1
  rw [State.figure_det hdt, State.figure_det hd, h.t_eq, h.wd_eq, hflush]

end

/-- An operation that is no write put in flight in the issuing context's partition. -/
theorem State.addOp_appends (s : State) (due : Option Nat) (core ctx issued : Nat) {kind : OpKind}
    (hk : ∀ o : Op, o.kind = kind → o.isWrite = false) :
    s.Appends (s.addOp s.myPart due core ctx issued kind)
      [⟨s.nextId, due, core, ctx, issued, (s.ctx core ctx).st == .handler, kind.takesEntry, kind⟩] where
  cores := rfl
  mem := rfl
  cur := rfl
  now := rfl
  clusters := rfl
  part := s.addOp_myPart ..
  myP := State.onPart_myP (s := s) (f := fun x => { x with ops := x.ops ++ [_] }) rfl rfl
  reads := by
    intro o ho
    rw [List.mem_singleton.1 ho]
    exact hk _ rfl

/-- A release takes a free figure at most. -/
theorem State.releaseAt_fresh (s : State) (k c scope : Nat) : ∃ n, (s.releaseAt k c scope).2 = { s with fresh := n } := by
  have hfigure : ∀ p fig, ∃ n, (s.figure p fig).2 = { s with fresh := n } := fun p fig => by
    unfold State.figure
    split
    · exact ⟨_, rfl⟩
    · exact ⟨_, rfl⟩
  unfold State.releaseAt
  extract_lets t f
  split
  · exact ⟨_, rfl⟩
  · exact ⟨_, rfl⟩
  · exact ⟨_, rfl⟩
  · exact hfigure ..
  · exact hfigure ..

/-! ## The implicit LEAVE (R63) -/

/-- The LEAVE of one group: a release at package scope that its arrival carries. -/
def State.leave (k c : Nat) (s : State) (g : Nat) : State :=
  (s.releaseAt k c 3).2.addOp (s.partOf k) (some (s.releaseAt k c 3).1.1) k c (s.cyc (s.partOf k))
    (.arrival g true 3 0 (s.releaseAt k c 3).1.2)

theorem State.leaveAll_eq (s : State) (k c : Nat) : s.leaveAll k c = (s.ctx k c).groups.foldl (State.leave k c) s := rfl

/-- An arrival by which the context leaves group g, as of state s. -/
def Op.LeavesGroup (o : Op) (s : State) (g : Nat) : Prop :=
  ∃ tail, o.core = s.cur.1 ∧ o.ctx = s.cur.2 ∧ o.kind = .arrival g true 3 0 tail
    ∧ (s.isDet s.myPart = true → o.due = some (s.releaseAt s.cur.1 s.cur.2 3).1.1)

theorem State.leave_appends (s : State) (g : Nat) :
    ∃ o, s.Appends (s.leave s.cur.1 s.cur.2 g) [o] ∧ o.LeavesGroup s g := by
  obtain ⟨n, hn⟩ := s.releaseAt_fresh s.cur.1 s.cur.2 3
  have happ := ({ s with fresh := n }).addOp_appends (some (s.releaseAt s.cur.1 s.cur.2 3).1.1) s.cur.1 s.cur.2 s.t
    (kind := .arrival g true 3 0 (s.releaseAt s.cur.1 s.cur.2 3).1.2) (fun o ho => by simp [Op.isWrite, ho])
  rw [State.leave, hn]
  exact ⟨_, ⟨happ.cores, happ.mem, happ.cur, happ.now, happ.clusters, happ.part, happ.myP, happ.reads⟩,
    _, rfl, rfl, rfl, fun _ => rfl⟩

theorem Op.LeavesGroup.of_appends {s t : State} {ls : List Op} (h : s.Appends t ls) {o : Op} {g : Nat} (ho : o.LeavesGroup t g) :
    o.LeavesGroup s g := by
  obtain ⟨tail, hcore, hctx, hkind, hdue⟩ := ho
  refine ⟨tail, hcore.trans (congrArg Prod.fst h.cur), hctx.trans (congrArg Prod.snd h.cur), hkind, fun hd => ?_⟩
  have hdt : t.isDet t.myPart = true := by
    show t.myP.cfg.det = true
    rw [h.myP]; exact hd
  rw [hdue hdt, h.release_eq hd]

/-- The LEAVE of several groups: one arrival for each, in their order. -/
theorem State.leaves_append (s : State) (gs : List Nat) :
    ∃ ls, s.Appends (gs.foldl (State.leave s.cur.1 s.cur.2) s) ls ∧ ls.length = gs.length
      ∧ ∀ i g : Nat, gs[i]? = some g → ∃ o : Op, ls[i]? = some o ∧ o.LeavesGroup s g := by
  induction gs generalizing s with
  | nil => exact ⟨[], .refl s, rfl, by simp⟩
  | cons g gs ih =>
    obtain ⟨o, happ, ho⟩ := s.leave_appends g
    obtain ⟨ls, hrest, hlen, hget⟩ := ih (s.leave s.cur.1 s.cur.2 g)
    rw [happ.cur] at hrest
    refine ⟨o :: ls, happ.trans hrest, congrArg (· + 1) hlen, fun i g' hi => ?_⟩
    cases i with
    | zero =>
      cases hi
      exact ⟨o, rfl, ho⟩
    | succ i =>
      obtain ⟨o', hls, ho'⟩ := hget i g' hi
      exact ⟨o', hls, .of_appends happ ho'⟩

/-! ## The signal of a task (R280) -/

theorem State.signalTask_signalled {s : State} (h : s.me.task.signalled = true) : s.signalTask s.cur.1 s.cur.2 = s :=
  if_pos h

/-- The signal of a task that has not made it: it is due once the context's writes have performed. -/
theorem State.signalTask_eq {s : State} (h : s.me.task.signalled = false) :
    s.signalTask s.cur.1 s.cur.2 =
      (s.onMe (fun x => { x with task := { x.task with signalled := true } })).addOp s.myPart
        (some (max (s.t + 1) (s.wd s.cur.1 s.cur.2 false))) s.cur.1 s.cur.2 s.t (.signal s.me.task.launch s.me.task.index) :=
  if_neg (by rw [← State.me.eq_1, h]; decide)

/-- After its signal the context is as before but for the mark that it has signalled, and its partition has the signal in flight. -/
theorem State.signalTask_spec {s : State} (hx : s.ctx? s.cur.1 s.cur.2 = some s.me) :
    ∃ sg, (s.signalTask s.cur.1 s.cur.2).ctx? s.cur.1 s.cur.2 = some { s.me with task := { s.me.task with signalled := true } }
      ∧ (s.signalTask s.cur.1 s.cur.2).cur = s.cur ∧ (s.signalTask s.cur.1 s.cur.2).mem = s.mem
      ∧ (s.signalTask s.cur.1 s.cur.2).myP.ops = s.myP.ops ++ sg ∧ (s.me.task.signalled = true → sg = [])
      ∧ (s.me.task.signalled = false → ∃ o : Op, sg = [o] ∧ o.core = s.cur.1 ∧ o.ctx = s.cur.2
        ∧ o.due = some (max (s.t + 1) (s.wd s.cur.1 s.cur.2 false)) ∧ o.kind = .signal s.me.task.launch s.me.task.index) := by
  cases h : s.me.task.signalled with
  | true =>
    rw [State.signalTask_signalled h]
    exact ⟨[], by rw [← h]; exact hx, rfl, rfl, (List.append_nil _).symm, fun _ => rfl, fun h => absurd h (by decide)⟩
  | false =>
    rw [State.signalTask_eq h]
    have happ := (s.onMe (fun x => { x with task := { x.task with signalled := true } })).addOp_appends
      (some (max (s.t + 1) (s.wd s.cur.1 s.cur.2 false))) s.cur.1 s.cur.2 s.t
      (kind := .signal s.me.task.launch s.me.task.index) (fun o ho => by simp [Op.isWrite, ho])
    refine ⟨_, (s.setCtx_ctx? _ _ _ :), happ.cur, happ.mem, congrArg Partition.ops happ.myP, fun h => absurd h (by decide),
      fun _ => ⟨_, rfl, rfl, rfl, rfl, rfl⟩⟩

/-! ## CLOSING (R56) -/

theorem State.ctx?_me {s : State} (h : s.ctx? s.cur.1 s.cur.2 ≠ none) : s.ctx? s.cur.1 s.cur.2 = some s.me := by
  obtain ⟨x, hx⟩ := Option.ne_none_iff_exists'.1 h
  rw [State.me, State.ctx, hx, Option.getD_some]

theorem State.me_of_cur {s : State} {cur : Nat × Nat} (h : s.cur = cur) : s.me = s.ctx cur.1 cur.2 := by rw [State.me, h]

/-- A context that gives up the issue slot stays as it is. -/
@[simp] theorem State.endRun_ctx? (s : State) (k c j d : Nat) : (s.endRun k c).ctx? j d = s.ctx? j d := by
  unfold State.endRun State.ctx?
  by_cases hj : j = k
  · subst hj
    rw [State.onCore_core]
    split <;> rfl
  · rw [State.onCore_core_of_ne _ _ hj]

/-- A context that passes to CLOSING has left its groups and signalled; its loops are gone (R56, R63, R280). -/
theorem State.toClosing_spec {s : State} (h : s.ctx? s.cur.1 s.cur.2 ≠ none) :
    ∃ ls sg, (s.toClosing s.cur.1 s.cur.2).cur = s.cur
      ∧ (s.toClosing s.cur.1 s.cur.2).me
        = { s.me with st := .closing, levels := [], task := { s.me.task with signalled := true } }
      ∧ (s.toClosing s.cur.1 s.cur.2).myP.ops = s.myP.ops ++ ls ++ sg ∧ ls.length = s.me.groups.length
      ∧ (∀ i g : Nat, s.me.groups[i]? = some g → ∃ o : Op, ls[i]? = some o ∧ o.LeavesGroup s g)
      ∧ (s.me.task.signalled = true → sg = [])
      ∧ (s.me.task.signalled = false → ∃ o : Op, sg = [o] ∧ o.core = s.cur.1 ∧ o.ctx = s.cur.2
        ∧ o.due = some (max (s.t + 1) (s.wd s.cur.1 s.cur.2 false)) ∧ o.kind = .signal s.me.task.launch s.me.task.index) := by
  obtain ⟨ls, hleft, hlen, hget⟩ := s.leaves_append s.me.groups
  rw [State.toClosing, State.leaveAll_eq, ← State.me.eq_1]
  generalize s.me.groups.foldl _ s = r at hleft
  obtain ⟨sg, hctx, hcur, -, hops, hnone, hsome⟩ := State.signalTask_spec (s := r)
    (State.ctx?_me (by rw [hleft.cur, hleft.ctx?_eq]; exact h))
  rw [hleft.cur] at hctx hcur hops hsome
  rw [hleft.me_eq] at hctx hnone hsome
  rw [hleft.t_eq, ← hleft.cur, hleft.wd_eq, hleft.cur] at hsome
  refine ⟨ls, sg, ?_, ?_, ?_, hlen, hget, hnone, hsome⟩
  · rw [State.onCtx_some hctx]
    exact hcur
  · rw [State.onCtx_some hctx]
    refine Eq.trans (State.me_of_cur (cur := s.cur) hcur) ?_
    rw [State.ctx, State.endRun_ctx?, State.setCtx_ctx?]
    rfl
  · rw [State.onCtx_some hctx]
    exact hops.trans (by rw [hleft.myP])

/-! ## TEND, MODE, TRAP -/

/-- MODE leaves the innermost level, or the base level, with its IL. -/
theorem Ctx.setIl_spec {x : Ctx} (h : x.st = .bound) (il : Bool) :
    (x.setIl il).il = il ∧ (x.setIl il).regs = x.regs ∧ (x.setIl il).pc = x.pc := by
  unfold Ctx.setIl Ctx.il
  split
  next hl => simp [h, hl]
  next => simp [h]

/-- Outside handler mode a form of BOUND alone has its meaning. -/
theorem OpSem.outsideHandler_bound {s : State} (h : s.me.st = .bound) (o : OpSem) : OpSem.outsideHandler s o = o :=
  if_neg (by rw [h]; decide)

/-- A completion trap that no handler bundle raised is pending on its context. -/
theorem State.raise_eq (s : State) (k c code : Nat) (info : W64) (slot : Nat) :
    s.raise k c code info slot false
      = s.onCtx k c (fun x => { x with traps := x.traps ++ [⟨code, info, s.cyc (s.partOf k), 0, false, slot, 0, none, none⟩] }) := rfl

theorem tend_runs {s : State} {tt : TT} (h : s.lane0 tt = true) :
    Runs (.tend tt) s ((s.toClosing s.cur.1 s.cur.2).onMe (fun x => { x with moved := true })) := by
  show (tendSem tt s).run slotS [] s = _
  rw [tendSem, OpSem.guarded_on h, OpSem.run_pure]

theorem mode_runs {s : State} {tt : TT} (h : s.lane0 tt = true) (hst : s.me.st = .bound) (il : Bool) :
    Runs (.mode tt il) s (s.onMe (fun x => x.setIl il)) := by
  show (modeSem tt il s).run slotS [] s = _
  rw [modeSem, OpSem.outsideHandler_bound hst, OpSem.guarded_on h, OpSem.run_pure]

theorem trap_runs {s : State} {tt : TT} (h : s.lane0 tt = true) (hst : s.me.st = .bound) (code : BitVec 16) :
    Runs (.trap tt code) s (s.raise s.cur.1 s.cur.2 0x89 (code.zeroExtend 64) slotS false) := by
  show (trapSem tt code s).run slotS [] s = _
  rw [trapSem, OpSem.outsideHandler_bound hst, OpSem.guarded_on h, OpSem.run_pure]

/-- Settles O10: TEND by what CLOSING leaves of a context; MODE and TRAP by the context that they change. -/
theorem taskEndModeTrap : Obligations.TaskEndModeTrap := by
  unfold Obligations.TaskEndModeTrap
  intro s tt il code h hst hctx
  refine ⟨?_, ⟨_, mode_runs h hst il, ?_⟩, ⟨_, trap_runs h hst code, ?_⟩⟩
  · obtain ⟨ls, sg, hcur, hme, hops, hlen, hget, hnone, hsome⟩ := State.toClosing_spec hctx
    refine ⟨_, ls, sg, tend_runs h, ?_, ?_, ?_, ?_, ?_, hlen, fun i g hi => ?_, hnone, hsome⟩
    · rw [State.onMe_me, hme]
    · rw [State.onMe_me, hme]
    · rw [State.onMe_mem, State.toClosing_mem]
    · rw [State.onMe_me, hme]
    · rw [State.onMe_myP, hops]
    · obtain ⟨o, hls, tail, hcore, hctx, hkind, hdue⟩ := hget i g hi
      exact ⟨o, tail, hls, hcore, hctx, hkind, hdue⟩
  · obtain ⟨hil, hregs, hpc⟩ := Ctx.setIl_spec hst il
    rw [State.onMe_me]
    exact ⟨hil, hregs, hpc, rfl⟩
  · rw [State.raise_eq, State.onCtx_some (State.ctx?_me hctx), State.me, State.setCtx_cur, State.setCtx_ctx]
    exact ⟨rfl, rfl, rfl, _, rfl, rfl, rfl, rfl⟩

end Sys2Proof.Machine
end

section
/-! The header that 64 bytes of code decode to, and what a context fetches there (R19, R20, R37, R52). -/

namespace Sys2Proof

/-! ## The bytes of 512 bits (R5) -/

/-- The bytes k, …, k + n - 1 of a bit vector, read back lowest first. -/
theorem littleEndian_extract {m : Nat} (w : BitVec m) (n k : Nat) :
    littleEndian ((List.range' k n).map (fun i => w.extractLsb' (8 * i) 8)) = w.toNat / 2 ^ (8 * k) % 2 ^ (8 * n) := by
  induction n generalizing k with
  | zero => simp [littleEndian, Nat.mod_one]
  | succ n ih =>
    rw [List.range'_succ, List.map_cons, littleEndian, ih, BitVec.extractLsb'_toNat, Nat.shiftRight_eq_div_pow,
      Nat.mul_add, Nat.mul_add, Nat.add_comm (8 * n), Nat.pow_add, Nat.pow_add, Nat.mul_one, ← Nat.div_div_eq_div_mul, Nat.mod_mul]

theorem ofNat_littleEndian_bundleBytes (w : BitVec 512) : BitVec.ofNat 512 (littleEndian (bundleBytes w)) = w := by
  rw [bundleBytes, List.range_eq_range', littleEndian_extract, Nat.mul_zero, Nat.pow_zero, Nat.div_one, Nat.mod_eq_of_lt w.isLt,
    BitVec.ofNat_toNat, BitVec.setWidth_eq]

theorem decode_bundleBytes (w : BitVec 512) : decode (bundleBytes w) = decodeBits w := by
  rw [decode, if_pos (by simp [bundleBytes]), ofNat_littleEndian_bundleBytes]

/-! ## Bundles that decode -/

theorem except_bind_eq_ok {ε α β : Type} {x : Except ε α} {f : α → Except ε β} {b : β} (h : x >>= f = .ok b) :
    ∃ a, x = .ok a ∧ f a = .ok b := by
  cases x with
  | error e => cases h
  | ok a => exact ⟨a, rfl, h⟩

/-- A bundle that decodes carries the header of its bits, and that header passes the checks of R37. -/
theorem decodeBits_eq_ok {w : BitVec 512} {b : Bundle} (h : decodeBits w = .ok b) :
    b.hdr = splitHeader w ∧ checkHeader b.hdr b.ops.length = none := by
  unfold decodeBits at h
  iterate 9 obtain ⟨_, -, h⟩ := except_bind_eq_ok h
  dsimp only at h
  split at h
  next => cases h
  next hc =>
    cases h
    exact ⟨rfl, hc⟩

theorem decode_error_of_checkHeader {w : BitVec 512} (h : ∀ n, checkHeader (splitHeader w) n ≠ none) :
    ∃ e, decode (bundleBytes w) = .error e := by
  rw [decode_bundleBytes]
  cases hd : decodeBits w with
  | error e => exact ⟨e, rfl⟩
  | ok b =>
    obtain ⟨hhdr, hcheck⟩ := decodeBits_eq_ok hd
    exact absurd (hhdr ▸ hcheck) (h _)

theorem checkHeader_ne_none {h : Header} (hbad : h.gap = 0 ∨ 2 ≤ h.form.toNat ∨ h.form = 1 ∧ (h.stop || h.host || h.pre || h.yield) = true)
    (n : Nat) : checkHeader h n ≠ none := by
  unfold checkHeader
  by_cases hg : h.gap = 0
  · rw [if_pos hg]; simp
  · rw [if_neg hg]
    by_cases hf : h.form.toNat > 1
    · rw [if_pos hf]; simp
    · rw [if_neg hf]
      obtain ⟨hform, hflags⟩ := (hbad.resolve_left hg).resolve_left (by omega)
      rw [if_pos ⟨hform, by simpa [or_assoc, or_left_comm] using Or.inl (b := n > 1) hflags⟩]
      simp

end Sys2Proof

namespace Sys2Proof.Machine

/-! ## Fetch (R19, R52) -/

/-- Inside the code range a context fetches what the bytes at its PC decode to. -/
theorem State.fetch_codeBytes {s : State} {k c : Nat} {x : Ctx} {bs : List Byte} (hx : s.ctx? k c = some x)
    (ht : x.targetOk x.pc = true) (hbs : s.codeBytes (s.partOf k) x.pc.toNat = some bs) :
    (∀ b, decode bs = .ok b → s.fetch k c = .bundle b) ∧ ((∃ e, decode bs = .error e) → ∃ g n, s.fetch k c = .illegal g n) := by
  have hctx : s.ctx k c = x := by rw [State.ctx, hx, Option.getD_some]
  unfold State.fetch State.fetchAt
  rw [hctx, if_pos ht, hbs]
  refine ⟨fun b hb => ?_, fun ⟨e, he⟩ => ?_⟩
  · simp only [hb]
  · simp only [he]
    exact ⟨_, _, rfl⟩

theorem headerFates : HeaderFates := by
  refine ⟨fun w => ?_, fun s k c x bs hx ht hbs => State.fetch_codeBytes hx ht hbs⟩
  extract_lets bad flags
  have hbad : ((splitHeader w).gap = 0 ∨ 2 ≤ (splitHeader w).form.toNat ∨ (splitHeader w).form = 1 ∧ flags = true) → bad :=
    fun h => decode_error_of_checkHeader (checkHeader_ne_none h)
  exact ⟨fun h => hbad (.inl h), fun h => hbad (.inr (.inl h)), fun h h' => hbad (.inr (.inr ⟨h, h'⟩)),
    fun b hb => (decodeBits_eq_ok (decode_bundleBytes w ▸ hb)).1⟩

end Sys2Proof.Machine
end

section
/-! A context at its boundary: what lands there, and when it takes no trap (R27, R28, R79, R285, R288). -/

namespace Sys2Proof.Machine

/-! ## Sorting -/

theorem insertBy_perm {α : Type} (key : α → Nat) (a : α) (l : List α) : (insertBy key a l).Perm (a :: l) := by
  induction l with
  | nil => exact .refl _
  | cons b l ih =>
    rw [insertBy]
    split
    · exact .refl _
    · exact (ih.cons b).trans (.swap a b l)

theorem sortBy_perm {α : Type} (key : α → Nat) (l : List α) : (sortBy key l).Perm l := by
  have hfold : ∀ acc : List α, (l.foldl (fun acc a => insertBy key a acc) acc).Perm (acc ++ l) := by
    induction l with
    | nil => exact fun acc => by rw [List.append_nil]; exact .refl _
    | cons a l ih =>
      exact fun acc => (ih _).trans (((insertBy_perm key a acc).append_right l).trans List.perm_middle.symm)
  exact hfold []

/-! ## The writes that land (R28) -/

theorem Ctx.landing_perm (x : Ctx) (cy : Nat) : (x.landing cy).Perm (x.pend.filter (fun w => w.lands cy)) :=
  (sortBy_perm ..).trans (sortBy_perm ..)

theorem Ctx.mem_landing {x : Ctx} {cy : Nat} {w : Write} : w ∈ x.landing cy ↔ w ∈ x.pend ∧ w.lands cy = true := by
  rw [(x.landing_perm cy).mem_iff, List.mem_filter]

/-- A write that lands changes registers, CSRs, loop levels and the base level alone. -/
theorem Ctx.landWrite_frame (x : Ctx) (d : Dest) (m v : Vec) :
    ∃ regs csr levels baseIl, x.landWrite d m v = { x with regs := regs, csr := csr, levels := levels, baseIl := baseIl } := by
  by_cases hd : ∃ n, d = .csr n
  · obtain ⟨n, rfl⟩ := hd
    rw [Ctx.landWrite_csr]
    exact ⟨_, _, _, _, Ctx.setCsr_frame ..⟩
  · exact ⟨_, _, _, _, Ctx.write_frame _ _ fun n h => hd ⟨n, h⟩⟩

/-- What no landing write can change stands in the context with every due write landed as in the context. -/
theorem Ctx.landed_keeps {γ : Type} (g : Ctx → γ)
    (hg : ∀ (y : Ctx) regs csr levels baseIl, g { y with regs := regs, csr := csr, levels := levels, baseIl := baseIl } = g y)
    (x : Ctx) (cy : Nat) : g (x.landed cy) = g { x with pend := x.pend.filter (fun w => !w.lands cy) } :=
  foldl_keeps _ g (fun y w => by
    obtain ⟨regs, csr, levels, baseIl, h⟩ := y.landWrite_frame w.dest w.mask w.value
    rw [h, hg]) _ _

@[simp] theorem Ctx.landed_st (x : Ctx) (cy : Nat) : (x.landed cy).st = x.st := Ctx.landed_keeps Ctx.st (fun _ _ _ _ _ => rfl) x cy
@[simp] theorem Ctx.landed_group (x : Ctx) (cy : Nat) : (x.landed cy).group = x.group :=
  Ctx.landed_keeps Ctx.group (fun _ _ _ _ _ => rfl) x cy
@[simp] theorem Ctx.landed_pending (x : Ctx) (cy : Nat) : (x.landed cy).pending = x.pending :=
  Ctx.landed_keeps Ctx.pending (fun _ _ _ _ _ => rfl) x cy
@[simp] theorem Ctx.landed_pend (x : Ctx) (cy : Nat) : (x.landed cy).pend = x.pend.filter (fun w => !w.lands cy) :=
  Ctx.landed_keeps Ctx.pend (fun _ _ _ _ _ => rfl) x cy

/-! ## Traps at the boundary (R79, R285, R288) -/

theorem State.ctx_eq {s : State} {k c : Nat} {x : Ctx} (h : s.ctx? k c = some x) : s.ctx k c = x := by
  rw [State.ctx, h, Option.getD_some]

/-- Where no landing write carries a NONFINITE, none is raised. -/
theorem State.raiseDue_none {s : State} {k c : Nat} (h : ∀ w ∈ (s.ctx k c).landing (s.cyc (s.partOf k)), w.trap = none) :
    s.raiseDue k c = s := by
  have hnil : ((s.ctx k c).landing (s.cyc (s.partOf k))).filter (fun w => w.trap.isSome) = [] :=
    List.filter_eq_nil_iff.2 fun w hw => by simp [h w hw]
  simp [State.raiseDue, hnil]

theorem firstTrap_eq_none {l : List PendTrap} : firstTrap l = none ↔ l = [] := by
  cases l with
  | nil => simp [firstTrap]
  | cons a r =>
    simp only [firstTrap, reduceCtorEq, iff_false]
    split
    · simp
    · split <;> simp

/-- A context takes no trap exactly where none is there that it may take. -/
theorem Ctx.nextTrap_eq_none {x : Ctx} : x.nextTrap = none ↔ x.takable = [] := by
  rw [← firstTrap_eq_none]
  unfold Ctx.nextTrap
  split
  next h => simp [h]
  next h => simp [h]

theorem State.enterTrap_eq_none {s : State} {k c : Nat} :
    s.enterTrap k c = none ↔ ((s.raiseDue k c).ctx k c).takable = [] := by
  rw [← Ctx.nextTrap_eq_none]
  unfold State.enterTrap
  extract_lets r x
  split
  next h => simp [x, r, h]
  next h => simp [x, r, h]

/-- A context outside its handler gets a trap more for each NONFINITE. -/
theorem State.foldl_raise_traps {k c : Nat} (ws : List Write) {s : State} {x : Ctx} (h : s.ctx? k c = some x) (hst : x.st ≠ .handler) :
    ∃ ts, ts.length = ws.length
      ∧ (ws.foldl (fun s w => s.raiseNonFinite k c (w.trap.getD (0, 0)).1 (w.trap.getD (0, 0)).2 w.handler none) s).ctx? k c
        = some { x with traps := x.traps ++ ts } := by
  induction ws generalizing s x with
  | nil => exact ⟨[], rfl, by rw [List.append_nil]; exact h⟩
  | cons w ws ih =>
    have hstep : ∃ e, s.raiseNonFinite k c (w.trap.getD (0, 0)).1 (w.trap.getD (0, 0)).2 w.handler none
        = s.setCtx k c { x with traps := x.traps ++ [e] } := by
      refine ⟨_, (if_neg ?_).trans (State.onCtx_some h _)⟩
      rw [State.ctx_eq h]
      simp [hst]
    obtain ⟨e, he⟩ := hstep
    obtain ⟨ts, hlen, hts⟩ := ih (s := s.setCtx k c { x with traps := x.traps ++ [e] }) (State.setCtx_ctx? ..) hst
    refine ⟨e :: ts, congrArg (· + 1) hlen, ?_⟩
    rw [List.foldl_cons, he, hts, List.append_assoc]
    rfl

/-- A BOUND context that issues bundles and takes no trap at its boundary has no NONFINITE that lands there. -/
theorem State.raiseDue_of_enterTrap {s : State} {k c : Nat} {x : Ctx} (h : s.ctx? k c = some x) (hst : x.st = .bound)
    (hpre : x.preempt.hasLanded = false) (hnone : s.enterTrap k c = none) : s.raiseDue k c = s := by
  refine State.raiseDue_none fun w hw => ?_
  by_contra htrap
  have hmem : w ∈ ((s.ctx k c).landing (s.cyc (s.partOf k))).filter (fun w => w.trap.isSome) :=
    List.mem_filter.2 ⟨hw, Option.isSome_iff_ne_none.2 htrap⟩
  have hne : (((s.ctx k c).landing (s.cyc (s.partOf k))).filter (fun w => w.trap.isSome)).isEmpty = false := by
    rw [List.isEmpty_eq_false_iff]
    exact List.ne_nil_of_mem hmem
  rw [State.ctx_eq h] at hne hmem
  obtain ⟨ts, hlen, hts⟩ := State.foldl_raise_traps (k := k) (c := c)
    ((x.landing (s.cyc (s.partOf k))).filter (fun w => w.trap.isSome))
    (s := s.setCtx k c { x with pend := x.pend.map (fun w => if w.lands (s.cyc (s.partOf k)) then { w with trap := none } else w) })
    (State.setCtx_ctx? ..) (by rw [hst]; decide)
  rw [State.enterTrap_eq_none] at hnone
  unfold State.raiseDue at hnone
  simp only [State.ctx_eq h, hne, Bool.false_eq_true, ↓reduceIte] at hnone
  rw [State.ctx_eq hts] at hnone
  simp only [Ctx.takable, hpre, hst, Bool.false_eq_true, ↓reduceIte, reduceCtorEq, List.append_eq_nil_iff] at hnone
  rw [hnone.2, List.length_nil] at hlen
  exact absurd (List.length_eq_zero_iff.1 hlen.symm) (List.ne_nil_of_mem hmem)

/-- A context that issues bundles, whose gap has elapsed and that has no trap pending or landing, stands at its boundary. -/
theorem State.atBoundary_of {s : State} {k c : Nat} {x : Ctx} (h : s.ctx? k c = some x) (hlive : x.live = true)
    (hcy : s.boundary k c ≤ s.cyc (s.partOf k)) (htraps : x.traps = []) (hpend : ∀ w ∈ x.pend, w.trap = none) :
    s.atBoundary k c = true := by
  have hdue : s.raiseDue k c = s := State.raiseDue_none fun w hw => hpend w (Ctx.mem_landing.1 (State.ctx_eq h ▸ hw)).1
  have hnone : s.enterTrap k c = none := by
    rw [State.enterTrap_eq_none, hdue, State.ctx_eq h]
    simp [Ctx.takable, htraps]
  simp [State.atBoundary, State.ctx_eq h, hlive, hcy, hnone]

theorem State.atBoundary_iff {s : State} {k c : Nat} {x : Ctx} (h : s.ctx? k c = some x) :
    s.atBoundary k c = true ↔ x.live = true ∧ s.boundary k c ≤ s.cyc (s.partOf k) ∧ s.enterTrap k c = none := by
  simp [State.atBoundary, State.ctx_eq h, and_assoc]

/-- After a bundle the next is GAP cycles away (R26, R30). -/
theorem State.boundary_of_lastIssue {s : State} {k c u : Nat} {x : Ctx} {b : Bundle} (h : s.ctx? k c = some x)
    (hf : s.fetch k c = .bundle b) (hu : x.lastIssue = some u) : s.boundary k c = u + b.hdr.gap.toNat := by
  rw [State.boundary, State.ctx_eq h, earliest, hu, hf]
  rfl

end Sys2Proof.Machine
end

section
/-! What raising the NONFINITE of the writes that land, and using the issue slot, leave as it is (R18, R79, R290). -/

namespace Sys2Proof.Machine

/-! ## The writes whose NONFINITE is raised -/

/-- A write that lands carries its NONFINITE no more. -/
def Write.quiet (cy : Nat) (w : Write) : Write := if w.lands cy then { w with trap := none } else w

theorem Write.quiet_lands (cy : Nat) (w : Write) : (Write.quiet cy w).lands cy = w.lands cy := by unfold Write.quiet; split <;> rfl
theorem Write.quiet_land (cy : Nat) (w : Write) : (Write.quiet cy w).land = w.land := by unfold Write.quiet; split <;> rfl
theorem Write.quiet_seq (cy : Nat) (w : Write) : (Write.quiet cy w).seq = w.seq := by unfold Write.quiet; split <;> rfl

theorem filter_map_quiet (cy : Nat) (ws : List Write) :
    (ws.map (Write.quiet cy)).filter (fun w => !w.lands cy) = ws.filter (fun w => !w.lands cy) := by
  have hcomp : (fun w : Write => !w.lands cy) ∘ Write.quiet cy = fun w => !w.lands cy :=
    funext fun w => congrArg not (w.quiet_lands cy)
  rw [List.filter_map, hcomp]
  refine (List.map_congr_left fun w hw => ?_).trans (List.map_id _)
  have hw := (List.mem_filter.1 hw).2
  simp only [Bool.not_eq_true'] at hw
  simp [Write.quiet, hw]

/-- Where no write that lands carries a NONFINITE, all stay as they are. -/
theorem Ctx.map_quiet {x : Ctx} {cy : Nat} (h : ∀ w ∈ x.landing cy, w.trap = none) : x.pend.map (Write.quiet cy) = x.pend := by
  refine (List.map_congr_left fun w hw => ?_).trans (List.map_id _)
  unfold Write.quiet
  split
  next hlands => exact congrArg (fun o => { w with trap := o }) (h w (Ctx.mem_landing.2 ⟨hw, hlands⟩)).symm
  · rfl

/-! ## What raising traps and using the issue slot leave as it is -/

theorem amSet_amSet {α : Type} (m : AMap α) (k : Nat) (a b : α) : amSet (amSet m k a) k b = amSet m k b := by
  induction m with
  | nil => simp [amSet]
  | cons e r ih =>
    obtain ⟨j, d⟩ := e
    by_cases hj : j = k
    · simp [amSet, hj]
    · by_cases hlt : k < j
      · simp [amSet, hj, hlt]
      · simp [amSet, hj, hlt, ih]

/-- What is read of a map's values does not change where a value is set to one that reads alike. -/
theorem amSet_map_congr {α β : Type} {g : α → β} (m : AMap α) (k : Nat) {a b : α} (h : g a = g b) :
    (amSet m k a).map (fun e => g e.2) = (amSet m k b).map (fun e => g e.2) := by
  induction m with
  | nil => simp [amSet, h]
  | cons e r ih =>
    obtain ⟨j, d⟩ := e
    rw [amSet, amSet]
    split
    · simp [h]
    · split
      · simp [h]
      · simp [ih]

/-- A change of a core's partition that leaves its state, its clusters and its clock leaves the core that partition and its cycle. -/
theorem State.onPart_cyc_partOf (s : State) (k : Nat) {f : Partition → Partition} (hst : ∀ q, (f q).st = q.st)
    (hcfg : ∀ q, (f q).cfg = q.cfg) (hclock : ∀ q, (f q).clock = q.clock) :
    (s.onPart (s.partOf k) f).partOf k = s.partOf k ∧ (s.onPart (s.partOf k) f).cyc (s.partOf k) = s.cyc (s.partOf k) := by
  refine ⟨State.onPart_myPart (s := { s with cur := (k, 0) }) (hst _) (hcfg _), ?_⟩
  rw [State.cyc, State.onPart_part, hclock]
  rfl

/-- From s to t nothing has changed but context c of core k, the core's issue slot, the events of a partition and its drains in flight,
and the count of numbers. -/
structure State.Raised (s t : State) (k c : Nat) : Prop where
  now : t.now = s.now
  mem : t.mem = s.mem
  clusters : t.clusters = s.clusters
  queues : t.queues = s.queues
  partOf : t.partOf k = s.partOf k
  others : ∀ j, j ≠ k → t.core j = s.core j
  core : ∃ ctxs run last, t.core k = { s.core k with ctxs := ctxs, run := run, lastIssueCycle := last }
    ∧ ∀ y, amSet ctxs c y = amSet (s.core k).ctxs c y
  part : ∀ p, ∃ e ds, t.part p = { s.part p with pevent := e, ops := (s.part p).ops ++ ds }
    ∧ ∀ o ∈ ds, o.kind = .drain 0 .none ∧ o.queued = false

theorem State.onPart_part_of_ne (s : State) {p q : Nat} (f : Partition → Partition) (h : q ≠ p) : (s.onPart p f).part q = s.part q :=
  congrArg (·.getD Partition.absent) (amGet_amSet_of_ne s.parts (f (s.part p)) h)

namespace State.Raised

theorem part_refl (s : State) (p : Nat) : ∃ e ds, s.part p = { s.part p with pevent := e, ops := (s.part p).ops ++ ds }
    ∧ ∀ o ∈ ds, o.kind = .drain 0 .none ∧ o.queued = false :=
  ⟨(s.part p).pevent, [], by rw [List.append_nil], by simp⟩

theorem refl (s : State) (k c : Nat) : s.Raised s k c :=
  ⟨rfl, rfl, rfl, rfl, rfl, fun _ _ => rfl, ⟨_, _, _, rfl, fun _ => rfl⟩, part_refl s⟩

theorem trans {s t u : State} {k c : Nat} (h : s.Raised t k c) (h' : t.Raised u k c) : s.Raised u k c := by
  refine ⟨h'.now.trans h.now, h'.mem.trans h.mem, h'.clusters.trans h.clusters, h'.queues.trans h.queues, h'.partOf.trans h.partOf,
    fun j hj => (h'.others j hj).trans (h.others j hj), ?_, fun p => ?_⟩
  · obtain ⟨ctxs, run, last, hcore, hset⟩ := h.core
    obtain ⟨ctxs', run', last', hcore', hset'⟩ := h'.core
    refine ⟨ctxs', run', last', by rw [hcore', hcore], fun y => ?_⟩
    rw [hset', hcore, hset]
  · obtain ⟨e, ds, hp, hds⟩ := h.part p
    obtain ⟨e', ds', hp', hds'⟩ := h'.part p
    refine ⟨e', ds ++ ds', by rw [hp', hp, List.append_assoc], fun o ho => ?_⟩
    rcases List.mem_append.1 ho with ho | ho
    · exact hds o ho
    · exact hds' o ho

theorem cyc {s t : State} {k c : Nat} (h : s.Raised t k c) : t.cyc (t.partOf k) = s.cyc (s.partOf k) := by
  obtain ⟨e, ds, hp, -⟩ := h.part (s.partOf k)
  rw [h.partOf, State.cyc, State.cyc, hp, h.now]

/-- A change of the core that sets its context or its issue slot alone. -/
theorem of_onCore (s : State) (k c : Nat) {f : Core → Core}
    (hf : ∃ ctxs run last, f (s.core k) = { s.core k with ctxs := ctxs, run := run, lastIssueCycle := last }
      ∧ ∀ y, amSet ctxs c y = amSet (s.core k).ctxs c y) : s.Raised (s.onCore k f) k c :=
  ⟨rfl, rfl, rfl, rfl, rfl, fun _ hj => State.onCore_core_of_ne s f hj, by rwa [State.onCore_core], part_refl s⟩

theorem setCtx (s : State) (k c : Nat) (x : Ctx) : s.Raised (s.setCtx k c x) k c :=
  of_onCore s k c ⟨_, _, _, rfl, fun y => amSet_amSet _ c x y⟩

theorem gainSlot (s : State) (k c : Nat) : s.Raised (s.gainSlot k c) k c := by
  unfold State.gainSlot
  split
  · exact refl s k c
  · refine of_onCore s k c ?_
    split
    · exact ⟨_, _, _, rfl, fun _ => rfl⟩
    · exact ⟨_, _, _, rfl, fun _ => rfl⟩

theorem useSlot (s : State) (k c : Nat) (used : Bool) : s.Raised (s.useSlot k used) k c := by
  unfold State.useSlot
  split
  · exact of_onCore s k c ⟨_, _, _, rfl, fun _ => rfl⟩
  · exact refl s k c

/-- A change of the core's partition that adds to its events or its drains in flight alone. -/
theorem of_onPart (s : State) (k c : Nat) {f : Partition → Partition}
    (hf : ∀ q : Partition, ∃ e ds, f q = { q with pevent := e, ops := q.ops ++ ds } ∧ ∀ o ∈ ds, o.kind = .drain 0 .none ∧ o.queued = false) :
    s.Raised (s.onPart (s.partOf k) f) k c := by
  have hkeeps : ∀ {γ : Type} (g : Partition → γ), (∀ q e os, g { q with pevent := e, ops := os } = g q) → ∀ q, g (f q) = g q :=
    fun g hg q => by
      obtain ⟨e, ds, hq, -⟩ := hf q
      rw [hq, hg]
  refine ⟨rfl, rfl, rfl, rfl, ?_, fun _ _ => rfl, ⟨_, _, _, rfl, fun _ => rfl⟩, fun p => ?_⟩
  · exact (s.onPart_cyc_partOf k (hkeeps Partition.st fun _ _ _ => rfl) (hkeeps Partition.cfg fun _ _ _ => rfl)
      (hkeeps Partition.clock fun _ _ _ => rfl)).1
  · by_cases hp : p = s.partOf k
    · rw [hp, State.onPart_part]
      exact hf _
    · rw [State.onPart_part_of_ne s f hp]
      exact part_refl s p

/-- The count of numbers stands apart. -/
theorem nextId {s t : State} {k c : Nat} (h : s.Raised t k c) (n : Nat) : s.Raised { t with nextId := n } k c :=
  ⟨h.now, h.mem, h.clusters, h.queues, h.partOf, h.others, h.core, h.part⟩

theorem addDrain {s t : State} {k c : Nat} (h : s.Raised t k c) (due : Option Nat) (core ctx issued : Nat) :
    s.Raised (t.addOp (s.partOf k) due core ctx issued (.drain 0 .none)) k c := by
  rw [← h.partOf]
  exact h.trans ((of_onPart t k c fun _ => ⟨_, [_], rfl, fun o ho => by rw [List.mem_singleton.1 ho]; exact ⟨rfl, rfl⟩⟩).nextId _)

theorem doubleFault (s : State) (k c : Nat) : s.Raised (s.doubleFault (s.partOf k)) k c := by
  have hevent : s.Raised (s.onPart (s.partOf k) (fun q => { q with pevent := q.pevent ||| 1 })) k c :=
    of_onPart s k c fun q => ⟨_, [], by rw [List.append_nil], by simp⟩
  exact hevent.addDrain ..

theorem pendTrap (s : State) (k c : Nat) (tr : PendTrap) : s.Raised (s.pendTrap k c tr) k c := by
  unfold State.pendTrap
  extract_lets x
  split
  · exact doubleFault s k c
  · unfold State.onCtx
    split
    · exact setCtx ..
    · exact refl s k c

theorem foldl_raiseNonFinite (s : State) (k c : Nat) (ws : List Write) :
    s.Raised (ws.foldl (fun s w => s.raiseNonFinite k c (w.trap.getD (0, 0)).1 (w.trap.getD (0, 0)).2 w.handler none) s) k c := by
  induction ws generalizing s with
  | nil => exact refl s k c
  | cons w ws ih => exact (pendTrap s k c _).trans (ih _)

theorem raiseDue (s : State) (k c : Nat) : s.Raised (s.raiseDue k c) k c := by
  unfold State.raiseDue
  extract_lets cy x ws quiet
  split
  · exact refl s k c
  · exact (setCtx ..).trans (foldl_raiseNonFinite ..)

end State.Raised

/-! ## The context whose traps are raised -/

theorem State.foldl_raise_ctx? {k c : Nat} (ws : List Write) {s : State} {x : Ctx} (h : s.ctx? k c = some x) :
    ∃ ts, (ws.foldl (fun s w => s.raiseNonFinite k c (w.trap.getD (0, 0)).1 (w.trap.getD (0, 0)).2 w.handler none) s).ctx? k c
      = some { x with traps := ts } := by
  induction ws generalizing s x with
  | nil => exact ⟨x.traps, h⟩
  | cons w ws ih =>
    have hstep : ∃ ts, (s.raiseNonFinite k c (w.trap.getD (0, 0)).1 (w.trap.getD (0, 0)).2 w.handler none).ctx? k c
        = some { x with traps := ts } := by
      unfold State.raiseNonFinite State.pendTrap
      dsimp only
      split
      · exact ⟨x.traps, h⟩
      · rw [State.onCtx_some h]
        exact ⟨_, State.setCtx_ctx? ..⟩
    obtain ⟨ts, hts⟩ := hstep
    obtain ⟨ts', hts'⟩ := ih hts
    exact ⟨ts', hts'⟩

/-- The NONFINITE of what lands become traps of the context. -/
theorem State.raiseDue_ctx? {s : State} {k c : Nat} {x : Ctx} (h : s.ctx? k c = some x) :
    ∃ ts, (s.raiseDue k c).ctx? k c = some { x with traps := ts, pend := x.pend.map (Write.quiet (s.cyc (s.partOf k))) } := by
  unfold State.raiseDue
  rw [State.ctx_eq h]
  extract_lets cy y ws quiet
  split
  next hws =>
    have hnone : ∀ w ∈ x.landing cy, w.trap = none := fun w hw => by
      simpa using List.filter_eq_nil_iff.1 (List.isEmpty_iff.1 hws) w hw
    exact ⟨x.traps, by rw [Ctx.map_quiet hnone]; exact h⟩
  · exact State.foldl_raise_ctx? (k := k) (c := c) ws (State.setCtx_ctx? ..)

end Sys2Proof.Machine
end

section
/-! When a bundle may issue and which bundles are illegal (R16, R18, R26, R28, R30 to R37, R42). -/

namespace Sys2Proof.Machine

/-! ## The fault that a bundle reports (R287) -/

/-- The reported fault is one of the list, and none has a lower code. -/
theorem worst_spec {l : List IssueFault} {f : IssueFault} (h : worst l = some f) : f ∈ l ∧ ∀ g ∈ l, f.code ≤ g.code := by
  induction l generalizing f with
  | nil => cases h
  | cons a r ih =>
    rw [worst] at h
    cases hr : worst r with
    | none =>
      cases r with
      | nil =>
        rw [hr] at h
        cases h
        simp
      | cons b r =>
        rw [worst] at hr
        split at hr <;> cases hr
    | some b =>
      obtain ⟨hmem, hmin⟩ := ih hr
      rw [hr] at h
      have hle : b.before a = true → b.code ≤ a.code := by
        unfold IssueFault.before; split <;> grind
      have hge : b.before a ≠ true → a.code ≤ b.code := by
        unfold IssueFault.before; split <;> grind
      by_cases hb : b.before a = true
      · dsimp only at h
        rw [if_pos hb] at h
        cases h
        exact ⟨.tail _ hmem, List.forall_mem_cons.2 ⟨hle hb, hmin⟩⟩
      · dsimp only at h
        rw [if_neg hb] at h
        cases h
        exact ⟨.head _, List.forall_mem_cons.2 ⟨Nat.le_refl _, fun g hg => (hge hb).trans (hmin g hg)⟩⟩

theorem worst_ne_none {l : List IssueFault} (h : l ≠ []) : worst l ≠ none := by
  cases l with
  | nil => exact absurd rfl h
  | cons a r =>
    rw [worst]
    split <;> simp

/-! ## The state that a bundle reads (R27) -/

section
variable {s : State} {k c : Nat} {x : Ctx} (h : s.ctx? k c = some x) (b : Bundle)
include h

theorem State.atIssue_st : (s.atIssue k c b).me.st = x.st := by
  rw [State.atIssue, State.ctx_eq h]
  exact (congrArg Ctx.st (State.setCtx_ctx ..)).trans (Ctx.landed_st ..)

theorem State.atIssue_group : (s.atIssue k c b).me.group = x.group := by
  rw [State.atIssue, State.ctx_eq h]
  exact (congrArg Ctx.group (State.setCtx_ctx ..)).trans (Ctx.landed_group ..)

theorem State.atIssue_pending : (s.atIssue k c b).me.pending = x.pending := by
  rw [State.atIssue, State.ctx_eq h]
  exact (congrArg Ctx.pending (State.setCtx_ctx ..)).trans (Ctx.landed_pending ..)

/-- Where nothing awaits its replay, what stays in flight was in flight before. -/
theorem State.mem_atIssue_pend (hr : x.replay = none) {w : Write} (hw : w ∈ (s.atIssue k c b).me.pend) : w ∈ x.pend := by
  let cy := s.cyc (s.partOf k)
  have hpend : (s.atIssue k c b).me.pend = (x.pend ++ replayWrites (x.replay.getD []) cy).filter (fun w => !w.lands cy) := by
    rw [State.atIssue, State.ctx_eq h]
    exact (congrArg Ctx.pend (State.setCtx_ctx ..)).trans (Ctx.landed_pend ..)
  rw [hpend, hr, Option.getD_none] at hw
  simpa [replayWrites] using (List.mem_filter.1 hw).1

end

/-! ## The rules of a whole bundle (R28, R34 to R37, R42) -/

theorem twice_iff (l : List Dest) : twice l = true ↔ ¬ l.Nodup := by
  induction l with
  | nil => simp [twice]
  | cons d r ih =>
    rw [twice, Bool.or_eq_true, ih, List.nodup_cons, List.contains_iff_mem]
    tauto

/-- Each rule that a bundle breaks makes it illegal. -/
theorem State.bundleIllegal_of {s : State} {k c : Nat} {x : Ctx} {b : Bundle} (h : s.ctx? k c = some x)
    (hbad : (b.hdr.form = 1 ∧ x.st = .bound) ∨ (b.hdr.form = 0 ∧ x.st = .handler) ∨ ¬ ((s.atIssue k c b).named b).Nodup
      ∨ (0 < x.group.bundles ∧ ∃ d ∈ (s.atIssue k c b).bundleReads b, d.name ∈ x.group.written)
      ∨ (15 ≤ x.group.bundles ∧ b.hdr.stop = true)
      ∨ ((∃ i, b.v0 = some i ∧ divides i = true) ∧ ∃ i, b.v1 = some i ∧ divides i = true)) :
    (s.atIssue k c b).bundleIllegal b = true := by
  unfold State.bundleIllegal
  simp only [State.atIssue_st h, State.atIssue_group h, Bool.or_eq_true]
  rcases hbad with ⟨hform, hst⟩ | ⟨hform, hst⟩ | hnamed | ⟨hpos, d, hd, hwritten⟩ | hlast | ⟨⟨i, hi, hdi⟩, j, hj, hdj⟩
  · exact .inl (.inl (.inl (.inl (by simp [hform, hst]))))
  · exact .inl (.inl (.inl (.inl (by simp [hform, hst]))))
  · exact .inl (.inl (.inl (.inr ((twice_iff _).2 hnamed))))
  · exact .inl (.inl (.inr (by simpa [hpos] using ⟨d, hd, hwritten⟩)))
  · exact .inl (.inr (by simpa using hlast))
  · exact .inr (by simp [hi, hj, hdi, hdj])

/-- An illegal bundle whose slots raise no fault of their own reports ILLEGAL_ENCODING. -/
theorem State.worst_bundleFaults {v : State} {b : Bundle} (hbad : v.bundleIllegal b = true)
    (hslots : ∀ f ∈ bundleForms b, (f.sem v).faults = []) : ∃ f, worst (v.bundleFaults b) = some f ∧ f.code = 0x01 := by
  have hillegal : (⟨0x01, 15, 0, 0⟩ : IssueFault) ∈ v.bundleFaults b := by simp [State.bundleFaults, hbad]
  have hcodes : ∀ f ∈ v.bundleFaults b, f.code = 1 ∨ f.code = 2 := by
    intro f hf
    simp only [State.bundleFaults, hbad, ↓reduceIte, List.mem_append, List.mem_flatMap] at hf
    rcases hf with (hf | hf) | ⟨g, hg, hf | hf⟩
    · exact .inl (by rw [List.mem_singleton.1 hf])
    · split at hf
      · exact .inl (by rw [List.mem_singleton.1 hf])
      · cases hf
    · obtain ⟨n, -, rfl⟩ := List.mem_map.1 hf
      exact .inr rfl
    · rw [hslots g hg] at hf
      cases hf
  obtain ⟨f, hf⟩ := Option.ne_none_iff_exists'.1 (worst_ne_none (List.ne_nil_of_mem hillegal))
  obtain ⟨hmem, hmin⟩ := worst_spec hf
  have hle : f.code ≤ 1 := hmin _ hillegal
  exact ⟨f, hf, (hcodes f hmem).resolve_right (by omega)⟩

/-! ## What keeps a bundle from issuing (R30 to R32) -/

/-- What keeps a bundle from issuing, of its context and its own, as OVCAUSE bits (R30, R32). -/
def State.causes (s : State) (k c : Nat) (x : Ctx) (b : Bundle) : Nat := s.contextHolds k c ||| (s.atIssue k c b).bundleHolds x b

theorem testBit_ite (p : Prop) [Decidable p] (n i : Nat) : (if p then 2 ^ n else 0).testBit i = true ↔ p ∧ n = i := by
  split
  next h => simp [h, Nat.testBit_two_pow]
  next h => simp [h]

theorem foldl_or_testBit (l : List Nat) (a i : Nat) :
    (l.foldl (· ||| ·) a).testBit i = true ↔ a.testBit i = true ∨ ∃ n ∈ l, n.testBit i = true := by
  induction l generalizing a with
  | nil => simp
  | cons n l ih => simp [ih, Nat.testBit_or, or_assoc]

theorem foldl_or_eq_zero {l : List Nat} (h : ∀ n ∈ l, n = 0) : l.foldl (· ||| ·) 0 = 0 := by
  refine Nat.eq_of_testBit_eq fun i => ?_
  rw [Nat.zero_testBit, Bool.eq_false_iff, Ne, foldl_or_testBit]
  rintro (hi | ⟨n, hn, hi⟩)
  · simp at hi
  · simp [h n hn] at hi

/-- A part of an OR stays in it. -/
theorem and_eq_of_testBit {m n : Nat} (h : ∀ i, n.testBit i = true → m.testBit i = true) : m &&& n = n := by
  refine Nat.eq_of_testBit_eq fun i => ?_
  rw [Nat.testBit_and]
  cases hn : n.testBit i with
  | false => rw [Bool.and_false]
  | true => rw [h i hn, Bool.and_true]

theorem Ctx.waitsOk_eq_false {x : Ctx} {h : Header} :
    ¬ x.waitsOk h = true ↔ ∃ i, i < 8 ∧ h.wait.getLsbD i = true
      ∧ (x.counter (vget x.regs.wc i 0).toNat).value < (vget x.regs.wt i 0).toNat := by
  simp [Ctx.waitsOk, Ctx.waitOk]

/-- A write of the core's own slots conflicts with a bundle as R31 says. -/
theorem State.bundleHeld_iff {v : State} {pend : List Write} (b : Bundle) (hsrc : ∀ w ∈ pend, w.src = .core) :
    v.bundleHeld pend b v.t = true ↔ ∃ w ∈ pend, Conflicts v b w := by
  unfold State.bundleHeld
  rw [List.any_eq_true]
  refine exists_congr fun w => and_congr_right fun hw => ?_
  simp [hsrc w hw, Conflicts, or_and_right, exists_or]

/-- The bundle is the last of its group, so that R31 holds it for its own conflicts alone. -/
theorem State.interlock_testBit {v : State} {raw : Ctx} {b : Bundle} (hstop : b.hdr.stop = false)
    (hraw : ∀ w ∈ raw.pend, w.src = .core ∧ w.trap = none) (i : Nat) :
    (v.interlock raw b).testBit i = true
      ↔ (v.me.il = true ∧ v.me.group.bundles = 0 ∧ ∃ w ∈ raw.pend, Conflicts v b w) ∧ 1 = i := by
  have hall : raw.pend.filter (fun w => !w.onlyTrap) = raw.pend :=
    List.filter_eq_self.2 fun w hw => by simp [Write.onlyTrap, (hraw w hw).2]
  have hlast : v.groupNext b = none := by simp [State.groupNext, hstop]
  have hgroup : State.groupHeld raw.pend 16 v b v.t = v.bundleHeld raw.pend b v.t := by
    simp [State.groupHeld, hlast]
  rw [State.interlock, hall, hgroup]
  refine (testBit_ite _ 1 i).trans (and_congr_left fun _ => ?_)
  rw [Bool.and_eq_true, Bool.and_eq_true, State.bundleHeld_iff b fun w hw => (hraw w hw).1, beq_iff_eq, and_assoc]

/-- Writes of the core's own slots keep no register pending (R200). -/
theorem State.pendingHold_eq_zero {v : State} (b : Bundle) (hpend : ∀ w ∈ v.me.pend, w.src = .core) (hpending : v.me.pending = []) :
    v.pendingHold b = 0 := by
  refine if_neg ?_
  rw [hpending]
  simp only [List.any_nil, Bool.or_false, List.any_eq_true, not_exists, not_and]
  intro w hw
  simp [hpend w hw]

/-- The holds of a bundle without an engine's hold, whose writes in flight come of the core's own slots, are the four of R30 to R32. -/
theorem State.causes_testBit {s : State} {k c : Nat} {x : Ctx} {b : Bundle} (h : s.ctx? k c = some x) (hreplay : x.replay = none)
    (hpending : x.pending = []) (hpend : ∀ w ∈ x.pend, w.src = .core ∧ w.trap = none) (hstop : b.hdr.stop = false)
    (hengines : ∀ f ∈ (s.atIssue k c b).acting b, (f.sem (s.atIssue k c b)).holds = 0) (i : Nat) :
    let v := s.atIssue k c b
    let entries := ((v.acting b).map (fun f => (f.sem v).aq)).foldl (· + ·) 0
    (s.causes k c x b).testBit i = true ↔
      (¬ v.me.waitsOk b.hdr = true) ∧ 0 = i
        ∨ (v.me.il = true ∧ x.group.bundles = 0 ∧ ∃ w ∈ x.pend, Conflicts v b w) ∧ 1 = i
        ∨ (x.lateLoad (s.cyc (s.partOf k)) = true ∨ v.starves b.hdr = true ∨ (entries ≠ 0 ∧ 64 < v.accessEntries k + entries)) ∧ 2 = i
        ∨ x.hold ≠ none ∧ 3 = i := by
  intro v entries
  have hengine : ((v.acting b).map (fun f => (f.sem v).holds)).foldl (· ||| ·) 0 = 0 :=
    foldl_or_eq_zero (by simpa using hengines)
  have hlock := State.interlock_testBit (v := v) (raw := x) hstop hpend i
  rw [State.atIssue_group h] at hlock
  have hmarked : v.pendingHold b = 0 := State.pendingHold_eq_zero b
    (fun w hw => (hpend w (State.mem_atIssue_pend h b hreplay hw)).1) ((State.atIssue_pending h b).trans hpending)
  have hcontext : s.contextHolds k c
      = (if x.lateLoad (s.cyc (s.partOf k)) = true then 2 ^ 2 else 0) ||| (if x.hold.isSome = true then 2 ^ 3 else 0) := by
    rw [State.contextHolds, State.ctx_eq h]; rfl
  have hbundle : v.bundleHolds x b = (if ¬ v.me.waitsOk b.hdr = true then 2 ^ 0 else 0)
      ||| (if v.starves b.hdr = true then 2 ^ 2 else 0) ||| v.interlock x b ||| (if entries ≠ 0 ∧ 64 < v.accessEntries k + entries then 2 ^ 2 else 0) := by
    unfold State.bundleHolds
    simp only [List.map_map, Function.comp_def, hengine, hmarked, Nat.or_zero, ite_not]
    rfl
  rw [State.causes, hcontext, hbundle]
  simp only [Nat.testBit_or, Bool.or_eq_true, testBit_ite, hlock, Option.isSome_iff_ne_none, or_and_right]
  exact Iff.of_eq (by ac_rfl)

theorem testBit_lt_of {m n : Nat} (h : ∀ i, m.testBit i = true → i < n) : m < 2 ^ n :=
  Nat.lt_pow_two_of_testBit _ fun i hi => Bool.eq_false_iff.2 fun ht => absurd (h i ht) (by omega)

/-! ## The issue slot (R16, R18) -/

theorem mem_map_fst_iff {α : Type} {m : AMap α} {k : Nat} : k ∈ m.map (·.1) ↔ ∃ a, amGet m k = some a := by
  induction m with
  | nil => simp [amGet]
  | cons e r ih =>
    obtain ⟨j, a⟩ := e
    rw [List.map_cons, List.mem_cons, ih, amGet]
    by_cases hj : j = k
    · simp [hj]
    · simp [hj, Ne.symm hj]

/-- A stamped context finds the slot taken by another's run, by its use in this cycle, or by a lower-numbered stamped bundle that
falls due too. -/
theorem State.slotTaken_iff {s : State} {k c : Nat} (hdet : s.isDet (s.partOf k) = true) :
    s.slotTaken k c = true ↔ (∃ d, (s.core k).run = some d ∧ d ≠ c) ∨ (s.core k).lastIssueCycle = some (s.cyc (s.partOf k))
      ∨ ((s.core k).run = none ∧ ∃ d y, d < c ∧ s.ctx? k d = some y ∧ y.st = .bound ∧ y.live = true
        ∧ s.boundary k d ≤ s.cyc (s.partOf k)) := by
  have hlower : (s.core k).numbers.any (fun d => decide (d < c) && s.stampDue k d) = true
      ↔ ∃ d y, d < c ∧ s.ctx? k d = some y ∧ y.st = .bound ∧ y.live = true ∧ s.boundary k d ≤ s.cyc (s.partOf k) := by
    rw [List.any_eq_true]
    refine exists_congr fun d => ?_
    rw [Core.numbers, mem_map_fst_iff]
    refine exists_and_right.symm.trans (exists_congr fun y => ?_)
    show s.ctx? k d = some y ∧ _ ↔ _
    rw [and_left_comm (a := d < c)]
    refine and_congr_right fun hy => ?_
    simp [State.stampDue, State.stamped, State.ctx_eq hy, hdet, and_assoc]
  unfold State.slotTaken
  rw [Bool.or_eq_true, beq_iff_eq]
  split
  next d hrun => simp [hrun]
  next hrun => simp [hrun, hlower, or_comm]

end Sys2Proof.Machine
end

section
/-! The verdict on the bundle at a context's PC (R16, R18, R29 to R32). -/

namespace Sys2Proof.Machine

section
variable {s : State} {k c : Nat} {x : Ctx} {b : Bundle} (hx : s.ctx? k c = some x) (hf : s.fetch k c = .bundle b)
  (hat : s.atBoundary k c = true)

theorem State.verdict_of_not_atBoundary (h : s.atBoundary k c = false) : s.verdict k c = .nothing := by
  simp [State.verdict, h]

theorem State.verdict_of_mayUse_false (hst : s.stamped k c = false) (h : s.mayUse k c = false) : s.verdict k c = .nothing := by
  simp [State.verdict, hst, State.unstampedVerdict, h]

include hf hat

/-- At its stamp an issue fault comes before lateness (R32, R287). -/
theorem State.verdict_stamped_fault (hst : s.stamped k c = true) {f : IssueFault}
    (hw : worst ((s.atIssue k c b).bundleFaults b) = some f) : s.verdict k c = .fault f := by
  simp [State.verdict, hat, hst, State.stampedVerdict, hf, hw]

/-- Without a stamp a bundle that nothing holds raises its fault. -/
theorem State.verdict_unstamped_fault (hst : s.stamped k c = false) (hfree : s.mayUse k c = true ∧ s.forceDue k c = false)
    (hctx : s.contextHolds k c = 0) (hbundle : (s.atIssue k c b).bundleHolds (s.ctx k c) b = 0) {f : IssueFault}
    (hw : worst ((s.atIssue k c b).bundleFaults b) = some f) : s.verdict k c = .fault f := by
  simp [State.verdict, hat, hst, State.unstampedVerdict, hfree, hctx, hf, hbundle, hw]

include hx

/-- A stamped bundle without a fault is late by what keeps it from issuing, the slot among it, or issues. -/
theorem State.verdict_stamped (hst : s.stamped k c = true) (hb : (s.atIssue k c b).bundleFaults b = []) {m : Nat}
    (hm : (if s.slotTaken k c = true then 16 else 0) ||| s.causes k c x b = m) :
    s.verdict k c = if m ≠ 0 then .late m else .issues b := by
  subst hm
  simp only [State.verdict, hat, hst, State.stampedVerdict, hf, hb, worst, State.ctx_eq hx, Nat.or_assoc]
  rfl

/-- A bundle without a stamp or a fault, that may use the slot, is held by what keeps it from issuing, or issues. -/
theorem State.verdict_unstamped (hst : s.stamped k c = false) (hfree : s.mayUse k c = true ∧ s.forceDue k c = false)
    (hb : (s.atIssue k c b).bundleFaults b = []) :
    s.verdict k c = if s.causes k c x b ≠ 0 then .held else .issues b := by
  simp only [State.verdict, hat, hst, State.unstampedVerdict, hfree, hf, hb, worst, State.ctx_eq hx, State.causes, Nat.or_eq_zero_iff,
    Bool.not_true, Bool.or_self, Bool.false_eq_true, ↓reduceIte, ne_eq, not_and_or]
  by_cases hctx : s.contextHolds k c = 0
  · simp [hctx]
  · simp [hctx]

end

/-! ## The order of the issue slot (R18) -/

/-- In round-robin order a context of the eight stands where its number is reached after the one that yielded last. -/
theorem order_position {d i n : Nat} (hd : d < 8) (hi : i < 8) : (n + 1 + i) % 8 = d ↔ i = (d + 15 - n % 8) % 8 := by omega

/-- The first eligible context of the order has none before it. -/
theorem head?_filter_order {r : Core} {p : Nat → Bool} {c d : Nat} (h : (r.order.filter p).head? = some c) (hd : d < 8)
    (hp : p d = true) : (c + 15 - r.lastYield % 8) % 8 ≤ (d + 15 - r.lastYield % 8) % 8 := by
  rw [List.head?_filter, Core.order, List.find?_map, Option.map_eq_some_iff] at h
  obtain ⟨i, hfind, rfl⟩ := h
  obtain ⟨-, hi, hfirst⟩ := List.find?_range_eq_some.1 hfind
  have hi : i < 8 := List.mem_range.1 hi
  have hj : (d + 15 - r.lastYield % 8) % 8 < 8 := Nat.mod_lt _ (by decide)
  rw [← (order_position (Nat.mod_lt _ (by decide)) hi).1 rfl]
  by_contra hlt
  have hnot := hfirst _ (Nat.lt_of_not_le hlt)
  rw [Function.comp_apply, (order_position hd hj).2 rfl, hp] at hnot
  cases hnot

theorem State.stamped_thr {s : State} {k : Nat} (h : s.isDet (s.partOf k) = false) (c : Nat) : s.stamped k c = false := by
  rw [State.stamped, h, Bool.false_and]

/-- In THR the slot is the run's, or that of the context that gains it. -/
theorem State.mayUse_thr {s : State} {k c : Nat} (h : s.isDet (s.partOf k) = false) (hmay : s.mayUse k c = true) :
    (∀ d, (s.core k).run = some d → d = c) ∧ ((s.core k).run = none → s.nextRunner k = some c) := by
  unfold State.mayUse at hmay
  rw [h, Bool.and_eq_true] at hmay
  refine ⟨fun d hrun => ?_, fun hrun => ?_⟩
  · simpa [hrun] using hmay.2
  · simpa [hrun] using hmay.2

/-- The context that gains the slot is in its handler, or none that is eligible is, and it stands first in the order (R18, R293). -/
theorem State.nextRunner_first {s : State} {k c d : Nat} (h : s.nextRunner k = some c) (hd : d < 8) (hx : s.ctx? k d ≠ none)
    (he : s.eligible k d = true) :
    (s.ctx k c).st = .handler ∨ ((s.ctx k d).st ≠ .handler
      ∧ (c + 15 - (s.core k).lastYield % 8) % 8 ≤ (d + 15 - (s.core k).lastYield % 8) % 8) := by
  have hp : ((s.ctx? k d).isSome && s.eligible k d) = true := by simp [Option.isSome_iff_ne_none, hx, he]
  have hmem : d ∈ (s.core k).order.filter (fun c => (s.ctx? k c).isSome && s.eligible k c) := by
    refine List.mem_filter.2 ⟨?_, hp⟩
    rw [Core.order, List.mem_map]
    exact ⟨(d + 15 - (s.core k).lastYield % 8) % 8, List.mem_range.2 (Nat.mod_lt _ (by decide)),
      (order_position hd (Nat.mod_lt _ (by decide))).2 rfl⟩
  unfold State.nextRunner at h
  extract_lets es at h
  split at h
  next c' hfind =>
    cases h
    exact .inl (by simpa using List.find?_some hfind)
  next hfind =>
    refine .inr ⟨?_, head?_filter_order h hd hp⟩
    simpa using List.find?_eq_none.1 hfind d hmem

/-! ## The rules -/

/-- An illegal bundle without other faults is ILLEGAL_ENCODING once its slot is its own, or it stands at its stamp. -/
theorem State.verdict_illegal {s : State} {k c : Nat} {x : Ctx} {b : Bundle} (hx : s.ctx? k c = some x)
    (hf : s.fetch k c = .bundle b)
    (hreached : s.atBoundary k c = true ∧ (s.stamped k c = true ∨ (s.stamped k c = false
      ∧ (s.mayUse k c = true ∧ s.forceDue k c = false) ∧ s.contextHolds k c = 0 ∧ (s.atIssue k c b).bundleHolds x b = 0)))
    (hillegal : (s.atIssue k c b).bundleIllegal b = true) (hslots : ∀ f ∈ bundleForms b, (f.sem (s.atIssue k c b)).faults = []) :
    ∃ f, s.verdict k c = .fault f ∧ f.code = 0x01 := by
  obtain ⟨hat, hreached⟩ := hreached
  obtain ⟨f, hw, hcode⟩ := State.worst_bundleFaults hillegal hslots
  refine ⟨f, ?_, hcode⟩
  rcases hreached with hst | ⟨hst, hfree, hctx, hbundle⟩
  · exact State.verdict_stamped_fault hf hat hst hw
  · exact State.verdict_unstamped_fault hf hat hst hfree hctx (by rw [State.ctx_eq hx]; exact hbundle) hw

theorem or_16_eq_add {m : Nat} (h : m < 16) : 16 ||| m = m + 16 := by
  rw [Nat.add_comm]
  exact (Nat.two_pow_add_eq_or_of_lt (i := 4) h 1).symm

/-- What one operation's engine holds is among what keeps its bundle from issuing. -/
theorem State.causes_and_holds {s : State} {k c : Nat} (x : Ctx) {b : Bundle} {f : Form} (hf : f ∈ (s.atIssue k c b).acting b) :
    s.causes k c x b &&& (f.sem (s.atIssue k c b)).holds = (f.sem (s.atIssue k c b)).holds := by
  refine and_eq_of_testBit fun i hi => ?_
  have hengines : (((((s.atIssue k c b).acting b).map (fun f : Form => f.sem (s.atIssue k c b))).map (fun o : OpSem => o.holds)).foldl
      (· ||| ·) 0).testBit i = true := by
    rw [foldl_or_testBit]
    exact .inr ⟨_, List.mem_map_of_mem (List.mem_map_of_mem hf), hi⟩
  simp only [State.causes, State.bundleHolds, Nat.testBit_or, hengines, Bool.or_true, Bool.true_or]

theorem issueRules : IssueRules := by
  intro s k c x b hx hf
  extract_lets p cy r v named engines entries free reached taken
  refine ⟨fun u hu => ⟨fun hlt => ?_, fun hle hlive htraps hpend => ?_⟩, fun hreached hslots hbad => ?_, fun hat hfaults =>
    ⟨fun hreplay hpending hpend hstop hengines => ?_, fun f hfa hne => ⟨fun hst => ?_, fun hst hfree => ?_⟩⟩, fun hthr => ⟨?_, ?_⟩⟩
  · refine State.verdict_of_not_atBoundary (Bool.eq_false_iff.2 fun hat => ?_)
    have hle := ((State.atBoundary_iff hx).1 hat).2.1
    rw [State.boundary_of_lastIssue hx hf hu] at hle
    exact Nat.not_lt_of_le hle hlt
  · exact State.atBoundary_of hx hlive (by rw [State.boundary_of_lastIssue hx hf hu]; exact hle) htraps hpend
  · exact State.verdict_illegal hx hf hreached (State.bundleIllegal_of hx hbad) hslots
  · have hbits := State.causes_testBit hx hreplay hpending hpend hstop hengines
    have hlt : s.causes k c x b < 16 := testBit_lt_of (n := 4) fun i hi => by
      rcases (hbits i).1 hi with ⟨-, h⟩ | ⟨-, h⟩ | ⟨-, h⟩ | ⟨-, h⟩ <;> omega
    refine ⟨s.causes k c x b, hlt, ?_, ?_, ?_, ?_, fun hst => ?_, fun hst hfree => ?_⟩
    · exact (hbits 0).trans (by rw [Ctx.waitsOk_eq_false]; simp [v])
    · exact (hbits 1).trans (by simp [v])
    · exact (hbits 2).trans (by simp [v, entries, cy, p])
    · exact (hbits 3).trans (by simp)
    · have hdet : s.isDet (s.partOf k) = true := (Bool.and_eq_true_iff.1 hst).1
      have htaken : s.slotTaken k c = true ↔ taken := State.slotTaken_iff hdet
      refine ⟨fun ⟨hm, hnot⟩ => ?_, fun hm hnot => ?_, fun htk => ?_⟩
      · rw [State.verdict_stamped hx hf hat hst hfaults rfl, if_neg (by simp [htaken, hnot, hm])]
      · rw [State.verdict_stamped hx hf hat hst hfaults (m := s.causes k c x b) (by simp [htaken, hnot]), if_pos hm]
      · rw [State.verdict_stamped hx hf hat hst hfaults (m := s.causes k c x b + 16) (by simp [htaken, htk, or_16_eq_add hlt]),
          if_pos (by omega)]
    · rw [State.verdict_unstamped hx hf hat hst hfree hfaults]
      exact ⟨fun hm => if_neg (by simp [hm]), fun hm => if_pos hm⟩
  · have hand := State.causes_and_holds x hfa
    refine ⟨(if s.slotTaken k c = true then 16 else 0) ||| s.causes k c x b, ?_, ?_⟩
    · rw [State.verdict_stamped hx hf hat hst hfaults rfl, if_pos]
      intro hzero
      rw [(Nat.or_eq_zero_iff.1 hzero).2, Nat.zero_and] at hand
      exact hne hand.symm
    · refine and_eq_of_testBit fun i hi => ?_
      rw [← hand, Nat.testBit_and, Bool.and_eq_true] at hi
      rw [Nat.testBit_or, hi.1, Bool.or_true]
  · have hand := State.causes_and_holds x hfa
    rw [State.verdict_unstamped hx hf hat hst hfree hfaults, if_pos]
    intro hzero
    rw [hzero, Nat.zero_and] at hand
    exact hne hand.symm
  · intro d hrun hd
    refine State.verdict_of_mayUse_false (State.stamped_thr hthr c) (Bool.eq_false_iff.2 fun hmay => ?_)
    exact hd ((State.mayUse_thr hthr hmay).1 d hrun)
  · intro hrun hne d hc hd hxd he
    have hmay : s.mayUse k c = true := Bool.of_not_eq_false fun h =>
      hne (State.verdict_of_mayUse_false (State.stamped_thr hthr c) h)
    have hfirst := State.nextRunner_first ((State.mayUse_thr hthr hmay).2 hrun) hd hxd he
    rwa [State.ctx_eq hx] at hfirst

end Sys2Proof.Machine
end

section
/-! What a context's cycle brings: issue, hold, trap, landing (R27, R28, R32, R285, R287). -/

namespace Sys2Proof.Machine

/-! ## The issue slot taken and used (R16, R18) -/

/-- A change of a core that leaves its contexts. -/
theorem State.onCore_ctx? (s : State) (k : Nat) {f : Core → Core} (hf : ∀ r, (f r).ctxs = r.ctxs) (j d : Nat) :
    (s.onCore k f).ctx? j d = s.ctx? j d := by
  unfold State.ctx?
  by_cases hj : j = k
  · rw [hj, State.onCore_core, hf]
  · rw [State.onCore_core_of_ne _ _ hj]

/-- What gaining and using the issue slot leave as it is. -/
structure State.SlotFrame (s t : State) (k : Nat) : Prop where
  ctx : ∀ j d, t.ctx? j d = s.ctx? j d
  snap : (t.core k).snap = (s.core k).snap
  parts : t.parts = s.parts
  now : t.now = s.now
  mem : t.mem = s.mem

theorem State.SlotFrame.trans {s t u : State} {k : Nat} (h : s.SlotFrame t k) (h' : t.SlotFrame u k) : s.SlotFrame u k :=
  ⟨fun j d => (h'.ctx j d).trans (h.ctx j d), h'.snap.trans h.snap, h'.parts.trans h.parts, h'.now.trans h.now, h'.mem.trans h.mem⟩

theorem State.gainSlot_frame (s : State) (k c : Nat) : s.SlotFrame (s.gainSlot k c) k := by
  unfold State.gainSlot
  split
  · exact ⟨fun _ _ => rfl, rfl, rfl, rfl, rfl⟩
  · refine ⟨s.onCore_ctx? k fun r => ?_, ?_, rfl, rfl, rfl⟩
    · split <;> rfl
    · rw [State.onCore_core]; split <;> rfl

theorem State.useSlot_frame (s : State) (k : Nat) (used : Bool) : s.SlotFrame (s.useSlot k used) k := by
  unfold State.useSlot
  split
  · exact ⟨s.onCore_ctx? k fun _ => rfl, by rw [State.onCore_core], rfl, rfl, rfl⟩
  · exact ⟨fun _ _ => rfl, rfl, rfl, rfl, rfl⟩

theorem State.SlotFrame.cyc_eq {s t : State} {k : Nat} (h : s.SlotFrame t k) : t.cyc (t.partOf k) = s.cyc (s.partOf k) := by
  have hpart : t.partOf k = s.partOf k := by
    rw [State.partOf, State.partOf, State.partOfCluster_eq, State.partOfCluster_eq, h.parts]
  rw [hpart, State.cyc, State.cyc, State.part, State.part, h.parts, h.now]

/-! ## A trap taken into the handler (R285, R287, R290) -/

theorem State.endRun_snap (s : State) (k c : Nat) : ((s.endRun k c).core k).snap = (s.core k).snap := by
  rw [State.endRun, State.onCore_core]
  split <;> rfl

/-- A task with a handler enters it while the snapshot buffer is free. -/
theorem State.takeTrap_capture {s : State} {k c : Nat} {x : Ctx} {pc : W64} (h : s.ctx? k c = some x)
    (hpc : x.task.handlerPc = some pc) (hsnap : (s.core k).snap = none) (e : TrapEntry) :
    s.takeTrap k c e = s.capture k c e pc := by
  simp [State.takeTrap, State.ctx_eq h, hpc, hsnap]

/-- Entered, the handler runs at its PC with traps masked; the registers of the trap stand written, and the buffer is the context's. -/
theorem State.capture_spec {s : State} {k c : Nat} {x : Ctx} (h : s.ctx? k c = some x) (e : TrapEntry) (pc : W64) :
    ((s.capture k c e pc).ctx k c).st = .handler ∧ ((s.capture k c e pc).ctx k c).pc = pc
      ∧ ((s.capture k c e pc).ctx k c).masked = true ∧ ((s.capture k c e pc).ctx k c).csr = x.csr.trapped e
      ∧ ∃ es, ((s.capture k c e pc).core k).snap = some ⟨c, es⟩ := by
  have hctx : (s.capture k c e pc).ctx? k c = some _ :=
    (State.endRun_ctx? ..).trans ((State.onCore_ctx? _ k (by intro r; rfl) ..).trans (State.setCtx_ctx? ..))
  rw [State.ctx_eq hctx, State.ctx_eq h]
  refine ⟨rfl, rfl, rfl, rfl, snapEntries (s.ctx k c) (s.cyc (s.partOf k)), ?_⟩
  exact (State.endRun_snap ..).trans (congrArg Core.snap (State.onCore_core ..))

theorem Csrs.trapped_spec (r : Csrs) (e : TrapEntry) :
    (r.trapped e).tcause = e.tcause ∧ (r.trapped e).tinfo = e.tinfo ∧ (r.trapped e).epc = e.epc
      ∧ ∀ o, e.ov = some o → (r.trapped e).ovstamp = o.1 ∧ (r.trapped e).ovcause = o.2 := by
  obtain ⟨tcause, tinfo, epc, grv, ov⟩ := e
  refine ⟨?_, ?_, ?_, ?_⟩
  · cases grv <;> cases ov <;> rfl
  · cases grv <;> cases ov <;> rfl
  · cases grv <;> cases ov <;> rfl
  · rintro o rfl
    exact ⟨rfl, rfl⟩

/-- A trap taken with the handler there and the buffer free. -/
theorem State.takeTrap_spec {s : State} {k c : Nat} {x : Ctx} {pc : W64} (h : s.ctx? k c = some x)
    (hpc : x.task.handlerPc = some pc) (hsnap : (s.core k).snap = none) (e : TrapEntry) :
    InHandler (s.takeTrap k c e) k c pc e.epc ∧ ((s.takeTrap k c e).ctx k c).csr.tcause = e.tcause
      ∧ ((s.takeTrap k c e).ctx k c).csr.tinfo = e.tinfo
      ∧ ∀ o, e.ov = some o → ((s.takeTrap k c e).ctx k c).csr.ovstamp = o.1 ∧ ((s.takeTrap k c e).ctx k c).csr.ovcause = o.2 := by
  rw [State.takeTrap_capture h hpc hsnap]
  obtain ⟨hst, hpc', hmasked, hcsr, hbuf⟩ := State.capture_spec h e pc
  obtain ⟨hcause, hinfo, hepc, hov⟩ := x.csr.trapped_spec e
  rw [hcsr]
  exact ⟨⟨hst, hpc', hmasked, by rw [hcsr, hepc], hbuf⟩, hcause, hinfo, hov⟩

/-! ## What the verdict says of the boundary -/

theorem State.atBoundary_of_verdict {s : State} {k c : Nat} (h : s.verdict k c ≠ .nothing) : s.atBoundary k c = true :=
  Bool.of_not_eq_false fun hat => h (State.verdict_of_not_atBoundary hat)

/-- A BOUND context with a verdict on its bundle has no NONFINITE landing. -/
theorem State.raiseDue_of_verdict {s : State} {k c : Nat} {x : Ctx} (h : s.ctx? k c = some x) (hst : x.st = .bound)
    (hv : s.verdict k c ≠ .nothing) : s.raiseDue k c = s := by
  obtain ⟨hlive, -, hnone⟩ := (State.atBoundary_iff h).1 (State.atBoundary_of_verdict hv)
  refine State.raiseDue_of_enterTrap h hst ?_ hnone
  simp only [Ctx.live, Bool.and_eq_true, Bool.not_eq_true'] at hlive
  exact hlive.2

/-- An issue fault of a BOUND context enters its task's handler. -/
theorem State.bundleIssue_fault {s : State} {k c : Nat} {x : Ctx} {pc : W64} {f : IssueFault} (h : s.ctx? k c = some x)
    (hst : x.st = .bound) (hpc : x.task.handlerPc = some pc) (hsnap : (s.core k).snap = none) (hv : s.verdict k c = .fault f) :
    ∃ t, Runs (.bundleIssue k c) s t ∧ InHandler t k c pc x.pc ∧ (t.ctx k c).csr.tcause = tcauseOf x.cl f.lane f.slot f.code
      ∧ (t.ctx k c).csr.tinfo = f.tinfo ∧ t.mem = s.mem := by
  have hdue := State.raiseDue_of_verdict h hst (by rw [hv]; simp)
  let used := !(s.stamped k c && s.slotTaken k c)
  let r := if used then (s.gainSlot k c).useSlot k true else s
  have hframe : s.SlotFrame r k := by
    show s.SlotFrame (if used then (s.gainSlot k c).useSlot k true else s) k
    split
    · exact (s.gainSlot_frame k c).trans (State.useSlot_frame ..)
    · exact ⟨fun _ _ => rfl, rfl, rfl, rfl, rfl⟩
  let u : State := { r with cur := (k, c) }
  have hu : u.ctx? k c = some x := (hframe.ctx k c).trans h
  have htake : u.takeFault k c f x.pc = u.takeTrap k c ⟨tcauseOf x.cl f.lane f.slot f.code, f.tinfo, x.pc, none, none⟩ := by
    rw [State.takeFault, State.ctx_eq hu, if_neg (by simp [hst])]
  obtain ⟨hin, hcause, hinfo, -⟩ := State.takeTrap_spec hu hpc (hframe.snap.trans hsnap)
    ⟨tcauseOf x.cl f.lane f.slot f.code, f.tinfo, x.pc, none, none⟩
  refine ⟨_, ?_, hin, hcause, hinfo, (State.takeTrap_mem ..).trans hframe.mem⟩
  show execBundleIssue k c s = _
  rw [← htake]
  simp only [execBundleIssue, h, hv, hdue]
  rfl

/-- A bundle of a BOUND context that cannot issue at its stamp enters its task's handler. -/
theorem State.scheduleOverrun_late {s : State} {k c cause : Nat} {x : Ctx} {pc : W64} (h : s.ctx? k c = some x)
    (hst : x.st = .bound) (hpc : x.task.handlerPc = some pc) (hsnap : (s.core k).snap = none) (hpad : s.padMissed k c = none)
    (hv : s.verdict k c = .late cause) :
    let cy := s.cyc (s.partOf k)
    ∃ t, Runs (.scheduleOverrun k c) s t ∧ InHandler t k c pc x.pc ∧ (t.ctx k c).csr.tcause = tcauseOf x.cl 0 15 0x81
      ∧ (t.ctx k c).csr.tinfo = 0 ∧ t.mem = s.mem ∧ (t.ctx k c).csr.ovcause = BitVec.ofNat 8 cause
      ∧ (t.ctx k c).csr.ovstamp = BitVec.ofNat 64 (cy - x.sfc0.getD cy) := by
  intro cy
  have hdue := State.raiseDue_of_verdict h hst (by rw [hv]; simp)
  have hframe := s.useSlot_frame k (!s.slotTaken k c)
  have hu := (hframe.ctx k c).trans h
  let e : TrapEntry :=
    ⟨tcauseOf x.cl 0 15 0x81, 0, x.pc, none, some (BitVec.ofNat 64 (cy - x.sfc0.getD cy), BitVec.ofNat 8 cause)⟩
  have htake : (s.useSlot k (!s.slotTaken k c)).overrun k c cause = (s.useSlot k (!s.slotTaken k c)).takeTrap k c e := by
    rw [State.overrun, State.ctx_eq hu, hframe.cyc_eq]
  obtain ⟨hin, hcause, hinfo, hov⟩ := State.takeTrap_spec hu hpc (hframe.snap.trans hsnap) e
  obtain ⟨hstamp, hbits⟩ := hov _ rfl
  refine ⟨_, ?_, hin, hcause, hinfo, (State.takeTrap_mem ..).trans hframe.mem, hbits, hstamp⟩
  show execScheduleOverrun k c s = _
  rw [← htake]
  simp only [execScheduleOverrun, hpad, h, hv, hdue]

/-! ## Results that land (R27, R28, R79) -/

/-- The NONFINITE of what lands changes neither the cycle nor what stays in flight. -/
theorem State.raiseDue_spec {s : State} {k c : Nat} {x : Ctx} (h : s.ctx? k c = some x) :
    (s.raiseDue k c).cyc ((s.raiseDue k c).partOf k) = s.cyc (s.partOf k)
      ∧ ∃ y, (s.raiseDue k c).ctx? k c = some y
        ∧ y.pend.filter (fun w => !w.lands (s.cyc (s.partOf k))) = x.pend.filter (fun w => !w.lands (s.cyc (s.partOf k))) := by
  obtain ⟨ts, hts⟩ := State.raiseDue_ctx? h
  exact ⟨(State.Raised.raiseDue s k c).cyc, _, hts, filter_map_quiet ..⟩

theorem State.resultLands_runs {s : State} {k c : Nat} {x : Ctx} (h : s.ctx? k c = some x)
    (hne : x.landing (s.cyc (s.partOf k)) ≠ []) : Runs (.resultLands k c) s (s.landResults k c) := by
  show execResultLands k c s = _
  simp [execResultLands, h, hne]

/-- A result whose cycle has come lands, and no write that has landed stays in flight. -/
theorem State.resultLands_spec {s : State} {k c : Nat} {x : Ctx} (h : s.ctx? k c = some x) {w : Write} (hw : w ∈ x.pend)
    (hlands : w.lands (s.cyc (s.partOf k)) = true) : ∃ t y, Runs (.resultLands k c) s t ∧ t.ctx? k c = some y
      ∧ y.pend = x.pend.filter (fun v => !v.lands (s.cyc (s.partOf k))) ∧ t.mem = s.mem := by
  obtain ⟨hcyc, y, hy, hpend⟩ := State.raiseDue_spec h
  refine ⟨_, y.landed (s.cyc (s.partOf k)), State.resultLands_runs h (List.ne_nil_of_mem (Ctx.mem_landing.2 ⟨hw, hlands⟩)), ?_, ?_,
    State.landResults_mem ..⟩
  · rw [State.landResults, State.onCtx_some hy, State.setCtx_ctx?, hcyc]
  · rw [Ctx.landed_pend, hpend]

/-- A single result that lands changes its place. -/
theorem State.resultLands_single {s : State} {k c : Nat} {x : Ctx} (h : s.ctx? k c = some x) {w : Write}
    (hw : x.landing (s.cyc (s.partOf k)) = [w]) (htrap : w.trap = none) :
    Runs (.resultLands k c) s (s.setCtx k c
      (Ctx.landWrite { x with pend := x.pend.filter (fun v => !v.lands (s.cyc (s.partOf k))) } w.dest w.mask w.value)) := by
  have hdue : s.raiseDue k c = s := State.raiseDue_none fun v hv => by
    rw [State.ctx_eq h, hw, List.mem_singleton] at hv
    rw [hv, htrap]
  have hland : s.landResults k c = s.setCtx k c (x.landed (s.cyc (s.partOf k))) := by
    rw [State.landResults, hdue, State.onCtx_some h]
  have hrun := State.resultLands_runs h (by rw [hw]; simp)
  rw [hland, Ctx.landed, hw] at hrun
  exact hrun

/-! ## The events -/

/-- Settles O38: the header by decoding, the verdict by what keeps a bundle from issuing, and each event by what it does to its
context. -/
theorem bundleEvents : Obligations.BundleEvents := by
  unfold Obligations.BundleEvents
  refine ⟨headerFates, issueRules, fun s k c x h => ?_⟩
  extract_lets cy traps
  refine ⟨fun b hv => ?_, fun hv => ⟨s.gainSlot k c, ?_, ?_, ?_⟩, fun pc hst hpc hsnap => ⟨fun f hv => ?_, fun cause hpad hv => ?_⟩,
    fun w hw hlands => State.resultLands_spec h hw hlands, fun w hw htrap => State.resultLands_single h hw htrap⟩
  · show execBundleIssue k c s = _
    simp only [execBundleIssue, h, hv]
  · show execBundleIssue k c s = .next (s.gainSlot k c)
    simp only [execBundleIssue, h, hv]
  · exact ((s.gainSlot_frame k c).ctx k c).trans h
  · exact ⟨(s.gainSlot_frame k c).mem, (s.gainSlot_frame k c).parts⟩
  · obtain ⟨t, hrun, hin, hcause, hinfo, hmem⟩ := State.bundleIssue_fault h hst hpc hsnap hv
    exact ⟨t, hrun, hin, hcause, hinfo, hmem, trivial⟩
  · exact State.scheduleOverrun_late h hst hpc hsnap hpad hv

end Sys2Proof.Machine
end

section
/-! What the judgement of a slot operation reads: two states that differ in nothing but their contexts' pending traps, the use of the
issue slot, and the drains in flight of their partitions judge every operation alike (R25, R30, R285, R294). -/

namespace Sys2Proof.Machine

/-- Between s and t, whose issuing context is one and has one partition, nothing differs but pending traps, the run and the last use of
an issue slot, the events of a partition and its drains in flight, and the count of numbers. -/
structure State.Agree (s t : State) : Prop where
  cur : t.cur = s.cur
  now : t.now = s.now
  mem : t.mem = s.mem
  clusters : t.clusters = s.clusters
  queues : t.queues = s.queues
  partOf : t.partOf s.cur.1 = s.partOf s.cur.1
  me : ∃ ts, t.me = { s.me with traps := ts }
  core : ∀ k, ∃ ctxs run last, t.core k = { s.core k with ctxs := ctxs, run := run, lastIssueCycle := last }
    ∧ ctxs.map (fun e => e.2.pend) = (s.core k).ctxs.map (fun e => e.2.pend)
  part : ∀ p, ∃ e ds, t.part p = { s.part p with pevent := e, ops := (s.part p).ops ++ ds }
    ∧ ∀ o ∈ ds, o.kind = .drain 0 .none ∧ o.queued = false

/-! ## The entries of an image (R292) -/

/-- Whether an entry of an image is valid depends neither on its number nor on the context's traps. -/
theorem Ctx.snapEntryOf_isSome (x : Ctx) (ts : List PendTrap) (i j cy : Nat) (bs : List Byte) :
    (({ x with traps := ts } : Ctx).snapEntryOf i cy bs).isSome = (x.snapEntryOf j cy bs).isSome := by
  have hdest : ({ x with traps := ts } : Ctx).snapDest = x.snapDest := rfl
  unfold Ctx.snapEntryOf
  extract_lets word kind number lanes pd isFmt clean
  rw [hdest]
  split
  · rfl
  · split <;> rfl

theorem Ctx.snapEntriesOf_isSome (x : Ctx) (ts : List PendTrap) (n i j cy : Nat) (bs : List Byte) :
    (({ x with traps := ts } : Ctx).snapEntriesOf cy n i bs).isSome = (x.snapEntriesOf cy n j bs).isSome := by
  induction n generalizing i j bs with
  | zero => rfl
  | succ n ih =>
    have hfirst := x.snapEntryOf_isSome ts i j cy (bs.take 192)
    have hrest := ih (i + 1) (j + 1) (bs.drop 192)
    have hsucc : ∀ (y : Ctx) i, (y.snapEntriesOf cy (n + 1) i bs).isSome
        = ((y.snapEntryOf i cy (bs.take 192)).isSome && (y.snapEntriesOf cy n (i + 1) (bs.drop 192)).isSome) := fun y i => by
      rw [Ctx.snapEntriesOf]
      cases y.snapEntryOf i cy (bs.take 192) <;> cases y.snapEntriesOf cy n (i + 1) (bs.drop 192) <;> rfl
    rw [hsucc, hsucc, hfirst, hrest]

theorem Ctx.snapLoad_isSome (x : Ctx) (ts : List PendTrap) (i j cy : Nat) (header : List Byte) (rest : Nat → List Byte) :
    (({ x with traps := ts } : Ctx).snapLoad i cy header rest).isSome = (x.snapLoad j cy header rest).isSome := by
  unfold Ctx.snapLoad
  extract_lets w0 count clean
  dsimp only
  split
  · exact x.snapEntriesOf_isSome ts ..
  · rfl

namespace State.Agree

variable {s t : State} (h : s.Agree t)
include h

/-! ## Places, time, partitions, cores -/

theorem myPart : t.myPart = s.myPart := by rw [State.myPart, State.myPart, h.cur, h.partOf]

theorem cluster (c : Nat) : t.cluster c = s.cluster c := by rw [State.cluster, State.cluster, h.clusters]

theorem queue (q : Nat) : t.queue q = s.queue q := by rw [State.queue, State.queue, h.queues]

/-- What depends on neither a partition's events nor its operations in flight. -/
theorem part_eq {α : Type} (g : Partition → α) (hg : ∀ q e os, g { q with pevent := e, ops := os } = g q) (p : Nat) :
    g (t.part p) = g (s.part p) := by
  obtain ⟨e, ds, hp, -⟩ := h.part p
  rw [hp, hg]

theorem myP_eq {α : Type} (g : Partition → α) (hg : ∀ q e os, g { q with pevent := e, ops := os } = g q) : g t.myP = g s.myP := by
  rw [State.myP, State.myP, h.myPart, h.part_eq g hg]

theorem cyc (p : Nat) : t.cyc p = s.cyc p := by
  rw [State.cyc, State.cyc, h.now, h.part_eq Partition.clock (fun _ _ _ => rfl)]

theorem t_eq : t.t = s.t := by rw [State.t, State.t, h.myPart, h.cyc]

theorem isDet (p : Nat) : t.isDet p = s.isDet p := congrArg (fun c => c.det) (h.part_eq Partition.cfg (fun _ _ _ => rfl) p)

theorem ranges : t.ranges = s.ranges := h.myP_eq Partition.ranges (fun _ _ _ => rfl)

/-- Drains in flight count nowhere that looks for another kind of operation. -/
theorem filter_ops (p : Nat) {f : Op → Bool} (hf : ∀ o : Op, o.kind = .drain 0 .none → o.queued = false → f o = false) :
    (t.part p).ops.filter f = (s.part p).ops.filter f := by
  obtain ⟨e, ds, hp, hds⟩ := h.part p
  have hnone : ds.filter f = [] := List.filter_eq_nil_iff.2 fun o ho => by simp [hf o (hds o ho).1 (hds o ho).2]
  rw [hp, List.filter_append, hnone, List.append_nil]

theorem any_ops (p : Nat) {f : Op → Bool} (hf : ∀ o : Op, o.kind = .drain 0 .none → f o = false) :
    (t.part p).ops.any f = (s.part p).ops.any f := by
  obtain ⟨e, ds, hp, hds⟩ := h.part p
  have hnone : ds.any f = false := by
    rw [List.any_eq_false]
    exact fun o ho => by simp [hf o (hds o ho).1]
  rw [hp, List.any_append, hnone, Bool.or_false]

/-- What depends on neither the contexts of a core nor its issue slot. -/
theorem myCore_eq {α : Type} (g : Core → α)
    (hg : ∀ r ctxs run last, g { r with ctxs := ctxs, run := run, lastIssueCycle := last } = g r) : g t.myCore = g s.myCore := by
  obtain ⟨ctxs, run, last, hcore, -⟩ := h.core s.cur.1
  rw [State.myCore, State.myCore, h.cur, hcore, hg]

theorem nodes : t.myCore.nodes = s.myCore.nodes := h.myCore_eq Core.nodes (fun _ _ _ _ => rfl)
theorem copies : t.myCore.copies = s.myCore.copies := h.myCore_eq Core.copies (fun _ _ _ _ => rfl)
theorem snap : t.myCore.snap = s.myCore.snap := h.myCore_eq Core.snap (fun _ _ _ _ => rfl)

/-- What does not depend on the traps of the issuing context. -/
theorem me_eq {α : Type} (g : Ctx → α) (hg : ∀ x ts, g { x with traps := ts } = g x) : g t.me = g s.me := by
  obtain ⟨ts, hts⟩ := h.me
  rw [hts, hg]

theorem xr (n : XReg) : t.me.xr n = s.me.xr n := h.me_eq (fun x => x.xr n) (fun _ _ => rfl)
theorem st : t.me.st = s.me.st := h.me_eq Ctx.st (fun _ _ => rfl)
theorem regs : t.me.regs = s.me.regs := h.me_eq Ctx.regs (fun _ _ => rfl)
theorem csr : t.me.csr = s.me.csr := h.me_eq Ctx.csr (fun _ _ => rfl)
theorem on : t.on = s.on := h.me_eq (fun x tt i => guardBit x.guard tt i) (fun _ _ => rfl)

theorem lane0 (tt : TT) : t.lane0 tt = s.lane0 tt := by rw [State.lane0, State.lane0, h.on]
theorem anyLane (tt : TT) : t.anyLane tt = s.anyLane tt := by rw [State.anyLane, State.anyLane, h.on]
theorem lanesOn (tt : TT) : t.lanesOn tt = s.lanesOn tt := by rw [State.lanesOn, State.lanesOn, h.on]

theorem la (n : AReg) : t.la n = s.la n := by rw [State.la, State.la, h.regs]
theorem qa (n : AReg) : t.qa n = s.qa n := by rw [State.qa, State.qa, h.regs]
theorem lv (n : BitVec 7) : t.lv n = s.lv n := by rw [State.lv, State.lv, h.regs]
theorem qv (n : BitVec 6) : t.qv n = s.qv n := by rw [State.qv, State.qv, h.regs]
theorem badLv (ns : List (BitVec 7)) : t.badLv ns = s.badLv ns := by rw [State.badLv, State.badLv, h.regs]
theorem badQv (ns : List (BitVec 6)) : t.badQv ns = s.badQv ns := by rw [State.badQv, State.badQv, h.regs]
theorem frame (f : Nat) : t.frame f = s.frame f := by rw [State.frame, State.frame, h.regs]
theorem scaleOk (se : Bool) (k : Nat) : t.scaleOk se k = s.scaleOk se k := by rw [State.scaleOk, State.scaleOk, h.regs]
theorem scale (se : Bool) (k : Nat) : t.scale se k = s.scale se k := by rw [State.scale, State.scale, h.regs]
theorem fmt : t.fmt = s.fmt := by rw [State.fmt, State.fmt, h.csr]

/-! ## The access queue (R192) -/

theorem accessEntries : t.accessEntries s.cur.1 = s.accessEntries s.cur.1 := by
  generalize hk : s.cur.1 = k
  have hpart : t.partOf k = s.partOf k := hk ▸ h.partOf
  have hops : ((t.part (t.partOf k)).ops ++ (t.part (t.partOf k)).contribs).filter (fun o => o.core == k && o.queued)
      = ((s.part (s.partOf k)).ops ++ (s.part (s.partOf k)).contribs).filter (fun o => o.core == k && o.queued) := by
    rw [hpart, List.filter_append, List.filter_append, h.filter_ops _ (fun o _ hq => by rw [hq, Bool.and_false]),
      h.part_eq Partition.contribs (fun _ _ _ => rfl)]
  obtain ⟨ctxs, run, last, hcore, hpend⟩ := h.core k
  let early : List Write → Nat := fun ws =>
    (ws.filter (fun w => w.src == .load && w.arrive.isSome && decide (s.cyc (s.partOf k) < w.land))).length
  have hearly : ctxs.map (fun e => early e.2.pend) = (s.core k).ctxs.map (fun e => early e.2.pend) := by
    have := congrArg (List.map early) hpend
    rwa [List.map_map, List.map_map] at this
  unfold State.accessEntries
  dsimp only
  rw [hops, hpart, h.cyc, hcore]
  exact congrArg (fun l => _ + List.foldl (· + ·) 0 l) hearly

theorem queueHold (n : Nat) : t.queueHold s.cur.1 n = s.queueHold s.cur.1 n := by rw [State.queueHold, State.queueHold, h.accessEntries]

/-! ## The checks of accesses (R170, R177, R197, R216, R357) -/

theorem bankAt (pa : Nat) : t.bankAt pa = s.bankAt pa := by
  unfold State.bankAt
  simp only [h.cluster]

theorem bankRefuses (k pa : Nat) (allowed : BankMode → Nat → Bool) : t.bankRefuses k pa allowed = s.bankRefuses k pa allowed := by
  rw [State.bankRefuses, State.bankRefuses, h.bankAt]

theorem laneFaults (slot : Nat) (perm : Perm) (size : Nat) (allowed : BankMode → Nat → Bool) (i : Nat) (a : W64) :
    t.laneFaults slot perm size allowed i a = s.laneFaults slot perm size allowed i a := by
  unfold State.laneFaults
  simp only [h.ranges, h.cur, h.bankRefuses]

theorem imageFaults (slot lane : Nat) (a : W64) (n : Nat) : t.imageFaults slot lane a n = s.imageFaults slot lane a n := by
  unfold State.imageFaults
  simp only [h.ranges, h.myP_eq Partition.imageByte (fun _ _ _ => rfl)]

theorem aliasHit (a : W64) (n : Nat) : t.aliasHit a n = s.aliasHit a n := by
  rw [State.aliasHit, State.aliasHit, h.myCore_eq Core.checkedRanges (fun _ _ _ _ => rfl)]

theorem aliasFaults (slot : Nat) (p : Piece) : t.aliasFaults slot p = s.aliasFaults slot p := by
  rw [State.aliasFaults, State.aliasFaults, h.aliasHit]

theorem popBank (l : LoadSpec) : t.popBank l = s.popBank l := by
  unfold State.popBank
  simp only [h.ranges, h.cur, h.cluster]

theorem pushBank (st : StoreSpec) : t.pushBank st = s.pushBank st := by
  unfold State.pushBank
  simp only [h.ranges, h.cluster]

theorem storeFaults (st : StoreSpec) : t.storeFaults st = s.storeFaults st := by
  unfold State.storeFaults
  simp only [h.pushBank, h.cur, h.laneFaults, h.imageFaults, h.aliasFaults]

theorem atomicFaults (a : W64) (n : Nat) : t.atomicFaults a n = s.atomicFaults a n := by
  unfold State.atomicFaults
  simp only [h.ranges, h.laneFaults, h.imageFaults, h.aliasHit]

theorem contribFaults (a : W64) : t.contribFaults a = s.contribFaults a := by
  unfold State.contribFaults
  simp only [h.ranges, h.laneFaults, h.aliasHit]

theorem extentFaults (slot : Nat) (perm : Perm) (pushes : Bool) : t.extentFaults slot perm pushes = s.extentFaults slot perm pushes := by
  funext e
  unfold State.extentFaults
  simp only [h.ranges, h.cur, h.bankRefuses, h.imageFaults]

theorem extentAlias (slot : Nat) : t.extentAlias slot = s.extentAlias slot := by
  funext e
  unfold State.extentAlias
  simp only [h.aliasHit]

/-! ## Commands of the copy engine (R213, R216) -/

theorem fifoFor (cl issued : Nat) : t.fifoFor cl issued = s.fifoFor cl issued := by
  funext c b
  unfold State.fifoFor State.seesMode
  simp only [h.cluster]

theorem fifoTarget (fifo : Nat → Nat → Bool) (p a n : Nat) : t.fifoTarget fifo p a n = s.fifoTarget fifo p a n := by
  unfold State.fifoTarget
  simp only [h.part_eq Partition.ranges (fun _ _ _ => rfl)]

theorem badArrive (c : CopyCmd) : t.badArrive c = s.badArrive c := by
  have hin : ∀ k, t.inPartition s.myPart k = s.inPartition s.myPart k := fun k => by
    rw [State.inPartition, State.inPartition, h.part_eq Partition.cfg (fun _ _ _ => rfl)]
  unfold State.badArrive
  simp only [h.myPart, hin]

theorem badCommand (c : CopyCmd) : t.badCommand c = s.badCommand c := by
  unfold State.badCommand
  simp only [h.myP_eq c.badWords (fun _ _ _ => rfl), h.cur, h.badArrive, h.cluster]

theorem copyFaults (c : CopyCmd) : t.copyFaults c = s.copyFaults c := by
  unfold State.copyFaults
  simp only [h.badCommand, h.extentFaults, h.extentAlias, h.fifoTarget, h.fifoFor, h.cur, h.t_eq, h.myPart]

/-- A command is captured alike but for its number. -/
theorem command (opcode : Nat) (k : BitVec 4) (rd : Nat) (ha tr : Bool) :
    t.command opcode k rd ha tr = { s.command opcode k rd ha tr with id := t.nextId } := by
  unfold State.command
  simp only [h.cur, h.st, h.regs, h.t_eq, h.fmt]

/-! ## Nodes and demands of the Grove (R227, R236) -/

theorem capturedNode (m : MOp) : t.capturedNode m = s.capturedNode m := by
  unfold State.capturedNode
  simp only [h.cur, h.regs, h.csr, h.fmt]

theorem bufferFault : t.bufferFault = s.bufferFault := by
  funext e
  unfold State.bufferFault
  simp only [h.ranges, h.cur, h.bankRefuses]

theorem bufferAlias : t.bufferAlias = s.bufferAlias := by
  funext e
  rw [State.bufferAlias, State.bufferAlias, h.myCore_eq Core.checkedRanges (fun _ _ _ _ => rfl), h.nodes]

theorem appendFault (n : GNode) : t.appendFault n = s.appendFault n := by
  unfold State.appendFault
  simp only [h.nodes, h.cur, h.bufferFault, h.bufferAlias]

theorem capturedDemand (opcode : Nat) (nd : NodeId) (mk : BitVec 4) : t.capturedDemand opcode nd mk = s.capturedDemand opcode nd mk := by
  unfold State.capturedDemand
  simp only [h.cur, h.st, h.regs, h.fmt, h.t_eq]

theorem demandHold : t.demandHold = s.demandHold := by
  rw [State.demandHold, State.demandHold, h.myCore_eq Core.openDemands (fun _ _ _ _ => rfl)]

/-! ## Groups, submissions, arms (R64, R184, R281) -/

theorem arriveHolds (id : W64) : t.arriveHolds id = s.arriveHolds id := by
  have harrived : ∀ c i, t.hasArrived s.cur.1 c i = s.hasArrived s.cur.1 c i := fun c i => by
    have hgroup := h.part_eq (fun p => p.group i) (fun _ _ _ => rfl) (s.partOf s.cur.1)
    unfold State.hasArrived
    simp only [h.partOf, hgroup]
    rw [h.any_ops _ fun o ho => by rw [ho, Bool.and_false]]
  unfold State.arriveHolds
  simp only [h.myP_eq Partition.named (fun _ _ _ => rfl), h.myP_eq Partition.group (fun _ _ _ => rfl), h.cur, harrived]

theorem ringFull (p q : Nat) : t.ringFull p q = s.ringFull p q := by
  have hsubmits : t.submitsTo p q = s.submitsTo p q := by
    rw [State.submitsTo, State.submitsTo, h.filter_ops _ fun o ho _ => by rw [ho]]
  rw [State.ringFull, State.ringFull, h.queue, hsubmits]

theorem submitFaults (a q : W64) : t.submitFaults a q = s.submitFaults a q := by
  unfold State.submitFaults
  simp only [h.queue, h.myPart, h.ranges]

theorem uarmFaults (a v : W64) : t.uarmFaults a v = s.uarmFaults a v := by
  unfold State.uarmFaults
  simp only [h.ranges, h.myP_eq Partition.rule (fun _ _ _ => rfl), h.myP_eq Partition.armLines (fun _ _ _ => rfl)]

/-! ## The snapshot buffer (R84, R292) -/

theorem snapFaults (perm : Perm) (a : W64) : t.snapFaults perm a = s.snapFaults perm a := by
  rw [State.snapFaults, State.snapFaults, h.extentFaults]

theorem heldEntries : t.heldEntries = s.heldEntries := by
  unfold State.heldEntries
  simp only [h.snap, h.cur]

theorem snapTaken : t.snapTaken = s.snapTaken := by
  unfold State.snapTaken
  simp only [h.snap, h.cur]

theorem ownWrites (c n : Nat) : t.ownWrites s.cur.1 c n = s.ownWrites s.cur.1 c n := by
  obtain ⟨e, ds, hp, hds⟩ := h.part (s.partOf s.cur.1)
  let f : Op → Bool := fun o => o.core == s.cur.1 && o.ctx == c && decide (o.issued < n)
  have hdrain : ∀ o ∈ ds.filter f, o.kind = .drain 0 .none := fun o ho => (hds o (List.mem_filter.1 ho).1).1
  have hatomics : (ds.filter f).filter Op.isLocalAtomic = [] :=
    List.filter_eq_nil_iff.2 fun o ho => by simp [Op.isLocalAtomic, hdrain o ho]
  have hwrites : ∀ (g : Op → Nat × PByte → Upcoming) (as : List Op),
      (ds.filter f).flatMap (fun o => (o.localWrites as).map (g o)) = [] := fun g as => by
    rw [List.flatMap_eq_nil_iff]
    exact fun o ho => by simp [Op.localWrites, hdrain o ho]
  unfold State.ownWrites
  simp only [h.partOf, hp, List.filter_append, List.flatMap_append]
  rw [hatomics, hwrites, List.append_nil, List.append_nil]

theorem pendingLocal (c : Nat) : t.pendingLocal s.cur.1 c = s.pendingLocal s.cur.1 c := by
  have hover : t.atomicOver = s.atomicOver := by
    funext o ov
    unfold State.atomicOver
    rw [h.mem]
  unfold State.pendingLocal State.pendingBefore State.laidOver
  simp only [h.ownWrites, hover, h.partOf, h.cyc]

theorem engineBytes (ov : List PByte) (a n : Nat) : t.engineBytes s.cur.1 ov a n = s.engineBytes s.cur.1 ov a n := by
  unfold State.engineBytes State.engineByte State.physOf State.readRefused State.coreByte
  simp only [h.partOf, h.part_eq Partition.ranges (fun _ _ _ => rfl), h.bankAt, h.mem, h.cluster]

/-- An image is read alike, but for the numbers of its entries. -/
theorem snapRead (a : W64) : (t.snapRead a).isSome = (s.snapRead a).isSome := by
  obtain ⟨ts, hts⟩ := h.me
  unfold State.snapRead
  simp only [h.cur, h.t_eq, h.pendingLocal, h.engineBytes, hts]
  exact Ctx.snapLoad_isSome ..

end State.Agree

end Sys2Proof.Machine
end

section
/-! States that agree judge every slot operation alike: its faults, what holds it and the queue entries that it takes; and one whose guard
lets nothing act is held by nothing (R25, R30, R98). -/

namespace Sys2Proof.Machine

/-- Two contributions fault, are held and take queue entries alike. -/
structure OpSem.Judges (o p : OpSem) : Prop where
  faults : o.faults = p.faults
  holds : o.holds = p.holds
  aq : o.aq = p.aq

/-- Nothing holds an operation, and it takes no queue entry. -/
def OpSem.Free (o : OpSem) : Prop := o.holds = 0 ∧ o.aq = 0

@[simp] theorem OpSem.judges_refl (o : OpSem) : o.Judges o := ⟨rfl, rfl, rfl⟩
@[simp] theorem OpSem.judges_pure (f g : State → State) : (OpSem.pure f).Judges (OpSem.pure g) := ⟨rfl, rfl, rfl⟩
@[simp] theorem OpSem.free_pure (f : State → State) : (OpSem.pure f).Free := ⟨rfl, rfl⟩
@[simp] theorem OpSem.free_idle : OpSem.idle.Free := ⟨rfl, rfl⟩

/-! ## Guards -/

theorem OpSem.free_guarded {s : State} {tt : TT} (h : s.lane0 tt = false) (o : OpSem) : (OpSem.guarded s tt o).Free := by
  rw [OpSem.guarded_off h]
  exact OpSem.free_idle

theorem OpSem.free_inHandler {s : State} {only : Bool} {o : OpSem} (h : o.Free) : (OpSem.inHandler s only o).Free := by
  unfold OpSem.inHandler
  split
  · exact ⟨rfl, rfl⟩
  · exact h

theorem OpSem.free_outsideHandler {s : State} {o : OpSem} (h : o.Free) : (OpSem.outsideHandler s o).Free := by
  unfold OpSem.outsideHandler
  split
  · exact ⟨rfl, rfl⟩
  · exact h

@[simp] theorem OpSem.free_withScale {o : OpSem} (h : o.Free) (s : State) (vu : VUnit) (tt : TT) (se : Bool) (k : Nat) :
    (o.withScale s vu tt se k).Free := by
  unfold OpSem.withScale
  split <;> exact h

namespace State.Agree

variable {s t : State} (h : s.Agree t)
include h

theorem guarded {o p : OpSem} (tt : TT) (hop : o.Judges p) : (OpSem.guarded t tt o).Judges (OpSem.guarded s tt p) := by
  rw [OpSem.guarded, OpSem.guarded, h.lane0]
  split
  · exact hop
  · exact OpSem.judges_refl _

theorem inHandler {o p : OpSem} (only : Bool) (hop : o.Judges p) : (OpSem.inHandler t only o).Judges (OpSem.inHandler s only p) := by
  rw [OpSem.inHandler, OpSem.inHandler, h.st]
  split
  · exact ⟨rfl, rfl, rfl⟩
  · exact hop

theorem outsideHandler {o p : OpSem} (hop : o.Judges p) : (OpSem.outsideHandler t o).Judges (OpSem.outsideHandler s p) := by
  rw [OpSem.outsideHandler, OpSem.outsideHandler, h.st]
  split
  · exact ⟨rfl, rfl, rfl⟩
  · exact hop

theorem withScale {o p : OpSem} (vu : VUnit) (tt : TT) (se : Bool) (k : Nat) (hop : o.Judges p) :
    (o.withScale t vu tt se k).Judges (p.withScale s vu tt se k) := by
  rw [OpSem.withScale, OpSem.withScale, h.anyLane, h.scaleOk]
  split
  · exact ⟨congrArg (List.cons _) hop.faults, hop.holds, hop.aq⟩
  · exact hop

/-! ## Scalar results, transfers, loops, CSRs -/

theorem guarded_pure (tt : TT) (f g : State → State) : (OpSem.guarded t tt (.pure f)).Judges (OpSem.guarded s tt (.pure g)) :=
  h.guarded tt (OpSem.judges_pure f g)

theorem transfer (tt : TT) (a : W64) (link : Option XReg) : (transfer t tt a link).Judges (transfer s tt a link) :=
  h.guarded tt ⟨by rw [h.me_eq Ctx.targetOk (fun _ _ => rfl)], rfl, rfl⟩

theorem retSem (tt : TT) (xa : XReg) : (retSem tt xa t).Judges (retSem tt xa s) := by
  obtain ⟨ts, hts⟩ := h.me
  unfold Machine.retSem
  rw [hts]
  exact h.guarded tt ⟨rfl, rfl, rfl⟩

theorem openLoop (tt : TT) (count : W32) (eofs : BitVec 16) (rsz : BitVec 5) (prt : Bool) (epi : BitVec 3) :
    (openLoop t tt count eofs rsz prt epi).Judges (openLoop s tt count eofs rsz prt epi) := by
  obtain ⟨ts, hts⟩ := h.me
  unfold Machine.openLoop
  rw [hts]
  exact h.guarded tt ⟨rfl, rfl, rfl⟩

theorem lbrkSem (tt : TT) : (lbrkSem tt t).Judges (lbrkSem tt s) := by
  obtain ⟨ts, hts⟩ := h.me
  unfold Machine.lbrkSem
  rw [hts]
  dsimp only
  split <;> exact h.guarded tt ⟨rfl, rfl, rfl⟩

theorem lidxSem (tt : TT) (xd : XReg) (level : BitVec 3) : (lidxSem tt xd level t).Judges (lidxSem tt xd level s) := by
  obtain ⟨ts, hts⟩ := h.me
  unfold Machine.lidxSem
  rw [hts]
  dsimp only
  split <;> exact h.guarded tt ⟨rfl, rfl, rfl⟩

theorem putcSem (tt : TT) (csr : BitVec 12) (xa : XReg) : (putcSem tt csr xa t).Judges (putcSem tt csr xa s) :=
  h.inHandler _ (h.guarded tt ⟨by rw [h.xr, h.me_eq Ctx.putcOk (fun _ _ => rfl)], rfl, rfl⟩)

theorem fmtsetSem (tt : TT) (xa : XReg) (mask : W32) : (fmtsetSem tt xa mask t).Judges (fmtsetSem tt xa mask s) :=
  h.guarded tt ⟨by rw [h.xr, h.me_eq Ctx.fmtAhead (fun _ _ => rfl)], rfl, rfl⟩

/-! ## Accesses -/

theorem loadSem {l l' : LoadSpec} (hl : l = l') (f g : State → State) : (loadSem t l f).Judges (loadSem s l' g) := by
  subst hl
  refine ⟨?_, rfl, rfl⟩
  unfold Machine.loadSem
  simp only [h.popBank, h.laneFaults]

theorem storeSem {st st' : StoreSpec} (hst : st = st') (f g : State → State) : (storeSem t st f).Judges (storeSem s st' g) := by
  subst hst
  exact ⟨h.storeFaults st, rfl, rfl⟩

theorem quantSem {q q' : Quant} (hq : q = q') (tt : TT) (v : Vec) (more : List Piece) {whole whole' : List IssueFault}
    (hw : whole = whole') (f g : State → State) : (quantSem t tt q v more whole f).Judges (quantSem s tt q' v more whole' g) := by
  subst hq hw
  have hcode : t.quantCode q v = s.quantCode q v := by
    funext i
    unfold State.quantCode
    rw [h.fmt]
  unfold Machine.quantSem
  simp only [h.lanesOn, hcode, h.storeFaults]
  split
  · exact OpSem.judges_pure ..
  · exact ⟨rfl, rfl, rfl⟩

theorem atomicSem (tt : TT) (opcode : Nat) (qvs qvd : BitVec 6) (qab : AReg) (ofs : BitVec 13) (big nr unsig : Bool) :
    (atomicSem t tt opcode qvs qvd qab ofs big nr unsig).Judges (atomicSem s tt opcode qvs qvd qab ofs big nr unsig) :=
  h.guarded tt ⟨by rw [h.qa, h.atomicFaults], rfl, rfl⟩

theorem contribSem (tt : TT) (qvs : BitVec 6) (qab qak : AReg) (ofs : BitVec 17) (hi : Bool) :
    (contribSem tt qvs qab qak ofs hi t).Judges (contribSem tt qvs qab qak ofs hi s) :=
  h.guarded tt ⟨by rw [h.qa, h.contribFaults], rfl, rfl⟩

/-! ## Commands, nodes, demands -/

theorem copyCmdSem (tt : TT) (opcode : Nat) (k : BitVec 4) (rd : Nat) (ha tr : Bool) :
    (copyCmdSem t tt opcode k rd ha tr).Judges (copyCmdSem s tt opcode k rd ha tr) :=
  h.guarded tt ⟨by rw [h.copyFaults, h.command]; rfl, by rw [h.copies], rfl⟩

theorem appendSem (tt : TT) (m : MOp) : (appendSem t tt m).Judges (appendSem s tt m) :=
  h.guarded tt ⟨by rw [h.appendFault, h.capturedNode], rfl, rfl⟩

theorem tdropSem (tt : TT) (nd : NodeId) : (tdropSem tt nd t).Judges (tdropSem tt nd s) :=
  h.guarded tt ⟨by rw [h.nodes, h.cur], rfl, rfl⟩

theorem tforceSem (tt : TT) (nd : NodeId) (mk : BitVec 4) : (tforceSem tt nd mk t).Judges (tforceSem tt nd mk s) :=
  h.guarded tt ⟨by rw [h.nodes, h.capturedDemand], h.demandHold, rfl⟩

theorem tstoreSem (tt : TT) (nd : NodeId) (mk : BitVec 4) : (tstoreSem tt nd mk t).Judges (tstoreSem tt nd mk s) :=
  h.guarded tt ⟨by rw [h.nodes, h.capturedDemand, h.extentFaults, h.extentAlias], h.demandHold, rfl⟩

theorem tcbSem (tt : TT) (mk : BitVec 4) : (tcbSem tt mk t).Judges (tcbSem tt mk s) :=
  h.guarded tt ⟨by rw [h.nodes, h.capturedDemand, h.extentFaults], h.demandHold, rfl⟩

/-! ## Synchronization and the handler -/

theorem flushRange (tt : TT) (xa xb : XReg) (kind : Nat → Nat → SyncKind) :
    (flushRange t tt xa xb kind).Judges (flushRange s tt xa xb kind) :=
  h.guarded tt ⟨by rw [h.xr], rfl, rfl⟩

theorem barSem (tt : TT) (xg : XReg) (scope : BitVec 3) : (barSem tt xg scope t).Judges (barSem tt xg scope s) :=
  h.guarded tt ⟨rfl, by rw [h.xr, h.arriveHolds], rfl⟩

theorem arriveSem (tt : TT) (xg : XReg) (scope : BitVec 3) : (arriveSem tt xg scope t).Judges (arriveSem tt xg scope s) :=
  h.guarded tt ⟨rfl, by rw [h.xr, h.arriveHolds], rfl⟩

theorem submitSem (tt : TT) (xa xb : XReg) : (submitSem tt xa xb t).Judges (submitSem tt xa xb s) :=
  h.guarded tt ⟨by rw [h.xr, h.xr, h.submitFaults], by simp only [h.xr, h.queue, h.myPart, h.ringFull], rfl⟩

theorem uarmSem (tt : TT) (xa xb : XReg) : (uarmSem tt xa xb t).Judges (uarmSem tt xa xb s) :=
  h.guarded tt ⟨by rw [h.xr, h.xr, h.uarmFaults], rfl, rfl⟩

theorem snapstSem (tt : TT) (xa : XReg) : (snapstSem tt xa t).Judges (snapstSem tt xa s) :=
  h.inHandler _ (h.guarded tt ⟨by rw [h.xr, h.snapFaults], by rw [h.heldEntries, h.t_eq], rfl⟩)

theorem snapldSem (tt : TT) (xa : XReg) : (snapldSem tt xa t).Judges (snapldSem tt xa s) := by
  have hvalid : ∀ (r r' : Option (List SnapEntry)) (e : List IssueFault), r.isSome = r'.isSome →
      (match r with
        | some _ => []
        | none => e) = (match r' with
        | some _ => []
        | none => e) := fun r r' e hr => by
    cases r with
    | none =>
      cases r' with
      | none => rfl
      | some _ => cases hr
    | some _ =>
      cases r' with
      | none => cases hr
      | some _ => rfl
  refine h.inHandler _ (h.guarded tt ⟨?_, by rw [h.snapTaken], rfl⟩)
  rw [h.xr, h.snapFaults]
  refine congrArg (s.snapFaults .lr (s.me.xr xa) ++ ·) (hvalid _ _ _ ?_)
  split
  · exact h.snapRead _
  · rfl

end State.Agree

end Sys2Proof.Machine
end

section
/-! Every slot operation, by the table of its slot: judged alike in states that agree, and held by nothing where its guard lets nothing
act (R22 to R24, R98). -/

namespace Sys2Proof.Machine

/-- An operation that faults nowhere, is held by nothing and takes no queue entry. -/
def OpSem.Plain (o : OpSem) : Prop := o.Judges .idle

theorem OpSem.Plain.judges {o p : OpSem} (ho : o.Plain) (hp : p.Plain) : o.Judges p :=
  ⟨ho.faults.trans hp.faults.symm, ho.holds.trans hp.holds.symm, ho.aq.trans hp.aq.symm⟩

theorem OpSem.Plain.free {o : OpSem} (h : o.Plain) : o.Free := ⟨h.holds, h.aq⟩

@[simp] theorem OpSem.plain_idle : OpSem.idle.Plain := OpSem.judges_refl _
@[simp] theorem OpSem.plain_pure (f : State → State) : (OpSem.pure f).Plain := ⟨rfl, rfl, rfl⟩

@[simp] theorem OpSem.plain_ite {b : Bool} {o p : OpSem} (ho : o.Plain) (hp : p.Plain) : (if b = true then o else p).Plain := by
  split
  · exact ho
  · exact hp

@[simp] theorem OpSem.plain_guarded (s : State) (tt : TT) {o : OpSem} (h : o.Plain) : (OpSem.guarded s tt o).Plain :=
  OpSem.plain_ite h OpSem.plain_idle

@[simp] theorem OpSem.plain_takesDivider {o : OpSem} (h : o.Plain) (s : State) (tt : TT) : (o.takesDivider s tt).Plain :=
  OpSem.plain_ite ⟨h.faults, h.holds, h.aq⟩ h

/-! ## Families of plain operations -/

@[simp] theorem aluX_plain (s : State) (tt : TT) (lat : Nat) (xd : XReg) (v : W64) : (aluX s tt lat xd v).Plain := by simp [aluX]
@[simp] theorem fpX_plain (s : State) (tt : TT) (lat : Nat) (xd : XReg) (v : W32) : (fpX s tt lat xd v).Plain := by simp [fpX]
@[simp] theorem flushWhole_plain (s : State) (tt : TT) (kind : SyncKind) : (flushWhole s tt kind).Plain := by simp [flushWhole]
@[simp] theorem copySemOf_plain (n : Nat) (tt : TT) (c0 c1 : CopyDesc) (s : State) : (copySemOf n tt c0 c1 s).Plain := by simp [copySemOf]

@[simp] theorem vecOp_plain (s : State) (tt : TT) (lat : Nat) (vd : VReg) (f : Nat → W32) : (vecOp s tt lat vd f).Plain := by simp [vecOp]
@[simp] theorem vecNf_plain (s : State) (vu : VUnit) (tt : TT) (lat : Nat) (vd : VReg) (f : Nat → W32 × Bool) :
    (vecNf s vu tt lat vd f).Plain := by simp [vecNf]
@[simp] theorem vecCodes_plain (s : State) (vu : VUnit) (tt : TT) (lat : Nat) (vd : VReg) (w : Nat) (f : Nat → List (Nat × Enc)) :
    (vecCodes s vu tt lat vd w f).Plain := by simp [vecCodes]
@[simp] theorem vecFp_plain (s : State) (vu : VUnit) (tt : TT) (lat : Nat) (vd : VReg) (f : Nat → W32) : (vecFp s vu tt lat vd f).Plain :=
  vecNf_plain ..

@[simp] theorem vredSem_plain (vu : VUnit) (tt : TT) (vd va : VReg) (red : BitVec 2) (s : State) : (vredSem vu tt vd va red s).Plain := by
  unfold vredSem
  dsimp only
  split <;> simp

/-! ## Steady forms -/

/-- The judgement of a form is the same in states that agree, and nothing holds the form where its guard lets nothing act. -/
structure Form.Steady (f : Form) : Prop where
  judges : ∀ {s t : State}, s.Agree t → (f.sem t).Judges (f.sem s)
  bad : ∀ {s t : State}, s.Agree t → (f.use t).bad = (f.use s).bad
  free : ∀ {s : State}, f.acts s = false → (f.sem s).Free

theorem Form.steady_of_plain {f : Form} (hplain : ∀ s, (f.sem s).Plain)
    (hbad : ∀ {s t : State}, s.Agree t → (f.use t).bad = (f.use s).bad) : f.Steady :=
  ⟨fun _ => (hplain _).judges (hplain _), hbad, fun _ => (hplain _).free⟩

/-! ## Numbers outside the windows (R25) -/

namespace State.Agree

variable {s t : State} (h : s.Agree t)
include h

theorem useV_bad (lat : Nat) (ds ss : List VReg) (more : List Dest) : (useV t.me lat ds ss more).bad = (useV s.me lat ds ss more).bad :=
  h.me_eq (fun x => (useV x lat ds ss more).bad) (fun _ _ => rfl)

theorem useVP_bad (ds : List PReg) (ss : List VReg) (ps : List PReg) : (useVP t.me ds ss ps).bad = (useVP s.me ds ss ps).bad :=
  h.me_eq (fun x => (useVP x ds ss ps).bad) (fun _ _ => rfl)

theorem useCopy_bad (c0 c1 : CopyDesc) :
    ((useCopy t.me c0).join (useCopy t.me c1)).bad = ((useCopy s.me c0).join (useCopy s.me c1)).bad :=
  h.me_eq (fun x => ((useCopy x c0).join (useCopy x c1)).bad) (fun _ _ => rfl)

end State.Agree

/-! ## Guards that let no lane act -/

theorem State.lanesOn_eq_nil {s : State} {tt : TT} (h : s.anyLane tt = false) : s.lanesOn tt = [] := by
  rw [State.anyLane, List.any_eq_false] at h
  exact List.filter_eq_nil_iff.2 h

theorem lbrkSem_free {s : State} {tt : TT} (h : s.lane0 tt = false) : (lbrkSem tt s).Free := by
  unfold lbrkSem
  split <;> exact OpSem.free_guarded h _

theorem lidxSem_free {s : State} {tt : TT} (h : s.lane0 tt = false) (xd : XReg) (level : BitVec 3) : (lidxSem tt xd level s).Free := by
  unfold lidxSem
  split <;> exact OpSem.free_guarded h _

theorem loadSem_free {s : State} {l : LoadSpec} (h : l.lanes = []) (post : State → State) : (loadSem s l post).Free := by
  simp [OpSem.Free, loadSem, h]

theorem storeSem_free {s : State} {st : StoreSpec} (h : st.pieces = []) (post : State → State) : (storeSem s st post).Free := by
  simp [OpSem.Free, storeSem, h]

theorem quantSem_free {s : State} {tt : TT} (h : s.anyLane tt = false) (q : Quant) (v : Vec) (more : List Piece) (whole : List IssueFault)
    (post : State → State) : (quantSem s tt q v more whole post).Free := by
  simp [quantSem, State.lanesOn_eq_nil h]

end Sys2Proof.Machine
end

section
/-! The forms of every slot are steady (R22 to R25, R98). -/

namespace Sys2Proof.Machine

/-! ## S -/

/-- The registers of S have no windows. -/
theorem scalarForm_bad {i : Instr} {f : Form} (hi : scalarForm i = some f) (s : State) : (f.use s).bad = [] := by
  unfold scalarForm at hi
  split at hi <;> cases hi <;> rfl

theorem State.Agree.scalarForm {s t : State} (h : s.Agree t) {i : Instr} {f : Form} (hi : scalarForm i = some f) :
    (f.sem t).Judges (f.sem s) := by
  unfold Machine.scalarForm at hi
  split at hi <;> simp only [Option.some.injEq, reduceCtorEq] at hi <;> subst hi
  all_goals simp [addSem, subSem, mulSem, mulhSem, mulhuSem, divSem, divuSem, remSem, remuSem, andSem, orSem, xorSem, andnSem,
    shlSem, shrSem, sarSem, rolSem, minSem, maxSem, minuSem, maxuSem, clzSem, ctzSem, popcSem, moviSem, movhSem, sextSem, zextSem,
    cmpSem, fcmpSem, faddSem, fsubSem, fmulSem, ffmaSem, fdivSem, fsqrtSem, fminSem, fmaxSem, fcvtSem, brSem, brxSem, callSem,
    callxSem, loopSem, loopxSem, getcSem, modeSem, tendSem, trapSem, hretSem, snaprelSem, plutSem, OpSem.Plain.judges,
    h.me_eq (fun x => x.relative _) (fun _ _ => rfl), h.xr, h.guarded_pure, h.transfer, h.retSem, h.openLoop, h.lbrkSem,
    h.lidxSem, h.putcSem, h.fmtsetSem, h.snapstSem, h.snapldSem, h.inHandler, h.outsideHandler]

theorem scalarForm_free {s : State} {i : Instr} {f : Form} (hi : scalarForm i = some f) (hacts : f.acts s = false) :
    (f.sem s).Free := by
  unfold scalarForm at hi
  split at hi <;> simp only [Option.some.injEq, reduceCtorEq] at hi <;> subst hi
  all_goals
    simp only [Form.acts, Bool.false_eq_true, if_false] at hacts
    simp [addSem, subSem, mulSem, mulhSem, mulhuSem, divSem, divuSem, remSem, remuSem, andSem, orSem, xorSem, andnSem, shlSem,
      shrSem, sarSem, rolSem, minSem, maxSem, minuSem, maxuSem, clzSem, ctzSem, popcSem, moviSem, movhSem, sextSem, zextSem,
      cmpSem, fcmpSem, faddSem, fsubSem, fmulSem, ffmaSem, fdivSem, fsqrtSem, fminSem, fmaxSem, fcvtSem, brSem, brxSem, callSem,
      callxSem, loopSem, loopxSem, getcSem, modeSem, tendSem, trapSem, hretSem, snaprelSem, plutSem, OpSem.Plain.free, transfer,
      retSem, openLoop, putcSem, fmtsetSem, snapstSem, snapldSem, lbrkSem_free, lidxSem_free, OpSem.free_guarded,
      OpSem.free_inHandler, OpSem.free_outsideHandler, hacts]

/-! ## V0 and V1 -/

theorem State.Agree.vectorForm_bad {s t : State} (h : s.Agree t) {i : Instr} {f : Form} (hi : vectorForm i = some f) :
    (f.use t).bad = (f.use s).bad := by
  unfold vectorForm at hi
  split at hi <;> simp only [Option.some.injEq, reduceCtorEq] at hi <;> subst hi
  all_goals simp only [h.useV_bad, h.useVP_bad]

/-- A vector operation is plain, but for the check of a scale. -/
theorem State.Agree.vectorForm {s t : State} (h : s.Agree t) {i : Instr} {f : Form} (hi : vectorForm i = some f) :
    (f.sem t).Judges (f.sem s) := by
  unfold Machine.vectorForm at hi
  split at hi <;> simp only [Option.some.injEq, reduceCtorEq] at hi <;> subst hi
  all_goals simp [vAddSem, vSubSem, vMulSem, vMulhSem, vMulhuSem, vAndSem, vOrSem, vXorSem, vAndnSem, vShlSem, vShrSem, vSarSem,
    vMinSem, vMaxSem, vMinuSem, vMaxuSem, vClzSem, vPopcSem, vAbsSem, vCmpSem, vFcmpSem, vFaddSem, vFsubSem, vFmulSem, vFfmaSem,
    vFminSem, vFmaxSem, vFabsSem, vFnegSem, vfclassSem, vnfinSem, vfdivSem, vfsqrtSem, vfrsqSem, vfrcpSem, vlaneSem, vbcastSem,
    vpermSem, vslideSem, vpackSem, vunpkSem, vcvtSem, vdot4Sem, vamaxSem, vexpoSem, vsrndSem, vdithSem, vqencSem, vqdecSem,
    vPlutSem, pmovToPredicateSem, pmovToVectorSem, vecInt2, vecInt1, OpSem.Plain.judges, h.withScale]

theorem vectorForm_free {s : State} {i : Instr} {f : Form} (hi : vectorForm i = some f) : (f.sem s).Free := by
  unfold vectorForm at hi
  split at hi <;> simp only [Option.some.injEq, reduceCtorEq] at hi <;> subst hi
  all_goals simp [vAddSem, vSubSem, vMulSem, vMulhSem, vMulhuSem, vAndSem, vOrSem, vXorSem, vAndnSem, vShlSem, vShrSem, vSarSem,
    vMinSem, vMaxSem, vMinuSem, vMaxuSem, vClzSem, vPopcSem, vAbsSem, vCmpSem, vFcmpSem, vFaddSem, vFsubSem, vFmulSem, vFfmaSem,
    vFminSem, vFmaxSem, vFabsSem, vFnegSem, vfclassSem, vnfinSem, vfdivSem, vfsqrtSem, vfrsqSem, vfrcpSem, vlaneSem, vbcastSem,
    vpermSem, vslideSem, vpackSem, vunpkSem, vcvtSem, vdot4Sem, vamaxSem, vexpoSem, vsrndSem, vdithSem, vqencSem, vqdecSem,
    vPlutSem, pmovToPredicateSem, pmovToVectorSem, vecInt2, vecInt1, OpSem.Plain.free]

/-! ## M -/

theorem groveForm_bad {i : Instr} {f : Form} (hi : groveForm i = some f) (s : State) : (f.use s).bad = [] := by
  unfold groveForm at hi
  split at hi <;> cases hi <;> rfl

theorem State.Agree.groveForm {s t : State} (h : s.Agree t) {i : Instr} {f : Form} (hi : groveForm i = some f) :
    (f.sem t).Judges (f.sem s) := by
  unfold Machine.groveForm at hi
  split at hi <;> simp only [Option.some.injEq, reduceCtorEq] at hi <;> subst hi
  all_goals simp [tdefSem, tmulSem, tmulbSem, taddSem, tscalSem, trotSem, tviewSem, tcvtSem, ttrsmSem, tluSem, tcholSem, tqrSem,
    tapplySem, tresSem, h.appendSem, h.tcbSem, h.tdropSem, h.tforceSem, h.tstoreSem]

theorem groveForm_free {s : State} {i : Instr} {f : Form} (hi : groveForm i = some f) (hacts : f.acts s = false) : (f.sem s).Free := by
  unfold groveForm at hi
  split at hi <;> simp only [Option.some.injEq, reduceCtorEq] at hi <;> subst hi
  all_goals
    simp only [Form.acts, Bool.false_eq_true, if_false] at hacts
    simp [tdefSem, tmulSem, tmulbSem, taddSem, tscalSem, trotSem, tviewSem, tcvtSem, ttrsmSem, tluSem, tcholSem, tqrSem, tapplySem,
      tresSem, appendSem, tcbSem, tdropSem, tforceSem, tstoreSem, OpSem.free_guarded, hacts]

/-! ## L -/

section
variable {s t : State} (h : s.Agree t)
include h

theorem State.Agree.ldSpec (tt : TT) (lvd : BitVec 7) (lab : AReg) (am : Bool) (ofs : BitVec 15) (sz : BitVec 2) (sx : Bool)
    (rd : BitVec 2) (cached : Bool) : ldSpec tt lvd lab am ofs sz sx rd cached t = ldSpec tt lvd lab am ofs sz sx rd cached s := by
  rw [Machine.ldSpec, Machine.ldSpec, h.lane0, h.la]

theorem State.Agree.ldvSpec (tt : TT) (lvd : BitVec 7) (lab : AReg) (am : Bool) (ofs : BitVec 15) (rd : BitVec 2) (cached : Bool) :
    ldvSpec tt lvd lab am ofs rd cached t = ldvSpec tt lvd lab am ofs rd cached s := by
  rw [Machine.ldvSpec, Machine.ldvSpec, h.lanesOn, h.la]

theorem State.Agree.ldsSpec (tt : TT) (lvd : BitVec 7) (lab las : AReg) (ofs : BitVec 15) (rd : BitVec 2) :
    ldsSpec tt lvd lab las ofs rd t = ldsSpec tt lvd lab las ofs rd s := by
  rw [Machine.ldsSpec, Machine.ldsSpec, h.lanesOn, h.la, h.la]

theorem State.Agree.ldgSpec (tt : TT) (lvd : BitVec 7) (lab : AReg) (lvi : BitVec 7) (ofs : BitVec 12) (rd : BitVec 2) :
    ldgSpec tt lvd lab lvi ofs rd t = ldgSpec tt lvd lab lvi ofs rd s := by
  rw [Machine.ldgSpec, Machine.ldgSpec, h.lanesOn, h.la, h.lv]

theorem State.Agree.loadForm_bad {i : Instr} {f : Form} (hi : loadForm i = some f) : (f.use t).bad = (f.use s).bad := by
  unfold loadForm at hi
  split at hi <;> simp only [Option.some.injEq, reduceCtorEq] at hi <;> subst hi
  all_goals simp [State.useLoad, h.badLv, h.ldSpec, h.ldvSpec, h.ldsSpec, h.ldgSpec]

theorem State.Agree.loadForm {i : Instr} {f : Form} (hi : loadForm i = some f) : (f.sem t).Judges (f.sem s) := by
  unfold Machine.loadForm at hi
  split at hi <;> simp only [Option.some.injEq, reduceCtorEq] at hi <;> subst hi
  all_goals simp [ldSem, ldvSem, ldsSem, ldgSem, ldcSem, ldcvSem, prefSem, laaddSem, lamovSem, h.ldSpec, h.ldvSpec, h.ldsSpec,
    h.ldgSpec, h.loadSem, h.guarded_pure]

end

theorem loadForm_free {s : State} {i : Instr} {f : Form} (hi : loadForm i = some f) (hacts : f.acts s = false) : (f.sem s).Free := by
  unfold loadForm at hi
  split at hi <;> simp only [Option.some.injEq, reduceCtorEq] at hi <;> subst hi
  all_goals
    simp only [Form.acts, Bool.false_eq_true, if_false, if_true] at hacts
    simp [ldSem, ldvSem, ldsSem, ldgSem, ldcSem, ldcvSem, prefSem, laaddSem, lamovSem, ldSpec, ldvSpec, ldsSpec, ldgSpec, lane0Only,
      stepLanes, loadSem_free, State.lanesOn_eq_nil, OpSem.free_guarded, hacts]

/-! ## Q -/

section
variable {s t : State} (h : s.Agree t)
include h

theorem State.Agree.stSpec (tt : TT) (qvs : BitVec 6) (qab : AReg) (am : Bool) (ofs : BitVec 18) (sz : BitVec 2) :
    stSpec tt qvs qab am ofs sz t = stSpec tt qvs qab am ofs sz s := by
  rw [Machine.stSpec, Machine.stSpec, h.lane0, h.qa, h.qv]

theorem State.Agree.stvSpec (tt : TT) (qvs : BitVec 6) (qab : AReg) (am : Bool) (ofs : BitVec 18) :
    stvSpec tt qvs qab am ofs t = stvSpec tt qvs qab am ofs s := by
  rw [Machine.stvSpec, Machine.stvSpec, h.lanesOn, h.qa, h.qv]

theorem State.Agree.stsSpec (tt : TT) (qvs : BitVec 6) (qab qas : AReg) (ofs : BitVec 18) :
    stsSpec tt qvs qab qas ofs t = stsSpec tt qvs qab qas ofs s := by
  rw [Machine.stsSpec, Machine.stsSpec, h.lanesOn, h.qa, h.qa, h.qv]

theorem State.Agree.scatSpec (tt : TT) (qvs : BitVec 6) (qab : AReg) (qvi : BitVec 6) (ofs : BitVec 16) :
    scatSpec tt qvs qab qvi ofs t = scatSpec tt qvs qab qvi ofs s := by
  rw [Machine.scatSpec, Machine.scatSpec, h.lanesOn, h.qa, h.qv, h.qv]

theorem State.Agree.quantAddr (f : Fmt) (qab : AReg) (am : Bool) (ofs : BitVec 9) : t.quantAddr f qab am ofs = s.quantAddr f qab am ofs := by
  rw [State.quantAddr, State.quantAddr, h.qa]

theorem State.Agree.qstSem (tt : TT) (qvs : BitVec 6) (qab : AReg) (am : Bool) (ofs : BitVec 9) (frame : BitVec 3) (fmt sc : BitVec 4)
    (se : Bool) : (qstSem tt qvs qab am ofs frame fmt sc se t).Judges (qstSem tt qvs qab am ofs frame fmt sc se s) := by
  unfold Machine.qstSem
  simp only [h.quantAddr, h.frame, h.scale, h.scaleOk, h.qv]
  exact h.quantSem rfl _ _ _ rfl _ _

theorem State.Agree.qstbSem (tt : TT) (qvs : BitVec 6) (qab : AReg) (am : Bool) (ofs : BitVec 9) (frame : BitVec 3) (fmt sc : BitVec 4) :
    (qstbSem tt qvs qab am ofs frame fmt sc t).Judges (qstbSem tt qvs qab am ofs frame fmt sc s) := by
  unfold Machine.qstbSem
  simp only [h.quantAddr, h.frame, h.regs, h.qv, h.laneFaults, h.imageFaults, h.aliasFaults]
  exact h.quantSem rfl _ _ _ rfl _ _

theorem State.Agree.storeForm_bad {i : Instr} {f : Form} (hi : storeForm i = some f) : (f.use t).bad = (f.use s).bad := by
  unfold storeForm at hi
  split at hi <;> simp only [Option.some.injEq, reduceCtorEq] at hi <;> subst hi
  all_goals simp [State.useStore, State.useAtomic, h.badQv]

theorem State.Agree.storeForm {i : Instr} {f : Form} (hi : storeForm i = some f) : (f.sem t).Judges (f.sem s) := by
  unfold Machine.storeForm at hi
  split at hi <;> simp only [Option.some.injEq, reduceCtorEq] at hi <;> subst hi
  all_goals simp [stSem, stvSem, stsSem, scatSem, aaddSem, afaddSem, aminSem, amaxSem, aorSem, aandSem, axchgSem, acasSem, qaaddSem,
    h.stSpec, h.stvSpec, h.stsSpec, h.scatSpec, h.storeSem, h.qstSem, h.qstbSem, h.atomicSem, h.contribSem, h.guarded_pure]

end

theorem storeForm_free {s : State} {i : Instr} {f : Form} (hi : storeForm i = some f) (hacts : f.acts s = false) : (f.sem s).Free := by
  unfold storeForm at hi
  split at hi <;> simp only [Option.some.injEq, reduceCtorEq] at hi <;> subst hi
  all_goals
    simp only [Form.acts, Bool.false_eq_true, if_false, if_true] at hacts
    simp [stSem, stvSem, stsSem, scatSem, qstSem, qstbSem, aaddSem, afaddSem, aminSem, amaxSem, aorSem, aandSem, axchgSem, acasSem,
      qaaddSem, contribSem, atomicSem, stSpec, stvSpec, stsSpec, scatSpec, lanePieces, stepLanes, storeSem_free, quantSem_free,
      State.lanesOn_eq_nil, OpSem.free_guarded, hacts]

/-! ## X -/

theorem exchangeForm_steady {i : Instr} {f : Form} (hi : exchangeForm i = some f) : f.Steady := by
  unfold exchangeForm at hi
  split at hi <;> simp only [Option.some.injEq, reduceCtorEq] at hi <;> subst hi
  all_goals exact Form.steady_of_plain (copySemOf_plain _ _ _ _) fun h => h.useCopy_bad ..

/-! ## C -/

theorem copyForm_bad {i : Instr} {f : Form} (hi : copyForm i = some f) (s : State) : (f.use s).bad = [] := by
  unfold copyForm at hi
  split at hi <;> cases hi <;> rfl

theorem State.Agree.copyForm {s t : State} (h : s.Agree t) {i : Instr} {f : Form} (hi : copyForm i = some f) :
    (f.sem t).Judges (f.sem s) := by
  unfold Machine.copyForm at hi
  split at hi <;> simp only [Option.some.injEq, reduceCtorEq] at hi <;> subst hi
  all_goals exact h.copyCmdSem ..

theorem copyForm_free {s : State} {i : Instr} {f : Form} (hi : copyForm i = some f) (hacts : f.acts s = false) : (f.sem s).Free := by
  unfold copyForm at hi
  split at hi <;> simp only [Option.some.injEq, reduceCtorEq] at hi <;> subst hi
  all_goals exact OpSem.free_guarded hacts _

/-! ## Y -/

theorem syncForm_bad {i : Instr} {f : Form} (hi : syncForm i = some f) (s : State) : (f.use s).bad = [] := by
  unfold syncForm at hi
  split at hi <;> cases hi <;> rfl

theorem State.Agree.syncForm {s t : State} (h : s.Agree t) {i : Instr} {f : Form} (hi : syncForm i = some f) :
    (f.sem t).Judges (f.sem s) := by
  unfold Machine.syncForm at hi
  split at hi <;> simp only [Option.some.injEq, reduceCtorEq] at hi <;> subst hi
  all_goals simp [waddSem, tlincSem, tlincCSem, fenceAcqSem, fenceRelSem, drainSem, flushSem, flushAllSem, invalSem, invalAllSem,
    joinSem, leaveSem, gnewSem, gfreeSem, signalSem, armctxSem, OpSem.Plain.judges, h.flushRange, h.barSem, h.arriveSem, h.submitSem, h.uarmSem]

theorem syncForm_free {s : State} {i : Instr} {f : Form} (hi : syncForm i = some f) (hacts : f.acts s = false) : (f.sem s).Free := by
  unfold syncForm at hi
  split at hi <;> simp only [Option.some.injEq, reduceCtorEq] at hi <;> subst hi
  all_goals exact OpSem.free_guarded hacts _

/-! ## Every form -/

theorem formOf_steady {i : Instr} {f : Form} (hi : formOf i = some f) : f.Steady := by
  have hnone : ∀ {s t : State}, (∀ r, (f.use r).bad = []) → (f.use t).bad = (f.use s).bad := fun h => (h _).trans (h _).symm
  rcases formOf_cases hi with hi | hi | hi | hi | hi | hi | hi | hi
  · exact ⟨fun h => h.scalarForm hi, fun _ => hnone (scalarForm_bad hi), scalarForm_free hi⟩
  · exact ⟨fun h => h.vectorForm hi, fun h => h.vectorForm_bad hi, fun _ => vectorForm_free hi⟩
  · exact ⟨fun h => h.groveForm hi, fun _ => hnone (groveForm_bad hi), groveForm_free hi⟩
  · exact ⟨fun h => h.loadForm hi, fun h => h.loadForm_bad hi, loadForm_free hi⟩
  · exact ⟨fun h => h.storeForm hi, fun h => h.storeForm_bad hi, storeForm_free hi⟩
  · exact exchangeForm_steady hi
  · exact ⟨fun h => h.copyForm hi, fun _ => hnone (copyForm_bad hi), copyForm_free hi⟩
  · exact ⟨fun h => h.syncForm hi, fun _ => hnone (syncForm_bad hi), syncForm_free hi⟩

end Sys2Proof.Machine
end

section
/-! exec of a slot operation, where the bundle that holds it alone may issue (R25, R29, R30). -/

namespace Sys2Proof.Machine

/-- exec of a slot operation runs the contribution of its form, in its slot and with the numbers outside its windows. -/
theorem exec_eq_run_form {i : Instr} {f : Form} (h : formOf i = some f) (s : State) :
    exec i s = (f.sem s).run f.slot (f.use s).bad s := by
  rcases formOf_cases h with h | h | h | h | h | h | h | h
  · unfold scalarForm at h; split at h <;> cases h <;> rfl
  · unfold vectorForm at h; split at h <;> cases h <;> rfl
  · unfold groveForm at h; split at h <;> cases h <;> rfl
  · unfold loadForm at h; split at h <;> cases h <;> rfl
  · unfold storeForm at h; split at h <;> cases h <;> rfl
  · unfold exchangeForm at h; split at h <;> cases h <;> rfl
  · unfold copyForm at h; split at h <;> cases h <;> rfl
  · unfold syncForm at h; split at h <;> cases h <;> rfl

theorem slotV_mem_slotOrder (vu : VUnit) : slotV vu ∈ slotOrder := by cases vu <;> decide

/-- A bundle performs the slot of every form. -/
theorem slot_mem_slotOrder {i : Instr} {f : Form} (h : formOf i = some f) : f.slot ∈ slotOrder := by
  rcases formOf_cases h with h | h | h | h | h | h | h | h
  · unfold scalarForm at h; split at h <;> cases h <;> exact show slotS ∈ slotOrder by decide
  · unfold vectorForm at h; split at h <;> cases h <;> exact slotV_mem_slotOrder _
  · unfold groveForm at h; split at h <;> cases h <;> exact show slotM ∈ slotOrder by decide
  · unfold loadForm at h; split at h <;> cases h <;> exact show slotL ∈ slotOrder by decide
  · unfold storeForm at h; split at h <;> cases h <;> exact show slotQ ∈ slotOrder by decide
  · unfold exchangeForm at h; split at h <;> cases h <;> exact show slotX ∈ slotOrder by decide
  · unfold copyForm at h; split at h <;> cases h <;> exact show slotC ∈ slotOrder by decide
  · unfold syncForm at h; split at h <;> cases h <;> exact show slotY ∈ slotOrder by decide

/-! ## A bundle of one operation -/

theorem bundleForms_one {b : Bundle} {i : Instr} {f : Form} (hops : b.ops = [i]) (hf : formOf i = some f) : bundleForms b = [f] := by
  simp [bundleForms, hops, hf]

/-- Over a list of slots without repetition that holds the form's, the slots of a bundle of one form are that form's effect. -/
theorem foldl_slot_once (f : Form) (v : State) (ns : List Nat) (hnd : ns.Nodup) (r : State) :
    ns.foldl (fun r n => ([f].filter (fun f => f.slot == n)).foldl (fun r f => (f.sem v).effect r) r) r
      = if f.slot ∈ ns then (f.sem v).effect r else r := by
  induction ns generalizing r with
  | nil => rfl
  | cons n ns ih =>
    obtain ⟨hn, hns⟩ := List.nodup_cons.1 hnd
    rw [List.foldl_cons, ih hns]
    by_cases hslot : f.slot = n
    · simp [hslot, hn]
    · simp [hslot]

/-- The slots of a bundle of one operation: the effect of that operation. -/
theorem State.performSlots_one {b : Bundle} {i : Instr} {f : Form} (hops : b.ops = [i]) (hf : formOf i = some f) (v r : State) :
    v.performSlots r b = (f.sem v).effect r := by
  rw [State.performSlots, bundleForms_one hops hf, foldl_slot_once f v slotOrder (by decide), if_pos (slot_mem_slotOrder hf)]

/-! ## What the verdict to issue says of the operation -/

/-- An operation that nothing faults or holds in the state that its bundle reads. -/
structure Form.Clear (f : Form) (s : State) : Prop where
  bad : (f.use s).bad = []
  faults : (f.sem s).faults = []
  holds : (f.sem s).holds = 0
  queue : s.queueHold s.cur.1 (f.sem s).aq = 0

/-- A clear operation has its effect. -/
theorem Form.Clear.exec {i : Instr} {f : Form} (hf : formOf i = some f) {s : State} (h : f.Clear s) :
    exec i s = .next ((f.sem s).effect s) := by
  rw [exec_eq_run_form hf]
  exact OpSem.run_next' h.bad h.faults h.holds h.queue

/-- States that agree find the same operations clear. -/
theorem Form.Clear.of_agree {i : Instr} {f : Form} (hf : formOf i = some f) {s t : State} (h : s.Agree t) (hs : f.Clear s) : f.Clear t := by
  have hj := (formOf_steady hf).judges h
  refine ⟨((formOf_steady hf).bad h).trans hs.bad, hj.faults.trans hs.faults, hj.holds.trans hs.holds, ?_⟩
  rw [h.cur, hj.aq, h.queueHold]
  exact hs.queue

/-- The one operation of a bundle that has no fault and no hold is clear. -/
theorem Form.clear_of_issues {i : Instr} {f : Form} (hf : formOf i = some f) {v : State} {b : Bundle} {raw : Ctx} (hops : b.ops = [i])
    (hfaults : worst (v.bundleFaults b) = none) (hholds : v.bundleHolds raw b = 0) : f.Clear v := by
  have hforms := bundleForms_one hops hf
  have hnil : v.bundleFaults b = [] := by
    by_contra hne
    exact worst_ne_none hne hfaults
  simp only [State.bundleFaults, hforms, List.flatMap_singleton, List.append_eq_nil_iff] at hnil
  obtain ⟨-, hbad, hsem⟩ := hnil
  have hact : v.acting b = if f.acts v then [f] else [] := by
    rw [State.acting, hforms]
    cases hg : f.acts v <;> simp [hg]
  simp only [State.bundleHolds, Nat.or_eq_zero_iff] at hholds
  obtain ⟨⟨-, hengine⟩, hqueue⟩ := hholds
  suffices hfree : (f.sem v).holds = 0 ∧ v.queueHold v.cur.1 (f.sem v).aq = 0 from ⟨List.map_eq_nil_iff.1 hbad, hsem, hfree.1, hfree.2⟩
  cases hg : f.acts v with
  | false =>
    obtain ⟨hh, haq⟩ := (formOf_steady hf).free hg
    exact ⟨hh, by rw [haq, queueHold_zero]⟩
  | true =>
    rw [hact, hg] at hengine hqueue
    exact ⟨by simpa using hengine, by simpa using hqueue⟩

end Sys2Proof.Machine
end

section
/-! What a bundle reads once the NONFINITE of what lands are raised and the issue slot is used: a state that agrees with the one that its
verdict was taken in (R18, R27, R79). -/

namespace Sys2Proof.Machine

/-! ## The context as its bundle reads it (R27, R28) -/

theorem insertBy_map {α : Type} {key : α → Nat} {g : α → α} (hg : ∀ a, key (g a) = key a) (a : α) (l : List α) :
    insertBy key (g a) (l.map g) = (insertBy key a l).map g := by
  induction l with
  | nil => rfl
  | cons b l ih =>
    rw [List.map_cons, insertBy, insertBy, hg, hg, ih]
    split <;> rfl

theorem sortBy_map {α : Type} {key : α → Nat} {g : α → α} (hg : ∀ a, key (g a) = key a) (l : List α) :
    sortBy key (l.map g) = (sortBy key l).map g := by
  have hfold : ∀ acc : List α, (l.map g).foldl (fun acc a => insertBy key a acc) (acc.map g)
      = (l.foldl (fun acc a => insertBy key a acc) acc).map g := by
    induction l with
    | nil => exact fun _ => rfl
    | cons a l ih => exact fun acc => by rw [List.map_cons, List.foldl_cons, insertBy_map hg, ih, List.foldl_cons]
  exact hfold []

theorem Ctx.setCsr_traps (x : Ctx) (ts : List PendTrap) (n : Nat) (v : W64) :
    ({ x with traps := ts } : Ctx).setCsr n v = { x.setCsr n v with traps := ts } := by
  by_cases hl : 0x040 ≤ n ∧ n < 0x070
  · rw [Ctx.setCsr_level hl.1 hl.2, Ctx.setCsr_level hl.1 hl.2]
  · unfold Ctx.setCsr Ctx.setDepth
    rw [if_neg hl, if_neg hl]
    dsimp only
    repeat' split
    all_goals rfl

theorem Ctx.landWrite_traps (x : Ctx) (ts : List PendTrap) (d : Dest) (m v : Vec) :
    ({ x with traps := ts } : Ctx).landWrite d m v = { x.landWrite d m v with traps := ts } := by
  cases d
  case csr n => exact Ctx.setCsr_traps ..
  all_goals rfl

/-- The writes that land do so in one order, with their NONFINITE raised or not. -/
theorem Ctx.landing_quiet (x : Ctx) (ts : List PendTrap) (cy : Nat) :
    ({ x with traps := ts, pend := x.pend.map (Write.quiet cy) } : Ctx).landing cy = (x.landing cy).map (Write.quiet cy) := by
  have hfilter : (x.pend.map (Write.quiet cy)).filter (fun w => w.lands cy) = (x.pend.filter (fun w => w.lands cy)).map (Write.quiet cy) := by
    rw [List.filter_map]
    exact congrArg (fun f => (x.pend.filter f).map (Write.quiet cy)) (funext (Write.quiet_lands cy))
  rw [Ctx.landing, Ctx.landing, hfilter, sortBy_map (Write.quiet_seq cy), sortBy_map (Write.quiet_land cy)]

/-- What lands is the same, with the NONFINITE of the writes raised or not. -/
theorem Ctx.landed_quiet (x : Ctx) (ts : List PendTrap) (cy : Nat) :
    ({ x with traps := ts, pend := x.pend.map (Write.quiet cy) } : Ctx).landed cy = { x.landed cy with traps := ts } := by
  have hfold : ∀ (ws : List Write) (y : Ctx),
      (ws.map (Write.quiet cy)).foldl (fun (x : Ctx) w => x.landWrite w.dest w.mask w.value) { y with traps := ts }
        = { ws.foldl (fun (x : Ctx) w => x.landWrite w.dest w.mask w.value) y with traps := ts } := fun ws => by
    induction ws with
    | nil => exact fun _ => rfl
    | cons w ws ih =>
      intro y
      have hw : ({ y with traps := ts } : Ctx).landWrite (Write.quiet cy w).dest (Write.quiet cy w).mask (Write.quiet cy w).value
          = { y.landWrite w.dest w.mask w.value with traps := ts } := by
        rw [Ctx.landWrite_traps]
        unfold Write.quiet
        split <;> rfl
      rw [List.map_cons, List.foldl_cons, hw, ih, List.foldl_cons]
  rw [Ctx.landed, Ctx.landing_quiet, filter_map_quiet]
  exact hfold (x.landing cy) { x with pend := x.pend.filter (fun w => !w.lands cy) }

theorem Ctx.atIssue_quiet (x : Ctx) (ts : List PendTrap) (cy : Nat) :
    ({ x with traps := ts, pend := x.pend.map (Write.quiet cy) } : Ctx).atIssue cy = { x.atIssue cy with traps := ts } := by
  have hreplay : (replayWrites (x.replay.getD []) cy).map (Write.quiet cy) = replayWrites (x.replay.getD []) cy := by
    refine (List.map_congr_left fun w hw => ?_).trans (List.map_id _)
    obtain ⟨e, -, rfl⟩ := List.mem_map.1 hw
    unfold Write.quiet
    split <;> rfl
  have hpend := Ctx.landed_quiet { x with pend := x.pend ++ replayWrites (x.replay.getD []) cy, replay := none } ts cy
  rw [List.map_append, hreplay] at hpend
  exact hpend

/-! ## The state that the bundle reads -/

/-- The NONFINITE of what lands change nothing that the bundle reads of its context. -/
theorem State.raiseDue_atIssue {s : State} {k c : Nat} {x : Ctx} (h : s.ctx? k c = some x) :
    ∃ ts, ((s.raiseDue k c).ctx k c).atIssue (s.cyc (s.partOf k)) = { x.atIssue (s.cyc (s.partOf k)) with traps := ts } := by
  obtain ⟨ts, hts⟩ := State.raiseDue_ctx? h
  exact ⟨ts, by rw [State.ctx_eq hts]; exact x.atIssue_quiet ts _⟩

/-- Where states differ as raising a context's traps may make them, what its bundle reads agrees if the context does. -/
theorem State.Raised.agree {s t : State} {k c : Nat} (h : s.Raised t k c) (x : Ctx) (ts : List PendTrap) :
    State.Agree { s.setCtx k c x with cur := (k, c) } { t.setCtx k c { x with traps := ts } with cur := (k, c) } := by
  refine ⟨rfl, h.now, h.mem, h.clusters, h.queues, h.partOf, ⟨ts, ?_⟩, fun j => ?_, h.part⟩
  · exact (State.setCtx_ctx t k c _).trans (congrArg (fun y : Ctx => { y with traps := ts }) (State.setCtx_ctx s k c x).symm)
  · show ∃ ctxs run last, (t.setCtx k c { x with traps := ts }).core j
        = { (s.setCtx k c x).core j with ctxs := ctxs, run := run, lastIssueCycle := last }
      ∧ ctxs.map (fun e => e.2.pend) = ((s.setCtx k c x).core j).ctxs.map (fun e => e.2.pend)
    by_cases hj : j = k
    · obtain ⟨ctxs, run, last, hcore, hset⟩ := h.core
      subst hj
      refine ⟨amSet (s.core j).ctxs c { x with traps := ts }, run, last, ?_, ?_⟩
      · rw [State.setCtx_core, State.setCtx_core, hcore, hset]
      · rw [State.setCtx_core]
        exact amSet_map_congr (g := Ctx.pend) _ c rfl
    · rw [State.setCtx, State.setCtx, State.onCore_core_of_ne _ _ hj, State.onCore_core_of_ne _ _ hj, h.others j hj]
      exact ⟨_, _, _, rfl, rfl⟩

/-- A bundle reads alike in the state of its verdict and where the traps due at its boundary are raised and the issue slot is used. -/
theorem State.atIssue_agree {s : State} {k c : Nat} {x : Ctx} (h : s.ctx? k c = some x) (b : Bundle) :
    (s.atIssue k c b).Agree ((((s.raiseDue k c).gainSlot k c).useSlot k true).atIssue k c b) := by
  have hraised : s.Raised (((s.raiseDue k c).gainSlot k c).useSlot k true) k c :=
    ((State.Raised.raiseDue s k c).trans (.gainSlot ..)).trans (.useSlot ..)
  have hctx : (((s.raiseDue k c).gainSlot k c).useSlot k true).ctx k c = (s.raiseDue k c).ctx k c := by
    rw [State.ctx, State.ctx, (((s.raiseDue k c).gainSlot_frame k c).trans (State.useSlot_frame _ k true)).ctx k c]
  obtain ⟨ts, hts⟩ := State.raiseDue_atIssue h
  rw [State.atIssue, State.atIssue, hctx, hraised.cyc, hts, State.ctx_eq h]
  exact hraised.agree _ ts

end Sys2Proof.Machine
end

section
/-! A step runs what it fetches (R19, R27, R29, R52). -/

namespace Sys2Proof.Machine

/-! ## Time (log 3) -/

theorem mem_of_minOf {l : List Nat} {n : Nat} (h : minOf l = some n) : n ∈ l := by
  induction l generalizing n with
  | nil => cases h
  | cons a l ih =>
    rw [minOf] at h
    cases hl : minOf l with
    | none =>
      rw [hl] at h
      exact Option.some.inj h ▸ List.mem_cons_self ..
    | some b =>
      rw [hl] at h
      cases h
      rcases min_choice a b with hmin | hmin
      · rw [hmin]; exact List.mem_cons_self ..
      · rw [hmin]; exact List.mem_cons_of_mem _ (ih hl)

/-- The next instant lies ahead. -/
theorem State.now_lt_nextInstant (s : State) : s.now < s.nextInstant := by
  unfold State.nextInstant
  extract_lets cycles starts reads later
  cases hmin : minOf later with
  | none => exact Nat.lt_add_of_pos_right (by decide)
  | some n => exact of_decide_eq_true (List.mem_filter.1 (mem_of_minOf hmin)).2

/-! ## The issue of a bundle as the next event -/

/-- What comes next is ready. -/
theorem State.ready_of_nextEvent {s : State} {i : Instr} (h : s.nextEvent = some i) : s.ready i = true := by
  obtain ⟨a, ha, rfl⟩ := Option.map_eq_some_iff.1 h
  exact List.find?_some (p := fun a : Activity => s.ready a.event) ha

theorem State.step_eq_exec {s : State} {i : Instr} (h : s.nextEvent = some i) : step s = exec i (s.withoutInput i) := by
  rw [step, State.advanceMachine, h]

theorem State.step_bundleIssue {s : State} {k c : Nat} {x : Ctx} {b : Bundle} (h : s.nextEvent = some (.bundleIssue k c))
    (hctx : s.ctx? k c = some x) (hv : s.verdict k c = .issues b) : step s = .next (s.issueBundle k c b) := by
  rw [State.step_eq_exec h]
  show execBundleIssue k c s = _
  simp only [execBundleIssue, hctx, hv]

/-- A context whose bundle's issue comes next is not FREE. -/
theorem State.exists_ctx_of_nextEvent {s : State} {k c : Nat} (h : s.nextEvent = some (.bundleIssue k c)) : ∃ x, s.ctx? k c = some x := by
  by_contra hnone
  have hctx : s.ctx? k c = none := Option.eq_none_iff_forall_not_mem.2 fun x hx => hnone ⟨x, hx⟩
  have hexec : exec (.bundleIssue k c) s = notDue := by
    show execBundleIssue k c s = notDue
    simp only [execBundleIssue, hctx]
  have hready := State.ready_of_nextEvent h
  rw [State.ready, hexec] at hready
  cases hready

/-- A bundle that issues raises no fault, and nothing holds it. -/
theorem State.verdict_issues {s : State} {k c : Nat} {b : Bundle} (hf : s.fetch k c = .bundle b) (hv : s.verdict k c = .issues b) :
    worst ((s.atIssue k c b).bundleFaults b) = none ∧ (s.atIssue k c b).bundleHolds (s.ctx k c) b = 0 := by
  unfold State.verdict at hv
  split at hv
  · cases hv
  · split at hv
    · simp only [State.stampedVerdict, hf] at hv
      generalize (if s.slotTaken k c = true then ovSlot else 0) = slot at hv
      split at hv
      · cases hv
      next hw =>
        split at hv
        · cases hv
        next hcause => exact ⟨hw, (Nat.or_eq_zero_iff.1 (not_not.1 hcause)).2⟩
    · simp only [State.unstampedVerdict, hf] at hv
      split at hv
      · cases hv
      · split at hv
        · cases hv
        · split at hv
          · cases hv
          next hholds =>
            split at hv
            · cases hv
            next hw => exact ⟨hw, not_not.1 hholds⟩

/-! ## The statement -/

/-- Settles O60: the issue of a bundle by its event, the operation's own run because the state that it reads agrees with the one in
which the verdict found no fault and no hold, and the passage of time by the instants that lie ahead. -/
theorem stepRunsDecoded : Obligations.StepRunsDecoded := by
  unfold Obligations.StepRunsDecoded
  refine ⟨fun s k c b i f hnext hfetch hops hform hverdict => ?_, fun s i h => State.step_eq_exec h, fun s h => ⟨?_, s.now_lt_nextInstant⟩⟩
  · obtain ⟨x, hctx⟩ := State.exists_ctx_of_nextEvent hnext
    extract_lets u v
    refine ⟨?_, fun hvu => ?_⟩
    · rw [State.step_bundleIssue hnext hctx hverdict, State.issueBundle]
      exact congrArg (fun r => Host.Outcome.next (State.closeBundle v r k c b)) (State.performSlots_one hops hform v _)
    · obtain ⟨hfaults, hholds⟩ := State.verdict_issues hfetch hverdict
      have hclear : f.Clear u := (Form.clear_of_issues hform hops hfaults hholds).of_agree hform (State.atIssue_agree hctx b)
      rw [hvu]
      exact hclear.exec hform
  · rw [step, State.advanceMachine, h]

end Sys2Proof.Machine
end

section
/-! What the X slot copies put in flight (R44, R86, R87). -/

namespace Sys2Proof.Machine

/-! ## The write of one descriptor -/

theorem maskAt_zero (n : Nat) : maskAt 0 n = BitVec.ofNat 1024 (2 ^ n - 1) := by
  rw [maskAt, Nat.pow_zero, Nat.mul_one]

/-- A descriptor puts its form's write in flight in its destination, and an empty one does nothing. -/
theorem copyEffect_apply (x : Ctx) (form : Nat) (c : CopyDesc) (r : State) :
    copyEffect x form c r
      = if c.isEmpty then r
        else r.push 2 (x.fileReg c.df c.dr) (copyWrite form c (x.read (x.fileReg c.sf c.sr))).1
          (copyWrite form c (x.read (x.fileReg c.sf c.sr))).2 := by
  unfold copyEffect
  split <;> rfl

theorem copyWrite_whole (c : CopyDesc) (src : Vec) :
    copyWrite 1 c src = (if fileIsVector c.df then BitVec.allOnes 1024 else BitVec.ofNat 1024 (2 ^ 64 - 1), src) := by
  rw [← maskAt_allOnes, ← maskAt_zero]
  rfl

theorem copyWrite_broadcast (c : CopyDesc) (src : Vec) :
    copyWrite 2 c src = (BitVec.allOnes 1024, vecOf (fun _ => lane src 0)) := by
  rw [← maskAt_allOnes]
  rfl

/-- COPYL and COPYP write alike: the 64 low bits of the source. -/
theorem copyWrite_low {form : Nat} (h : 3 ≤ form) (c : CopyDesc) (src : Vec) :
    copyWrite form c src = (BitVec.ofNat 1024 (2 ^ 64 - 1), src &&& BitVec.ofNat 1024 (2 ^ 64 - 1)) := by
  unfold copyWrite
  split
  · omega
  · omega
  · rw [maskAt_zero]

/-! ## The copies of a bundle -/

/-- Both writes are in flight after a copy; the sources are those of the state of issue, so that the second descriptor reads
before the first writes. -/
theorem copySemOf_run {s : State} {tt : TT} {c0 c1 : CopyDesc} (hguard : s.lane0 tt = true) (hbad : s.badCopy c0 c1 = [])
    (form : Nat) :
    (copySemOf form tt c0 c1 s).run slotX (s.badCopy c0 c1) s = .next (copyEffect s.me form c1 (copyEffect s.me form c0 s)) := by
  rw [hbad, copySemOf, OpSem.guarded_on hguard, OpSem.run_pure]

/-- Settles O30: each form puts the writes of its two descriptors in flight, and the lemmas on copyWrite say which bits and
values those are. -/
theorem copiesComplete : Obligations.CopiesComplete := by
  unfold Obligations.CopiesComplete
  intro s tt c0 c1 hguard hbad
  have hrun := copySemOf_run hguard hbad
  simp only [copyEffect_apply] at hrun
  refine ⟨(hrun 1).trans ?_, (hrun 2).trans ?_, (hrun 3).trans ?_, (hrun 4).trans ?_⟩
  · simp only [copyWrite_whole]
  · simp only [copyWrite_broadcast]
  · simp only [copyWrite_low (Nat.le_refl 3)]
  · simp only [copyWrite_low (Nat.le_succ 3)]

end Sys2Proof.Machine
end

section
/-! The machine right after reset (R50, R172, R309, R343, R365, R367). -/

namespace Sys2Proof.Machine

/-- A cluster after reset has its 48 banks in CACHE. -/
theorem Cluster.reset_mode {b : Nat} (h : b < 48) : Cluster.reset.modes.getD b .fifo = .cache := by
  rw [Cluster.reset, List.getD_replicate _ h]

/-- Settles O56: no map of the machine lists anything after reset, so each part reads as its reset value. -/
theorem resetState : Obligations.ResetState := by
  unfold Obligations.ResetState
  exact ⟨fun _ _ => rfl, fun _ _ hb => Cluster.reset_mode hb, fun _ => rfl, fun _ => ⟨rfl, rfl⟩, fun _ => ⟨rfl, rfl⟩, rfl, rfl, rfl,
    fun _ => rfl⟩

end Sys2Proof.Machine
end

section
/-! Control transfers and the operations on the loop levels: each completes with its effect, or raises the one fault that comes
first (R34, R52, R54, R57, R60, R287). -/

namespace Sys2Proof.Machine

/-! ## The issue of an operation that may fault (R287) -/

/-- The fault that a bundle reports is the one of the lowest code. -/
theorem worst_of_lowest {l : List IssueFault} {f : IssueFault} (hf : f ∈ l) (hlow : ∀ g ∈ l, g = f ∨ f.code < g.code) :
    worst l = some f := by
  obtain ⟨g, hg⟩ := Option.ne_none_iff_exists'.1 (worst_ne_none (List.ne_nil_of_mem hf))
  obtain ⟨hmem, hmin⟩ := worst_spec hg
  rw [hg, (hlow g hmem).resolve_right (Nat.not_lt_of_le (hmin f hf))]

/-- An operation that nothing holds and that has faults takes the first of them. -/
theorem OpSem.run_fault {o : OpSem} {slot : Nat} {s : State} {f : IssueFault} (hf : worst o.faults = some f) (hh : o.holds = 0)
    (haq : o.aq = 0) : o.run slot [] s = .next (s.takeFault s.cur.1 s.cur.2 f s.me.pc) := by
  simp [OpSem.run, hf, hh, haq, queueHold_zero, windowFaults]

/-! ## Transfers (R52, R54) -/

/-- A transfer to a legal target writes its link where it has one, and goes to the target. -/
theorem transfer_runs {s : State} {tt : TT} {target : W64} (h : s.lane0 tt = true) (htarget : s.me.targetOk target = true)
    (link : Option XReg) :
    (transfer s tt target link).run slotS [] s = .next ((link.elim s (fun d => s.pushX 1 d s.me.link)).goTo target) := by
  rw [transfer, OpSem.guarded_on h]
  refine (OpSem.run_next (if_pos htarget) rfl (queueHold_zero s _)).trans ?_
  cases link <;> rfl

/-- RET to a legal target closes the levels opened since the call. -/
theorem ret_runs {s : State} {tt : TT} (h : s.lane0 tt = true) (xa : XReg) (hbits : (s.me.xr xa).extractLsb' 3 3 = 0)
    (hdepth : ((s.me.xr xa).extractLsb' 0 3).toNat ≤ s.me.levels.length)
    (htarget : s.me.targetOk (s.me.xr xa &&& ~~~(63 : W64)) = true) :
    Runs (.ret tt xa) s
      ((s.onMe (fun x => { x with levels := x.levels.drop (x.levels.length - ((s.me.xr xa).extractLsb' 0 3).toNat) })).goTo
        (s.me.xr xa &&& ~~~(63 : W64))) := by
  have hfield : ∀ lo, bitsOf (s.me.xr xa).toNat lo 3 = ((s.me.xr xa).extractLsb' lo 3).toNat := fun lo => by
    rw [bitsOf, BitVec.extractLsb'_toNat, Nat.shiftRight_eq_div_pow]
  show (retSem tt xa s).run slotS [] s = _
  rw [retSem, OpSem.guarded_on h]
  simp only [hfield, hbits]
  refine OpSem.run_next ?_ rfl (queueHold_zero s _)
  rw [if_neg (by decide), if_pos htarget, if_neg (Nat.not_lt_of_le hdepth), List.append_nil]

/-- Settles O7: a transfer to a legal target has no fault; of RET, the depth of its link is within LDEPTH too. -/
theorem transfersComplete : Obligations.TransfersComplete := by
  unfold Obligations.TransfersComplete
  intro s tt xd xa ofs h x rel v link depth closed
  exact ⟨fun hrel => ⟨transfer_runs h hrel none, transfer_runs h hrel (some xd)⟩,
    fun hv => ⟨transfer_runs h hv none, transfer_runs h hv (some xd)⟩,
    fun hbits hdepth htarget => ret_runs h xa hbits hdepth htarget⟩

/-! ## LOOP and LOOPX (R57) -/

/-- A level may be opened below depth 6, before the END of the innermost level and with an END that lies before it. -/
theorem Ctx.mayOpen_iff (x : Ctx) (last : W64) :
    x.mayOpen last = true ↔ x.levels.length < 6 ∧ ∀ l rest, x.levels = l :: rest → x.pc ≠ l.last ∧ last < l.last := by
  unfold Ctx.mayOpen
  split
  next hl => simp [hl]
  next l rest hl => simp [hl, and_assoc]

section
variable {s : State} {tt : TT} (h : s.lane0 tt = true) {count : W32} {eofs : BitVec 16} {rsz : BitVec 5} {prt : Bool} {epi : BitVec 3}
include h

theorem openLoop_fault {f : IssueFault} (hf : worst (openLoop s tt count eofs rsz prt epi).faults = some f) :
    (openLoop s tt count eofs rsz prt epi).run slotS [] s = .next (s.takeFault s.cur.1 s.cur.2 f s.me.pc) := by
  rw [openLoop, OpSem.guarded_on h] at hf ⊢
  exact OpSem.run_fault hf rfl rfl

/-- The faults of a LOOP: a register beyond the windows, a level that may not be opened, a skip to an illegal target. -/
theorem mem_openLoop_faults {f : IssueFault} : f ∈ (openLoop s tt count eofs rsz prt epi).faults ↔
    ¬ (8 * rsz.toNat ≤ s.me.regs.va.size ∧ 8 * rsz.toNat ≤ s.me.regs.vb.size)
        ∧ f = ⟨0x02, slotS, 0, BitVec.ofNat 64 (8 * rsz.toNat - 1)⟩
      ∨ s.me.mayOpen (s.me.newLevel count eofs rsz prt epi).last = false ∧ f = ⟨0x04, slotS, 0, BitVec.ofNat 64 s.me.levels.length⟩
      ∨ ((s.me.newLevel count eofs rsz prt epi).total = 0
          ∧ s.me.targetOk ((s.me.newLevel count eofs rsz prt epi).last + 64) = false)
        ∧ f = ⟨0x03, slotS, 0, (s.me.newLevel count eofs rsz prt epi).last + 64⟩ := by
  have hwin : (s.me.regs.va.size < 8 * rsz.toNat ∨ s.me.regs.vb.size < 8 * rsz.toNat)
      ↔ ¬ (8 * rsz.toNat ≤ s.me.regs.va.size ∧ 8 * rsz.toNat ≤ s.me.regs.vb.size) := by omega
  have hmem : ∀ (p : Prop) [Decidable p] (l r : List IssueFault),
      f ∈ (if p then l else r) ↔ p ∧ f ∈ l ∨ ¬ p ∧ f ∈ r := fun p _ l r => by split <;> simp [*]
  rw [openLoop, OpSem.guarded_on h]
  simp only [List.mem_append, hmem, hwin, Ctx.loopFault, badTarget, List.mem_singleton, List.not_mem_nil, and_false, or_false,
    false_or, or_assoc, Bool.not_eq_true, Bool.not_eq_true']

/-- One whose windows are too small names the first register beyond them, before any other fault. -/
theorem openLoop_beyond (hwin : ¬ (8 * rsz.toNat ≤ s.me.regs.va.size ∧ 8 * rsz.toNat ≤ s.me.regs.vb.size)) :
    (openLoop s tt count eofs rsz prt epi).run slotS [] s
      = .next (s.takeFault s.cur.1 s.cur.2 ⟨0x02, slotS, 0, BitVec.ofNat 64 (8 * rsz.toNat - 1)⟩ s.me.pc) := by
  refine openLoop_fault h (worst_of_lowest ((mem_openLoop_faults h).2 (.inl ⟨hwin, rfl⟩)) fun g hg => ?_)
  rcases (mem_openLoop_faults h).1 hg with ⟨-, rfl⟩ | ⟨-, rfl⟩ | ⟨-, rfl⟩
  · exact .inl rfl
  · exact .inr (by simp)
  · exact .inr (by simp)

variable (hwin : 8 * rsz.toNat ≤ s.me.regs.va.size ∧ 8 * rsz.toNat ≤ s.me.regs.vb.size)
include hwin

/-- One that skips its body to an illegal target has a BAD_TARGET, whether or not its level might be opened. -/
theorem openLoop_misses (htotal : (s.me.newLevel count eofs rsz prt epi).total = 0)
    (htarget : s.me.targetOk ((s.me.newLevel count eofs rsz prt epi).last + 64) = false) :
    (openLoop s tt count eofs rsz prt epi).run slotS [] s = .next (s.takeFault s.cur.1 s.cur.2
      ⟨0x03, slotS, 0, (s.me.newLevel count eofs rsz prt epi).last + 64⟩ s.me.pc) := by
  refine openLoop_fault h (worst_of_lowest ((mem_openLoop_faults h).2 (.inr (.inr ⟨⟨htotal, htarget⟩, rfl⟩))) fun g hg => ?_)
  rcases (mem_openLoop_faults h).1 hg with ⟨hbad, -⟩ | ⟨-, rfl⟩ | ⟨-, rfl⟩
  · exact absurd hwin hbad
  · exact .inr (by simp)
  · exact .inl rfl

variable (hskip : (s.me.newLevel count eofs rsz prt epi).total = 0 →
  s.me.targetOk ((s.me.newLevel count eofs rsz prt epi).last + 64) = true)
include hskip

/-- One whose level may not be opened has a LOOP_STACK_FAULT, where nothing else is wrong. -/
theorem openLoop_stacked (hopen : s.me.mayOpen (s.me.newLevel count eofs rsz prt epi).last = false) :
    (openLoop s tt count eofs rsz prt epi).run slotS [] s
      = .next (s.takeFault s.cur.1 s.cur.2 ⟨0x04, slotS, 0, BitVec.ofNat 64 s.me.levels.length⟩ s.me.pc) := by
  refine openLoop_fault h (worst_of_lowest ((mem_openLoop_faults h).2 (.inr (.inl ⟨hopen, rfl⟩))) fun g hg => ?_)
  rcases (mem_openLoop_faults h).1 hg with ⟨hbad, -⟩ | ⟨-, rfl⟩ | ⟨⟨htotal, htarget⟩, -⟩
  · exact absurd hwin hbad
  · exact .inl rfl
  · rw [hskip htotal] at htarget; cases htarget

/-- One that no rule forbids opens its level, or with no iteration goes on past its END. -/
theorem openLoop_runs (hopen : s.me.mayOpen (s.me.newLevel count eofs rsz prt epi).last = true) :
    (openLoop s tt count eofs rsz prt epi).run slotS [] s
      = .next (if (s.me.newLevel count eofs rsz prt epi).total = 0 then s.goTo ((s.me.newLevel count eofs rsz prt epi).last + 64)
        else if prt then
          (s.onMe (fun x => { x with levels := s.me.newLevel count eofs rsz prt epi :: x.levels })).stagePredicates
        else s.onMe (fun x => { x with levels := s.me.newLevel count eofs rsz prt epi :: x.levels })) := by
  have hfaults : (openLoop s tt count eofs rsz prt epi).faults = [] := by
    refine List.eq_nil_iff_forall_not_mem.2 fun g hg => ?_
    rcases (mem_openLoop_faults h).1 hg with ⟨hbad, -⟩ | ⟨hbad, -⟩ | ⟨⟨htotal, htarget⟩, -⟩
    · exact hbad hwin
    · rw [hopen] at hbad; cases hbad
    · rw [hskip htotal] at htarget; cases htarget
  rw [openLoop, OpSem.guarded_on h] at hfaults ⊢
  exact OpSem.run_next hfaults rfl (queueHold_zero s _)

end

/-! ## LBRK and LIDX (R60) -/

theorem lbrk_runs {s : State} {tt : TT} (h : s.lane0 tt = true) {l : Level} {rest : List Level} (hl : s.me.levels = l :: rest)
    (htarget : s.me.targetOk (l.last + 64) = true) :
    Runs (.lbrk tt) s ((s.onMe (fun x => { x with levels := rest })).goTo (l.last + 64)) := by
  show (lbrkSem tt s).run slotS [] s = _
  rw [lbrkSem, hl]
  dsimp only
  rw [OpSem.guarded_on h]
  exact OpSem.run_next (if_pos htarget) rfl (queueHold_zero s _)

theorem lbrk_misses {s : State} {tt : TT} (h : s.lane0 tt = true) {l : Level} {rest : List Level} (hl : s.me.levels = l :: rest)
    (htarget : s.me.targetOk (l.last + 64) = false) :
    Runs (.lbrk tt) s (s.takeFault s.cur.1 s.cur.2 ⟨0x03, 1, 0, l.last + 64⟩ s.me.pc) := by
  show (lbrkSem tt s).run slotS [] s = _
  rw [lbrkSem, hl]
  dsimp only
  rw [OpSem.guarded_on h]
  exact OpSem.run_fault (by rw [htarget]; rfl) rfl rfl

/-- Where the level is not open, LBRK and LIDX have no more than their LOOP_STACK_FAULT. -/
theorem loopFault_runs {s : State} {tt : TT} (h : s.lane0 tt = true) :
    (OpSem.guarded s tt ⟨s.me.loopFault, 0, 0, id⟩).run slotS [] s
      = .next (s.takeFault s.cur.1 s.cur.2 ⟨0x04, 1, 0, BitVec.ofNat 64 s.me.levels.length⟩ s.me.pc) := by
  rw [OpSem.guarded_on h]
  exact OpSem.run_fault rfl rfl rfl

theorem lidx_runs {s : State} {tt : TT} (h : s.lane0 tt = true) (xd : XReg) {level : BitVec 3} {l : Level}
    (hl : s.me.levels[level.toNat]? = some l) : Runs (.lidx tt xd level) s (s.pushX 1 xd (l.index.zeroExtend 64)) := by
  show (lidxSem tt xd level s).run slotS [] s = _
  rw [lidxSem, hl]
  dsimp only
  rw [OpSem.guarded_on h, OpSem.run_pure]

/-- Settles O8: a LOOP by whether its registers lie in the windows, whether its skip has a legal target, and whether its level may
be opened; LBRK and LIDX by the level that they find. -/
theorem loopOperations : Obligations.LoopOperations := by
  unfold Obligations.LoopOperations
  refine ⟨fun s tt count eofs xa rsz prt epi h => ?_, fun s tt xd level h => ⟨fun l rest hl => ?_, fun l hl => ?_, fun hl => ?_, fun hl => ?_⟩⟩
  · extract_lets x opened last loops misses c v fits within stacked form
    have hopen : x.mayOpen last = true ↔ within := x.mayOpen_iff last
    have hform : ∀ (n : W32) (i : Instr), exec i s = (openLoop s tt n eofs rsz prt epi).run slotS [] s → form n i := fun n i hi =>
      ⟨fun hwin hin hskip => hi.trans (openLoop_runs h hwin hskip (hopen.2 hin)),
        fun hwin htotal htarget => hi.trans (openLoop_misses h hwin htotal htarget),
        fun hwin hout hskip => hi.trans (openLoop_stacked h hwin hskip (Bool.eq_false_iff.2 (mt hopen.1 hout))),
        fun hwin => hi.trans (openLoop_beyond h hwin)⟩
    exact ⟨hform c _ rfl, hform v _ rfl⟩
  · exact ⟨lbrk_runs h hl, lbrk_misses h hl⟩
  · exact lidx_runs h xd hl
  · have hrun := loopFault_runs h
    rw [hl] at hrun
    show (lbrkSem tt s).run slotS [] s = _
    rw [lbrkSem, hl]
    exact hrun
  · show (lidxSem tt xd level s).run slotS [] s = _
    rw [lidxSem, List.getElem?_eq_none hl]
    exact loopFault_runs h

end Sys2Proof.Machine
end

section
/-! The bundle at END of the innermost level: its level goes round or closes (R58, R99, R388). -/

namespace Sys2Proof.Machine

/-! ## Predicates written at the cycle after issue (R99) -/

/-- A write put in flight, and nothing else, is new of its context. -/
theorem State.push_me (s : State) (lat : Nat) (d : Dest) (mask v : Vec) :
    ∃ w : Write, (s.push lat d mask v).me = { s.me with pend := s.me.pend ++ [w] } ∧ w.dest = d ∧ w.value = v
      ∧ w.land = s.t + lat ∧ w.mask = mask ∧ w.src = .core :=
  ⟨_, s.pushAt_me (s.t + lat) d mask v .core (some s.t) none, rfl, rfl, rfl, rfl, rfl⟩

/-- Predicates written one after the other: their writes stand in flight in that order. -/
theorem State.foldl_push_predicate (d : Nat → Dest) (v : Nat → Vec) (js : List Nat) (s : State) :
    ∃ ws : List Write, (js.foldl (fun r j => r.push 1 (d j) (maskAt 0 32) (v j)) s).me = { s.me with pend := s.me.pend ++ ws }
      ∧ ws.map (fun w => w.dest) = js.map d ∧ ws.map (fun w => w.value) = js.map v
      ∧ ∀ w ∈ ws, w.land = s.t + 1 ∧ w.mask = maskAt 0 32 ∧ w.src = .core := by
  induction js generalizing s with
  | nil => exact ⟨[], by simp, rfl, rfl, by simp⟩
  | cons j js ih =>
    obtain ⟨w, hme, hd, hv, hw⟩ := s.push_me 1 (d j) (maskAt 0 32) (v j)
    obtain ⟨ws, hrest, hdest, hvalue, hall⟩ := ih (s.push 1 (d j) (maskAt 0 32) (v j))
    refine ⟨w :: ws, ?_, congrArg₂ List.cons hd hdest, congrArg₂ List.cons hv hvalue, List.forall_mem_cons.2 ⟨hw, hall⟩⟩
    rw [List.foldl_cons, hrest, hme, List.append_assoc, List.singleton_append]

theorem State.shiftPredicates_eq (s : State) (p : Vector W32 16) (p8 : Bool) :
    s.shiftPredicates p p8 = (List.range 8).foldl (fun r j => r.push 1 (.p (15 - j)) (maskAt 0 32)
      (if j < 7 then toVec (vget p (14 - j) 0) else if p8 then maskAt 0 32 else 0)) s := rfl

/-! ## Writes of the CSRs of levels when the innermost one closes (R388) -/

/-- Of writes of the CSRs of levels, those of the closed level alone are lost. -/
theorem Write.levelClosed_isSome (w : Write) :
    w.levelClosed.isSome = !(List.range 8).any (fun f => w.dest == .csr (0x040 + f)) := by
  have hrange : ∀ n : Nat, (List.range 8).any (fun f => Dest.csr n == .csr (0x040 + f)) = decide (0x040 ≤ n ∧ n < 0x048) := fun n => by
    rw [Bool.eq_iff_iff, List.any_eq_true]
    simp only [List.mem_range, beq_iff_eq, Dest.csr.injEq, decide_eq_true_eq]
    exact ⟨fun ⟨f, hf, hn⟩ => by omega, fun hn => ⟨n - 0x040, by omega, by omega⟩⟩
  cases hd : w.dest with
  | csr n =>
    rw [hrange, Write.levelClosed, hd]
    dsimp only
    split
    next h => simp [h]
    next h => split <;> simp [h]
  | _ => rw [Write.levelClosed, hd]; rfl

theorem Write.levelClosed_of_not_level {w : Write} (h : ∀ n, 0x040 ≤ n → n < 0x070 → w.dest ≠ .csr n) : w.levelClosed = some w := by
  unfold Write.levelClosed
  split
  next n hd => rw [if_neg (fun hn => h n hn.1 (by omega) hd), if_neg (fun hn => h n (by omega) hn.2 hd)]
  next => rfl

theorem Write.levelClosed_of_outer {w : Write} {n : Nat} (lo : 0x048 ≤ n) (hi : n < 0x070) (h : w.dest = .csr n) :
    w.levelClosed = some { w with dest := .csr (n - 8) } := by
  rw [Write.levelClosed, h]
  dsimp only
  rw [if_neg (by omega), if_pos ⟨lo, hi⟩]

/-! ## The loop-end rule (R58) -/

section
variable {s : State} {l : Level} {rest : List Level} (hl : s.me.levels = l :: rest) (p : Vector W32 16)
include hl

/-- The state of a context whose level goes round, before its predicates. -/
theorem State.loopEnd_round (h : l.index.toNat + 1 < l.total) :
    s.loopEnd l.last p =
      (let r := s.onMe (fun x => { x with levels := { l with index := l.index + 1, rrb := l.nextRrb } :: rest, pc := l.first })
       if l.prt then r.shiftPredicates p (decide (l.index + 1 < l.count)) else r, true) := by
  rw [State.loopEnd, hl]
  dsimp only
  rw [if_neg (not_not.2 rfl), if_pos h]

theorem State.loopEnd_close (h : l.total ≤ l.index.toNat + 1) :
    s.loopEnd l.last p =
      (s.onMe (fun x => { x with levels := rest, pc := l.last + 64, pend := x.pend.filterMap Write.levelClosed }), false) := by
  rw [State.loopEnd, hl]
  dsimp only
  rw [if_neg (not_not.2 rfl), if_neg (Nat.not_lt_of_le h)]

theorem State.loopEnd_elsewhere {a : W64} (h : a ≠ l.last) : s.loopEnd a p = (s, false) := by
  rw [State.loopEnd, hl]
  dsimp only
  rw [if_pos h]

end

/-- Settles O9: the level goes round, with the shift as eight writes in flight; or it closes, and each write in flight meets its own
case; elsewhere nothing happens. -/
theorem loopEndRule : Obligations.LoopEndRule := by
  unfold Obligations.LoopEndRule
  intro s l rest p hl
  refine ⟨fun hleft => ?_, fun hdone => ⟨_, State.loopEnd_close hl p hdone, ?_⟩, fun a ha => State.loopEnd_elsewhere hl p ha⟩
  · rw [State.loopEnd_round hl p hleft]
    extract_lets r
    have hr : r.me = _ := s.onMe_me _
    by_cases hprt : l.prt = true
    · rw [if_pos hprt, State.shiftPredicates_eq]
      obtain ⟨ws, hme, hdest, hvalue, hall⟩ := r.foldl_push_predicate (fun j => .p (15 - j))
        (fun j => if j < 7 then toVec (vget p (14 - j) 0) else if decide (l.index + 1 < l.count) then maskAt 0 32 else 0)
        (List.range 8)
      rw [hr] at hme
      simp only [decide_eq_true_eq] at hvalue
      exact ⟨_, rfl, congrArg Ctx.pc hme, congrArg Ctx.levels hme, fun h => absurd hprt (by rw [h]; decide), fun _ =>
        ⟨ws, congrArg Ctx.pend hme, hdest, hall, hvalue⟩⟩
    · rw [if_neg hprt]
      exact ⟨r, rfl, congrArg Ctx.pc hr, congrArg Ctx.levels hr, fun _ => by rw [hr], fun h => absurd h hprt⟩
  · rw [State.onMe_me]
    refine ⟨rfl, rfl, fun w hw hother => ?_, fun w hw n lo hi hd => ?_, ?_⟩
    · exact List.mem_filterMap.2 ⟨w, hw, Write.levelClosed_of_not_level hother⟩
    · exact List.mem_filterMap.2 ⟨w, hw, Write.levelClosed_of_outer lo hi hd⟩
    · rw [List.length_filterMap_eq_countP, List.countP_eq_length_filter]
      simp only [Write.levelClosed_isSome]

end Sys2Proof.Machine
end

section
/-! The group operations: what an id names, the arrival that a LEAVE, a BAR or an ARRIVE puts in flight, and the GROUP_FAULT of an
operation that its group does not allow (R61 to R65, R286). -/

namespace Sys2Proof.Machine

/-! ## What an id names (R62) -/

/-- An id names the live object of its low 12 bits where the bits above are its generation. -/
theorem named_iff {s : State} {id : W64} {i : Nat} : s.myP.named id = some i ↔ Names s id i := by
  unfold Partition.named Names bitsOf
  dsimp only
  split
  next h =>
    rw [Option.some.injEq]
    constructor
    · rintro rfl
      exact ⟨by omega, rfl, h.1, by omega⟩
    · exact fun hn => hn.2.1.symm
  next h =>
    refine ⟨fun he => (nomatch he), fun ⟨hid, hi, hlive, hgen⟩ => absurd ⟨hi ▸ hlive, by omega, ?_⟩ h⟩
    rw [← hi, hgen]
    omega

theorem named_eq_none {s : State} {id : W64} (h : ¬ ∃ i, Names s id i) : s.myP.named id = none :=
  Option.eq_none_iff_forall_ne_some.2 fun i hi => h ⟨i, named_iff.1 hi⟩

/-- An operation on the group that its id names. -/
theorem withGroup_names {s t : State} {id : W64} {i opcode : Nat} {f : State → Nat → GroupObj → State} (h : Names s id i)
    (ht : f s i (s.myP.group i) = t) : s.withGroup id opcode f = t := by
  rw [State.withGroup, named_iff.2 h]
  exact ht

theorem withGroup_unnamed {s : State} {id : W64} {opcode : Nat} {f : State → Nat → GroupObj → State} (h : ¬ ∃ i, Names s id i) :
    s.withGroup id opcode f = s.groupFault id opcode := by
  rw [State.withGroup, named_eq_none h]

/-! ## A change of a group of the issuing context's partition -/

theorem State.onGroup_myPart (s : State) (i : Nat) (f : GroupObj → GroupObj) : (s.onGroup s.myPart i f).myPart = s.myPart :=
  State.onPart_myPart (s := s) (f := fun x => { x with groups := amSet x.groups i (f (x.group i)) }) rfl rfl

theorem State.onGroup_myP (s : State) (i : Nat) (f : GroupObj → GroupObj) :
    (s.onGroup s.myPart i f).myP = { s.myP with groups := amSet s.myP.groups i (f (s.myP.group i)) } :=
  State.onPart_myP (s := s) (f := fun x => { x with groups := amSet x.groups i (f (x.group i)) }) rfl rfl

theorem State.onGroup_group (s : State) (i : Nat) (f : GroupObj → GroupObj) :
    (s.onGroup s.myPart i f).myP.group i = f (s.myP.group i) := by
  rw [State.onGroup_myP, Partition.group, amGet_amSet_self, Option.getD_some]

/-! ## The arrival that a release carries (R65) -/

/-- A release puts its arrival in flight behind the operations of the partition, and changes nothing else of the context. -/
theorem State.release_appends (s : State) (i : Nat) (leave : Bool) (scope phase : Nat) :
    ∃ o tail, s.Appends (s.release i leave scope phase) [o] ∧ o.kind = .arrival i leave scope phase tail := by
  obtain ⟨n, hn⟩ := s.releaseAt_fresh s.cur.1 s.cur.2 scope
  have happ := ({ s with fresh := n }).addOp_appends (some (s.releaseAt s.cur.1 s.cur.2 scope).1.1) s.cur.1 s.cur.2 s.t
    (kind := .arrival i leave scope phase (s.releaseAt s.cur.1 s.cur.2 scope).1.2) (fun o ho => by simp [Op.isWrite, ho])
  rw [State.release, hn]
  exact ⟨_, _, ⟨happ.cores, happ.mem, happ.cur, happ.now, happ.clusters, happ.part, happ.myP, happ.reads⟩, rfl⟩

/-! ## GROUP_FAULT (R62, R286) -/

/-- The detail of a GROUP_FAULT: the opcode over the low half of the id. -/
theorem groupFault_tinfo (id : W64) (opcode : Nat) :
    (BitVec.ofNat 64 (id.toNat % 2 ^ 32 + opcode * 2 ^ 32) : W64) = BitVec.ofNat 32 opcode ++ id.extractLsb' 0 32 := by
  apply BitVec.eq_of_toNat_eq
  rw [BitVec.toNat_append, ← Nat.shiftLeft_add_eq_or_of_lt (BitVec.isLt _), Nat.shiftLeft_eq, BitVec.toNat_ofNat,
    BitVec.extractLsb'_toNat, BitVec.toNat_ofNat]
  omega

/-- Outside handler mode a GROUP_FAULT becomes pending on the issuing context, and nothing else changes. -/
theorem State.groupFault_eq {s : State} (hst : s.me.st = .bound) (hctx : s.ctx? s.cur.1 s.cur.2 ≠ none) (id : W64) (opcode : Nat) :
    ∃ e : PendTrap, s.groupFault id opcode = s.onMe (fun x => { x with traps := x.traps ++ [e] }) ∧ e.code = 0x87
      ∧ e.tinfo = BitVec.ofNat 32 opcode ++ id.extractLsb' 0 32 := by
  rw [State.groupFault, show (s.me.st == .handler) = false by rw [hst]; rfl, State.raise_eq, State.onCtx_some (State.ctx?_me hctx)]
  exact ⟨_, rfl, rfl, groupFault_tinfo id opcode⟩

/-- A fault on a group, as the statement has it: the partitions stay, and the context has one more pending trap. -/
def GroupFaults (j : Instr) (s : State) (opcode : Nat) (id : W64) : Prop :=
  ∃ (t : State) (e : PendTrap), Runs j s t ∧ t.parts = s.parts ∧ t.me = { s.me with traps := s.me.traps ++ [e] } ∧ e.code = 0x87
    ∧ e.tinfo = BitVec.ofNat 32 opcode ++ id.extractLsb' 0 32

theorem groupFaults_of {s : State} {j : Instr} {opcode : Nat} {id : W64} (hst : s.me.st = .bound)
    (hctx : s.ctx? s.cur.1 s.cur.2 ≠ none) (hrun : Runs j s (s.groupFault id opcode)) : GroupFaults j s opcode id := by
  obtain ⟨e, he, hcode, htinfo⟩ := State.groupFault_eq hst hctx id opcode
  rw [he] at hrun
  exact ⟨_, e, hrun, rfl, s.onMe_me _, hcode, htinfo⟩

/-- An arrival or LEAVE of a group that is in flight in the later state and was not in the earlier one. -/
def State.Arrives (s t : State) (i : Nat) (leave : Bool) (scope : Nat) : Prop :=
  ∃ (o : Op) (ph tail : Nat), t.myP.ops = s.myP.ops ++ [o] ∧ o.kind = .arrival i leave scope ph tail

theorem State.Appends.arrives {s t : State} {o : Op} {i scope phase tail : Nat} {leave : Bool} (h : s.Appends t [o])
    (ho : o.kind = .arrival i leave scope phase tail) : s.Arrives t i leave scope :=
  ⟨o, phase, tail, congrArg Partition.ops h.myP, ho⟩

/-! ## JOIN, LEAVE and GFREE (R63) -/

/-- An operation whose guard holds, and that neither faults nor is held, has its effect. -/
theorem OpSem.run_guarded {f : State → State} {holds slot : Nat} {s t : State} {tt : TT} (h : s.lane0 tt = true) (hh : holds = 0)
    (ht : f s = t) : (OpSem.guarded s tt ⟨[], holds, 0, f⟩).run slot [] s = .next t := by
  rw [OpSem.guarded_on h, OpSem.run_next rfl hh (queueHold_zero s _), ← ht]

section
variable {s : State} {tt : TT} (h : s.lane0 tt = true) {xg : XReg}
include h

theorem join_unnamed (hn : ¬ ∃ i, Names s (s.me.xr xg) i) : Runs (.join tt xg) s (s.groupFault (s.me.xr xg) 0x08) :=
  OpSem.run_guarded h rfl (withGroup_unnamed hn)

theorem leave_unnamed (hn : ¬ ∃ i, Names s (s.me.xr xg) i) (scope : BitVec 3) :
    Runs (.leave tt xg scope) s (s.groupFault (s.me.xr xg) 0x09) :=
  OpSem.run_guarded h rfl (withGroup_unnamed hn)

theorem gfree_unnamed (hn : ¬ ∃ i, Names s (s.me.xr xg) i) : Runs (.gfree tt xg) s (s.groupFault (s.me.xr xg) 0x0B) :=
  OpSem.run_guarded h rfl (withGroup_unnamed hn)

variable {i : Nat} (hn : Names s (s.me.xr xg) i)
include hn

theorem join_of_member (hm : Member s i) : Runs (.join tt xg) s s :=
  OpSem.run_guarded h rfl (withGroup_names hn (if_pos hm))

theorem join_full (hm : ¬ Member s i) (hfull : 8 ≤ s.me.groups.length) :
    Runs (.join tt xg) s (s.groupFault (s.me.xr xg) 0x08) :=
  OpSem.run_guarded h rfl (withGroup_names hn ((if_neg hm).trans (if_pos hfull)))

/-- A context that joins stands in the group's list of members, and the group in the context's list of groups. -/
theorem join_enters (hm : ¬ Member s i) (hroom : s.me.groups.length < 8) :
    ∃ t, Runs (.join tt xg) s t ∧ Member t i ∧ t.me = { s.me with groups := s.me.groups ++ [i] } := by
  refine ⟨_, OpSem.run_guarded h rfl
    (withGroup_names hn ((if_neg hm).trans (if_neg (Nat.not_le_of_lt hroom)))), ?_, State.onMe_me _ _⟩
  rw [Member, State.onMe_myP, State.onGroup_group]
  refine List.any_eq_true.2 ⟨(s.cur.1, s.cur.2, false), List.mem_append_right _ (List.mem_singleton_self _), ?_⟩
  show (s.cur.1 == s.cur.1 && s.cur.2 == s.cur.2) = true
  simp

theorem leave_of_not_member (hm : ¬ Member s i) (scope : BitVec 3) : Runs (.leave tt xg scope) s s :=
  OpSem.run_guarded h rfl (withGroup_names hn (if_neg hm))

theorem leave_of_member (hm : Member s i) (scope : BitVec 3) :
    ∃ t, Runs (.leave tt xg scope) s t ∧ s.Arrives t i true scope.toNat ∧ t.me = s.me := by
  obtain ⟨o, tail, happ, ho⟩ := s.release_appends i true scope.toNat (s.myP.group i).phase
  exact ⟨_, OpSem.run_guarded h rfl (withGroup_names hn (if_pos hm)), happ.arrives ho, happ.me_eq⟩

theorem gfree_of_members (hm : (s.myP.group i).members ≠ []) : Runs (.gfree tt xg) s (s.groupFault (s.me.xr xg) 0x0B) :=
  OpSem.run_guarded h rfl (withGroup_names hn (if_neg (mt List.isEmpty_iff.1 hm)))

theorem gfree_of_empty (hm : (s.myP.group i).members = []) :
    ∃ t, Runs (.gfree tt xg) s t ∧ (t.myP.group i).live = false ∧ (t.myP.group i).gen = (s.myP.group i).gen + 1 ∧ t.me = s.me := by
  refine ⟨_, OpSem.run_guarded h rfl (withGroup_names hn (if_pos (List.isEmpty_iff.2 hm))), ?_, ?_, rfl⟩
  · rw [State.onGroup_group]
  · rw [State.onGroup_group]

end

/-! ## BAR and ARRIVE (R64) -/

theorem State.arriveHolds_unnamed {s : State} {id : W64} (hn : ¬ ∃ i, Names s id i) : s.arriveHolds id = 0 := by
  rw [State.arriveHolds, named_eq_none hn]

/-- A member that has arrived in the open phase alone is held. -/
theorem State.arriveHolds_named {s : State} {id : W64} {i : Nat} (hn : Names s id i)
    (hm : Member s i → s.hasArrived s.cur.1 s.cur.2 i = false) : s.arriveHolds id = 0 := by
  rw [State.arriveHolds, named_iff.2 hn]
  refine if_neg fun hh => ?_
  obtain ⟨hmember, harrived⟩ := (Bool.and_eq_true _ _).mp hh
  rw [hm hmember] at harrived
  cases harrived

section
variable {s : State} {tt : TT} (h : s.lane0 tt = true) {xg : XReg} (scope : BitVec 3)
include h

theorem arrive_unnamed (hn : ¬ ∃ i, Names s (s.me.xr xg) i) : Runs (.arrive tt xg scope) s (s.groupFault (s.me.xr xg) 0x0D) :=
  OpSem.run_guarded h (State.arriveHolds_unnamed hn) (withGroup_unnamed hn)

/-- Every BAR takes its number; one whose id names no group then has its fault. -/
theorem bar_unnamed (hn : ¬ ∃ i, Names s (s.me.xr xg) i) :
    Runs (.bar tt xg scope) s ((s.takeNumber ctrTG).2.groupFault (s.me.xr xg) 0x0C) :=
  OpSem.run_guarded h (State.arriveHolds_unnamed hn) (withGroup_unnamed (s := (s.takeNumber ctrTG).2) hn)

variable {i : Nat} (hn : Names s (s.me.xr xg) i)
include hn

theorem arrive_of_not_member (hm : ¬ Member s i) : Runs (.arrive tt xg scope) s (s.groupFault (s.me.xr xg) 0x0D) :=
  OpSem.run_guarded h (State.arriveHolds_named hn fun hm' => absurd hm' hm) (withGroup_names hn (if_neg hm))

theorem bar_of_not_member (hm : ¬ Member s i) :
    Runs (.bar tt xg scope) s ((s.takeNumber ctrTG).2.groupFault (s.me.xr xg) 0x0C) :=
  OpSem.run_guarded h (State.arriveHolds_named hn fun hm' => absurd hm' hm)
    (withGroup_names (s := (s.takeNumber ctrTG).2) hn (if_neg hm))

variable (hm : Member s i) (ha : s.hasArrived s.cur.1 s.cur.2 i = false)
include hm ha

theorem arrive_of_member : ∃ t, Runs (.arrive tt xg scope) s t ∧ s.Arrives t i false scope.toNat ∧ t.me = s.me := by
  obtain ⟨o, tail, happ, ho⟩ := s.release_appends i false scope.toNat (s.myP.group i).phase
  exact ⟨_, OpSem.run_guarded h (State.arriveHolds_named hn fun _ => ha) (withGroup_names hn (if_pos hm)),
    happ.arrives ho, happ.me_eq⟩

/-- A BAR that waits has its arrival in flight and the next TG number. -/
theorem bar_of_member :
    ∃ t, Runs (.bar tt xg scope) s t ∧ s.Arrives t i false scope.toNat ∧ t.me = s.me.onCounter ctrTG Counter.take := by
  have hrun : Runs (.bar tt xg scope) s _ := OpSem.run_guarded h (State.arriveHolds_named hn fun _ => ha)
    (withGroup_names (s := (s.takeNumber ctrTG).2) hn (if_pos hm))
  obtain ⟨o, tail, happ, ho⟩ := State.release_appends _ i false scope.toNat ((s.takeNumber ctrTG).2.myP.group i).phase
  refine ⟨_, hrun, ?_, happ.me_eq.trans (s.onMe_me (fun x => x.onCounter ctrTG Counter.take))⟩
  obtain ⟨o, ph, tail, hops, ho⟩ := happ.arrives ho
  exact ⟨o, ph, tail, by rw [hops, State.onGroup_myP]; rfl, ho⟩

end

/-- A BAR with a fault leaves its context with the trap and the number. -/
theorem barFaults_of {s : State} {tt : TT} {xg : XReg} {scope : BitVec 3} {id : W64} (hst : s.me.st = .bound)
    (hrun : Runs (.bar tt xg scope) s ((s.takeNumber ctrTG).2.groupFault id 0x0C)) :
    ∃ (t : State) (e : PendTrap), Runs (.bar tt xg scope) s t ∧ t.parts = s.parts ∧ t.me.traps = s.me.traps ++ [e] ∧ e.code = 0x87
      ∧ e.tinfo = (BitVec.ofNat 32 0x0C ++ id.extractLsb' 0 32 : W64) ∧ t.me.regs = s.me.regs ∧ t.me.groups = s.me.groups
      ∧ (t.me.counter 4).taken = (s.me.counter 4).taken + 1 := by
  have hu : (s.takeNumber ctrTG).2.me = s.me.onCounter ctrTG Counter.take := s.onMe_me (fun x => x.onCounter ctrTG Counter.take)
  have hctx : (s.takeNumber ctrTG).2.ctx? s.cur.1 s.cur.2 = some _ := s.setCtx_ctx? ..
  obtain ⟨e, he, hcode, htinfo⟩ := State.groupFault_eq (s := (s.takeNumber ctrTG).2) (by rw [hu]; exact hst)
    (fun hnone => nomatch hctx.symm.trans hnone) id 0x0C
  rw [he] at hrun
  have hme := (s.takeNumber ctrTG).2.onMe_me (fun x => { x with traps := x.traps ++ [e] })
  rw [hu] at hme
  refine ⟨_, e, hrun, rfl, congrArg Ctx.traps hme, hcode, htinfo, by rw [hme]; rfl, by rw [hme]; rfl, ?_⟩
  rw [hme]
  exact congrArg Counter.taken (vget_putAt_self _ (by decide) _ _)

/-! ## GNEW (R61, R63) -/

theorem Partition.mem_freeGroups {q : Partition} {i : Nat} : i ∈ q.freeGroups ↔ i < 4096 ∧ (q.group i).live = false := by
  simp [Partition.freeGroups]

theorem State.pushX_me (s : State) (lat : Nat) (xd : XReg) (v : W64) :
    ∃ w : Write, (s.pushX lat xd v).me = { s.me with pend := s.me.pend ++ [w] } ∧ w.dest = s.me.xDest xd.toNat ∧ w.value = toVec v
      ∧ w.land = s.t + lat := by
  obtain ⟨w, hme, hdest, hvalue, hland, -⟩ := s.push_me lat (s.me.xDest xd.toNat) (maskAt 0 64) (toVec v)
  exact ⟨w, hme, hdest, hvalue, hland⟩

/-- A choice among a list that is not empty. -/
theorem getD_mod_mem {α : Type} (a : α) (l : List α) (n : Nat) : (a :: l).getD (n % (l.length + 1)) a ∈ a :: l := by
  have hlt : n % (l.length + 1) < (a :: l).length := Nat.mod_lt _ (Nat.succ_pos _)
  rw [List.getD_eq_getElem _ _ hlt]
  exact List.getElem_mem hlt

/-- The state after GNEW has taken a free value and object j, before its result. -/
def State.newGroup (s : State) (j : Nat) : State :=
  (s.pick s.myPart).2.onGroup s.myPart j (fun g => ⟨true, g.gen, [], 0, [], 0⟩)

@[simp] theorem State.newGroup_me (s : State) (j : Nat) : (s.newGroup j).me = s.me := s.pick_me s.myPart

/-- A free value taken leaves the groups of the issuing context's partition, and its clock. -/
theorem State.pick_myP (s : State) : (s.pick s.myPart).2.myP.groups = s.myP.groups ∧ (s.pick s.myPart).2.myP.clock = s.myP.clock
    ∧ (s.pick s.myPart).2.now = s.now := by
  unfold State.pick
  split
  · rw [State.onPart_myP rfl rfl]
    exact ⟨rfl, rfl, rfl⟩
  · exact ⟨rfl, rfl, rfl⟩

theorem State.newGroup_myP (s : State) (j : Nat) :
    (s.newGroup j).myP = { (s.pick s.myPart).2.myP with
      groups := amSet s.myP.groups j ⟨true, (s.myP.group j).gen, [], 0, [], 0⟩ } := by
  have h := (s.pick s.myPart).2.onGroup_myP j (fun g => ⟨true, g.gen, [], 0, [], 0⟩)
  rw [s.pick_myPart, Partition.group, s.pick_myP.1] at h
  exact h

theorem State.newGroup_group (s : State) (j : Nat) :
    (s.newGroup j).myP.group j = ⟨true, (s.myP.group j).gen, [], 0, [], 0⟩ := by
  rw [State.newGroup_myP, Partition.group, amGet_amSet_self, Option.getD_some]

theorem State.newGroup_t (s : State) (j : Nat) : (s.newGroup j).t = s.t := by
  show (s.newGroup j).myP.clock.at_ (s.pick s.myPart).2.now = s.myP.clock.at_ s.now
  rw [State.newGroup_myP, s.pick_myP.2.1, s.pick_myP.2.2]

/-- GNEW takes one of the free objects (R61, log 10). -/
theorem gnew_takes {s : State} {tt : TT} (h : s.lane0 tt = true) (xg : XReg) (hfree : s.myP.freeGroups ≠ []) :
    ∃ j ∈ s.myP.freeGroups, Runs (.gnew tt xg) s ((s.newGroup j).pushX 8 xg ((s.myP.group j).idOf j)) := by
  obtain ⟨i, is, hlist⟩ := List.exists_cons_of_ne_nil hfree
  refine ⟨_, hlist ▸ getD_mod_mem i is (Config.groupPick (s.pick s.myPart).1), OpSem.run_guarded h rfl ?_⟩
  dsimp only
  rw [hlist]
  rfl

theorem gnew_without {s : State} {tt : TT} (h : s.lane0 tt = true) (xg : XReg) (hfree : s.myP.freeGroups = []) :
    Runs (.gnew tt xg) s (s.pushX 8 xg (BitVec.allOnes 64)) := by
  refine OpSem.run_guarded h rfl ?_
  dsimp only
  rw [hfree]

/-- Settles O36: the named object, and the cases of each operation on it; GNEW by the object that it takes; the faults of every other
case. -/
theorem groupOps : Obligations.GroupOps := by
  unfold Obligations.GroupOps
  refine ⟨fun s tt xg scope i h hn => ⟨fun hm => ?_, fun hm => ?_, gfree_of_empty h hn⟩, fun s tt xg h => ⟨fun hfree => ?_, fun hnone => ?_⟩,
    fun s tt xg scope h hst hctx => ?_⟩
  · refine ⟨join_of_member h hn hm, leave_of_member h hn hm scope, fun ha => ⟨arrive_of_member h scope hn hm ha, ?_⟩⟩
    obtain ⟨t, hrun, harr, hme⟩ := bar_of_member h scope hn hm ha
    refine ⟨t, hrun, harr, ?_, by rw [hme]; rfl⟩
    rw [hme]
    exact congrArg Counter.taken (vget_putAt_self _ (by decide) _ _)
  · exact ⟨leave_of_not_member h hn hm scope, join_enters h hn hm⟩
  · obtain ⟨i₀, hi₀⟩ := hfree
    obtain ⟨j, hj, hrun⟩ := gnew_takes h xg (List.ne_nil_of_mem (Partition.mem_freeGroups.2 hi₀))
    obtain ⟨hlt, hlive⟩ := Partition.mem_freeGroups.1 hj
    obtain ⟨w, hme, hdest, hvalue, hland⟩ := (s.newGroup j).pushX_me 8 xg ((s.myP.group j).idOf j)
    rw [State.newGroup_me] at hme hdest
    rw [State.newGroup_t] at hland
    have hgroup := s.newGroup_group j
    exact ⟨_, j, hrun, hlt, hlive, congrArg GroupObj.live hgroup, congrArg GroupObj.members hgroup, congrArg GroupObj.phase hgroup,
      w, hme, hland, hdest, hvalue⟩
  · refine gnew_without h xg (List.eq_nil_iff_forall_not_mem.2 fun i hi => ?_)
    obtain ⟨hlt, hfree⟩ := Partition.mem_freeGroups.1 hi
    rw [hnone i hlt] at hfree
    cases hfree
  · intro id faults bars
    have hfaults : ∀ {j : Instr} {opcode : Nat}, Runs j s (s.groupFault id opcode) → faults opcode j := fun hrun =>
      groupFaults_of hst hctx hrun
    have hbars : Runs (.bar tt xg scope) s ((s.takeNumber ctrTG).2.groupFault id 0x0C) → bars := barFaults_of hst
    exact ⟨fun hn => ⟨hfaults (join_unnamed h hn), hfaults (leave_unnamed h hn scope), hfaults (gfree_unnamed h hn),
        hbars (bar_unnamed h scope hn), hfaults (arrive_unnamed h scope hn)⟩,
      fun i hn => ⟨fun hm => ⟨hbars (bar_of_not_member h scope hn hm), hfaults (arrive_of_not_member h scope hn hm),
        fun hfull => hfaults (join_full h hn hm hfull)⟩, fun hm => hfaults (gfree_of_members h hn hm)⟩⟩

end Sys2Proof.Machine
end

section
/-! What of a partition stands still while bytes perform and lines are written back (R173, R187, R387): all but the count of its free
values, the bursts that it has taken, its notes of undrained and met bytes, and the payload of its operations in flight. -/

namespace Sys2Proof.Machine

/-! ## The parts of a state -/

theorem amGet_map {α : Type} (f : α → α) (m : AMap α) (k : Nat) : amGet (m.map (fun e => (e.1, f e.2))) k = (amGet m k).map f := by
  induction m with
  | nil => rfl
  | cons e r ih =>
    rw [List.map_cons, amGet, amGet, ih]
    split <;> rfl

/-- What a change of one partition leaves of it, it leaves of every partition. -/
theorem State.onPart_keeps {α : Type} (g : Partition → α) (s : State) (p : Nat) {f : Partition → Partition} (hf : ∀ q, g (f q) = g q)
    (j : Nat) : g ((s.onPart p f).part j) = g (s.part j) := by
  by_cases hj : j = p
  · rw [hj, State.onPart_part, hf]
  · rw [State.onPart, State.setPart_part_of_ne _ _ hj]

/-- What a change of all partitions leaves of each, where they are mapped. -/
theorem State.mapParts_keeps {α : Type} (g : Partition → α) (s : State) {f : Partition → Partition} (hf : ∀ q, g (f q) = g q)
    (j : Nat) : g (State.part { s with parts := s.parts.map (fun e => (e.1, f e.2)) } j) = g (s.part j) := by
  rw [State.part, State.part, amGet_map]
  cases amGet s.parts j with
  | none => rfl
  | some q => exact hf q

/-- What does not depend on the operations in flight, one more of them leaves. -/
theorem State.addOp_keeps {α : Type} (g : Partition → α) (hg : ∀ q os, g { q with ops := os } = g q) (s : State) (p : Nat)
    (due : Option Nat) (core ctx issued : Nat) (kind : OpKind) (j : Nat) :
    g ((s.addOp p due core ctx issued kind).part j) = g (s.part j) :=
  s.onPart_keeps g p (f := fun q => { q with ops := q.ops ++ [_] }) (fun q => hg q _) j

@[simp] theorem State.within_part (s : State) (p bound j : Nat) : (s.within p bound).2.part j = s.part j := by
  unfold State.within; split <;> rfl

@[simp] theorem State.figure_part (s : State) (p n j : Nat) : (s.figure p n).2.part j = s.part j := by
  unfold State.figure; split <;> rfl

/-! ## What stands still -/

/-- An operation in flight without its payload. -/
def Op.still (o : Op) : Op := { o with kind := .drainEnd }

/-- A partition without what performing bytes may change of it. -/
def Partition.still (q : Partition) : Partition :=
  { q with fresh := 0, slotUse := [], undrained := [], met := [], ops := q.ops.map Op.still }

theorem Op.meets_still (o : Op) (s : State) (p : Nat) (w : Option Writer) (c : Option Nat) (n : Nat) (bs : List PByte) :
    (o.meets s p w c n bs).still = o.still := by
  unfold Op.meets; split <;> rfl

theorem Op.under_still (o : Op) (bs : List PByte) : (o.under bs).still = o.still := by
  unfold Op.under; split <;> rfl

theorem Op.unfill_still (o : Op) (cl : Nat) (gone : List Nat) : (o.unfill cl gone).still = o.still := by
  unfold Op.unfill
  split
  · split <;> rfl
  · rfl

/-- Payloads that change leave the operations otherwise. -/
theorem map_still {f : Op → Op} (hf : ∀ o, (f o).still = o.still) (os : List Op) : (os.map f).map Op.still = os.map Op.still := by
  rw [List.map_map]
  exact List.map_congr_left fun o _ => hf o

theorem Partition.still_mapOps (q : Partition) {f : Op → Op} (hf : ∀ o, (f o).still = o.still) :
    Partition.still { q with ops := q.ops.map f } = q.still :=
  congrArg (fun os => { q.still with ops := os }) (map_still hf q.ops)

@[simp] theorem State.pick_still (s : State) (p j : Nat) : ((s.pick p).2.part j).still = (s.part j).still := by
  unfold State.pick
  split
  · exact s.onPart_keeps Partition.still p (fun _ => by rfl) j
  · rfl

@[simp] theorem State.offer_still (s : State) (w : Option Writer) (c : Option Nat) (bs : List PByte) (p j : Nat) :
    ((s.offer w c bs p).part j).still = (s.part j).still := by
  unfold State.offer
  split
  · refine (State.onPart_keeps Partition.still _ p (fun q => ?_) j).trans (s.pick_still p j)
    exact q.still_mapOps (fun o => o.meets_still s p w c _ bs)
  · rfl

@[simp] theorem State.noticePart_still (s : State) (w : Option Writer) (c : Option Nat) (bs : List PByte) (p j : Nat) :
    ((s.noticePart w c bs p).part j).still = (s.part j).still := by
  unfold State.noticePart
  split
  · exact s.offer_still w c bs p j
  · exact (State.onPart_keeps Partition.still _ p (fun _ => by rfl) j).trans (s.offer_still w c bs p j)

@[simp] theorem State.notice_still (s : State) (w : Option Writer) (c : Option Nat) (bs : List PByte) (j : Nat) :
    ((s.notice w c bs).part j).still = (s.part j).still := by
  unfold State.notice
  split
  · rfl
  · exact foldl_keeps _ (fun s : State => (s.part j).still) (fun s p => s.noticePart_still w c bs p j) _ s

@[simp] theorem State.stand_still (s : State) (bs : List PByte) (w : Option Writer) (j : Nat) :
    ((s.stand bs w).part j).still = (s.part j).still :=
  Eq.trans (State.mapParts_keeps Partition.still _ (fun q => by exact q.still_mapOps (fun o => o.under_still bs)) j)
    (s.notice_still w none bs j)

@[simp] theorem State.writeHomes_still (s : State) (bs : List PByte) (w : Option Writer) (j : Nat) :
    ((s.writeHomes bs w).part j).still = (s.part j).still := s.stand_still bs w j

@[simp] theorem State.homeStore_still (s : State) (p a : Nat) (bs : List Byte) (j : Nat) :
    ((s.homeStore p a bs).part j).still = (s.part j).still := s.writeHomes_still _ _ j

@[simp] theorem State.useBursts_still (s : State) (p : Nat) (l : List Nat) (j : Nat) :
    ((s.useBursts p l).part j).still = (s.part j).still := by
  unfold State.useBursts
  split
  · rfl
  · exact s.onPart_keeps Partition.still p (fun _ => by rfl) j

@[simp] theorem State.backBursts_still (s : State) (c : Nat) (l : List Nat) (j : Nat) :
    ((s.backBursts c l).part j).still = (s.part j).still := by
  unfold State.backBursts
  split
  · rfl
  · exact s.useBursts_still ..

@[simp] theorem State.swapCache_still (s : State) (c : Nat) (n : Cluster) (j : Nat) :
    ((s.swapCache c n).part j).still = (s.part j).still := by
  unfold State.swapCache
  dsimp only
  split
  · rfl
  · exact s.mapParts_keeps Partition.still (fun q => by exact q.still_mapOps (fun o => o.unfill_still c (linesGone (s.cluster c) n))) j

@[simp] theorem State.throughCache_still (s : State) (c : Nat) (r : List Host.Cell × Cluster) (j : Nat) :
    ((s.throughCache c r).part j).still = (s.part j).still := by
  refine (State.swapCache_still ..).trans ?_
  exact (State.stand_still ..).trans (s.backBursts_still ..)

/-- A flush of a cluster's cache. -/
@[simp] theorem State.flushCluster_still (s : State) (c : Nat) (p : Line → Bool) (inval : Bool) (j : Nat) :
    ((s.flushCluster c p inval).part j).still = (s.part j).still := s.throughCache_still ..

theorem groups_of_still {q q' : Partition} (h : q'.still = q.still) : q'.groups = q.groups := by
  have hgroups : q'.still.groups = q.still.groups := by rw [h]
  exact hgroups

theorem saved_of_still {q q' : Partition} (h : q'.still = q.still) : q'.saved = q.saved := by
  have hsaved : q'.still.saved = q.still.saved := by rw [h]
  exact hsaved

/-- An operation in flight is in flight still, under the number that it had. -/
theorem exists_op_of_still {q q' : Partition} (h : q'.still = q.still) {o : Op} (ho : o ∈ q.ops) :
    ∃ o' ∈ q'.ops, o'.still = o.still := by
  have hops : q'.ops.map Op.still = q.ops.map Op.still := congrArg Partition.ops h
  exact List.mem_map.1 (hops ▸ List.mem_map_of_mem ho)

/-! ## What a flush leaves of the rest -/

@[simp] theorem State.flushCluster_cores (s : State) (c : Nat) (p : Line → Bool) (inval : Bool) :
    (s.flushCluster c p inval).cores = s.cores := s.throughCache_cores ..

/-- After a flush the cluster's cache holds what the flush has left of its lines. -/
theorem State.flushCluster_cluster (s : State) (c : Nat) (p : Line → Bool) (inval : Bool) :
    (s.flushCluster c p inval).cluster c = (flushLines s.mem (s.cluster c) p inval).2 := by
  unfold State.flushCluster State.throughCache State.swapCache
  exact State.setCluster_cluster ..

end Sys2Proof.Machine
end

section
/-! What Y-slot operations bring about when they fall due: increments of TS, holds that end, arrivals, TG, signals, packets (R63 to
R65, R268, R271, R272, R280, R281, R309). -/

namespace Sys2Proof.Machine

/-! ## An operation whose release has completed -/

theorem State.dueOp_of_comes {s : State} {p : Nat} {o : Op} (h : Comes s p o) : s.dueOp p o.id = some o := by
  obtain ⟨hop, d, hdue, hle⟩ := h
  simp only [State.dueOp, hop, hdue, hle, ↓reduceIte]

/-- It is one of its partition's operations in flight. -/
theorem State.mem_of_releasedOp {s : State} {p id : Nat} {waits : Op → Bool} {o : Op} (h : s.releasedOp p id waits = some o) :
    o ∈ (s.part p).ops := by
  have hdue : s.dueOp p id = some o := by
    unfold State.releasedOp at h
    split at h
    · cases h
    next hd =>
      split at h
      · cases h
      · rw [hd, h]
  unfold State.dueOp at hdue
  split at hdue
  · cases hdue
  next hop =>
    split at hdue
    · cases hdue
    · split at hdue
      · cases hdue
        exact List.mem_of_find?_eq_some hop
      · cases hdue

/-! ## TS_INCREMENT (R268) -/

theorem tsIncrement_runs {s : State} {p : Nat} {o : Op} {c n : Nat} {carried : Bool}
    (h : s.releasedOp p o.id Op.carriesTs = some o) (hk : o.kind = .tsInc c n carried) :
    Runs (.tsIncrement p o.id) s (s.incrementTs p o c n carried) := by
  show execTsIncrement p o.id s = _
  simp only [execTsIncrement, h, hk]

/-- TS of a context that takes the increment rises. -/
theorem State.incrementTs_lands {s : State} {o : Op} {c : Nat} {x : Ctx} {carried : Bool} (p n : Nat) (hx : s.ctx? o.core c = some x)
    (hlive : carried = true → x.st ≠ .armed ∧ x.st ≠ .closing) :
    s.incrementTs p o c n carried
      = (s.dropOp p o.id).setCtx o.core c (x.onCounter ctrTS (fun r => { r with value := r.value + n })) := by
  have hx' : (s.dropOp p o.id).ctx? o.core c = some x := hx
  have hnot : ¬ (carried && (x.st == .armed || x.st == .closing)) = true := by
    cases carried with
    | false => simp
    | true => simp [hlive rfl]
  unfold State.incrementTs
  simp only [hx']
  rw [if_neg hnot, State.onCtx_some hx']

/-- A TLINC.c to a context that is FREE, ARMED or CLOSING is discarded and counted. -/
theorem State.incrementTs_discarded {s : State} {o : Op} {c : Nat} (p n : Nat)
    (hdead : s.ctx? o.core c = none ∨ ∃ x, s.ctx? o.core c = some x ∧ (x.st = .armed ∨ x.st = .closing)) :
    s.incrementTs p o c n true = (s.dropOp p o.id).onPart p (fun q =>
      { q with counts := { q.counts with tlincDiscards := satInc q.counts.tlincDiscards } }) := by
  unfold State.incrementTs
  rcases hdead with hx | ⟨x, hx, hst⟩
  · have hx' : (s.dropOp p o.id).ctx? o.core c = none := hx
    simp [hx']
  · have hx' : (s.dropOp p o.id).ctx? o.core c = some x := hx
    simp [hx', hst]

/-! ## SYNC_COMPLETE (R271) -/

/-- A hold that ends is one of a context that exists. -/
theorem State.endingHold_ctx {s : State} {k c : Nat} {e : SyncHold × Bool} (h : s.endingHold k c = some e) : ∃ x, s.ctx? k c = some x := by
  unfold State.endingHold at h
  split at h
  · cases h
  next x hx => exact ⟨x, hx⟩

@[simp] theorem State.endHold_cores (s : State) (k : Nat) (h : SyncHold) : (s.endHold k h).cores = s.cores := by
  unfold State.endHold
  dsimp only
  split <;> simp

/-- A FLUSH_ALL cleans every line. -/
theorem flushLines_clean (m : List Host.Cell) (c : Cluster) : ∀ l ∈ (flushLines m c (fun _ => true) false).2.lines, l.dirty = 0 := by
  intro l hl
  obtain ⟨l', -, rfl⟩ := List.mem_map.1 hl
  rfl

/-- An INVAL_ALL leaves none. -/
theorem flushLines_empty (m : List Host.Cell) (c : Cluster) : (flushLines m c (fun _ => true) true).2.lines = [] := by
  simp [flushLines]

theorem State.endHold_spec (s : State) (k : Nat) (h : SyncHold) :
    (h.kind = .drain ∨ h.kind = .fence → s.endHold k h = s)
      ∧ (h.kind = .flushAll → ∀ l ∈ ((s.endHold k h).cluster (clusterOf k)).lines, l.dirty = 0)
      ∧ (h.kind = .invalAll → ((s.endHold k h).cluster (clusterOf k)).lines = []) := by
  unfold State.endHold
  refine ⟨?_, fun hk => ?_, fun hk => ?_⟩
  · rintro (hk | hk) <;> rw [hk]
  · rw [hk]
    dsimp only
    rw [State.flushCluster_cluster]
    exact flushLines_clean _ _
  · rw [hk]
    dsimp only
    rw [State.flushCluster_cluster]
    exact flushLines_empty _ _

/-- A context without the hold that has ended. -/
def Ctx.held (x : Ctx) (task : Bool) : Ctx := if task then { x with taskHold := none } else { x with hold := none }

theorem syncComplete_runs {s : State} {k c : Nat} {h : SyncHold} {task : Bool} (hend : s.endingHold k c = some (h, task)) :
    Runs (.syncComplete k c) s (if h.needs = 0 then (s.endHold k h).onCtx k c (fun x => x.held task)
      else ((s.endHold k h).onCtx k c (fun x => x.held task)).onPart
        (((s.endHold k h).onCtx k c (fun x => x.held task)).partOf k) (fun q => q.drained k c)) := by
  show execSyncComplete k c s = _
  simp only [execSyncComplete, hend]
  rfl

/-- After a hold has ended its context is without it; memory and the clusters are as the end of the hold leaves them. -/
theorem syncComplete_spec {s : State} {k c : Nat} {h : SyncHold} {task : Bool} (hend : s.endingHold k c = some (h, task)) :
    ∃ t, Runs (.syncComplete k c) s t ∧ (if task then (t.ctx k c).taskHold else (t.ctx k c).hold) = none
      ∧ t.mem = (s.endHold k h).mem ∧ t.clusters = (s.endHold k h).clusters := by
  obtain ⟨x, hx⟩ := State.endingHold_ctx hend
  have hx' : (s.endHold k h).ctx? k c = some x := by rw [State.ctx?, State.core, State.endHold_cores]; exact hx
  have hrun := syncComplete_runs hend
  rw [State.onCtx_some hx'] at hrun
  have hctx : ∀ t : State, t.cores = ((s.endHold k h).setCtx k c (x.held task)).cores →
      (if task then (t.ctx k c).taskHold else (t.ctx k c).hold) = none := fun t ht => by
    have htx : t.ctx k c = x.held task := by
      rw [State.ctx, State.ctx?, State.core, ht]
      exact State.setCtx_ctx ..
    rw [htx]
    cases task <;> rfl
  refine ⟨_, hrun, hctx _ ?_, ?_, ?_⟩ <;> split <;> rfl

/-! ## ARRIVAL_COUNTS (R63, R64) -/

theorem State.onGroup_part (s : State) (p i : Nat) (f : GroupObj → GroupObj) :
    ((s.onGroup p i f).part p).group i = f ((s.part p).group i) := by
  rw [State.onGroup, State.onPart_part, Partition.group, amGet_amSet_self, Option.getD_some]

/-- A group whose members have all arrived goes on to its next phase; another stays as it is. -/
theorem State.settlePhase_group (s : State) (p i : Nat) :
    ((s.settlePhase p i).part p).group i =
      if ((s.part p).group i).members.all (fun m => m.2.2) then
        { (s.part p).group i with
          phase := ((s.part p).group i).phase + 1
          members := ((s.part p).group i).members.map (fun m => (m.1, m.2.1, false))
          waiters := []
          scope := 0 }
      else (s.part p).group i := by
  unfold State.settlePhase
  dsimp only
  split
  · have hkeep : ∀ (u : State) (w : Nat × Nat × Nat), (((u.within p Config.gbl).2.addOp p (some (u.cyc p + (u.within p Config.gbl).1)) w.1
        w.2.1 (u.cyc p) (.tg w.2.2 ((s.part p).group i).scope)).part p).groups = (u.part p).groups := fun u w => by
      rw [State.addOp_keeps Partition.groups (fun _ _ => rfl), State.within_part]
    rw [Partition.group, foldl_keeps _ (fun u : State => (u.part p).groups) hkeep, ← Partition.group, State.onGroup_part]
  · rfl

/-- Who is a member stays. -/
theorem State.settlePhase_has (s : State) (p i k c : Nat) :
    (((s.settlePhase p i).part p).group i).has k c = ((s.part p).group i).has k c := by
  rw [State.settlePhase_group]
  split
  · simp only [GroupObj.has, List.any_map]
    rfl
  · rfl

/-- The state in which an arrival counts: without the operation, and with the cache written back where its release asks for it. -/
def State.atArrival (s : State) (p : Nat) (o : Op) (scope : Nat) : State :=
  if 3 ≤ scope then (s.dropOp p o.id).flushCluster (clusterOf o.core) (fun _ => true) false else s.dropOp p o.id

theorem State.atArrival_group (s : State) (p : Nat) (o : Op) (scope i : Nat) :
    ((s.atArrival p o scope).part p).group i = (s.part p).group i := by
  have hgroups : ((s.atArrival p o scope).part p).groups = (s.part p).groups := by
    have hdrop : ((s.dropOp p o.id).part p).groups = (s.part p).groups := by rw [State.dropOp, State.onPart_part]
    unfold State.atArrival
    split
    · exact (groups_of_still (State.flushCluster_still ..)).trans hdrop
    · exact hdrop
  rw [Partition.group, hgroups, ← Partition.group]

theorem State.countArrival_eq (s : State) (p : Nat) (o : Op) (i : Nat) (leave : Bool) (scope phase : Nat) :
    s.countArrival p o i leave scope phase =
      if leave then
        if ((s.part p).group i).has o.core o.ctx then
          (((s.atArrival p o scope).onGroup p i (fun g => { g with
              members := g.members.filter (fun m => !(m.1 == o.core && m.2.1 == o.ctx)), scope := max g.scope scope })).onCtx o.core o.ctx
            (fun x => { x with groups := x.groups.filter (· != i) })).settlePhase p i
        else s.atArrival p o scope
      else if ((s.part p).group i).live ∧ ((s.part p).group i).phase = phase ∧ ((s.part p).group i).has o.core o.ctx then
        ((s.atArrival p o scope).onGroup p i (fun g => { g with
          members := g.members.map (fun m => if m.1 == o.core && m.2.1 == o.ctx then (m.1, m.2.1, true) else m)
          scope := max g.scope scope })).settlePhase p i
      else s.atArrival p o scope := by
  rw [← s.atArrival_group p o scope i]
  rfl

/-- A context that has left is a member no more. -/
theorem State.countArrival_leave (s : State) (p : Nat) (o : Op) (i scope phase : Nat) :
    (((s.countArrival p o i true scope phase).part p).group i).has o.core o.ctx = false := by
  rw [State.countArrival_eq, if_pos rfl]
  split
  · rw [State.settlePhase_has, State.onCtx_part, State.onGroup_part]
    refine List.any_eq_false.2 fun m hm hmine => ?_
    have hother : (!(m.1 == o.core && m.2.1 == o.ctx)) = true := (List.mem_filter.1 hm).2
    rw [hmine] at hother
    cases hother
  next h =>
    rw [State.atArrival_group]
    exact Bool.eq_false_iff.2 h

/-- An arrival in the open phase completes it where every other member has arrived. -/
theorem State.countArrival_phase {s : State} {p i phase : Nat} {o : Op} (scope : Nat) (hlive : ((s.part p).group i).live = true)
    (hphase : ((s.part p).group i).phase = phase) (hmember : ((s.part p).group i).has o.core o.ctx = true) :
    (((s.countArrival p o i false scope phase).part p).group i).phase
      = if ((s.part p).group i).members.all (fun m => m.2.2 || (m.1 == o.core && m.2.1 == o.ctx)) then phase + 1 else phase := by
  rw [State.countArrival_eq, if_neg Bool.false_ne_true, if_pos ⟨hlive, hphase, hmember⟩, State.settlePhase_group, State.onGroup_part,
    State.atArrival_group]
  have hall : (((s.part p).group i).members.map (fun m => if m.1 == o.core && m.2.1 == o.ctx then (m.1, m.2.1, true) else m)).all
        (fun m => m.2.2)
      = ((s.part p).group i).members.all (fun m => m.2.2 || (m.1 == o.core && m.2.1 == o.ctx)) := by
    rw [List.all_map]
    congr 1
    funext m
    dsimp only [Function.comp]
    split
    next h => rw [h, Bool.or_true]
    next h => rw [Bool.eq_false_iff.2 h, Bool.or_false]
  dsimp only
  rw [hall, ← hphase]
  split <;> rfl

theorem arrivalCounts_runs {s : State} {p : Nat} {o : Op} {i scope phase tail : Nat} {leave : Bool}
    (h : s.releasedOp p o.id Op.arrivesReleased = some o) (hk : o.kind = .arrival i leave scope phase tail) :
    Runs (.arrivalCounts p o.id) s (s.countArrival p o i leave scope phase) := by
  show execArrivalCounts p o.id s = _
  simp only [execArrivalCounts, h, hk]

/-! ## TG_ADVANCE and TASK_SIGNALLED (R65, R280) -/

theorem tgAdvance_runs {s : State} {p : Nat} {o : Op} {n scope : Nat} (h : Comes s p o) (hk : o.kind = .tg n scope) :
    Runs (.tgAdvance p o.id) s (((s.dropOp p o.id).complete o.core o.ctx ctrTG n).onCtx o.core o.ctx
      (fun x => if 3 ≤ scope then { x with tgPackage := x.tgPackage ++ [n] } else x)) := by
  show execTgAdvance p o.id s = _
  simp only [execTgAdvance, State.dueOp_of_comes h, hk]

theorem taskSignalled_runs {s : State} {p : Nat} {o : Op} {n i : Nat} (h : s.releasedOp p o.id (fun _ => true) = some o)
    (hk : o.kind = .signal n i) :
    Runs (.taskSignalled p o.id) s
      (((s.dropOp p o.id).onLaunch p n (fun l => { l with signalled := l.signalled + 1 })).settleLaunches p) := by
  show execTaskSignalled p o.id s = _
  simp only [execTaskSignalled, h, hk]

/-- A flush that begins leaves the launches and the cores. -/
theorem State.startFlush_frame (s : State) (p : Nat) (l : Launch) (full : Bool) (c j : Nat) :
    ((s.startFlush p l full c).part j).launches = (s.part j).launches ∧ (s.startFlush p l full c).cores = s.cores := by
  unfold State.startFlush
  split
  · exact ⟨rfl, rfl⟩
  · dsimp only
    rw [State.addOp_keeps Partition.launches (fun _ _ => rfl), State.figure_part]
    exact ⟨rfl, s.figure_cores ..⟩

theorem State.startFlushes_frame (s : State) (p : Nat) (l : Launch) (full : Bool) (j : Nat) :
    ((s.startFlushes p l full).part j).launches = (s.part j).launches ∧ (s.startFlushes p l full).cores = s.cores :=
  ⟨foldl_keeps _ (fun s : State => (s.part j).launches) (fun s c => (s.startFlush_frame p l full c j).1) _ s,
    foldl_keeps _ State.cores (fun s c => (s.startFlush_frame p l full c j).2) _ s⟩

theorem State.foldl_startFlushes_frame (s : State) (p : Nat) (ls : List (Launch × Bool)) (j : Nat) :
    ((ls.foldl (fun s l => s.startFlushes p l.1 l.2) s).part j).launches = (s.part j).launches
      ∧ (ls.foldl (fun s l => s.startFlushes p l.1 l.2) s).cores = s.cores := by
  induction ls generalizing s with
  | nil => exact ⟨rfl, rfl⟩
  | cons l ls ih =>
    obtain ⟨hlaunches, hcores⟩ := s.startFlushes_frame p l.1 l.2 j
    rw [List.foldl_cons, (ih _).1, (ih _).2]
    exact ⟨hlaunches, hcores⟩

/-- What follows the event of a launch stamps the launches that are ready now, and changes nothing else of them, and no core. -/
theorem State.settleLaunches_frame (s : State) (p : Nat) :
    ((s.settleLaunches p).part p).launches = ((s.part p).stampReady (s.cyc p)).launches ∧ (s.settleLaunches p).cores = s.cores := by
  obtain ⟨hlaunches, hcores⟩ := (s.onPart p (fun q => q.stampReady (s.cyc p))).foldl_startFlushes_frame p
    ((s.onPart p (fun q => q.stampReady (s.cyc p))).part p).earlyFlushes p
  rw [State.settleLaunches]
  exact ⟨hlaunches.trans (by rw [State.onPart_part]), hcores⟩

/-- A launch in the list has its stamped form there, with every other field as it was. -/
theorem Partition.exists_stamped (q : Partition) (cy : Nat) {l : Launch} (hl : l ∈ q.launches) :
    ∃ m ∈ (q.stampReady cy).launches, ∃ since, m = { l with since := since } := by
  refine ⟨_, List.mem_map_of_mem hl, ?_⟩
  split
  · exact ⟨_, rfl⟩
  · exact ⟨l.since, rfl⟩

/-- A signal counts once for its launch. -/
theorem State.signal_counts {s : State} {p n id : Nat} {l : Launch} (hl : l ∈ (s.part p).launches) (hn : l.number = n) :
    ∃ m ∈ ((((s.dropOp p id).onLaunch p n (fun l => { l with signalled := l.signalled + 1 })).settleLaunches p).part p).launches,
      m.number = n ∧ m.signalled = l.signalled + 1 := by
  rw [(State.settleLaunches_frame _ p).1]
  have hmem : { l with signalled := l.signalled + 1 }
      ∈ (((s.dropOp p id).onLaunch p n (fun l => { l with signalled := l.signalled + 1 })).part p).launches := by
    rw [State.onLaunch, State.onPart_part, State.dropOp, State.onPart_part]
    exact List.mem_map.2 ⟨l, hl, if_pos hn⟩
  obtain ⟨m, hm, since, rfl⟩ := Partition.exists_stamped _ _ hmem
  exact ⟨_, hm, hn, rfl⟩

/-! ## SUBMIT_DELIVERY (R281, R309) -/

theorem submitDelivery_runs {s : State} {p : Nat} {o : Op} {q : Nat} {a : W64} {tq tail : Nat} {released : Bool}
    (h : s.releasedOp p o.id Op.submitWaits = some o) (hk : o.kind = .submit q a tq released tail) :
    Runs (.submitDelivery p o.id) s (s.submitStep p o q a tq released) := by
  show execSubmitDelivery p o.id s = _
  simp only [execSubmitDelivery, h, hk]

/-- The release of a SUBMIT has completed: its packet is due 160 cycles later. -/
theorem State.submitStep_release {s : State} {p : Nat} {o : Op} (ho : o ∈ (s.part p).ops) (q : Nat) (a : W64) (tq : Nat) :
    ∃ e ∈ ((s.submitStep p o q a tq false).part p).ops, e.id = o.id ∧ e.due = some (s.cyc p + 160) ∧ e.kind = .submit q a tq true 0 := by
  obtain ⟨e, he, hstill⟩ := exists_op_of_still (s.flushCluster_still (clusterOf o.core) (fun _ => true) false p) ho
  have hid : e.id = o.id := (congrArg Op.id hstill : e.still.id = o.still.id)
  refine ⟨{ e with due := some (s.cyc p + Config.submitDelay), kind := .submit q a tq true 0 }, ?_, hid, rfl, rfl⟩
  rw [State.submitStep, if_neg Bool.false_ne_true, State.onPart_part]
  exact List.mem_map.2 ⟨e, he, if_pos hid⟩

/-- The first read of a slot that is set leaves the tail. -/
theorem State.wakeQueue_tail (s : State) (q : Nat) : ((s.wakeQueue q).queue q).tail = (s.queue q).tail := by
  unfold State.wakeQueue
  dsimp only
  split
  · rw [State.setQueue_queue]
  · rfl

/-- A packet that its queue takes stands in the ring. -/
theorem State.deliver_taken {s : State} {p q : Nat} (h : (s.queue q).takesSubmit p = true) (o : Op) (a tq : Nat) :
    ((s.deliver p o q a tq).queue q).tail = (s.queue q).tail + 1 := by
  have h' : ((s.dropOp p o.id).queue q).takesSubmit p = true := h
  unfold State.deliver
  dsimp only
  rw [if_pos h', State.wakeQueue_tail, State.setQueue_queue]
  rfl

/-- One whose queue SUBMIT feeds no more is discarded. -/
theorem State.deliver_discarded {s : State} {p q : Nat} (h : (s.queue q).takesSubmit p = false) (o : Op) (a tq : Nat) :
    s.deliver p o q a tq = s.dropOp p o.id := by
  unfold State.deliver
  exact if_neg (Bool.eq_false_iff.1 h)

/-- Settles O43: each event by the operation that it completes. -/
theorem syncEvents : Obligations.SyncEvents := by
  unfold Obligations.SyncEvents
  refine ⟨fun s p o c n carried h hk => ⟨fun x hx hlive => ?_, fun hcarried hdead => ?_⟩, fun s k c h task hend => ?_,
    fun s p o i scope phase tail leave h hk => ?_, fun s p o n scope h hk => tgAdvance_runs h hk, fun s p o n i h hk => ?_,
    fun s p o q a tq tail released h hk => ?_⟩
  · refine ⟨_, tsIncrement_runs h hk, ?_⟩
    rw [State.incrementTs_lands p n hx hlive, State.setCtx_ctx]
    exact ⟨congrArg Counter.value (vget_putAt_self _ (by decide) _ _), rfl, rfl⟩
  · subst hcarried
    refine ⟨_, tsIncrement_runs h hk, ?_⟩
    rw [State.incrementTs_discarded p n hdead, State.onPart_part, State.dropOp, State.onPart_part]
    exact ⟨rfl, rfl, rfl⟩
  · obtain ⟨t, hrun, hhold, hmem, hclusters⟩ := syncComplete_spec hend
    obtain ⟨hidle, hclean, hempty⟩ := s.endHold_spec k h
    have hcluster : t.cluster (clusterOf k) = (s.endHold k h).cluster (clusterOf k) := by rw [State.cluster, hclusters]; rfl
    refine ⟨t, hrun, hhold, fun hkind => ?_, fun hkind => ?_, fun hkind => ?_⟩
    · rw [hmem, hclusters, hidle hkind]
      exact ⟨rfl, rfl⟩
    · rw [hcluster]
      exact hclean hkind
    · rw [hcluster]
      exact hempty hkind
  · refine ⟨_, arrivalCounts_runs h hk, ?_, ?_⟩
    · rintro rfl
      exact s.countArrival_leave p o i scope phase
    · rintro rfl hlive hphase hmember
      exact State.countArrival_phase scope hlive hphase hmember
  · exact ⟨_, taskSignalled_runs h hk, State.settleLaunches_mem _ p, (State.settleLaunches_frame _ p).2,
      fun l hl hn => State.signal_counts hl hn⟩
  · refine ⟨_, submitDelivery_runs h hk, ?_, ?_, ?_⟩
    · rintro rfl
      exact State.submitStep_release (State.mem_of_releasedOp h) q a tq
    · rintro rfl htakes
      exact State.deliver_taken htakes o a.toNat tq
    · rintro rfl htakes
      rw [State.submitStep, if_pos rfl, State.deliver_discarded htakes]
      exact ⟨rfl, rfl⟩

end Sys2Proof.Machine
end

section
/-! Contexts that become FREE, are saved, and are bound again (R50, R56, R188, R301, R302, R304). -/

namespace Sys2Proof.Machine

/-! ## A core without a context (R50, R188) -/

theorem Core.mem_without_ctxs {r : Core} {c : Nat} {e : Nat × Ctx} : e ∈ (r.without c).ctxs ↔ e ∈ r.ctxs ∧ e.1 ≠ c := by
  simp [Core.without, amDel]

theorem Core.mem_without_nodes {r : Core} {c : Nat} {n : GNode} : n ∈ (r.without c).nodes ↔ n ∈ r.nodes ∧ n.ctx ≠ c := by
  simp [Core.without]

/-- Contexts taken away one after another. -/
theorem Core.mem_foldl_without {l : AMap Ctx} {r : Core} :
    (∀ e, e ∈ (l.foldl (fun r f => r.without f.1) r).ctxs ↔ e ∈ r.ctxs ∧ ∀ f ∈ l, e.1 ≠ f.1)
      ∧ ∀ n, n ∈ (l.foldl (fun r f => r.without f.1) r).nodes ↔ n ∈ r.nodes ∧ ∀ f ∈ l, n.ctx ≠ f.1 := by
  induction l generalizing r with
  | nil => simp
  | cons f l ih =>
    obtain ⟨hctxs, hnodes⟩ := ih (r := r.without f.1)
    refine ⟨fun e => ?_, fun n => ?_⟩
    · rw [List.foldl_cons, hctxs, Core.mem_without_ctxs, List.forall_mem_cons, and_assoc]
    · rw [List.foldl_cons, hnodes, Core.mem_without_nodes, List.forall_mem_cons, and_assoc]

/-- What is left after a disarm was there before. -/
theorem Core.disarm_sub {r : Core} {owner : Nat} :
    (∀ e ∈ (r.disarm owner).ctxs, e ∈ r.ctxs) ∧ ∀ n ∈ (r.disarm owner).nodes, n ∈ r.nodes :=
  ⟨fun e he => ((Core.mem_foldl_without.1 e).1 he).1, fun n hn => ((Core.mem_foldl_without.2 n).1 hn).1⟩

/-- No ARMED context of the owner is left. -/
theorem Core.disarm_owner {r : Core} {owner : Nat} {e : Nat × Ctx} (he : e ∈ (r.disarm owner).ctxs) (harmed : e.2.st = .armed) :
    e.2.owner ≠ some owner := by
  intro howner
  obtain ⟨hmem, hkeys⟩ := (Core.mem_foldl_without.1 e).1 he
  exact hkeys e (List.mem_filter.2 ⟨hmem, by simp [harmed, howner]⟩) rfl

/-- A key that no entry has is not there. -/
theorem amGet_eq_none_of_keys {α : Type} {m : AMap α} {k : Nat} (h : ∀ e ∈ m, e.1 ≠ k) : amGet m k = none := by
  refine Option.eq_none_iff_forall_ne_some.2 fun a ha => ?_
  obtain ⟨e, he, hk⟩ := List.mem_map.1 (mem_map_fst_iff.2 ⟨a, ha⟩)
  exact h e he hk

/-! ## A context that becomes FREE -/

theorem State.removeCtx_core (s : State) (k c : Nat) :
    (s.removeCtx k c).core k = ((s.core k).without c).disarm (s.ctx k c).task.uid :=
  s.onCore_core k (fun r => (r.without c).disarm (s.ctx k c).task.uid)

theorem State.removeCtx_core_of_ne (s : State) {j k : Nat} (c : Nat) (h : j ≠ k) : (s.removeCtx k c).core j = s.core j :=
  s.onCore_core_of_ne (fun r => (r.without c).disarm (s.ctx k c).task.uid) h

/-- The cores after a context has become FREE: it is gone with its nodes and the contexts that its task armed, and no other core
changes. -/
theorem State.removeCtx_spec {s u t : State} {k c : Nat} (hu : u.cores = s.cores) (ht : t.cores = (u.removeCtx k c).cores) :
    t.ctx? k c = none ∧ (∀ n ∈ (t.core k).nodes, n.ctx ≠ c) ∧ (∀ j, j ≠ k → t.core j = s.core j)
      ∧ ∀ e ∈ (t.core k).ctxs, e.2.st = .armed → e.2.owner ≠ some (s.ctx k c).task.uid := by
  have hcore : ∀ j, t.core j = (u.removeCtx k c).core j := fun j => by rw [State.core, ht, ← State.core]
  have hfrom : ∀ j, u.core j = s.core j := fun j => by rw [State.core, hu, ← State.core]
  have hctx : u.ctx k c = s.ctx k c := by rw [State.ctx, State.ctx?, hfrom, ← State.ctx?, ← State.ctx]
  have hk : t.core k = ((s.core k).without c).disarm (s.ctx k c).task.uid := by rw [hcore, State.removeCtx_core, hfrom, hctx]
  refine ⟨?_, fun n hn => ?_, fun j hj => ?_, fun e he harmed => ?_⟩
  · rw [State.ctx?, hk]
    exact amGet_eq_none_of_keys fun e he => (Core.mem_without_ctxs.1 (Core.disarm_sub.1 e he)).2
  · exact (Core.mem_without_nodes.1 (Core.disarm_sub.2 n (hk ▸ hn))).2
  · rw [hcore, State.removeCtx_core_of_ne u c hj, hfrom]
  · exact Core.disarm_owner (hk ▸ he) harmed

/-- Images that wait to be restored stay. -/
theorem State.removeCtx_saved (s : State) (k c j : Nat) : ((s.removeCtx k c).part j).saved = (s.part j).saved :=
  (s.onCore k (fun r => (r.without c).disarm (s.ctx k c).task.uid)).onPart_keeps Partition.saved (s.partOf k)
    (f := fun p => (p.forget k c).drained k c) (fun _ => rfl) j

theorem contextFree_runs {s : State} {k c : Nat} (h : s.mayFree k c = true) : Runs (.contextFree k c) s (s.freeCtx k c) := by
  show execContextFree k c s = _
  rw [execContextFree, if_pos h]

/-! ## CONTEXT_SAVE (R301) -/

theorem contextSave_runs {s : State} {k c : Nat} (h : s.maySave k c = true) : Runs (.contextSave k c) s (s.saveCtx k c) := by
  show execContextSave k c s = _
  rw [execContextSave, if_pos h]

@[simp] theorem State.homeStore_cores (s : State) (p a : Nat) (bs : List Byte) : (s.homeStore p a bs).cores = s.cores :=
  s.writeHomes_cores ..

/-- The pieces of an image at their homes. -/
theorem State.storePieces_frame (s : State) (p base : Nat) (image : List (Nat × List Byte)) (j : Nat) :
    (image.foldl (fun s e => s.homeStore p (base + e.1) e.2) s).cores = s.cores
      ∧ ((image.foldl (fun s e => s.homeStore p (base + e.1) e.2) s).part j).saved = (s.part j).saved := by
  induction image generalizing s with
  | nil => exact ⟨rfl, rfl⟩
  | cons e image ih =>
    obtain ⟨hcores, hsaved⟩ := ih (s.homeStore p (base + e.1) e.2)
    rw [List.foldl_cons]
    exact ⟨hcores.trans (s.homeStore_cores ..), hsaved.trans (saved_of_still (s.homeStore_still ..))⟩

theorem State.onLaunch_saved (s : State) (p n : Nat) (f : Launch → Launch) (j : Nat) :
    ((s.onLaunch p n f).part j).saved = (s.part j).saved :=
  s.onPart_keeps Partition.saved p (f := fun x => { x with launches := x.launches.map (fun l => if l.number = n then f l else l) })
    (fun _ => rfl) j

@[simp] theorem State.onLaunch_cores (s : State) (p n : Nat) (f : Launch → Launch) : (s.onLaunch p n f).cores = s.cores := rfl

@[simp] theorem State.dropSaved_cores (s : State) (p : Nat) (v : Saved) (status : Nat) : (s.dropSaved p v status).cores = s.cores := rfl

/-- A save: the context becomes FREE in a state with the same cores, and in THR its partition keeps one image more. -/
theorem State.saveCtx_spec (s : State) (k c : Nat) :
    ∃ u : State, u.cores = s.cores ∧ (s.saveCtx k c).cores = (u.removeCtx k c).cores
      ∧ (s.isDet (s.partOf k) = false → ∃ v, ((s.saveCtx k c).part (s.partOf k)).saved = (s.part (s.partOf k)).saved ++ [v]
        ∧ v.task = (s.ctx k c).task ∧ v.launch = (s.ctx k c).task.launch ∧ v.index = (s.ctx k c).task.index
        ∧ v.groups = (s.ctx k c).groups) := by
  unfold State.saveCtx
  extract_lets p x r forced spill nodes q base image s0 s1 id place prio sv move s2 s3 s4
  obtain ⟨hstored, hsaved⟩ := s0.storePieces_frame p base image p
  have hcores : s1.cores = s.cores := hstored.trans (s.useBursts_cores ..)
  have hkept : (s1.part p).saved = (s.part p).saved := hsaved.trans (saved_of_still (s.useBursts_still ..))
  clear_value s1
  have hremoved : s4.cores = (State.removeCtx { s1 with nextId := id + 1 } k c).cores := by
    simp only [s4, s3, s2, State.onPart_cores, State.onLaunch_cores]
  have hone : (s4.part p).saved = (s.part p).saved ++ [sv] := by
    have hmoved : (s2.part p).saved = (s1.part p).saved := by
      simp only [s2, State.onPart_part]
      exact State.removeCtx_saved ..
    clear_value s2
    simp only [s4, s3, State.onPart_part, State.onLaunch_saved, hmoved, hkept]
  refine ⟨{ s1 with nextId := id + 1 }, hcores, ?_, fun hthr => ⟨sv, ?_, rfl, rfl, rfl, rfl⟩⟩
  · by_cases hdet : s.isDet p = true
    · rw [if_pos hdet, ← hremoved]
      by_cases hplace : place.isNone = true
      · rw [if_pos hplace, State.dropSaved_cores]
      · rw [if_neg hplace, (s4.settleLaunches_frame p).2]
    · rw [if_neg hdet, hremoved]
  · rw [if_neg (Bool.eq_false_iff.1 hthr), hone]

/-! ## CONTEXT_RESTORE (R301, R302, R304) -/

theorem contextRestore_runs {s t : State} {p id : Nat} {v : Saved} (hv : (s.part p).saved.find? (fun v => v.id == id) = some v)
    (h : s.restoreTask p v = some t) : Runs (.contextRestore p id) s t := by
  show execContextRestore p id s = _
  simp only [execContextRestore, hv, h]

theorem State.restoreTask_place {s : State} {p k c start : Nat} {v : Saved} (hrun : (s.part p).st = .running)
    (hplace : v.place = some (k, c, start)) (hdue : start ≤ s.cyc p + 16) :
    s.restoreTask p v = some (if v.valid (s.savedFixed p v) then s.restoreDet p v k c start else s.dropSaved p v 1) := by
  simp only [State.restoreTask, hrun, hplace, ne_eq, not_true_eq_false, ↓reduceIte, Nat.not_lt.2 hdue]
  split <;> rfl

theorem State.restoreTask_thr {s : State} {p cl k c : Nat} {v : Saved} {b : WinSizes} (hrun : (s.part p).st = .running)
    (hplace : v.place = none) (hfound : s.restorePlace p v.id = some (cl, k, c, b)) :
    s.restoreTask p v = some (if v.valid (s.savedFixed p v) then
      (s.restoreCtx p v k c (s.cyc p + 16) b).onCluster cl (fun d => { d with lastBind := some (s.cyc p) })
      else s.dropSaved p v 1) := by
  simp only [State.restoreTask, hrun, hplace, hfound, ne_eq, not_true_eq_false, ↓reduceIte]
  split <;> rfl

/-- A place that fits is one whose START − 16 has come. -/
theorem State.start_of_restoreFits {s : State} {p k c start : Nat} {v : Saved} {b : WinSizes}
    (h : s.restoreFits p v k c start = some b) : start = s.cyc p + 16 := by
  unfold State.restoreFits at h
  extract_lets q flushed at h
  obtain ⟨⟨hstart, -, -⟩, -⟩ := Option.ite_none_right_eq_some.1 h
  exact hstart

/-- What a restored context has of its task and its place in the code; a write of a register leaves it. -/
def Ctx.placed (x : Ctx) : CtxState × Task × W64 × Nat := (x.st, x.task, x.pc, x.issueAt)

theorem Ctx.write_placed (x : Ctx) (d : Dest) (v : Vec) : (x.write d v).placed = x.placed := by
  cases d
  case csr n =>
    rw [Ctx.write, Ctx.setCsr_frame]
    rfl
  all_goals rfl

theorem Ctx.loadImage_placed (x : Ctx) (bs : List Byte) (l : Liveness) :
    (x.loadImage bs l).placed = (x.st, x.task, BitVec.ofNat 64 (wordAt bs 8), x.issueAt) := by
  unfold Ctx.placed Ctx.loadImage
  simp only

theorem State.restoreCtx_ctx (s : State) (p : Nat) (v : Saved) (k c issueAt : Nat) (b : WinSizes) :
    ((s.restoreCtx p v k c issueAt b).ctx k c).placed = (.bound, v.task, BitVec.ofNat 64 (wordAt (s.savedFixed p v) 8), issueAt)
      ∧ ((s.restoreCtx p v k c issueAt b).ctx k c).groups = v.groups := by
  unfold State.restoreCtx
  extract_lets bs l base x0 regs vecs x1 entriesAt count es nodesAt node nodes records ds sfc x2 s0 s1 move s2
  clear_value es records
  have hctx : s1.ctx k c = x2 := by
    rw [State.ctx, State.ctx?, State.onCore_core]
    dsimp only
    rw [amGet_amSet_self, Option.getD_some]
  have hx1 : x1.placed = x0.placed := foldl_keeps _ Ctx.placed (fun x e => x.write_placed _ _) _ x0
  have hx2 : x2.placed = x1.placed := rfl
  have hgroups : x2.groups = v.groups := rfl
  have hx0 : x0.placed = (.bound, v.task, BitVec.ofNat 64 (wordAt bs 8), issueAt) := Ctx.loadImage_placed _ bs l
  show (s1.ctx k c).placed = _ ∧ (s1.ctx k c).groups = _
  rw [hctx, hx2, hx1, hx0]
  exact ⟨rfl, hgroups⟩

theorem State.restoreCtx_saved (s : State) (p : Nat) (v : Saved) (k c issueAt : Nat) (b : WinSizes) :
    ∀ w ∈ ((s.restoreCtx p v k c issueAt b).part p).saved, w.id ≠ v.id := by
  unfold State.restoreCtx
  extract_lets bs l base x0 regs vecs x1 entriesAt count es nodesAt node nodes records ds sfc x2 s0 s1 move s2
  clear_value es records
  intro w hw
  have hsaved : (s2.part p).saved = (s1.part p).saved.filter (fun e => e.id != v.id) := by
    simp only [s2, State.onPart_part]
  have hmem : w ∈ (s2.part p).saved := by
    rw [← State.onLaunch_saved s2 p v.launch (fun l => { l.runsOn (clusterOf k) with bound := l.bound ++ [(k, c, v.index)] }) p]
    exact hw
  rw [hsaved] at hmem
  exact bne_iff_ne.1 (List.mem_filter.1 hmem).2

/-! ## A saved task that is given up -/

theorem Launch.fail_status {l : Launch} (h : l.status = 0) (cy status : Nat) (task cause info epc : W64) :
    (l.fail cy status task cause info epc).number = l.number ∧ (l.fail cy status task cause info epc).status = status := by
  rw [Launch.fail, if_pos (.inl h)]
  exact ⟨rfl, rfl⟩

theorem State.dropSaved_part (s : State) (p : Nat) (v : Saved) (status : Nat) :
    ((s.dropSaved p v status).part p).saved = (s.part p).saved.filter (fun e => e.id != v.id)
      ∧ ((s.dropSaved p v status).part p).launches = (s.part p).launches.map
        (fun l => if l.number = v.launch then l.fail (s.cyc p) status v.task.taskId 0 0 0 else l) := by
  unfold State.dropSaved
  extract_lets leave s1
  have hpart : s1.part p = { s.part p with
      saved := (s.part p).saved.filter (fun e => e.id != v.id)
      groups := (s.part p).groups.map (fun e => (e.1, leave e.2)) } := s.onPart_part p _
  have hcyc : s1.cyc p = s.cyc p := s.onPart_keeps (fun q => q.clock.at_ s.now) p (f := fun y => { y with
      saved := y.saved.filter (fun e => e.id != v.id)
      groups := y.groups.map (fun e => (e.1, leave e.2)) }) (fun _ => rfl) p
  rw [State.failRestore, State.onLaunch, State.onPart_part, hpart, hcyc]
  exact ⟨rfl, rfl⟩

theorem State.dropSaved_spec (s : State) (p : Nat) (v : Saved) (status : Nat) :
    (s.dropSaved p v status).cores = s.cores ∧ (∀ w ∈ ((s.dropSaved p v status).part p).saved, w.id ≠ v.id)
      ∧ ∀ l ∈ (s.part p).launches, l.number = v.launch → l.status = 0 →
        ∃ m ∈ ((s.dropSaved p v status).part p).launches, m.number = l.number ∧ m.status = status := by
  obtain ⟨hsaved, hlaunches⟩ := s.dropSaved_part p v status
  refine ⟨rfl, fun w hw => ?_, fun l hl hn hstatus => ?_⟩
  · rw [hsaved] at hw
    exact bne_iff_ne.1 (List.mem_filter.1 hw).2
  · rw [hlaunches]
    exact ⟨_, List.mem_map.2 ⟨l, hl, if_pos hn⟩, Launch.fail_status hstatus ..⟩

/-! ## The event of a saved task, by what has come of it -/

theorem saved_id_of_find {l : List Saved} {id : Nat} {v : Saved} (h : l.find? (fun v => v.id == id) = some v) : v.id = id := by
  have hfound := List.find?_some h
  exact beq_iff_eq.1 hfound

/-- A task whose image is refused, or whose START is missed. -/
theorem contextRestore_drops {s : State} {p id status : Nat} {v : Saved} (hv : (s.part p).saved.find? (fun v => v.id == id) = some v)
    (h : s.restoreTask p v = some (s.dropSaved p v status)) :
    ∃ t, Runs (.contextRestore p id) s t ∧ t.cores = s.cores ∧ t.mem = s.mem ∧ (∀ w ∈ (t.part p).saved, w.id ≠ id)
      ∧ ∀ l ∈ (s.part p).launches, l.number = v.launch → l.status = 0 →
        ∃ m ∈ (t.part p).launches, m.number = l.number ∧ m.status = status := by
  have hid : v.id = id := saved_id_of_find hv
  obtain ⟨hcores, hsaved, hlaunch⟩ := s.dropSaved_spec p v status
  exact ⟨_, contextRestore_runs hv h, hcores, State.dropSaved_mem .., hid ▸ hsaved, hlaunch⟩

/-- A task that is bound again, in a state that has the cores, the memory and the partitions of its restore. -/
theorem contextRestore_binds {s t : State} {p id k c issueAt : Nat} {v : Saved} {b : WinSizes}
    (hv : (s.part p).saved.find? (fun v => v.id == id) = some v) (h : s.restoreTask p v = some t)
    (hcores : t.cores = (s.restoreCtx p v k c issueAt b).cores) (hmem : t.mem = (s.restoreCtx p v k c issueAt b).mem)
    (hparts : t.parts = (s.restoreCtx p v k c issueAt b).parts) :
    ∃ t, Runs (.contextRestore p id) s t ∧ (t.ctx k c).st = .bound ∧ (t.ctx k c).task = v.task
      ∧ (t.ctx k c).pc = BitVec.ofNat 64 (wordAt (s.savedFixed p v) 8) ∧ (t.ctx k c).issueAt = issueAt
      ∧ (t.ctx k c).groups = v.groups ∧ t.mem = s.mem ∧ ∀ w ∈ (t.part p).saved, w.id ≠ id := by
  have hid : v.id = id := saved_id_of_find hv
  have hctx : t.ctx k c = (s.restoreCtx p v k c issueAt b).ctx k c := by
    rw [State.ctx, State.ctx?, State.core, hcores, ← State.core, ← State.ctx?, ← State.ctx]
  have hpart : t.part p = (s.restoreCtx p v k c issueAt b).part p := by rw [State.part, hparts, ← State.part]
  obtain ⟨hplaced, hgroups⟩ := s.restoreCtx_ctx p v k c issueAt b
  simp only [Ctx.placed, Prod.mk.injEq] at hplaced
  obtain ⟨hst, htask, hpc, hissue⟩ := hplaced
  refine ⟨t, contextRestore_runs hv h, ?_⟩
  rw [hctx, hpart, hmem, State.restoreCtx_mem]
  exact ⟨hst, htask, hpc, hissue, hgroups, rfl, hid ▸ s.restoreCtx_saved p v k c issueAt b⟩

/-- Settles O45: a context that becomes FREE, a save, and a saved task by its place and its image. -/
theorem contextEvents : Obligations.ContextEvents := by
  unfold Obligations.ContextEvents
  refine ⟨fun s k c hfree => ?_, fun s k c x hx hsave => ?_, fun s p id v hv hrun => ⟨fun hvalid => ⟨?_, ?_⟩, fun hbad hdue => ?_⟩⟩
  · obtain ⟨hgone, hnodes, hothers, harmed⟩ :=
      State.removeCtx_spec (s := s) (k := k) (c := c) (t := s.freeCtx k c)
        (u := { s.onPart (s.partOf k) (fun p => p.orphan k c (s.nextId + 1)) with nextId := s.nextId + 1 }) rfl rfl
    exact ⟨_, contextFree_runs hfree, hgone, State.freeCtx_mem .., hnodes, hothers, harmed⟩
  · obtain ⟨u, hu, ht, hthr⟩ := s.saveCtx_spec k c
    obtain ⟨hgone, -, hothers, harmed⟩ := State.removeCtx_spec hu ht
    rw [State.ctx_eq hx] at harmed hthr
    exact ⟨_, contextSave_runs hsave, hgone, hothers, harmed, hthr⟩
  · intro cl k c b hplace hfound
    have hid : v.id = id := saved_id_of_find hv
    have htask := State.restoreTask_thr hrun hplace (hid.symm ▸ hfound)
    rw [if_pos hvalid] at htask
    exact contextRestore_binds hv htask (State.onCluster_cores ..) (State.onCluster_mem ..) (State.onCluster_parts ..)
  · intro k c start hplace
    refine ⟨fun b hfits => ?_, fun hmissed hdue => ?_⟩
    · have htask := State.restoreTask_place hrun hplace (State.start_of_restoreFits hfits).le
      rw [if_pos hvalid, State.restoreDet, hfits] at htask
      exact contextRestore_binds hv htask rfl rfl rfl
    · have htask := State.restoreTask_place hrun hplace hdue
      rw [if_pos hvalid, State.restoreDet, hmissed] at htask
      exact contextRestore_drops hv htask
  · have hnot : ¬ v.valid (s.savedFixed p v) = true := Bool.eq_false_iff.1 hbad
    have htask : s.restoreTask p v = some (s.dropSaved p v 1) := by
      rcases hdue with ⟨k, c, start, hplace, hstart⟩ | ⟨hplace, hfound⟩
      · rw [State.restoreTask_place hrun hplace hstart, if_neg hnot]
      · have hid : v.id = id := saved_id_of_find hv
        obtain ⟨⟨cl, k, c, b⟩, hat⟩ := Option.ne_none_iff_exists'.1 hfound
        rw [State.restoreTask_thr hrun hplace (hid.symm ▸ hat), if_neg hnot]
    exact contextRestore_drops hv htask

end Sys2Proof.Machine
end

section
/-! The integer operations of the S slot (R73, R74): their values are those that the operands' numbers give. -/

namespace Sys2Proof.Machine

/-! ## Lengths and counts of bits -/

theorem bitLen_le_iff {n k : Nat} : bitLen n ≤ k ↔ n < 2 ^ k := by
  rcases eq_or_ne n 0 with rfl | h
  · simp [bitLen]
  · rw [bitLen, if_neg h, Nat.succ_le_iff, Nat.log2_lt h]

theorem lt_bitLen_iff {n k : Nat} : k < bitLen n ↔ 2 ^ k ≤ n := by
  rw [← Nat.not_le, bitLen_le_iff, Nat.not_lt]

theorem bitLen_toNat_le (a : W64) : bitLen a.toNat ≤ 64 := bitLen_le_iff.2 a.isLt

theorem bitLen_pos {n : Nat} (h : n ≠ 0) : 0 < bitLen n := lt_bitLen_iff.2 (Nat.one_le_iff_ne_zero.2 h)

/-- Below the lowest one bit stand zeros. -/
theorem testBit_of_lt_lowBit {n w i : Nat} (h : i < lowBit n w) : w.testBit i = false := by
  induction n generalizing w i with
  | zero => exact absurd h (Nat.not_lt_zero i)
  | succ n ih =>
    rw [lowBit] at h
    split at h
    next => exact absurd h (Nat.not_lt_zero i)
    next hodd =>
      cases i with
      | zero => simpa using hodd
      | succ i => rw [Nat.testBit_succ]; exact ih (by omega)

theorem testBit_lowBit {n w : Nat} (h : lowBit n w < n) : w.testBit (lowBit n w) = true := by
  induction n generalizing w with
  | zero => exact absurd h (Nat.not_lt_zero _)
  | succ n ih =>
    rw [lowBit] at h ⊢
    split at h
    next hodd => rw [if_pos hodd]; simpa using hodd
    next hodd => rw [if_neg hodd, Nat.add_comm, Nat.testBit_succ]; exact ih (by omega)

theorem lowBit_le (n w : Nat) : lowBit n w ≤ n := by
  induction n generalizing w with
  | zero => exact Nat.le_refl 0
  | succ n ih => rw [lowBit]; have := ih (w / 2); split <;> omega

/-- A number of n bits that is not 0 has a one bit among them. -/
theorem lowBit_lt {n w : Nat} (hw : w < 2 ^ n) (h : w ≠ 0) : lowBit n w < n := by
  refine lt_of_le_of_ne (lowBit_le n w) fun hall => h (Nat.eq_of_testBit_eq fun i => ?_)
  rw [Nat.zero_testBit]
  rcases Nat.lt_or_ge i n with hi | hi
  · exact testBit_of_lt_lowBit (hall ▸ hi)
  · exact Nat.testBit_lt_two_pow (lt_of_lt_of_le hw (Nat.pow_le_pow_right (by decide) hi))

theorem popCount_eq (n w : Nat) : popCount n w = ((List.range n).filter w.testBit).length := by
  induction n generalizing w with
  | zero => rfl
  | succ n ih =>
    have hrest : (w.testBit ∘ Nat.succ) = (w / 2).testBit := funext fun i => Nat.testBit_succ w i
    rw [popCount, ih, List.range_succ_eq_map, List.filter_cons, List.filter_map, hrest]
    rcases Nat.mod_two_eq_zero_or_one w with h | h <;> simp [Nat.testBit_zero, h, Nat.add_comm]

theorem toNat_clz64 (a : W64) : (clz64 a).toNat = 64 - bitLen a.toNat :=
  Nat.mod_eq_of_lt (by omega)

theorem toNat_ctz64 (a : W64) : (ctz64 a).toNat = lowBit 64 a.toNat :=
  Nat.mod_eq_of_lt (by have := lowBit_le 64 a.toNat; omega)

theorem toNat_popc64 (a : W64) : (popc64 a).toNat = popCount 64 a.toNat := by
  refine Nat.mod_eq_of_lt ?_
  have := List.length_filter_le a.toNat.testBit (List.range 64)
  rw [List.length_range, ← popCount_eq] at this
  omega

/-- Settles O2: CLZ by the length of the number, CTZ and POPC by induction on the bits. -/
theorem bitCounts : Obligations.BitCounts := by
  unfold Obligations.BitCounts
  have hne : ∀ {a : W64}, a ≠ 0 → a.toNat ≠ 0 := fun h h0 => h (BitVec.eq_of_toNat_eq h0)
  refine ⟨fun a ha => ?_, fun a ha => ?_, by decide, by decide, fun a => ?_⟩
  · have hle := bitLen_toNat_le a
    have hpos := bitLen_pos (hne ha)
    rw [toNat_clz64]
    exact ⟨bitLen_le_iff.1 (by omega), lt_bitLen_iff.1 (by omega)⟩
  · rw [toNat_ctz64]
    exact ⟨testBit_lowBit (lowBit_lt a.isLt (hne ha)), fun i hi => testBit_of_lt_lowBit hi⟩
  · rw [toNat_popc64, popCount_eq]; rfl

/-! ## Division (R74) -/

theorem divS_eq {a b : W64} (h : b ≠ 0) : divS a b = BitVec.ofInt 64 (a.toInt.tdiv b.toInt) := by
  rw [divS, if_neg h]
  exact BitVec.eq_of_toInt_eq (by rw [BitVec.toInt_sdiv, BitVec.toInt_ofInt])

theorem remS_eq {a b : W64} (h : b ≠ 0) : remS a b = a - b * divS a b := by
  rw [divS_eq h, remS, if_neg h, ← BitVec.ofInt_toInt (x := a.srem b), BitVec.toInt_srem, Int.tmod_def, Int.sub_eq_add_neg,
    BitVec.ofInt_add, BitVec.ofInt_neg, BitVec.ofInt_mul, BitVec.ofInt_toInt, BitVec.ofInt_toInt, ← BitVec.sub_eq_add_neg]

theorem divU_toNat {a b : W64} (h : b ≠ 0) : (divU a b).toNat = a.toNat / b.toNat := by
  rw [divU, if_neg h, BitVec.toNat_udiv]

theorem remU_eq {a b : W64} (h : b ≠ 0) : remU a b = a - b * divU a b := by
  have hab : a = b * (a / b) + a % b := BitVec.eq_of_toNat_eq (by
    have hsum := Nat.div_add_mod a.toNat b.toNat
    rw [BitVec.toNat_add, BitVec.toNat_mul, BitVec.toNat_udiv, BitVec.toNat_umod, Nat.mod_add_mod, hsum, Nat.mod_eq_of_lt a.isLt])
  rw [divU, remU, if_neg h, if_neg h]
  exact eq_sub_of_add_eq' hab.symm

/-- A remainder that is not 0 has the sign of the dividend. -/
theorem remS_sign {a b : W64} (hb : b ≠ 0) (hr : remS a b ≠ 0) : (remS a b).toInt < 0 ↔ a.toInt < 0 := by
  rw [remS, if_neg hb] at hr ⊢
  have hne : a.toInt.tmod b.toInt ≠ 0 := fun h0 => hr (BitVec.eq_of_toInt_eq (by rw [BitVec.toInt_srem, h0]; rfl))
  have hsign := Int.sign_tmod a.toInt b.toInt
  rw [if_neg (fun hd => hne (Int.tmod_eq_zero_of_dvd hd))] at hsign
  rw [BitVec.toInt_srem, ← Int.sign_eq_neg_one_iff_neg, hsign, Int.sign_eq_neg_one_iff_neg]

/-- Settles O3: the quotients and remainders of the model, by whether the divisor is 0. -/
theorem scalarDivision : Obligations.ScalarDivision := by
  unfold Obligations.ScalarDivision
  intro s tt xd xa xb h a b
  refine ⟨divS a b, divU a b, remS a b, remU a b, aluX_run h 12 xd _ slotS, aluX_run h 12 xd _ slotS, aluX_run h 12 xd _ slotS,
    aluX_run h 12 xd _ slotS, fun hb => ?_, fun ha hb => ?_, fun hb => ?_⟩
  · exact ⟨if_pos hb, if_pos hb, if_pos hb, if_pos hb⟩
  · rw [ha, hb]; decide
  · exact ⟨divS_eq hb, divU_toNat hb, remS_eq hb, remU_eq hb, remS_sign hb⟩

/-! ## The other integer operations (R73) -/

theorem ite_slt {α : Type} (a b : W64) (x y : α) : (if a.slt b then x else y) = if a.toInt < b.toInt then x else y :=
  if_congr BitVec.slt_iff_toInt_lt rfl rfl

theorem ite_ult {α : Type} (a b : W64) (x y : α) : (if a.ult b then x else y) = if a.toNat < b.toNat then x else y :=
  if_congr BitVec.ult_iff_toNat_lt rfl rfl

theorem mul_eq_ofNat (a b : W64) : a * b = BitVec.ofNat 64 (a.toNat * b.toNat) := by
  rw [BitVec.ofNat_mul, BitVec.ofNat_toNat, BitVec.ofNat_toNat, BitVec.setWidth_eq, BitVec.setWidth_eq]

theorem f32X_eq (v : W64) : f32X v = v.extractLsb' 0 32 := BitVec.setWidth_eq_extractLsb' (by decide)

/-- Settles O1: each operation is one guarded result in X[xd]; the products, the least and the greatest and the halves of a word are
read as numbers. -/
theorem scalarIntegerResults : Obligations.ScalarIntegerResults := by
  unfold Obligations.ScalarIntegerResults
  intro s tt xd xa xb imm h a b n
  have runs := fun lat v => aluX_run h lat xd v slotS
  refine ⟨runs .., runs .., ?mul, runs .., runs .., runs .., runs .., runs .., runs .., runs .., runs .., runs .., runs ..,
    ?min, ?max, ?minu, ?maxu, runs .., runs .., runs .., runs .., ?movh, ?sext, ?zext⟩
  case mul => rw [← mul_eq_ofNat]; exact runs ..
  case min => rw [← ite_slt]; exact runs ..
  case max => rw [← ite_slt]; exact runs ..
  case minu => rw [← ite_ult]; exact runs ..
  case maxu => rw [← ite_ult]; exact runs ..
  case movh => rw [← f32X_eq]; exact runs ..
  case sext => rw [← f32X_eq]; exact runs ..
  case zext => rw [← f32X_eq]; exact runs ..

end Sys2Proof.Machine
end

section
/-! The control and status registers of the S slot: GETC, PUTC, FMTSET, and the registers that name a context's place (R70 to R72,
R81, R388). -/

namespace Sys2Proof.Machine

/-- A form that is legal in handler mode alone is itself where the context is in handler mode. -/
theorem OpSem.inHandler_legal {s : State} {only : Bool} (h : only = true → s.me.st = .handler) (o : OpSem) :
    OpSem.inHandler s only o = o := by
  refine if_neg fun hbad => ?_
  rw [Bool.and_eq_true, bne_iff_ne] at hbad
  exact hbad.2 (h hbad.1)

theorem putc_runs {s : State} {tt : TT} {csr : BitVec 12} {xa : XReg} (h : s.lane0 tt = true)
    (hok : s.me.putcOk csr.toNat (s.me.xr xa) = true) (hmode : csrHandlerOnly csr.toNat = true → s.me.st = .handler) :
    Runs (.putc tt csr xa) s (s.push64 1 (.csr csr.toNat) (s.me.xr xa)) := by
  show (putcSem tt csr xa s).run slotS [] s = _
  rw [putcSem, OpSem.inHandler_legal hmode, OpSem.guarded_on h]
  exact OpSem.run_next (if_pos hok) rfl (queueHold_zero s _)

theorem fmtset_runs {s : State} {tt : TT} {xa : XReg} {mask : W32} (h : s.lane0 tt = true)
    (hok : fmtLegalIn (mergeBits s.me.fmtAhead (f32X (s.me.xr xa)) mask).toNat mask.toNat = true) :
    Runs (.fmtset tt xa mask) s (s.push 4 (.csr 0x018) (toVec mask) (toVec (f32X (s.me.xr xa)))) := by
  show (fmtsetSem tt xa mask s).run slotS [] s = _
  rw [fmtsetSem, OpSem.guarded_on h]
  exact OpSem.run_next (if_pos hok) rfl (queueHold_zero s _)

/-- A number of the package fits a CSR. -/
theorem toNat_csr_of_lt {n : Nat} (h : n < 256) : (BitVec.ofNat 64 n).toNat = n := Nat.mod_eq_of_lt (by omega)

/-- The cluster of a core of the package, 16 cores each. -/
theorem clusterOf_of_lt {k : Nat} (h : k < 256) : clusterOf k = k / 16 := by rw [clusterOf, goneCore, Nat.mod_eq_of_lt h]

/-- The CSRs that name the place of a context. -/
theorem State.csr_place {s : State} (hctx : s.cur.2 < 8) (hcore : s.cur.1 < 256) :
    (s.csr 0x000).toNat = s.cur.2 ∧ (s.csr 0x001).toNat = s.cur.1 ∧ (s.csr 0x002).toNat = s.cur.1 / 16
      ∧ (s.csr 0x003).toNat = s.cur.1 / 128 := by
  have hcluster := clusterOf_of_lt hcore
  have hdie : clusterOf s.cur.1 / 8 = s.cur.1 / 128 := by rw [hcluster, Nat.div_div_eq_div_mul]
  exact ⟨toNat_csr_of_lt (by omega), toNat_csr_of_lt hcore, hcluster ▸ toNat_csr_of_lt (by omega),
    hdie ▸ toNat_csr_of_lt (by omega)⟩

/-- Settles O11: GETC as a guarded result, PUTC and FMTSET by the checks that the hypotheses meet, the place by its numbers. -/
theorem csrAccess : Obligations.CsrAccess := by
  unfold Obligations.CsrAccess
  refine ⟨fun s tt xd xa csr mask h => ?_, fun s hctx hcore => ?_⟩
  · intro v f
    refine ⟨aluX_run h 1 xd _ slotS, putc_runs h, fun hok => ?_⟩
    have hf : f32X v = f := f32X_eq v
    rw [← hf] at hok ⊢
    exact fmtset_runs h hok
  · obtain ⟨hslot, hk, hcluster, hdie⟩ := s.csr_place hctx hcore
    exact ⟨hslot, hk, hcluster, hdie, rfl, rfl⟩

end Sys2Proof.Machine
end

section
/-! The codes of the floating-point formats as numbers (R101, R102), in units of 2^-300: the number of a magnitude code, in the order
of the codes, and what decodes to it. -/

namespace Sys2Proof.Machine

/-! ## The formats (R101) -/

theorem Fmt.bits_of_float {f : Fmt} {fs : FloatSpec} (hf : f.float? = some fs) : f.bits = fs.ebits + fs.fbits + 1 := by
  cases f <;> cases hf <;> rfl

theorem Fmt.isInt_of_float {f : Fmt} {fs : FloatSpec} (hf : f.float? = some fs) : f.isInt = false := by
  cases f <;> cases hf <;> rfl

theorem Fmt.fbits_pos {f : Fmt} {fs : FloatSpec} (hf : f.float? = some fs) : 0 < fs.fbits := by
  cases f <;> cases hf <;> decide

/-- The least number of a format is a multiple of 2^-300. -/
theorem Fmt.bias_le {f : Fmt} {fs : FloatSpec} (hf : f.float? = some fs) : fs.bias + fs.fbits ≤ 300 := by
  cases f <;> cases hf <;> decide

theorem Fmt.maxCode_lt {f : Fmt} {fs : FloatSpec} (hf : f.float? = some fs) : f.maxCode < 2 ^ (fs.ebits + fs.fbits) := by
  cases f <;> cases hf <;> decide

/-- The largest number of a format is not the least of its exponent. -/
theorem Fmt.maxCode_mod {f : Fmt} {fs : FloatSpec} (hf : f.float? = some fs) : f.maxCode % 2 ^ fs.fbits ≠ 0 := by
  cases f <;> cases hf <;> decide

/-! ## Magnitudes in the order of their codes -/

/-- A magnitude with a sign. -/
def withSign (neg : Bool) (X : Nat) : Int := if neg then -(X : Int) else X

theorem withSign_eq_zero {neg : Bool} {X : Nat} : withSign neg X = 0 ↔ X = 0 := by cases neg <;> simp [withSign]

theorem withSign_zero (neg : Bool) : withSign neg 0 = 0 := withSign_eq_zero.2 rfl

theorem withSign_mul (neg : Bool) (X U : Nat) : withSign neg (X * U) = withSign neg X * U := by cases neg <;> simp [withSign]

theorem withSign_natAbs (i : Int) : withSign (decide (i < 0)) i.natAbs = i := by
  by_cases h : i < 0
  · rw [withSign, decide_eq_true h, if_pos rfl]; omega
  · rw [withSign, decide_eq_false h, if_neg Bool.false_ne_true]; omega

theorem decide_withSign {neg : Bool} {X : Nat} (h : 0 < X) : decide (withSign neg X < 0) = neg := by
  cases neg <;> simp [withSign]; omega

/-- The magnitude of a dyadic number, in units of 2^-300. -/
def Dy.units (d : Dy) : Nat := d.man * 2 ^ (d.exp + 300).toNat

theorem Dy.at_eq_withSign (d : Dy) : d.at (-300) = withSign d.neg d.units := rfl

/-- The number of a magnitude code in units of 2^-300, with the exponent unbounded above (R102): past the first two exponents, each
doubles the unit of the last place. -/
def codeUnits (fs : FloatSpec) (c : Nat) : Nat :=
  (c - (c / 2 ^ fs.fbits - 1) * 2 ^ fs.fbits) * 2 ^ (c / 2 ^ fs.fbits - 1 + (301 - fs.bias - fs.fbits))

/-- The code of a mantissa m at the k-th unit of the last place, up to the first mantissa of the next. -/
theorem codeUnits_at {fs : FloatSpec} {m k : Nat} (hk : k = 0 ∨ 2 ^ fs.fbits ≤ m) (hm : m ≤ 2 * 2 ^ fs.fbits) :
    codeUnits fs (m + k * 2 ^ fs.fbits) = m * 2 ^ (k + (301 - fs.bias - fs.fbits)) := by
  have hpos : 0 < 2 ^ fs.fbits := Nat.two_pow_pos _
  rw [codeUnits, Nat.add_mul_div_right _ _ hpos]
  generalize 301 - fs.bias - fs.fbits = B
  rcases Nat.lt_or_ge m (2 ^ fs.fbits) with hlt | hge
  · obtain rfl : k = 0 := hk.resolve_right (Nat.not_le_of_lt hlt)
    simp [Nat.div_eq_of_lt hlt]
  · rcases Nat.lt_or_eq_of_le hm with hlt2 | rfl
    · have hone : m / 2 ^ fs.fbits = 1 := Nat.div_eq_of_lt_le (by omega) (by omega)
      simp [hone]
    · rw [Nat.mul_div_cancel _ hpos, show 2 + k - 1 = k + 1 by omega, Nat.add_mul, Nat.one_mul, Nat.add_right_comm, Nat.pow_succ]
      generalize 2 ^ fs.fbits = P
      rw [show 2 * P + k * P - (k * P + P) = P by omega]
      ring

/-- A code's mantissa and unit of the last place. -/
theorem code_split (fs : FloatSpec) (c : Nat) : ∃ m k, c = m + k * 2 ^ fs.fbits ∧ k = c / 2 ^ fs.fbits - 1
    ∧ (k = 0 ∨ 2 ^ fs.fbits ≤ m) ∧ m < 2 * 2 ^ fs.fbits := by
  have hc := Nat.div_add_mod' c (2 ^ fs.fbits)
  have hr := Nat.mod_lt c (Nat.two_pow_pos fs.fbits)
  rcases hq : c / 2 ^ fs.fbits with _ | k
  · exact ⟨c, 0, by simp, rfl, .inl rfl, by rw [hq] at hc; omega⟩
  · rw [hq, Nat.succ_mul] at hc
    exact ⟨2 ^ fs.fbits + c % 2 ^ fs.fbits, k, by omega, rfl, .inr (by omega), by omega⟩

theorem codeUnits_succ (fs : FloatSpec) (c : Nat) :
    codeUnits fs (c + 1) = codeUnits fs c + 2 ^ (c / 2 ^ fs.fbits - 1 + (301 - fs.bias - fs.fbits)) := by
  obtain ⟨m, k, hc, hkc, hk, hm⟩ := code_split fs c
  rw [← hkc, hc, codeUnits_at hk hm.le, Nat.add_right_comm, codeUnits_at (hk.imp_right Nat.le_succ_of_le) hm, Nat.succ_mul]

theorem codeUnits_strictMono (fs : FloatSpec) : StrictMono (codeUnits fs) :=
  strictMono_nat_of_lt_succ fun c => by rw [codeUnits_succ]; exact Nat.lt_add_of_pos_right (Nat.two_pow_pos _)

@[simp] theorem codeUnits_zero (fs : FloatSpec) : codeUnits fs 0 = 0 := by simp [codeUnits]

theorem codeUnits_pos (fs : FloatSpec) {c : Nat} (h : 0 < c) : 0 < codeUnits fs c :=
  codeUnits_zero fs ▸ codeUnits_strictMono fs h

theorem codeUnits_lt {fs : FloatSpec} {c : Nat} (hb : fs.bias + fs.fbits ≤ 300) (hc : c < 2 ^ (fs.ebits + fs.fbits)) :
    codeUnits fs c < 2 ^ (2 ^ fs.ebits + 302 - fs.bias) := by
  obtain ⟨m, k, hcm, hkc, hk, hm⟩ := code_split fs c
  have hexp : c / 2 ^ fs.fbits < 2 ^ fs.ebits := Nat.div_lt_of_lt_mul (by rwa [← Nat.pow_add, Nat.add_comm fs.fbits])
  rw [hcm, codeUnits_at hk hm.le]
  have := Nat.two_pow_pos fs.ebits
  rw [← Nat.pow_succ'] at hm
  calc m * 2 ^ (k + (301 - fs.bias - fs.fbits)) < 2 ^ (fs.fbits + 1) * 2 ^ (k + (301 - fs.bias - fs.fbits)) :=
        Nat.mul_lt_mul_of_pos_right hm (Nat.two_pow_pos _)
    _ = 2 ^ (fs.fbits + 1 + (k + (301 - fs.bias - fs.fbits))) := (Nat.pow_add ..).symm
    _ ≤ 2 ^ (2 ^ fs.ebits + 302 - fs.bias) := Nat.pow_le_pow_right (by decide) (by omega)


/-! ## Codes with a sign (R102) -/

/-- A code's magnitude and sign. -/
theorem unitsOf_float {f : Fmt} {fs : FloatSpec} (hf : f.float? = some fs) (c : Nat) :
    unitsOf f c = withSign (c.testBit (fs.ebits + fs.fbits)) (codeUnits fs (c % 2 ^ (fs.ebits + fs.fbits))) := by
  have hexp : c / 2 ^ fs.fbits % 2 ^ fs.ebits = c % 2 ^ (fs.ebits + fs.fbits) / 2 ^ fs.fbits := by
    rw [Nat.add_comm, Nat.pow_add, Nat.mod_mul_right_div_self]
  have hfrac : c % 2 ^ fs.fbits = c % 2 ^ (fs.ebits + fs.fbits) % 2 ^ fs.fbits :=
    (Nat.mod_mod_of_dvd _ (Nat.pow_dvd_pow 2 (Nat.le_add_left ..))).symm
  simp only [unitsOf, hf, hexp, hfrac]
  generalize c % 2 ^ (fs.ebits + fs.fbits) = r
  suffices h : (r % 2 ^ fs.fbits + if r / 2 ^ fs.fbits = 0 then 0 else 2 ^ fs.fbits)
      * 2 ^ (300 + max (r / 2 ^ fs.fbits) 1 - fs.bias - fs.fbits) = codeUnits fs r by rw [h]; rfl
  have hb := Fmt.bias_le hf
  have hr := Nat.div_add_mod' r (2 ^ fs.fbits)
  rw [codeUnits]
  rcases hq : r / 2 ^ fs.fbits with _ | q
  · rw [hq] at hr
    rw [if_pos rfl, show r % 2 ^ fs.fbits = r by omega]
    congr 2 <;> omega
  · rw [hq, Nat.succ_mul] at hr
    rw [if_neg (Nat.succ_ne_zero q), Nat.add_sub_cancel]
    congr 2 <;> omega

/-- The code of a sign and a magnitude code. -/
def signedCode (fs : FloatSpec) (neg : Bool) (c : Nat) : Nat := b2n neg * 2 ^ (fs.ebits + fs.fbits) + c

theorem signedCode_mod {fs : FloatSpec} {c : Nat} (hc : c < 2 ^ (fs.ebits + fs.fbits)) (neg : Bool) :
    signedCode fs neg c % 2 ^ (fs.ebits + fs.fbits) = c := by
  rw [signedCode, Nat.mul_add_mod_self_right, Nat.mod_eq_of_lt hc]

theorem signedCode_testBit {fs : FloatSpec} {c : Nat} (hc : c < 2 ^ (fs.ebits + fs.fbits)) (neg : Bool) :
    (signedCode fs neg c).testBit (fs.ebits + fs.fbits) = neg := by
  have hlow := Nat.testBit_lt_two_pow hc
  cases neg <;> simp [signedCode, b2n, hlow, Nat.testBit_two_pow_add_eq]

theorem signedCode_lt {fs : FloatSpec} {c : Nat} (hc : c < 2 ^ (fs.ebits + fs.fbits)) (neg : Bool) :
    signedCode fs neg c < 2 ^ (fs.ebits + fs.fbits + 1) := by
  rw [signedCode, Nat.pow_succ]
  cases neg <;> simp only [b2n] <;> split <;> omega

theorem unitsOf_signedCode {f : Fmt} {fs : FloatSpec} (hf : f.float? = some fs) {c : Nat} (hc : c < 2 ^ (fs.ebits + fs.fbits))
    (neg : Bool) : unitsOf f (signedCode fs neg c) = withSign neg (codeUnits fs c) := by
  rw [unitsOf_float hf, signedCode_testBit hc, signedCode_mod hc]

theorem finiteCode_float {f : Fmt} {fs : FloatSpec} (hf : f.float? = some fs) (c : Nat) :
    FiniteCode f c ↔ c < 2 ^ (fs.ebits + fs.fbits + 1) ∧ c % 2 ^ (fs.ebits + fs.fbits) ≤ f.maxCode := by
  simp [FiniteCode, Fmt.bits_of_float hf, Fmt.isInt_of_float hf]

/-! ## What a code decodes to -/

/-- The exponent of the k-th unit of the last place (R102). -/
def ulpAt (fs : FloatSpec) (k : Nat) : Int := k + (1 - (fs.bias : Int) - fs.fbits)

theorem ulpAt_ge {f : Fmt} {fs : FloatSpec} (hf : f.float? = some fs) (k : Nat) : -300 ≤ ulpAt fs k := by
  have := Fmt.bias_le hf
  unfold ulpAt; omega

theorem units_ulpAt {f : Fmt} {fs : FloatSpec} (hf : f.float? = some fs) {m k : Nat} (hk : k = 0 ∨ 2 ^ fs.fbits ≤ m)
    (hm : m ≤ 2 * 2 ^ fs.fbits) (neg : Bool) : (⟨neg, m, ulpAt fs k⟩ : Dy).units = codeUnits fs (m + k * 2 ^ fs.fbits) := by
  have := Fmt.bias_le hf
  rw [codeUnits_at hk hm]
  show m * 2 ^ ((k : Int) + (1 - (fs.bias : Int) - fs.fbits) + 300).toNat = _
  congr 2; omega

/-- The fields of a code are those of its magnitude. -/
theorem bitsOf_exponent (fs : FloatSpec) (c : Nat) :
    bitsOf c fs.fbits fs.ebits = c % 2 ^ (fs.ebits + fs.fbits) / 2 ^ fs.fbits := by
  rw [bitsOf, Nat.add_comm fs.ebits, Nat.pow_add, Nat.mod_mul_right_div_self]

theorem bitsOf_fraction (fs : FloatSpec) (c : Nat) : bitsOf c 0 fs.fbits = c % 2 ^ (fs.ebits + fs.fbits) % 2 ^ fs.fbits := by
  rw [bitsOf, Nat.pow_zero, Nat.div_one, Nat.mod_mod_of_dvd _ (Nat.pow_dvd_pow 2 (Nat.le_add_left ..))]

theorem bitAt_eq_testBit (c i : Nat) : bitAt c i = c.testBit i := by
  rw [bitAt, Nat.testBit_eq_decide_div_mod_eq]; rfl

theorem Fmt.maxCode_lt_infCode {f : Fmt} {fs : FloatSpec} (hf : f.float? = some fs) (h : f.hasInf = true) :
    f.maxCode < (2 ^ fs.ebits - 1) * 2 ^ fs.fbits := by
  revert h; cases f <;> cases hf <;> decide

/-- Of a finite code the fields are not those of an infinity or a NaN (R102). -/
theorem decodeFloat_of_le {f : Fmt} {fs : FloatSpec} (hf : f.float? = some fs) {c : Nat}
    (hc : c % 2 ^ (fs.ebits + fs.fbits) ≤ f.maxCode) :
    decodeFloat f fs c = .fin (if bitsOf c fs.fbits fs.ebits = 0
      then ⟨bitAt c (fs.ebits + fs.fbits), bitsOf c 0 fs.fbits, ulpAt fs 0⟩
      else ⟨bitAt c (fs.ebits + fs.fbits), 2 ^ fs.fbits + bitsOf c 0 fs.fbits, ulpAt fs (bitsOf c fs.fbits fs.ebits - 1)⟩) := by
  have hsub : 1 - (fs.bias : Int) - fs.fbits = ulpAt fs 0 := by unfold ulpAt; omega
  have hnormal : bitsOf c fs.fbits fs.ebits ≠ 0 →
      (bitsOf c fs.fbits fs.ebits : Int) - fs.bias - fs.fbits = ulpAt fs (bitsOf c fs.fbits fs.ebits - 1) := fun h => by
    unfold ulpAt; omega
  have hinf : f.hasInf = true → bitsOf c fs.fbits fs.ebits < 2 ^ fs.ebits - 1 := fun h => by
    rw [bitsOf_exponent]
    exact Nat.div_lt_of_lt_mul (Nat.mul_comm .. ▸ lt_of_le_of_lt hc (Fmt.maxCode_lt_infCode hf h))
  have hnan : f = .e4m3 → ¬ bitsOf c fs.fbits fs.ebits < 2 ^ fs.ebits - 1 → bitsOf c 0 fs.fbits ≠ 7 := by
    rintro rfl hexp hfrac
    cases hf
    rw [bitsOf_exponent] at hexp
    rw [bitsOf_fraction] at hfrac
    simp only [Fmt.maxCode] at *
    omega
  unfold decodeFloat
  by_cases h0 : bitsOf c fs.fbits fs.ebits = 0
  · simp only [if_pos h0, hsub]
  · simp only [if_neg h0, hnormal h0]
    by_cases hlt : bitsOf c fs.fbits fs.ebits < 2 ^ fs.ebits - 1
    · rw [if_pos hlt]
    · rw [if_neg hlt, if_neg (fun h => hlt (hinf h))]
      split
      next he => exact if_neg (hnan he hlt)
      next => rfl

/-- A finite code decodes to the number that it stands for. -/
theorem decodeFloat_finite {f : Fmt} {fs : FloatSpec} (hf : f.float? = some fs) {c : Nat}
    (hc : c % 2 ^ (fs.ebits + fs.fbits) ≤ f.maxCode) :
    ∃ d : Dy, decodeFloat f fs c = .fin d ∧ -300 ≤ d.exp ∧ d.at (-300) = unitsOf f c := by
  refine ⟨_, decodeFloat_of_le hf hc, ?_⟩
  rw [unitsOf_float hf, Dy.at_eq_withSign, bitAt_eq_testBit, bitsOf_exponent, bitsOf_fraction]
  generalize c % 2 ^ (fs.ebits + fs.fbits) = r
  have hsplit := Nat.div_add_mod' r (2 ^ fs.fbits)
  have hfrac := Nat.mod_lt r (Nat.two_pow_pos fs.fbits)
  split
  next h0 =>
    rw [h0] at hsplit
    have hr : r % 2 ^ fs.fbits + 0 * 2 ^ fs.fbits = r := by omega
    rw [units_ulpAt hf (.inl rfl) (by omega), hr]
    exact ⟨ulpAt_ge hf _, rfl⟩
  next h0 =>
    obtain ⟨q, hq⟩ := Nat.exists_eq_succ_of_ne_zero h0
    rw [hq, Nat.succ_mul] at hsplit
    have hr : 2 ^ fs.fbits + r % 2 ^ fs.fbits + (r / 2 ^ fs.fbits - 1) * 2 ^ fs.fbits = r := by
      rw [hq, Nat.succ_sub_one]; omega
    rw [units_ulpAt hf (.inr (Nat.le_add_right ..)) (by omega), hr]
    exact ⟨ulpAt_ge hf _, rfl⟩

end Sys2Proof.Machine
end

section
/-! One rounding of an exact number (R109) and what becomes of an overflow (R111): the two neighbours of a number, the one that a mode
takes, and the code that the model makes of it. -/

namespace Sys2Proof.Machine

/-! ## The neighbour that a mode takes (R109) -/

/-- Whether a mode without a draw takes the upper of the two neighbours lo and hi of a magnitude X; odd says it of the lower. -/
def takesUpper (rm : RM) (neg odd : Bool) (lo hi X : Nat) : Bool :=
  match rm with
  | .rz => false
  | .ru => !neg && decide (lo < X)
  | .rd => neg && decide (lo < X)
  | _ => decide (lo + hi < 2 * X) || (decide (2 * X = lo + hi) && odd)

theorem takesUpper_mul (rm : RM) (neg odd : Bool) (lo hi X : Nat) {s : Nat} (hs : 0 < s) :
    takesUpper rm neg odd (lo * s) (hi * s) (X * s) = takesUpper rm neg odd lo hi X := by
  have hlt : lo * s < X * s ↔ lo < X := Nat.mul_lt_mul_right hs
  have hhalf : lo * s + hi * s < 2 * (X * s) ↔ lo + hi < 2 * X := by
    rw [← Nat.add_mul, ← Nat.mul_assoc, Nat.mul_lt_mul_right hs]
  have htie : 2 * (X * s) = lo * s + hi * s ↔ 2 * X = lo + hi := by
    rw [← Nat.add_mul, ← Nat.mul_assoc, Nat.mul_left_inj hs.ne']
  cases rm <;> simp only [takesUpper, hlt, hhalf, htie]

/-- A number that is its own lower neighbour is exact. -/
theorem takesUpper_exact (rm : RM) (neg odd : Bool) {lo hi : Nat} (h : lo < hi) : takesUpper rm neg odd lo hi lo = false := by
  have htie : ¬ 2 * lo = lo + hi := by omega
  have hhalf : ¬ lo + hi < 2 * lo := by omega
  cases rm <;> simp [takesUpper, htie, hhalf]

theorem roundsUp_eq {rm : RM} (hrm : rm ≠ .sr) (neg : Bool) (m rem sh draw : Nat) :
    roundsUp rm neg m rem sh false draw = takesUpper rm neg (m % 2 == 1) (m * 2 ^ sh) ((m + 1) * 2 ^ sh) (m * 2 ^ sh + rem) := by
  have hlt : decide (m * 2 ^ sh < m * 2 ^ sh + rem) = (rem != 0) := by
    rw [Bool.eq_iff_iff, decide_eq_true_iff, bne_iff_ne]; omega
  have hhalf : m * 2 ^ sh + (m + 1) * 2 ^ sh < 2 * (m * 2 ^ sh + rem) ↔ 2 * rem > 2 ^ sh := by rw [Nat.succ_mul m]; omega
  have htie : 2 * (m * 2 ^ sh + rem) = m * 2 ^ sh + (m + 1) * 2 ^ sh ↔ 2 * rem = 2 ^ sh := by rw [Nat.succ_mul m]; omega
  cases rm with
  | sr => exact absurd rfl hrm
  | rz => rfl
  | ru => simp only [roundsUp, takesUpper, hlt, Bool.or_false]
  | rd => simp only [roundsUp, takesUpper, hlt, Bool.or_false]
  | rne => simp only [roundsUp, takesUpper, hhalf, htie, Bool.false_or]

/-- A dyadic number rounded to a multiple of 2^u: its neighbours in units of 2^-300. -/
theorem roundAt_eq {rm : RM} (hrm : rm ≠ .sr) (draw : Nat) {d : Dy} {u : Int} (hd : -300 ≤ d.exp) (hu : -300 ≤ u) :
    ∃ m, m * 2 ^ (u + 300).toNat ≤ d.units ∧ d.units < (m + 1) * 2 ^ (u + 300).toNat
      ∧ roundAt rm draw d.toExact u = ⟨d.neg, m + b2n (takesUpper rm d.neg (m % 2 == 1) (m * 2 ^ (u + 300).toNat)
          ((m + 1) * 2 ^ (u + 300).toNat) d.units), u⟩ := by
  by_cases h : d.exp ≥ u
  · have hm : d.units = d.man * 2 ^ (d.exp - u).toNat * 2 ^ (u + 300).toNat := by
      rw [Dy.units, Nat.mul_assoc, ← Nat.pow_add]; congr 2; omega
    have hlt : d.units < (d.man * 2 ^ (d.exp - u).toNat + 1) * 2 ^ (u + 300).toNat :=
      hm ▸ Nat.mul_lt_mul_of_pos_right (Nat.lt_succ_self _) (Nat.two_pow_pos _)
    refine ⟨d.man * 2 ^ (d.exp - u).toNat, hm.ge, hlt, ?_⟩
    rw [← hm, takesUpper_exact _ _ _ hlt]
    exact if_pos h
  · have hU : 2 ^ (u + 300).toNat = 2 ^ (u - d.exp).toNat * 2 ^ (d.exp + 300).toNat := by
      rw [← Nat.pow_add]; congr 1; omega
    have hs : 0 < 2 ^ (d.exp + 300).toNat := Nat.two_pow_pos _
    have hsplit := Nat.div_add_mod' d.man (2 ^ (u - d.exp).toNat)
    have hrem := Nat.mod_lt d.man (Nat.two_pow_pos (u - d.exp).toNat)
    refine ⟨d.man / 2 ^ (u - d.exp).toNat, ?_, ?_, ?_⟩
    · rw [hU, ← Nat.mul_assoc]; exact Nat.mul_le_mul_right _ (by omega)
    · rw [hU, ← Nat.mul_assoc]; exact Nat.mul_lt_mul_of_pos_right (by rw [Nat.succ_mul]; omega) hs
    · rw [hU, ← Nat.mul_assoc, ← Nat.mul_assoc, Dy.units, takesUpper_mul _ _ _ _ _ _ hs]
      have hup := roundsUp_eq hrm d.neg (d.man / 2 ^ (u - d.exp).toNat) (d.man % 2 ^ (u - d.exp).toNat) (u - d.exp).toNat draw
      rw [hsplit] at hup
      refine (if_neg h).trans ?_
      simp only [Dy.toExact, hup, b2n]
      split <;> rfl

/-! ## Codes of rounded numbers (R102) -/

theorem ulpAt_units {f : Fmt} {fs : FloatSpec} (hf : f.float? = some fs) (k : Nat) :
    (ulpAt fs k + 300).toNat = k + (301 - fs.bias - fs.fbits) := by
  have := Fmt.bias_le hf
  unfold ulpAt; omega

/-- The mantissa of a number at the exponent of its unit of the last place (R131). -/
theorem ulpExp_spec {f : Fmt} {fs : FloatSpec} (hf : f.float? = some fs) {d : Dy} (hd : -300 ≤ d.exp) (h0 : d.man ≠ 0) :
    ∃ k, ulpExp fs d.man d.exp = ulpAt fs k ∧ d.units < 2 * 2 ^ fs.fbits * 2 ^ (ulpAt fs k + 300).toNat
      ∧ (k = 0 ∨ 2 ^ fs.fbits * 2 ^ (ulpAt fs k + 300).toNat ≤ d.units) := by
  have hpos := bitLen_pos h0
  have hb := Fmt.bias_le hf
  refine ⟨(ulpExp fs d.man d.exp - ulpAt fs 0).toNat, by unfold ulpExp ulpAt; omega, ?_, ?_⟩
  · rw [Dy.units, ← Nat.pow_succ', ← Nat.pow_add]
    calc d.man * 2 ^ (d.exp + 300).toNat < 2 ^ bitLen d.man * 2 ^ (d.exp + 300).toNat :=
          Nat.mul_lt_mul_of_pos_right (bitLen_le_iff.1 le_rfl) (Nat.two_pow_pos _)
      _ = 2 ^ (bitLen d.man + (d.exp + 300).toNat) := (Nat.pow_add ..).symm
      _ ≤ _ := Nat.pow_le_pow_right (by decide) (by unfold ulpExp ulpAt; omega)
  · rw [Dy.units, ← Nat.pow_add]
    refine or_iff_not_imp_left.2 fun hk => ?_
    calc 2 ^ _ ≤ 2 ^ (bitLen d.man - 1 + (d.exp + 300).toNat) :=
          Nat.pow_le_pow_right (by decide) (by unfold ulpExp ulpAt at *; omega)
      _ = 2 ^ (bitLen d.man - 1) * 2 ^ (d.exp + 300).toNat := Nat.pow_add ..
      _ ≤ d.man * 2 ^ (d.exp + 300).toNat := Nat.mul_le_mul_right _ (lt_bitLen_iff.1 (by omega))

/-- Rounding to the precision of a format: the neighbours are codes that follow each other. -/
theorem roundFloat_eq {f : Fmt} {fs : FloatSpec} (hf : f.float? = some fs) {rm : RM} (hrm : rm ≠ .sr) (draw : Nat) {d : Dy}
    (hd : -300 ≤ d.exp) : ∃ c m k, c = m + k * 2 ^ fs.fbits ∧ (k = 0 ∨ 2 ^ fs.fbits ≤ m) ∧ m < 2 * 2 ^ fs.fbits
      ∧ codeUnits fs c ≤ d.units ∧ d.units < codeUnits fs (c + 1)
      ∧ roundFloat fs rm draw d.toExact = ⟨d.neg, m + b2n (takesUpper rm d.neg (c % 2 == 1) (codeUnits fs c) (codeUnits fs (c + 1))
          d.units), ulpAt fs k⟩ := by
  rcases eq_or_ne d.man 0 with h0 | h0
  · have hunits : d.units = 0 := by rw [Dy.units, h0, Nat.zero_mul]
    have hlt : codeUnits fs 0 < codeUnits fs (0 + 1) := codeUnits_strictMono fs (Nat.lt_succ_self 0)
    rw [codeUnits_zero] at hlt
    refine ⟨0, 0, 0, by simp, .inl rfl, by positivity, ?_⟩
    rw [hunits, codeUnits_zero, takesUpper_exact _ _ _ hlt]
    refine ⟨le_rfl, hlt, ?_⟩
    simp [roundFloat, Dy.toExact, h0, ulpAt, b2n]
  · obtain ⟨k, hulp, hlt, hge⟩ := ulpExp_spec hf hd h0
    obtain ⟨m, hlo, hhi, hround⟩ := roundAt_eq hrm draw hd (ulpAt_ge hf k)
    have hm : m < 2 * 2 ^ fs.fbits := Nat.lt_of_mul_lt_mul_right (lt_of_le_of_lt hlo hlt)
    have hk : k = 0 ∨ 2 ^ fs.fbits ≤ m :=
      hge.imp_right fun h => Nat.le_of_lt_succ (Nat.lt_of_mul_lt_mul_right (lt_of_le_of_lt h hhi))
    have hcodes := codeUnits_at hk hm.le
    have hcodes' := codeUnits_at (hk.imp_right Nat.le_succ_of_le) hm
    rw [Nat.succ_add] at hcodes'
    rw [ulpAt_units hf, ← hcodes, ← hcodes'] at hround
    rw [ulpAt_units hf, ← hcodes] at hlo
    rw [ulpAt_units hf, ← hcodes'] at hhi
    have hodd : (m + k * 2 ^ fs.fbits) % 2 = m % 2 := by
      obtain ⟨n, hn⟩ := Nat.exists_eq_succ_of_ne_zero (Fmt.fbits_pos hf).ne'
      rw [hn, Nat.pow_succ, ← Nat.mul_assoc, Nat.add_mul_mod_self_right]
    refine ⟨_, m, k, rfl, hk, hm, hlo, hhi, ?_⟩
    rw [hodd, ← hround]
    have hq : max d.man 1 = d.man := by omega
    simp [roundFloat, Dy.toExact, h0, hq, hulp]

/-- A number that is a whole count m of its unit of the last place packs into the fields that m and the unit give. -/
theorem packFloat_of_ulp {fs : FloatSpec} {d : Dy} {m : Nat} {u : Int} (h0 : d.man ≠ 0) (hu : ulpExp fs d.man d.exp = u)
    (hm : (if d.exp ≥ u then d.man * 2 ^ (d.exp - u).toNat else d.man / 2 ^ (u - d.exp).toNat) = m) :
    packFloat fs d = signedCode fs d.neg ((if m < 2 ^ fs.fbits then 0 else (u + fs.fbits + fs.bias).toNat) * 2 ^ fs.fbits
      + m % 2 ^ fs.fbits) := by
  subst hm hu
  rw [signedCode, ← Nat.add_assoc]
  exact if_neg h0

theorem bitLen_eq {n k : Nat} (hlo : 2 ^ k ≤ n) (hhi : n < 2 ^ (k + 1)) : bitLen n = k + 1 :=
  le_antisymm (bitLen_le_iff.2 hhi) (lt_bitLen_iff.2 hlo)

/-- The code of a mantissa at the k-th unit of the last place, up to the first mantissa of the next. -/
theorem packFloat_ulpAt (fs : FloatSpec) {m k : Nat} (hk : k = 0 ∨ 2 ^ fs.fbits ≤ m) (hm : m ≤ 2 * 2 ^ fs.fbits) (neg : Bool) :
    packFloat fs ⟨neg, m, ulpAt fs k⟩ = signedCode fs neg (m + k * 2 ^ fs.fbits) := by
  have hpos : 0 < 2 ^ fs.fbits := Nat.two_pow_pos _
  rcases Nat.lt_or_ge m (2 ^ fs.fbits) with hlt | hge
  · obtain rfl : k = 0 := hk.resolve_right (Nat.not_le_of_lt hlt)
    rcases eq_or_ne m 0 with rfl | h0
    · simp [packFloat, signedCode]
    · have hlen := bitLen_le_iff.2 hlt
      rw [packFloat_of_ulp (m := m) (u := ulpAt fs 0) h0 (by simp only [ulpExp, ulpAt]; omega) (by simp), if_pos hlt,
        Nat.mod_eq_of_lt hlt]
      congr 1; omega
  rcases Nat.lt_or_eq_of_le hm with hlt | rfl
  · have hlen : bitLen m = fs.fbits + 1 := bitLen_eq hge (by rwa [Nat.pow_succ'])
    have hmod : m % 2 ^ fs.fbits = m - 2 ^ fs.fbits := by
      rw [Nat.mod_eq_sub_mod hge, Nat.mod_eq_of_lt (by omega)]
    rw [packFloat_of_ulp (m := m) (u := ulpAt fs k) (by show m ≠ 0; omega) (by simp only [ulpExp, ulpAt, hlen]; omega) (by simp),
      if_neg (Nat.not_lt_of_le hge), hmod, show (ulpAt fs k + fs.fbits + fs.bias).toNat = k + 1 by unfold ulpAt; omega, Nat.succ_mul]
    congr 1; omega
  · have hlen : bitLen (2 * 2 ^ fs.fbits) = fs.fbits + 2 :=
      bitLen_eq (by rw [← Nat.pow_succ']) (by rw [← Nat.pow_succ']; exact Nat.pow_lt_pow_right (by decide) (by omega))
    have hnext : ulpAt fs (k + 1) = ulpAt fs k + 1 := by unfold ulpAt; omega
    rw [packFloat_of_ulp (m := 2 ^ fs.fbits) (u := ulpAt fs (k + 1)) (by show 2 * 2 ^ fs.fbits ≠ 0; omega)
      (by simp only [ulpExp, ulpAt, hlen]; omega) (by simp [hnext]), if_neg (Nat.lt_irrefl _), Nat.mod_self,
      show (ulpAt fs (k + 1) + fs.fbits + fs.bias).toNat = k + 2 by unfold ulpAt; omega, Nat.add_mul k]
    congr 1; omega

end Sys2Proof.Machine
end

section
/-! The encode of an exact number: the code of the neighbour that the mode takes is the one that R109 asks for, and it lies beyond the
finite codes exactly where the number overflows (R109, R111). -/

namespace Sys2Proof.Machine

/-! ## The nearest codes (R109) -/

/-- A finite code's number is that of a magnitude code, with a sign; it does not lie between neighbours. -/
theorem finiteCode_outside {f : Fmt} {fs : FloatSpec} (hf : f.float? = some fs) (c : Nat) {e : Nat} :
    ∃ y : Nat, (y ≤ codeUnits fs c ∨ codeUnits fs (c + 1) ≤ y) ∧ (unitsOf f e = y ∨ unitsOf f e = -(y : Int)) := by
  have hmono := (codeUnits_strictMono fs).monotone
  refine ⟨codeUnits fs (e % 2 ^ (fs.ebits + fs.fbits)), (Nat.lt_or_ge c _).symm.imp (fun h => hmono h) (fun h => hmono h), ?_⟩
  rw [unitsOf_float hf]
  cases e.testBit (fs.ebits + fs.fbits)
  · exact .inl rfl
  · exact .inr rfl

theorem finiteCode_signedCode {f : Fmt} {fs : FloatSpec} (hf : f.float? = some fs) {r : Nat} (hr : r ≤ f.maxCode) (neg : Bool) :
    FiniteCode f (signedCode fs neg r) := by
  have hlt := lt_of_le_of_lt hr (Fmt.maxCode_lt hf)
  rw [finiteCode_float hf, signedCode_mod hlt]
  exact ⟨signedCode_lt hlt neg, hr⟩

theorem signedCode_mod_two {f : Fmt} {fs : FloatSpec} (hf : f.float? = some fs) (neg : Bool) (r : Nat) :
    signedCode fs neg r % 2 = r % 2 := by
  obtain ⟨n, hn⟩ := Nat.exists_eq_succ_of_ne_zero (Fmt.fbits_pos hf).ne'
  rw [signedCode, hn, Nat.add_succ, Nat.pow_succ, ← Nat.mul_assoc, Nat.add_comm, Nat.add_mul_mod_self_right]

/-- The code of a mode between the neighbours of a number. -/
def roundedCode (fs : FloatSpec) (rm : RM) (neg : Bool) (c X : Nat) : Nat :=
  c + b2n (takesUpper rm neg (c % 2 == 1) (codeUnits fs c) (codeUnits fs (c + 1)) X)

theorem codeUnits_roundedCode (fs : FloatSpec) (rm : RM) (neg : Bool) (c X : Nat) :
    codeUnits fs (roundedCode fs rm neg c X) = if takesUpper rm neg (c % 2 == 1) (codeUnits fs c) (codeUnits fs (c + 1)) X
      then codeUnits fs (c + 1) else codeUnits fs c := by
  rw [roundedCode, b2n]; split <;> rfl

/-- Of the two neighbours of a number the one that a mode takes is the one that it asks for. -/
theorem roundsTo_roundedCode {f : Fmt} {fs : FloatSpec} (hf : f.float? = some fs) {rm : RM} (hrm : rm ≠ .sr) {c X : Nat}
    (hlo : codeUnits fs c ≤ X) (hhi : X < codeUnits fs (c + 1)) (neg : Bool) (hr : roundedCode fs rm neg c X ≤ f.maxCode) :
    RoundsTo f rm (withSign neg X) (signedCode fs neg (roundedCode fs rm neg c X)) := by
  have hlt := lt_of_le_of_lt hr (Fmt.maxCode_lt hf)
  have hparity := signedCode_mod_two hf neg (roundedCode fs rm neg c X)
  have hcode : unitsOf f (signedCode fs neg (roundedCode fs rm neg c X)) = withSign neg (codeUnits fs (roundedCode fs rm neg c X)) :=
    unitsOf_signedCode hf hlt neg
  refine ⟨finiteCode_signedCode hf hr neg, fun hx => ?_, ?_⟩
  · rw [Fmt.bits_of_float hf, Nat.add_sub_cancel, signedCode_testBit hlt]
    cases neg <;> simp [withSign] at hx ⊢
    omega
  · have hout := fun e => finiteCode_outside hf c (e := e)
    rw [codeUnits_roundedCode] at hcode
    generalize signedCode fs neg (roundedCode fs rm neg c X) = v at *
    rw [roundedCode] at hparity
    generalize codeUnits fs c = lo at *
    generalize codeUnits fs (c + 1) = hi at *
    simp only [hcode]
    clear hcode hr hlt
    cases rm with
    | sr => exact absurd rfl hrm
    | rz | ru | rd =>
      refine ⟨by cases neg <;> grind [withSign, takesUpper], fun e _ hle => ?_⟩
      obtain ⟨y, hy, hye⟩ := hout e
      cases neg <;> grind [withSign, takesUpper]
    | rne =>
      refine fun e _ => ?_
      obtain ⟨y, hy, hye⟩ := hout e
      rw [hparity]
      rcases hup : takesUpper .rne neg (c % 2 == 1) lo hi X with _ | _
      · have hnear : 2 * X ≤ lo + hi ∧ (2 * X = lo + hi → c % 2 = 0) := by simpa [takesUpper] using hup
        cases neg <;> grind [withSign, b2n]
      · have hnear : lo + hi < 2 * X ∨ (2 * X = lo + hi ∧ c % 2 = 1) := by simpa [takesUpper] using hup
        cases neg <;> grind [withSign, b2n]

/-! ## Overflow (R111) -/

theorem unitsOf_of_le_maxCode {f : Fmt} {fs : FloatSpec} (hf : f.float? = some fs) {c : Nat} (hc : c ≤ f.maxCode) :
    unitsOf f c = codeUnits fs c := by
  have h := unitsOf_signedCode hf (lt_of_le_of_lt hc (Fmt.maxCode_lt hf)) false
  rwa [signedCode, b2n, if_neg Bool.false_ne_true, Nat.zero_mul, Nat.zero_add] at h

/-- The step below the largest number is the step above it. -/
theorem maxCode_step {f : Fmt} {fs : FloatSpec} (hf : f.float? = some fs) :
    codeUnits fs (f.maxCode + 1) + codeUnits fs (f.maxCode - 1) = 2 * codeUnits fs f.maxCode := by
  have hmod := Fmt.maxCode_mod hf
  obtain ⟨n, hn⟩ : ∃ n, f.maxCode = n + 1 := Nat.exists_eq_succ_of_ne_zero fun h => hmod (by rw [h, Nat.zero_mod])
  have hdiv : (n + 1) / 2 ^ fs.fbits = n / 2 ^ fs.fbits := by
    rw [Nat.succ_div, if_neg (fun h => hmod (hn ▸ Nat.mod_eq_zero_of_dvd h)), Nat.add_zero]
  rw [hn, Nat.add_sub_cancel, codeUnits_succ fs (n + 1), hdiv, codeUnits_succ fs n]
  omega

/-- The rounded code lies beyond the largest finite one exactly where the number overflows. -/
theorem overflows_iff {f : Fmt} {fs : FloatSpec} (hf : f.float? = some fs) {rm : RM} {c X : Nat} (hlo : codeUnits fs c ≤ X)
    (hhi : X < codeUnits fs (c + 1)) (neg : Bool) :
    Overflows f rm (withSign neg X) ↔ f.maxCode < roundedCode fs rm neg c X := by
  have hstep := maxCode_step hf
  have hmono := codeUnits_strictMono fs
  have hbelow := hmono.monotone (Nat.sub_le f.maxCode 1)
  have habove := hmono (Nat.lt_add_one f.maxCode)
  unfold Overflows
  simp only [unitsOf_of_le_maxCode hf le_rfl, unitsOf_of_le_maxCode hf (Nat.sub_le f.maxCode 1)]
  generalize f.maxCode = M at *
  rcases Nat.lt_trichotomy c M with h | rfl | h
  · have hM : X < codeUnits fs M := lt_of_lt_of_le hhi (hmono.monotone h)
    have hr : ¬ M < roundedCode fs rm neg c X := by
      rw [roundedCode, b2n]; split <;> omega
    rw [iff_false_right hr]
    cases rm <;> cases neg <;> simp [withSign] <;> omega
  · have hr : c < roundedCode fs rm neg c X
        ↔ takesUpper rm neg (c % 2 == 1) (codeUnits fs c) (codeUnits fs (c + 1)) X = true := by
      rw [roundedCode, b2n]; split <;> simp_all
    rw [hr]
    cases rm <;> cases neg <;> simp [withSign, takesUpper] <;> omega
  · have hM : codeUnits fs (M + 1) ≤ X := le_trans (hmono.monotone h) hlo
    have hr : M < roundedCode fs rm neg c X := Nat.lt_add_right _ h
    rw [iff_true_right hr]
    cases rm <;> cases neg <;> simp [withSign] <;> omega

theorem overflowFloat_eq {f : Fmt} {fs : FloatSpec} (hf : f.float? = some fs) (rm : RM) (sat neg : Bool) :
    overflowFloat f rm sat neg = overflowCode f rm sat neg := by
  have hmax : maxOfSign f neg = f.maxCode + if neg then 2 ^ (f.bits - 1) else 0 := by
    rw [maxOfSign, Fmt.isInt_of_float hf]; cases neg <;> simp [b2n]
  have hsign : b2n neg * 2 ^ (f.bits - 1) = if neg then 2 ^ (f.bits - 1) else 0 := by cases neg <;> simp [b2n]
  have hinf : (rm == .rz || (rm == .ru && neg) || (rm == .rd && !neg)) = !overflowIsInf rm neg := by
    cases rm <;> cases neg <;> rfl
  have hfinite : (sat || rm == .rz || (rm == .ru && neg) || (rm == .rd && !neg)) = (sat || !overflowIsInf rm neg) := by
    rw [← hinf, Bool.or_assoc, Bool.or_assoc, Bool.or_assoc]
  simp only [overflowCode, overflowFloat, hfinite, hmax, hsign, Fmt.isInt_of_float hf]
  have hnan : (if f = .e4m3 then (⟨f.canonNaN, true⟩ : Enc) else ⟨f.maxCode + if neg then 2 ^ (f.bits - 1) else 0, true⟩)
      = if f == .e4m3 then ⟨0x7F, true⟩ else ⟨f.maxCode + if neg then 2 ^ (f.bits - 1) else 0, true⟩ := by
    cases f <;> rfl
  rw [hnan]
  cases sat <;> cases overflowIsInf rm neg <;> rfl

/-! ## The encode of an exact number (R109, R111) -/

/-- Magnitudes are compared in units of 2^-300. -/
theorem magLe_iff {m m' : Nat} {e e' : Int} (h : -300 ≤ e) (h' : -300 ≤ e') :
    magLe m e m' e' = true ↔ m * 2 ^ (e + 300).toNat ≤ m' * 2 ^ (e' + 300).toNat := by
  rw [magLe]
  split
  next hle =>
    have hexp : (e' + 300).toNat = (e' - e).toNat + (e + 300).toNat := by omega
    rw [decide_eq_true_iff, hexp, Nat.pow_add, ← Nat.mul_assoc, Nat.mul_le_mul_right_iff (Nat.two_pow_pos _)]
  next hgt =>
    have hexp : (e + 300).toNat = (e - e').toNat + (e' + 300).toNat := by omega
    rw [decide_eq_true_iff, hexp, Nat.pow_add, ← Nat.mul_assoc, Nat.mul_le_mul_right_iff (Nat.two_pow_pos _)]

/-- The encode takes the rounded code where it is finite, and the overflow's code where it is not. -/
theorem encodeExact_eq {f : Fmt} {fs : FloatSpec} (hf : f.float? = some fs) {rm : RM} (hrm : rm ≠ .sr) (sat : Bool) (draw : Nat)
    {d : Dy} (hd : -300 ≤ d.exp) : ∃ c, codeUnits fs c ≤ d.units ∧ d.units < codeUnits fs (c + 1)
      ∧ encodeExact f rm sat draw d.toExact = if roundedCode fs rm d.neg c d.units ≤ f.maxCode
          then ⟨signedCode fs d.neg (roundedCode fs rm d.neg c d.units), false⟩ else overflowFloat f rm sat d.neg := by
  obtain ⟨c, m, k, hc, hk, hm, hlo, hhi, hround⟩ := roundFloat_eq hf hrm draw hd
  refine ⟨c, hlo, hhi, ?_⟩
  obtain ⟨mx, hmx, hmxexp, hmxunits⟩ := decodeFloat_finite hf (Nat.mod_le f.maxCode (2 ^ (fs.ebits + fs.fbits)))
  rw [unitsOf_of_le_maxCode hf le_rfl, Dy.at_eq_withSign, withSign] at hmxunits
  have hmax : mx.man * 2 ^ (mx.exp + 300).toNat = codeUnits fs f.maxCode := by
    show mx.units = _
    split at hmxunits <;> omega
  have henc : encodeExact f rm sat draw d.toExact = encodeExactFloat f fs rm sat draw d.toExact := by simp only [encodeExact, hf]
  rw [henc, encodeExactFloat, hround, hmx]
  generalize hup : takesUpper rm d.neg (c % 2 == 1) (codeUnits fs c) (codeUnits fs (c + 1)) d.units = up
  have hcode : roundedCode fs rm d.neg c d.units = m + b2n up + k * 2 ^ fs.fbits := by rw [roundedCode, hup, hc]; omega
  have hb : b2n up ≤ 1 := by cases up <;> decide
  have hk' : k = 0 ∨ 2 ^ fs.fbits ≤ m + b2n up := hk.imp_right (Nat.le_add_right_of_le ·)
  have hm' : m + b2n up ≤ 2 * 2 ^ fs.fbits := by omega
  have hunits : (m + b2n up) * 2 ^ (ulpAt fs k + 300).toNat = codeUnits fs (roundedCode fs rm d.neg c d.units) :=
    hcode ▸ units_ulpAt hf hk' hm' d.neg
  have hle : magLe (m + b2n up) (ulpAt fs k) mx.man mx.exp = true ↔ roundedCode fs rm d.neg c d.units ≤ f.maxCode := by
    rw [magLe_iff (ulpAt_ge hf k) hmxexp, hunits, hmax, (codeUnits_strictMono fs).le_iff_le]
  have hneg : d.toExact.neg = d.neg := rfl
  simp only [hle, packFloat_ulpAt fs hk' hm', hcode, hneg]

/-- The encode rounds once. -/
theorem encodeExact_roundedOnce {f : Fmt} {fs : FloatSpec} (hf : f.float? = some fs) {rm : RM} (hrm : rm ≠ .sr) (sat : Bool)
    (draw : Nat) {d : Dy} (hd : -300 ≤ d.exp) : RoundedOnce f rm sat (d.at (-300)) (encodeExact f rm sat draw d.toExact) := by
  obtain ⟨c, hlo, hhi, henc⟩ := encodeExact_eq hf hrm sat draw hd
  have hover := overflows_iff hf (rm := rm) hlo hhi d.neg
  rw [henc, Dy.at_eq_withSign]
  refine ⟨fun h => ?_, fun h => ?_⟩
  · have hr := Nat.le_of_not_lt (mt hover.2 h)
    rw [if_pos hr]
    exact ⟨roundsTo_roundedCode hf hrm hlo hhi d.neg hr, rfl⟩
  · have hr := hover.1 h
    rw [if_neg (Nat.not_le_of_lt hr), overflowFloat_eq hf, decide_withSign (lt_of_lt_of_le (codeUnits_pos fs ?_) hlo)]
    have hM : f.maxCode ≠ 0 := fun h0 => Fmt.maxCode_mod hf (by rw [h0, Nat.zero_mod])
    have hb : roundedCode fs rm d.neg c d.units ≤ c + 1 := by rw [roundedCode, b2n]; split <;> omega
    omega

end Sys2Proof.Machine
end

section
/-! FP32 operands and results (R79, R102, R109 to R114): the fields of a word, what an operand reads as with the subnormal rule,
and the rounded result of a finite number. -/

namespace Sys2Proof.Machine

/-! ## The fields of a word (R101) -/

theorem extractLsb'_toNat_eq_bitsOf {n : Nat} (w : BitVec n) (lo len : Nat) :
    (w.extractLsb' lo len).toNat = bitsOf w.toNat lo len := by
  rw [bitsOf, BitVec.extractLsb'_toNat, Nat.shiftRight_eq_div_pow]

theorem bitsOf_toNat_eq_zero {n : Nat} (w : BitVec n) (lo len : Nat) : bitsOf w.toNat lo len = 0 ↔ w.extractLsb' lo len = 0 := by
  rw [← extractLsb'_toNat_eq_bitsOf, BitVec.toNat_eq]; rfl

/-- A word has no bit of the exponent field where the field is 0. -/
theorem and_exponent_eq_zero (w : W32) : w &&& 0x7F800000 = 0 ↔ w.extractLsb' 23 8 = 0 := by
  have hmask : ∀ i < 32, (0x7F800000 : W32).getLsbD i = decide (23 ≤ i ∧ i < 31) := by decide
  constructor
  · intro h
    refine BitVec.eq_of_getLsbD_eq fun i hi => ?_
    have hbit : (w &&& 0x7F800000).getLsbD (23 + i) = (0 : W32).getLsbD (23 + i) := by rw [h]
    rw [BitVec.getLsbD_and, hmask (23 + i) (by omega), decide_eq_true (by omega), Bool.and_true] at hbit
    simpa [BitVec.getLsbD_extractLsb', hi] using hbit
  · intro h
    refine BitVec.eq_of_getLsbD_eq fun i hi => ?_
    rw [BitVec.getLsbD_and, hmask i hi]
    by_cases hin : 23 ≤ i ∧ i < 31
    · have hbit := congrArg (BitVec.getLsbD · (i - 23)) h
      have hi' : i - 23 < 8 := by omega
      simpa [BitVec.getLsbD_extractLsb', hi', Nat.add_sub_cancel' hin.1, hin] using hbit
    · simp [hin]

/-- The sign of a word, as a word. -/
theorem and_sign (w : W32) : w &&& 0x80000000 = BitVec.ofNat 32 (b2n (w.toNat.testBit 31) * 2 ^ 31) := by
  refine BitVec.eq_of_toNat_eq ?_
  have hand : w.toNat &&& 2 ^ 31 = b2n (w.toNat.testBit 31) * 2 ^ 31 := by
    rw [Nat.and_two_pow]; cases w.toNat.testBit 31 <;> rfl
  rw [BitVec.toNat_and, BitVec.toNat_ofNat, ← hand]
  exact (Nat.mod_eq_of_lt (lt_of_le_of_lt Nat.and_le_left w.isLt)).symm

/-- The fields of FP32. -/
def f32Spec : FloatSpec := ⟨8, 23, 127⟩

theorem float_fp32 : Fmt.fp32.float? = some f32Spec := rfl

theorem f32_mod (w : W32) : w.toNat % 2 ^ 31 = bitsOf w.toNat 23 8 * 2 ^ 23 + bitsOf w.toNat 0 23 := by
  unfold bitsOf; omega

theorem f32NonFinite_eq_false (w : W32) : f32NonFinite w = false ↔ w.toNat % 2 ^ 31 ≤ Fmt.fp32.maxCode := by
  have h := w.isLt
  rw [f32NonFinite, beq_eq_false_iff_ne, Fmt.maxCode, bitsOf]
  omega

/-! ## The subnormal rule (R114) -/

theorem flushed_of_exponent {flush : Bool} {w : W32} (h : ¬ (flush = true ∧ w.extractLsb' 23 8 = 0)) : flushed flush w = w := by
  rw [flushed, if_neg]
  rwa [Bool.and_eq_true, beq_iff_eq, and_exponent_eq_zero]

theorem flushed_of_zero_exponent {w : W32} (h : w.extractLsb' 23 8 = 0) :
    flushed true w = BitVec.ofNat 32 (b2n (w.toNat.testBit 31) * 2 ^ 31) := by
  rw [flushed, if_pos (by rw [Bool.true_and, beq_iff_eq, and_exponent_eq_zero, h]), and_sign]

theorem unitsOf_zero_magnitude {c : Nat} (h : c % 2 ^ 31 = 0) : unitsOf .fp32 c = 0 := by
  have hmag : c % 2 ^ (f32Spec.ebits + f32Spec.fbits) = 0 := h
  rw [unitsOf_float float_fp32, hmag, codeUnits_zero, withSign_zero]

/-- The two zeros stand for 0. -/
theorem unitsOf_zero (neg : Bool) : unitsOf .fp32 (BitVec.ofNat 32 (b2n neg * 2 ^ 31)).toNat = 0 :=
  unitsOf_zero_magnitude (by cases neg <;> rfl)

theorem Dy.at_of_man {d : Dy} (h : d.man = 0) : d.at (-300) = 0 := by
  rw [Dy.at_eq_withSign, Dy.units, h, Nat.zero_mul, withSign_zero]

theorem f32In_eq (flush : Bool) (w : W32) :
    f32In flush w = if flush && isSubnormal f32Spec w.toNat then .fin ⟨bitAt w.toNat 31, 0, 0⟩
      else decodeFloat .fp32 f32Spec w.toNat := by
  have hmod : w.toNat % 2 ^ Fmt.fp32.bits = w.toNat := Nat.mod_eq_of_lt w.isLt
  show (if flush && isSubnormal f32Spec w.toNat then _ else decodeFloat .fp32 f32Spec (w.toNat % 2 ^ Fmt.fp32.bits)) = _
  rw [hmod]; rfl

theorem isSubnormal_eq_true (w : W32) :
    isSubnormal f32Spec w.toNat = true ↔ w.extractLsb' 23 8 = 0 ∧ bitsOf w.toNat 0 23 ≠ 0 := by
  rw [isSubnormal, Bool.and_eq_true, beq_iff_eq, bne_iff_ne, ← bitsOf_toNat_eq_zero]; rfl

/-- A finite operand reads as the number of its word after the subnormal rule. -/
theorem f32In_finite (flush : Bool) {w : W32} (h : f32NonFinite w = false) :
    ∃ d : Dy, f32In flush w = .fin d ∧ -300 ≤ d.exp ∧ d.at (-300) = unitsOf .fp32 (flushed flush w).toNat := by
  rw [f32In_eq]
  by_cases hzero : flush = true ∧ w.extractLsb' 23 8 = 0
  · obtain ⟨rfl, hexp⟩ := hzero
    rw [flushed_of_zero_exponent hexp, unitsOf_zero]
    by_cases hsub : isSubnormal f32Spec w.toNat = true
    · exact ⟨_, if_pos hsub, by simp, Dy.at_of_man rfl⟩
    · have hfrac : bitsOf w.toNat 0 23 = 0 := by simpa [isSubnormal_eq_true, hexp] using hsub
      have hmag : w.toNat % 2 ^ 31 = 0 := by rw [f32_mod, (bitsOf_toNat_eq_zero w 23 8).2 hexp, hfrac, Nat.zero_mul]
      obtain ⟨d, hd, hdexp, hunits⟩ := decodeFloat_finite float_fp32 ((f32NonFinite_eq_false w).1 h)
      exact ⟨d, (if_neg hsub).trans hd, hdexp, hunits.trans (unitsOf_zero_magnitude hmag)⟩
  · have hsub : ¬ (flush && isSubnormal f32Spec w.toNat) = true := by
      rw [Bool.and_eq_true, isSubnormal_eq_true]
      exact fun hs => hzero ⟨hs.1, hs.2.1⟩
    rw [flushed_of_exponent hzero, if_neg hsub]
    exact decodeFloat_finite float_fp32 ((f32NonFinite_eq_false w).1 h)

/-- An operand that is no number reads as the NaN or the infinity of its sign. -/
theorem f32In_nonFinite (flush : Bool) {w : W32} (h : f32NonFinite w = true) :
    f32In flush w = if f32IsNaN w then .nan else .inf (w.getLsbD 31) := by
  have hexp : bitsOf w.toNat 23 8 = 255 := by simpa [f32NonFinite] using h
  have hsub : ¬ (flush && isSubnormal f32Spec w.toNat) = true := by
    rw [Bool.and_eq_true, isSubnormal_eq_true, ← bitsOf_toNat_eq_zero, hexp]
    simp
  have hsign : bitAt w.toNat 31 = w.getLsbD 31 := bitAt_eq_testBit w.toNat 31
  rw [f32In_eq, if_neg hsub, f32IsNaN, hexp, ← hsign]
  show (if bitsOf w.toNat 23 8 = 0 then _ else if bitsOf w.toNat 23 8 < 255 then _ else
    if bitsOf w.toNat 0 23 = 0 then Val.inf (bitAt w.toNat 31) else .nan) = _
  rw [hexp]
  by_cases hfrac : bitsOf w.toNat 0 23 = 0 <;> simp [hfrac]

/-! ## Results (R109 to R111, R114) -/

theorem b2n_bitAt (c i : Nat) : b2n (bitAt c i) = c / 2 ^ i % 2 := by
  rw [b2n, bitAt]
  rcases Nat.mod_two_eq_zero_or_one (c / 2 ^ i) with h | h <;> rw [h] <;> rfl

theorem flushCode_fp32 (flush : Bool) (c : Nat) :
    BitVec.ofNat 32 (flushCode .fp32 flush c) = flushed flush (BitVec.ofNat 32 c) := by
  have hexp : bitsOf c 23 8 = 0 ↔ (BitVec.ofNat 32 c).extractLsb' 23 8 = 0 := by
    rw [← bitsOf_toNat_eq_zero, BitVec.toNat_ofNat, bitsOf, bitsOf]; omega
  have hsign : (BitVec.ofNat 32 c).toNat.testBit 31 = bitAt c 31 := by
    rw [bitAt_eq_testBit, BitVec.toNat_ofNat, Nat.testBit_mod_two_pow]; simp
  have hflush : flushCode .fp32 flush c = if flush && isSubnormal f32Spec c then b2n (bitAt c 31) * 2 ^ 31 else c := rfl
  rw [hflush, isSubnormal]
  by_cases hzero : flush = true ∧ bitsOf c 23 8 = 0
  · obtain ⟨rfl, he⟩ := hzero
    rw [flushed_of_zero_exponent (hexp.1 he), hsign]
    by_cases hfrac : bitsOf c 0 23 = 0
    · rw [if_neg (by simp [f32Spec, hfrac])]
      refine BitVec.eq_of_toNat_eq ?_
      rw [BitVec.toNat_ofNat, BitVec.toNat_ofNat, b2n_bitAt]
      unfold bitsOf at he hfrac
      omega
    · rw [if_pos]
      simpa [f32Spec, he] using hfrac
  · rw [flushed_of_exponent (by rwa [← hexp]), if_neg]
    exact fun h => hzero (by simp only [Bool.and_eq_true, beq_iff_eq] at h; exact ⟨h.1, h.2.1⟩)

/-- The code of a number that is 0 has its sign alone. -/
theorem encodeExact_zero {f : Fmt} {fs : FloatSpec} (hf : f.float? = some fs) {rm : RM} (hrm : rm ≠ .sr) (sat : Bool) (draw : Nat)
    {d : Dy} (hd : -300 ≤ d.exp) (h0 : d.units = 0) : (encodeExact f rm sat draw d.toExact).code = signedCode fs d.neg 0 := by
  obtain ⟨c, hlo, hhi, henc⟩ := encodeExact_eq hf hrm sat draw hd
  rw [h0] at hlo hhi henc
  obtain rfl : c = 0 := Nat.eq_zero_of_not_pos fun h => absurd (codeUnits_pos fs h) (by omega)
  have hr : roundedCode fs rm d.neg 0 0 = 0 := by
    rw [codeUnits_zero] at hlo
    rw [roundedCode, codeUnits_zero, takesUpper_exact _ _ _ hhi]; rfl
  rw [henc, hr, if_pos (Nat.zero_le _)]

theorem noSr_ne_sr (rm : RM) : rm.noSr ≠ .sr := by cases rm <;> decide

/-- A finite result is rounded once and flushed; a zero keeps its sign. -/
theorem f32Out_result (flush : Bool) (rm : RM) {d : Dy} (hd : -300 ≤ d.exp) {z : W32}
    (hz : d.man = 0 → z &&& 0x80000000 = BitVec.ofNat 32 (b2n d.neg * 2 ^ 31)) :
    F32Result flush rm (d.at (-300)) z (f32Out flush rm (.fin d)) := by
  refine ⟨_, encodeExact_roundedOnce float_fp32 (noSr_ne_sr rm) false 0 hd, fun h0 => ?_, flushCode_fp32 flush _⟩
  have hunits : d.units = 0 := withSign_eq_zero.1 h0
  have hman : d.man = 0 := (Nat.mul_eq_zero.1 hunits).resolve_right (Nat.two_pow_pos _).ne'
  rw [encodeExact_zero float_fp32 (noSr_ne_sr rm) false 0 hd hunits, hz hman, signedCode, Nat.add_zero]
  rfl

end Sys2Proof.Machine
end

section
/-! CMP and FCMP (R46, R76, R77, R93): the conditions by the order of the numbers, and the predicates that a compare writes. -/

namespace Sys2Proof.Machine

/-! ## The order of values (R77) -/

theorem Dy.at_scale {d : Dy} {e : Int} (he : -300 ≤ e) (hd : e ≤ d.exp) : d.at (-300) = d.at e * 2 ^ (e + 300).toNat := by
  have hpow : d.units = d.man * 2 ^ (d.exp - e).toNat * 2 ^ (e + 300).toNat := by
    rw [Dy.units, Nat.mul_assoc, ← Nat.pow_add]; congr 2; omega
  rw [Dy.at_eq_withSign, hpow, withSign_mul, Nat.cast_pow]
  rfl

theorem dyLt_iff {x y : Dy} (hx : -300 ≤ x.exp) (hy : -300 ≤ y.exp) : dyLt x y = true ↔ x.at (-300) < y.at (-300) := by
  have he : -300 ≤ min x.exp y.exp := le_min hx hy
  rw [Dy.at_scale he (min_le_left ..), Dy.at_scale he (min_le_right ..), dyLt, decide_eq_true_iff,
    Int.mul_lt_mul_right (Int.pow_pos (by decide))]

theorem dyEq_iff {x y : Dy} (hx : -300 ≤ x.exp) (hy : -300 ≤ y.exp) : dyEq x y = true ↔ x.at (-300) = y.at (-300) := by
  have he : -300 ≤ min x.exp y.exp := le_min hx hy
  rw [Dy.at_scale he (min_le_left ..), Dy.at_scale he (min_le_right ..), dyEq, decide_eq_true_iff,
    Int.mul_eq_mul_right_iff (Int.pow_pos (by decide)).ne']

/-- A value's place in the order: its number, or beyond every number with an infinity's sign. -/
def Val.HasRank (R : Int) : Val → Int → Prop
  | .nan, _ => False
  | .inf n, x => x = if n then -R else R
  | .fin d, x => -300 ≤ d.exp ∧ x = d.at (-300) ∧ -R < x ∧ x < R

theorem valLt_iff {R : Int} (hR : 0 < R) {v w : Val} {x y : Int} (hv : v.HasRank R x) (hw : w.HasRank R y) :
    valLt v w = true ↔ x < y := by
  cases v with
  | nan => exact hv.elim
  | inf n =>
    cases w with
    | nan => exact hw.elim
    | inf m => simp only [Val.HasRank] at hv hw; subst hv hw; cases n <;> cases m <;> simp [valLt] <;> omega
    | fin e => obtain ⟨-, -, hlo, hhi⟩ := hw; simp only [Val.HasRank] at hv; subst hv; cases n <;> simp [valLt] <;> omega
  | fin d =>
    obtain ⟨hd, hx, hlo, hhi⟩ := hv
    cases w with
    | nan => exact hw.elim
    | inf m => simp only [Val.HasRank] at hw; subst hw; cases m <;> simp [valLt] <;> omega
    | fin e => obtain ⟨he, hy, -, -⟩ := hw; rw [hx, hy]; exact dyLt_iff hd he

theorem valEq_iff {R : Int} (hR : 0 < R) {v w : Val} {x y : Int} (hv : v.HasRank R x) (hw : w.HasRank R y) :
    valEq v w = true ↔ x = y := by
  cases v with
  | nan => exact hv.elim
  | inf n =>
    cases w with
    | nan => exact hw.elim
    | inf m => simp only [Val.HasRank] at hv hw; subst hv hw; cases n <;> cases m <;> simp [valEq] <;> omega
    | fin e => obtain ⟨-, -, hlo, hhi⟩ := hw; simp only [Val.HasRank] at hv; subst hv; cases n <;> simp [valEq] <;> omega
  | fin d =>
    obtain ⟨hd, hx, hlo, hhi⟩ := hv
    cases w with
    | nan => exact hw.elim
    | inf m => simp only [Val.HasRank] at hw; subst hw; cases m <;> simp [valEq] <;> omega
    | fin e => obtain ⟨he, hy, -, -⟩ := hw; rw [hx, hy]; exact dyEq_iff hd he

/-! ## FP32 operands in their order -/

/-- Every finite number of FP32 lies below 2^431 units. -/
theorem unitsOf_fp32_lt (c : Nat) {k : Nat} (hk : 431 ≤ k) : -2 ^ k < unitsOf .fp32 c ∧ unitsOf .fp32 c < 2 ^ k := by
  have hlt : codeUnits f32Spec (c % 2 ^ (f32Spec.ebits + f32Spec.fbits)) < 2 ^ k :=
    lt_of_lt_of_le (codeUnits_lt (Fmt.bias_le float_fp32) (Nat.mod_lt c (Nat.two_pow_pos _))) (Nat.pow_le_pow_right (by decide) hk)
  have hcast : ((2 ^ k : Nat) : Int) = 2 ^ k := Int.natCast_pow ..
  rw [unitsOf_float float_fp32, ← hcast, withSign]
  split <;> omega

theorem f32In_rank (flush : Bool) {w : W32} (h : f32IsNaN w = false) : (f32In flush w).HasRank (2 ^ 500) (rankOf flush w) := by
  rw [rankOf]
  cases hfin : f32NonFinite w with
  | false =>
    obtain ⟨d, hd, hexp, hunits⟩ := f32In_finite flush hfin
    rw [hd, if_neg Bool.false_ne_true, ← hunits]
    exact ⟨hexp, rfl, hunits ▸ unitsOf_fp32_lt _ (by decide)⟩
  | true =>
    rw [f32In_nonFinite flush hfin, h, if_neg Bool.false_ne_true, if_pos rfl]
    rfl

/-- The conditions of R46 on the ranks of two numbers. -/
def rankCond (c : Nat) (x y : Int) : Bool :=
  match c with
  | 0 => decide (x = y)
  | 1 => !decide (x = y)
  | 2 => decide (x < y)
  | 3 => decide (x ≤ y)
  | 4 => decide (y < x)
  | 5 => decide (y ≤ x)
  | 6 => false
  | _ => true

theorem f32Cond_eq_rankCond (flush : Bool) (c : Nat) {a b : W32} (ha : f32IsNaN a = false) (hb : f32IsNaN b = false) :
    f32Cond flush c a b = rankCond c (rankOf flush a) (rankOf flush b) := by
  have hR : (0 : Int) < 2 ^ 500 := Int.pow_pos (by decide)
  have hra := f32In_rank flush ha
  have hrb := f32In_rank flush hb
  have hlt : valLt (f32In flush a) (f32In flush b) = decide (rankOf flush a < rankOf flush b) := by
    rw [Bool.eq_iff_iff, decide_eq_true_iff, valLt_iff hR hra hrb]
  have hgt : valLt (f32In flush b) (f32In flush a) = decide (rankOf flush b < rankOf flush a) := by
    rw [Bool.eq_iff_iff, decide_eq_true_iff, valLt_iff hR hrb hra]
  have heq : valEq (f32In flush a) (f32In flush b) = decide (rankOf flush a = rankOf flush b) := by
    rw [Bool.eq_iff_iff, decide_eq_true_iff, valEq_iff hR hra hrb]
  have hle : (decide (rankOf flush a < rankOf flush b) || decide (rankOf flush a = rankOf flush b))
      = decide (rankOf flush a ≤ rankOf flush b) := by rw [← Bool.decide_or, decide_eq_decide, le_iff_lt_or_eq]
  have hge : (decide (rankOf flush b < rankOf flush a) || decide (rankOf flush a = rankOf flush b))
      = decide (rankOf flush b ≤ rankOf flush a) := by rw [← Bool.decide_or, decide_eq_decide, le_iff_lt_or_eq, eq_comm]
  simp only [f32Cond, ha, hb, hlt, hgt, heq, hle, hge, Bool.or_false, Bool.not_false, Bool.true_and, Bool.false_or]
  rcases c with _ | _ | _ | _ | _ | _ | _ | c <;> rfl

/-- A NaN makes a condition what it is of every NaN. -/
theorem f32Cond_nan (flush : Bool) (c : Nat) {a b : W32} (h : (f32IsNaN a || f32IsNaN b) = true) :
    f32Cond flush c a b = (c == 1 || c == 6) := by
  simp only [f32Cond, h, Bool.not_true, Bool.false_and, Bool.true_or]
  rcases c with _ | _ | _ | _ | _ | _ | _ | c <;> rfl

theorem floatConditions : FloatConditions := by
  intro flush a b ha hb x y
  simp only [f32Cond_eq_rankCond flush _ ha hb, rankCond, decide_eq_true_iff, Bool.not_eq_true', decide_eq_false_iff_not]
  exact ⟨Iff.rfl, Iff.rfl, Iff.rfl, Iff.rfl, Iff.rfl, Iff.rfl, trivial, trivial⟩

/-- An operand and the one that the subnormal rule makes of it are alike to FCMP (R77, R114). -/
theorem rankOf_flush {a a' : W32} (h : a' = a ∨ (a.extractLsb' 23 8 = 0 ∧ a' = a &&& 0x80000000)) :
    f32IsNaN a' = f32IsNaN a ∧ rankOf true a' = rankOf true a := by
  rcases h with rfl | ⟨hexp, rfl⟩
  · exact ⟨rfl, rfl⟩
  · have hexp' : (a &&& 0x80000000).extractLsb' 23 8 = 0 := by
      rw [← and_exponent_eq_zero, BitVec.and_assoc, show (0x80000000 : W32) &&& 0x7F800000 = 0#32 by decide, BitVec.and_zero]; rfl
    have hfinite : ∀ {w : W32}, w.extractLsb' 23 8 = 0 → f32NonFinite w = false := fun h => by
      rw [f32NonFinite, (bitsOf_toNat_eq_zero ..).2 h]; rfl
    have hnumber : ∀ {w : W32}, w.extractLsb' 23 8 = 0 → f32IsNaN w = false := fun h => by
      rw [f32IsNaN, (bitsOf_toNat_eq_zero ..).2 h]; rfl
    have hflushed : ∀ {w : W32}, w.extractLsb' 23 8 = 0 → flushed true w = w &&& 0x80000000 := fun h => by
      rw [flushed_of_zero_exponent h, and_sign]
    refine ⟨by rw [hnumber hexp, hnumber hexp'], ?_⟩
    rw [rankOf, rankOf, hfinite hexp, hfinite hexp', hflushed hexp, hflushed hexp', BitVec.and_assoc, BitVec.and_self,
      if_neg Bool.false_ne_true, if_neg Bool.false_ne_true]

/-- FCMP reads of its operands whether they are NaN, and their ranks. -/
theorem f32Cond_congr {flush : Bool} {c : Nat} {a b a' b' : W32} (ha : f32IsNaN a' = f32IsNaN a ∧ rankOf flush a' = rankOf flush a)
    (hb : f32IsNaN b' = f32IsNaN b ∧ rankOf flush b' = rankOf flush b) : f32Cond flush c a b = f32Cond flush c a' b' := by
  cases hnan : f32IsNaN a || f32IsNaN b with
  | true => rw [f32Cond_nan flush c hnan, f32Cond_nan flush c (by rwa [ha.1, hb.1])]
  | false =>
    obtain ⟨hna, hnb⟩ := Bool.or_eq_false_iff.1 hnan
    rw [f32Cond_eq_rankCond flush c hna hnb, f32Cond_eq_rankCond flush c (ha.1.trans hna) (hb.1.trans hnb), ha.2, hb.2]

/-! ## Integer conditions (R46) -/

theorem and_eq_zero_iff {n : Nat} (a b : BitVec n) : a &&& b = 0 ↔ ∀ i, ¬ (a.getLsbD i = true ∧ b.getLsbD i = true) := by
  have hbit : ∀ i, (a &&& b).getLsbD i = false ↔ ¬ (a.getLsbD i = true ∧ b.getLsbD i = true) := fun i => by
    rw [BitVec.getLsbD_and, ← Bool.not_eq_true, Bool.and_eq_true]
  simp only [← hbit]
  exact ⟨fun h i => by rw [h]; exact BitVec.getLsbD_zero,
    fun h => BitVec.eq_of_getLsbD_eq fun i _ => (h i).trans BitVec.getLsbD_zero.symm⟩

theorem intConditions (n : Nat) : IntConditions n := by
  intro a b
  have heq : (a == b) = true ↔ a.toNat = b.toNat := by rw [beq_iff_eq, BitVec.toNat_eq]
  have hne : (a != b) = true ↔ a.toNat ≠ b.toNat := by rw [bne_iff_ne, ne_eq, BitVec.toNat_eq]
  have hclear : (a &&& b == 0) = true ↔ ∀ i, ¬ (a.getLsbD i = true ∧ b.getLsbD i = true) := by rw [beq_iff_eq, and_eq_zero_iff]
  have hmeet : (a &&& b != 0) = true ↔ ∃ i, a.getLsbD i = true ∧ b.getLsbD i = true := by
    rw [bne_iff_ne, ne_eq, and_eq_zero_iff, not_forall_not]
  exact ⟨heq, hne, BitVec.slt_iff_toInt_lt, BitVec.sle_iff_toInt_le, BitVec.slt_iff_toInt_lt, BitVec.sle_iff_toInt_le,
    BitVec.ult_iff_toNat_lt, BitVec.ule_iff_toNat_le, BitVec.ult_iff_toNat_lt, BitVec.ule_iff_toNat_le, hmeet, hclear⟩

/-! ## The predicates of a compare (R76, R93) -/

theorem pairWrite_eq_compareLane (type : BitVec 2) (g c : Bool) : pairWrite type.toNat g c = compareLane type g c := by
  revert type g c; decide

/-- Settles O5: CMP and FCMP are pure operations, FCMP's conditions are those of the operands' ranks, CMP's those of their numbers. -/
theorem scalarCompares : Obligations.ScalarCompares := by
  unfold Obligations.ScalarCompares
  refine ⟨fun s tt pd0 pd1 pwt cond xa xb => ?_, ⟨fun flush => ?_, fun c a b a' b' ha hb => ?_, fun flush a b h => ?_, floatConditions⟩,
    intConditions 64⟩
  · intro a b
    simp only [← pairWrite_eq_compareLane, ← f32X_eq]
    exact ⟨OpSem.run_pure _ slotS s, OpSem.run_pure _ slotS s⟩
  · cases flush <;> decide
  · exact f32Cond_congr (rankOf_flush ha) (rankOf_flush hb)
  · have hnan := fun c => f32Cond_nan flush c (Bool.or_eq_true _ _ ▸ h)
    simp only [hnan]
    decide

end Sys2Proof.Machine
end

section
/-! Scalar FP32 operations (R78 to R80): FCVT's integers and numbers, and the completion of each operation. -/

namespace Sys2Proof.Machine

/-! ## Rounding to an integer (R80, R109) -/

theorem ediv_eq_of_le_of_lt {U y a : Int} (hU : 0 < U) (hlo : a * U ≤ y) (hhi : y < (a + 1) * U) : y / U = a :=
  le_antisymm (Int.lt_add_one_iff.1 (Int.ediv_lt_of_lt_mul hU hhi)) (Int.le_ediv_of_mul_le hU hlo)

/-- A magnitude with the sign of the other direction, divided downwards, takes the upper neighbour where it is not exact. -/
theorem neg_ediv_eq {U m X : Nat} (hlo : m * U ≤ X) (hhi : X < (m + 1) * U) :
    -(X : Int) / (U : Int) = -((m + b2n (decide (m * U < X)) : Nat) : Int) := by
  have hU : (0 : Int) < U := by
    rcases Nat.eq_zero_or_pos U with rfl | h
    · simp at hhi
    · exact_mod_cast h
  have hlo' : (m : Int) * U ≤ X := by exact_mod_cast hlo
  have hhi' : (X : Int) < m * U + U := by have := hhi; rw [Nat.succ_mul] at this; exact_mod_cast this
  by_cases h : m * U < X
  · have h' : (m : Int) * U < X := by exact_mod_cast h
    rw [decide_eq_true h]
    refine ediv_eq_of_le_of_lt hU ?_ ?_ <;> simp only [b2n] <;> push_cast <;> linarith
  · have h' : (X : Int) ≤ m * U := by exact_mod_cast Nat.le_of_not_lt h
    rw [decide_eq_false h]
    refine ediv_eq_of_le_of_lt hU ?_ ?_ <;> simp only [b2n] <;> push_cast <;> linarith

/-- The nearest whole number, an even one where two are as near. -/
theorem nearest_eq {U m X : Nat} (hlo : m * U ≤ X) (hhi : X < (m + 1) * U) {j : Int}
    (hnear : (2 * (j * U - X)).natAbs ≤ U) (htie : (2 * (j * U - X)).natAbs = U → j % 2 = 0) :
    j = ((m + b2n (takesUpper .rne false (m % 2 == 1) (m * U) ((m + 1) * U) X) : Nat) : Int) := by
  rw [Nat.succ_mul] at hhi ⊢
  have hcast : ((m * U : Nat) : Int) = m * U := Int.natCast_mul ..
  have hbelow : ¬ j ≤ (m : Int) - 1 := fun h => by
    have := Int.mul_le_mul_of_nonneg_right h (Int.natCast_nonneg U)
    rw [Int.sub_mul, ← hcast] at this
    omega
  have habove : ¬ (m : Int) + 2 ≤ j := fun h => by
    have := Int.mul_le_mul_of_nonneg_right h (Int.natCast_nonneg U)
    rw [Int.add_mul, ← hcast] at this
    omega
  obtain rfl | rfl : j = m ∨ j = m + 1 := by omega
  · rw [← hcast] at hnear htie
    have hdown : takesUpper .rne false (m % 2 == 1) (m * U) (m * U + U) X = false := by
      simp only [takesUpper, Bool.or_eq_false_iff, decide_eq_false_iff_not, Bool.and_eq_false_iff, beq_eq_false_iff_ne]
      omega
    rw [hdown]; rfl
  · rw [Int.add_mul, ← hcast] at hnear htie
    have hup : takesUpper .rne false (m % 2 == 1) (m * U) (m * U + U) X = true := by
      simp only [takesUpper, Bool.or_eq_true, decide_eq_true_iff, Bool.and_eq_true, beq_iff_eq]
      omega
    rw [hup]; rfl

/-- A number rounded to an integer is the one of its neighbours that the mode takes. -/
theorem roundsToInt_eq {rm : RM} (hrm : rm ≠ .sr) {neg : Bool} {U m X : Nat} (hU : U = 2 ^ 300) (hlo : m * U ≤ X)
    (hhi : X < (m + 1) * U) {i : Int} (h : RoundsToInt rm (withSign neg X) i) :
    i = withSign neg (m + b2n (takesUpper rm neg (m % 2 == 1) (m * U) ((m + 1) * U) X)) := by
  have hone : (2 : Int) ^ 300 = (U : Int) := by rw [hU, Nat.cast_pow, Nat.cast_ofNat]
  have hdiv : (X : Int) / (U : Int) = m := by rw [← Int.natCast_ediv, Nat.div_eq_of_lt_le hlo hhi]
  have htdiv : (X : Int).tdiv (U : Int) = m := by rw [← hdiv]; exact Int.tdiv_eq_ediv_of_nonneg (Int.natCast_nonneg X)
  have hup := neg_ediv_eq hlo hhi
  unfold RoundsToInt at h
  rw [hone, ← hU] at h
  cases rm with
  | sr => exact absurd rfl hrm
  | rz =>
    cases neg
    · exact h.trans htdiv
    · exact h.trans ((Int.neg_tdiv ..).trans (congrArg Neg.neg htdiv))
  | ru =>
    cases neg
    · exact h.trans ((congrArg Neg.neg hup).trans (neg_neg _))
    · exact h.trans (congrArg Neg.neg ((congrArg (· / (U : Int)) (neg_neg _)).trans hdiv))
  | rd =>
    cases neg
    · exact h.trans hdiv
    · exact h.trans hup
  | rne =>
    obtain ⟨hnear, htie⟩ := h
    cases neg
    · exact nearest_eq hlo hhi hnear htie
    · have hflip : (2 * (-i * U - X)).natAbs = (2 * (i * U - withSign true X)).natAbs := by
        rw [← Int.natAbs_neg]; congr 1; simp only [withSign, if_true]; ring
      have hnear' := nearest_eq hlo hhi (hflip ▸ hnear) (fun h => by have := htie (hflip ▸ h); omega)
      exact neg_eq_iff_eq_neg.1 hnear'

/-- The model rounds to the integer that the mode asks for. -/
theorem roundAt_zero_eq {rm : RM} (hrm : rm ≠ .sr) {d : Dy} (hd : -300 ≤ d.exp) {i : Int} (h : RoundsToInt rm (d.at (-300)) i) :
    (roundAt rm 0 d.toExact 0).neg = d.neg ∧ i = withSign d.neg (roundAt rm 0 d.toExact 0).man := by
  have hU : 2 ^ ((0 : Int) + 300).toNat = 2 ^ 300 := by rw [show ((0 : Int) + 300).toNat = 300 from rfl]
  obtain ⟨m, hlo, hhi, hround⟩ := roundAt_eq hrm 0 hd (show (-300 : Int) ≤ 0 by decide)
  rw [hround]
  exact ⟨rfl, roundsToInt_eq hrm hU hlo hhi (Dy.at_eq_withSign d ▸ h)⟩

/-! ## FCVT to integers (R80) -/

/-- A signed word of 32 bits as an X value. -/
theorem signExtend_unsignedOf {v : Int} (hlo : -2 ^ 31 ≤ v) (hhi : v < 2 ^ 31) :
    (BitVec.ofNat 32 (unsignedOf 32 v)).signExtend 64 = BitVec.ofInt 64 v := by
  have hword : BitVec.ofNat 32 (unsignedOf 32 v) = BitVec.ofInt 32 v := by
    refine BitVec.eq_of_toNat_eq ?_
    rw [BitVec.toNat_ofNat, BitVec.toNat_ofInt, unsignedOf]
    omega
  rw [hword, BitVec.signExtend, BitVec.toInt_ofInt, Int.bmod_eq_of_le (by omega) (by omega)]

theorem encodeExactInt_eq (rm : RM) (draw : Nat) (x : Exact) {i : Int}
    (hi : i = withSign (roundAt rm draw x 0).neg (roundAt rm draw x 0).man) :
    encodeExactInt .int32 rm draw x
      = ⟨unsignedOf 32 (max (-2 ^ 31) (min (2 ^ 31 - 1) i)), decide (i < -2 ^ 31 ∨ 2 ^ 31 - 1 < i)⟩ := by
  have henc : encodeExactInt .int32 rm draw x = if i < -2 ^ 31 then ⟨unsignedOf 32 (-2 ^ 31), true⟩
    else if i > 2 ^ 31 - 1 then ⟨unsignedOf 32 (2 ^ 31 - 1), true⟩ else ⟨unsignedOf 32 i, false⟩ := by subst hi; rfl
  rw [henc]
  split
  next hlt => rw [max_eq_left (by omega), decide_eq_true (.inl hlt)]
  next hge =>
    split
    next hgt => rw [min_eq_left (by omega), max_eq_right (by omega), decide_eq_true (.inr hgt)]
    next hle => rw [min_eq_right (by omega), max_eq_right (by omega), decide_eq_false (by omega)]

theorem f32ToU32_eq (rm : RM) (d : Dy) {i : Int}
    (hi : i = withSign (roundAt rm 0 d.toExact 0).neg (roundAt rm 0 d.toExact 0).man) :
    f32ToU32 rm (.fin d) = ⟨(max 0 (min (2 ^ 32 - 1) i)).toNat, decide (i < 0 ∨ 2 ^ 32 - 1 < i)⟩ := by
  simp only [f32ToU32]
  generalize roundAt rm 0 d.toExact 0 = r at *
  subst hi
  split
  next h0 => rw [h0]; cases r.neg <;> rfl
  next h0 =>
    split
    next hneg =>
      rw [hneg, withSign, if_pos rfl, decide_eq_true (.inl (by omega)), max_eq_left (by omega)]; rfl
    next hneg =>
      rw [Bool.not_eq_true] at hneg
      rw [hneg, withSign, if_neg Bool.false_ne_true, max_eq_right (by omega)]
      split
      next hgt => rw [min_eq_left (by omega), decide_eq_true (.inr (by omega))]; rfl
      next hle => rw [min_eq_right (by omega), decide_eq_false (by omega)]; rfl

/-- An unsigned word of 32 bits as an X value. -/
theorem zeroExtend_toNat {v : Int} (hlo : 0 ≤ v) (hhi : v < 2 ^ 32) :
    (BitVec.ofNat 32 v.toNat).zeroExtend 64 = BitVec.ofInt 64 v := by
  refine BitVec.eq_of_toNat_eq ?_
  rw [BitVec.zeroExtend_eq_setWidth, BitVec.toNat_setWidth, BitVec.toNat_ofNat, BitVec.toNat_ofInt]
  omega

theorem fcvtValue_int32 (flush : Bool) (rm : RM) (a : W32) :
    fcvtValue 0 flush rm a = ((BitVec.ofNat 32 (encodeVal .int32 rm false 0 (f32In flush a)).code).signExtend 64,
      (encodeVal .int32 rm false 0 (f32In flush a)).nf) := rfl

theorem fcvtValue_uint32 (flush : Bool) (rm : RM) (a : W32) :
    fcvtValue 2 flush rm a = ((BitVec.ofNat 32 (f32ToU32 rm (f32In flush a)).code).zeroExtend 64,
      (f32ToU32 rm (f32In flush a)).nf) := rfl

theorem f32In_nan (flush : Bool) {a : W32} (h : f32IsNaN a = true) : f32In flush a = .nan := by
  have hnonFinite : f32NonFinite a = true := (Bool.and_eq_true_iff.1 h).1
  rw [f32In_nonFinite flush hnonFinite, h]; rfl

theorem fcvt_toInt32 (flush : Bool) (rm : RM) {a : W32} (h : f32NonFinite a = false) {i : Int}
    (hi : RoundsToInt rm.noSr (unitsOf .fp32 (flushed flush a).toNat) i) :
    fcvtValue 0 flush rm.noSr a = (BitVec.ofInt 64 (max (-2 ^ 31) (min (2 ^ 31 - 1) i)), decide (i < -2 ^ 31 ∨ 2 ^ 31 - 1 < i)) := by
  obtain ⟨d, hd, hexp, hunits⟩ := f32In_finite flush h
  obtain ⟨hneg, hround⟩ := roundAt_zero_eq (noSr_ne_sr rm) hexp (hunits ▸ hi)
  have henc : encodeVal .int32 rm.noSr false 0 (f32In flush a) = encodeExactInt .int32 rm.noSr 0 d.toExact := by rw [hd]; rfl
  rw [fcvtValue_int32, henc, encodeExactInt_eq rm.noSr 0 d.toExact (hneg ▸ hround), signExtend_unsignedOf (by omega) (by omega)]

theorem fcvt_toUInt32 (flush : Bool) (rm : RM) {a : W32} (h : f32NonFinite a = false) {i : Int}
    (hi : RoundsToInt rm.noSr (unitsOf .fp32 (flushed flush a).toNat) i) :
    fcvtValue 2 flush rm.noSr a = (BitVec.ofInt 64 (max 0 (min (2 ^ 32 - 1) i)), decide (i < 0 ∨ 2 ^ 32 - 1 < i)) := by
  obtain ⟨d, hd, hexp, hunits⟩ := f32In_finite flush h
  obtain ⟨hneg, hround⟩ := roundAt_zero_eq (noSr_ne_sr rm) hexp (hunits ▸ hi)
  rw [fcvtValue_uint32, hd, f32ToU32_eq rm.noSr d (hneg ▸ hround), zeroExtend_toNat (by omega) (by omega)]

/-! ## FCVT of integers (R80) -/

theorem Dy.at_ofInt (i : Int) : (⟨decide (i < 0), i.natAbs, 0⟩ : Dy).at (-300) = i * 2 ^ 300 := by
  rw [Dy.at_eq_withSign, Dy.units, withSign_mul, withSign_natAbs, show ((0 : Int) + 300).toNat = 300 from rfl, Nat.cast_pow,
    Nat.cast_ofNat]

theorem fcvt_ofNumber (flush : Bool) (rm : RM) (i : Int) :
    F32Result flush rm (i * 2 ^ 300) 0 (f32Out flush rm (.fin ⟨decide (i < 0), i.natAbs, 0⟩)) := by
  rw [← Dy.at_ofInt]
  refine f32Out_result flush rm (show (-300 : Int) ≤ 0 by decide) fun hman => ?_
  have h0 : i = 0 := Int.natAbs_eq_zero.1 hman
  subst h0; rfl

theorem decodeCode_int32 (a : W32) : decodeCode .int32 a.toNat = .fin ⟨decide (a.toInt < 0), a.toInt.natAbs, 0⟩ := by
  have hsigned : signed 32 a.toNat = a.toInt := by
    rw [signed, BitVec.toInt_eq_toNat_cond, Nat.mod_eq_of_lt a.isLt]
    split <;> split <;> omega
  rw [← hsigned]; rfl

/-! ## Completion (R78, R79) -/

/-- A scalar FP32 operation completes with its result and the NF of it. -/
theorem fpX_runs {s : State} {tt : TT} (h : s.lane0 tt = true) (lat : Nat) (xd : XReg) (v : W32) :
    (fpX s tt lat xd v).run slotS [] s = .next (fpResult s lat xd v) := by
  obtain ⟨w, hme, -⟩ := s.pushX_me lat xd (v.zeroExtend 64)
  rw [fpX_run h, State.nfScalar, State.fmt, hme]
  rfl

theorem fcvt_runs {s : State} {tt : TT} (h : s.lane0 tt = true) (xd xa : XReg) (cond : BitVec 4) :
    let v := fcvtValue cond.toNat s.flushes (s.rm 0) (f32X (s.me.xr xa))
    Runs (.fcvt tt xd xa cond) s ((s.pushX 3 xd v.1).pushNf 3 v.2 (fmtNfte s.me.csr.fmt) 1 0) := by
  intro v
  obtain ⟨w, hme, -⟩ := s.pushX_me 3 xd v.1
  show (fcvtSem tt xd xa cond s).run slotS [] s = _
  rw [fcvtSem, OpSem.guarded_on h, OpSem.run_pure, State.nfScalar, State.fmt, hme]

/-- Settles O4: FCVT by the value that its operand reads as; each operation completes with its result and the NF of it. -/
theorem scalarFloatResults : Obligations.ScalarFloatResults := by
  unfold Obligations.ScalarFloatResults
  refine ⟨fun flush rm a => ?_, fun s tt xd xa xb cond h => ?_⟩
  · intro x toInt
    have hpos : f32In flush 0x7F800000 = .inf false := f32In_nonFinite flush (by decide)
    have hneg : f32In flush 0xFF800000 = .inf true := f32In_nonFinite flush (by decide)
    refine ⟨⟨fun hnan => ?_, fun ha => ?_, fun ha => ?_, fun h i => fcvt_toInt32 flush rm h⟩,
      ⟨fun hnan => ?_, fun ha => ?_, fun ha => ?_, fun h i => fcvt_toUInt32 flush rm h⟩, ⟨_, rfl, ?_⟩, ⟨_, rfl, ?_⟩⟩
    · rw [fcvtValue_int32, f32In_nan flush hnan]; rfl
    · rw [ha, fcvtValue_int32, hpos]; rfl
    · rw [ha, fcvtValue_int32, hneg]; rfl
    · rw [fcvtValue_uint32, f32In_nan flush hnan]; rfl
    · rw [ha, fcvtValue_uint32, hpos]; rfl
    · rw [ha, fcvtValue_uint32, hneg]; rfl
    · rw [decodeCode_int32]; exact fcvt_ofNumber flush rm a.toInt
    · exact fcvt_ofNumber flush rm a.toNat
  · intro a b d flush rm
    have runs := fun lat v => fpX_runs h lat xd v
    have ha : f32X (s.me.xr xa) = a := f32X_eq _
    have hb : f32X (s.me.xr xb) = b := f32X_eq _
    have hd : f32X (s.me.xr xd) = d := f32X_eq _
    rw [← ha, ← hb, ← hd]
    exact ⟨runs .., runs .., runs .., runs .., runs .., runs .., runs .., runs .., _, _, rfl, fcvt_runs h xd xa cond⟩

end Sys2Proof.Machine
end

section
/-! The predicate writes of the V slots: PLUT, PMOV, the compares and VNFIN (R93, R95, R96, R155). -/

namespace Sys2Proof.Machine

/-- Vector registers inside the windows give no number beyond them (R145). -/
theorem State.badV_eq_nil {s : State} {vs : List VReg} (h : ∀ v ∈ vs, s.me.vregBad v = false) : s.badV vs = [] := by
  rw [State.badV, List.filter_eq_nil_iff.2 fun v hv => by simp [h v hv], List.map_nil]

/-! ## PLUT and PMOV (R95, R96) -/

theorem plut_runs {s : State} {tt : TT} (h : s.lane0 tt = true) (pd pa pb pc : PReg) (table : BitVec 8) :
    Runs (.plut tt pd pa pb pc table) s
      (s.push 2 (.p pd.toNat) (maskAt 0 32) (toVec (plut table (s.pr pa) (s.pr pb) (s.pr pc)))) := by
  show (plutSem tt pd pa pb pc table s).run slotS [] s = _
  rw [plutSem, OpSem.guarded_on h, OpSem.run_pure]

/-- Settles O6: each form is one push, under lane 0's guard in the S slot and in the lanes whose guard holds in a V slot. -/
theorem predicateMoves : Obligations.PredicateMoves := by
  unfold Obligations.PredicateMoves
  intro s vu tt pd pa pb pc table vd va pick lanes
  refine ⟨fun h => plut_runs h pd pa pb pc table, fun h => ⟨?_, fun hva => ?_, fun hvd => ?_⟩⟩
  · show (vPlutSem vu tt pd pa pb pc table s).run (slotV vu) [] s = _
    rw [vPlutSem, if_pos h, OpSem.run_pure]
    rfl
  · show (pmovToPredicateSem vu tt pd va s).run (slotV vu) (s.badV [va]) s = _
    rw [pmovToPredicateSem, if_pos h, State.badV_eq_nil (by simpa using hva), OpSem.run_pure]
  · show (pmovToVectorSem vu tt vd pa s).run (slotV vu) (s.badV [vd]) s = _
    rw [pmovToVectorSem, vecOp, if_pos h, State.badV_eq_nil (by simpa using hvd), OpSem.run_pure]
    rfl

/-! ## NaN and infinite elements (R155) -/

/-- A field of a number, in its place. -/
theorem and_field (w lo len : Nat) : w &&& ((2 ^ len - 1) <<< lo) = bitsOf w lo len <<< lo := by
  refine Nat.eq_of_testBit_eq fun i => ?_
  simp only [Nat.testBit_and, Nat.testBit_shiftLeft, Nat.testBit_two_pow_sub_one, bitsOf, Nat.testBit_mod_two_pow,
    Nat.testBit_div_two_pow]
  by_cases h : lo ≤ i
  · simp [h, Nat.sub_add_cancel h, Bool.and_comm]
  · simp [h]

/-- A word has every bit of a field where the field is all ones. -/
theorem and_mask_beq {n : Nat} (w m : BitVec n) {lo len : Nat} (hm : m.toNat = (2 ^ len - 1) <<< lo) :
    (w &&& m == m) = (bitsOf w.toNat lo len == 2 ^ len - 1) := by
  rw [Bool.eq_iff_iff, beq_iff_eq, beq_iff_eq, BitVec.toNat_eq, BitVec.toNat_and, hm, and_field, Nat.shiftLeft_eq, Nat.shiftLeft_eq]
  exact Nat.mul_left_inj (Nat.two_pow_pos lo).ne'

theorem laneNonFinite_fp32 (w : W32) : laneNonFinite 0 w = (w &&& 0x7F800000 == 0x7F800000) :=
  (and_mask_beq w 0x7F800000 (lo := 23) (len := 8) rfl).symm

theorem laneNonFinite_fp16 (w : W32) :
    laneNonFinite 1 w = (w &&& 0x7C00 == 0x7C00 || w &&& 0x7C000000 == 0x7C000000) := by
  rw [and_mask_beq w 0x7C00 (lo := 10) (len := 5) rfl, and_mask_beq w 0x7C000000 (lo := 26) (len := 5) rfl]
  rfl

theorem laneNonFinite_bf16 {k : Nat} (h0 : k ≠ 0) (h1 : k ≠ 1) (w : W32) :
    laneNonFinite k w = (w &&& 0x7F80 == 0x7F80 || w &&& 0x7F800000 == 0x7F800000) := by
  rw [and_mask_beq w 0x7F80 (lo := 7) (len := 8) rfl, and_mask_beq w 0x7F800000 (lo := 23) (len := 8) rfl, laneNonFinite]
  exacts [rfl, h0, h1]

/-- VNFIN's test by the exponent bits of the lane's elements, for each format. -/
theorem laneNonFinite_eq (fmt : BitVec 4) (w : W32) :
    laneNonFinite fmt.toNat w =
      if fmt = 0 then w &&& 0x7F800000 == 0x7F800000
      else if fmt = 1 then w &&& 0x7C00 == 0x7C00 || w &&& 0x7C000000 == 0x7C000000
      else w &&& 0x7F80 == 0x7F80 || w &&& 0x7F800000 == 0x7F800000 := by
  by_cases h0 : fmt = 0
  · rw [if_pos h0, h0]; exact laneNonFinite_fp32 w
  · by_cases h1 : fmt = 1
    · rw [if_neg h0, if_pos h1, h1]; exact laneNonFinite_fp16 w
    · rw [if_neg h0, if_neg h1]
      exact laneNonFinite_bf16 (fun h => h0 (BitVec.eq_of_toNat_eq h)) (fun h => h1 (BitVec.eq_of_toNat_eq h)) w

/-! ## Compares (R93, R155) -/

theorem State.lanesOn_any (s : State) (tt : TT) (c : Nat → Bool) :
    (s.lanesOn tt).any c = (List.range 32).any (fun i => s.on tt i && c i) := List.any_filter

/-- Settles O14: the compares are pure operations, their lanes the rows of R93; VNFIN's test is that of the exponent bits. -/
theorem vectorCompares : Obligations.VectorCompares := by
  unfold Obligations.VectorCompares
  refine ⟨intConditions 32, floatConditions, fun s vu tt pd0 pd1 pwt cond fmt va vb hva hvb => ?_⟩
  intro a b half c
  have hbad : s.badV [va, vb] = [] := State.badV_eq_nil (by simp [hva, hvb])
  have hc : (fun i => laneNonFinite fmt.toNat (lane a i)) = c := funext fun i => laneNonFinite_eq fmt (lane a i)
  simp only [← pairWrite_eq_compareLane]
  refine ⟨?_, ?_, ?_⟩
  · show (vCmpSem vu tt pd0 pd1 pwt cond va vb s).run (slotV vu) (s.badV [va, vb]) s = _
    rw [hbad, vCmpSem, OpSem.run_pure]
  · show (vFcmpSem vu tt pd0 pd1 pwt cond va vb s).run (slotV vu) (s.badV [va, vb]) s = _
    rw [hbad, vFcmpSem, OpSem.run_pure]
    rfl
  · show (vnfinSem vu tt pd0 pd1 pwt va fmt s).run (slotV vu) (s.badV [va]) s = _
    rw [State.badV_eq_nil (by simpa using hva), vnfinSem, OpSem.run_pure, State.lanesOn_any, ← hc]

end Sys2Proof.Machine
end

section
/-! A slot operation whose guard lets nothing act contributes nothing to its bundle (R97, R98). -/

namespace Sys2Proof.Machine

/-- The slot operations that a failed guard leaves without effect: no compare, which then writes all the same (R93), and no form
of handler mode, a PUTC to a register of handler mode among them (R36, R71). -/
def Suppressible : Instr → Prop
  | .cmp .. | .fcmp .. | .vCmp .. | .vFcmp .. | .vnfin .. => False
  | .hret .. | .snapst .. | .snapld .. | .snaprel .. => False
  | .putc _ csr _ => csrHandlerOnly csr.toNat = false
  | _ => True

/-! ## Modes -/

theorem OpSem.inHandler_eq {only : Bool} (h : only = false) (s : State) (o : OpSem) : OpSem.inHandler s only o = o := by
  simp [OpSem.inHandler, h]

theorem OpSem.outsideHandler_eq {s : State} (h : s.me.st = .bound) (o : OpSem) : OpSem.outsideHandler s o = o := by
  simp [OpSem.outsideHandler, h]

/-! ## Operations that lane 0 decides -/

section
variable {s : State} {tt : TT} (h : s.lane0 tt = false)
include h

theorem aluX_off (lat : Nat) (xd : XReg) (v : W64) : aluX s tt lat xd v = .idle := OpSem.guarded_off h _

theorem fpX_off (lat : Nat) (xd : XReg) (v : W32) : fpX s tt lat xd v = .idle := OpSem.guarded_off h _

theorem transfer_off (a : W64) (link : Option XReg) : transfer s tt a link = .idle := OpSem.guarded_off h _

theorem openLoop_off (count : W32) (eofs : BitVec 16) (rsz : BitVec 5) (prt : Bool) (epi : BitVec 3) :
    openLoop s tt count eofs rsz prt epi = .idle := OpSem.guarded_off h _

theorem lbrkSem_off : lbrkSem tt s = .idle := by
  unfold lbrkSem
  split <;> exact OpSem.guarded_off h _

theorem lidxSem_off (xd : XReg) (level : BitVec 3) : lidxSem tt xd level s = .idle := by
  unfold lidxSem
  split <;> exact OpSem.guarded_off h _

end

/-! ## Operations that each lane decides for itself -/

theorem State.lane0_eq_false {s : State} {tt : TT} (h : s.anyLane tt = false) : s.lane0 tt = false :=
  Bool.eq_false_iff.2 (List.any_eq_false.1 h 0 (by simp))

section
variable {s : State} {tt : TT} (h : s.anyLane tt = false)
include h

theorem vecOp_off (lat : Nat) (vd : VReg) (f : Nat → W32) : vecOp s tt lat vd f = .idle := by simp [vecOp, h]

theorem vecNf_off (vu : VUnit) (lat : Nat) (vd : VReg) (f : Nat → W32 × Bool) : vecNf s vu tt lat vd f = .idle := by simp [vecNf, h]

theorem vecFp_off (vu : VUnit) (lat : Nat) (vd : VReg) (f : Nat → W32) : vecFp s vu tt lat vd f = .idle := vecNf_off h ..

theorem vecCodes_off (vu : VUnit) (lat : Nat) (vd : VReg) (w : Nat) (f : Nat → List (Nat × Enc)) :
    vecCodes s vu tt lat vd w f = .idle := by simp [vecCodes, h]

/-- A divide takes no unit (R147). -/
theorem OpSem.takesDivider_off (o : OpSem) : o.takesDivider s tt = o := by simp [OpSem.takesDivider, h]

/-- The SC word is not checked (R98). -/
theorem OpSem.withScale_off (o : OpSem) (vu : VUnit) (se : Bool) (k : Nat) : o.withScale s vu tt se k = o := by
  simp [OpSem.withScale, h]

/-- VLANE has the guard of its destination lane (R156). -/
theorem vlaneSem_off (vu : VUnit) (vd va : VReg) (i : BitVec 5) : vlaneSem vu tt vd va i s = .idle := by
  have hon : s.on tt i.toNat = false := Bool.eq_false_iff.2 (List.any_eq_false.1 h i.toNat (List.mem_range.2 i.isLt))
  simp [vlaneSem, hon]

theorem vredSem_off (vu : VUnit) (vd va : VReg) (red : BitVec 2) : vredSem vu tt vd va red s = .idle := by
  simp [vredSem, vecOp_off h, vecFp_off h]

end

/-! ## Accesses -/

/-- A post-increment has the guard of lane 0 (R196). -/
theorem postInc_off (am : Bool) (d : Dest) (v : W64) : postInc am false d v = id := by
  funext r; simp [postInc]

theorem State.laPost_off {s : State} {tt : TT} (h : s.lane0 tt = false) (lab : AReg) (am : Bool) (ofs : BitVec 15) :
    s.laPost tt lab am ofs = id := by rw [State.laPost, h, postInc_off]

theorem State.qaPost_off {s : State} {tt : TT} (h : s.lane0 tt = false) (qab : AReg) (am : Bool) (inc : W64) :
    s.qaPost tt qab am inc = id := by rw [State.qaPost, h, postInc_off]

theorem loadSem_off {l : LoadSpec} (h : l.lanes = []) (s : State) : loadSem s l id = .idle := by
  rw [loadSem, h]; rfl

theorem storeSem_off {st : StoreSpec} (h : st.pieces = []) (s : State) : storeSem s st id = .idle := by
  rw [storeSem, State.storeFaults, h]; rfl

theorem quantSem_off {s : State} {tt : TT} (h : s.anyLane tt = false) (q : Quant) (v : Vec) (more : List Piece)
    (whole : List IssueFault) : quantSem s tt q v more whole id = .idle := by
  rw [quantSem, State.lanesOn_eq_nil h]; rfl

/-! ## The forms -/

theorem scalarForm_off {i : Instr} {f : Form} (hi : scalarForm i = some f) (hsup : Suppressible i) {s : State}
    (hst : s.me.st = .bound) (hacts : f.acts s = false) : f.sem s = .idle := by
  revert hsup
  unfold scalarForm at hi
  split at hi <;> simp only [Option.some.injEq, reduceCtorEq] at hi <;> subst hi
  all_goals
    simp only [Form.acts, Bool.false_eq_true, if_false] at hacts
    simp [Suppressible, addSem, subSem, mulSem, mulhSem, mulhuSem, divSem, divuSem, remSem, remuSem, andSem, orSem, xorSem, andnSem,
      shlSem, shrSem, sarSem, rolSem, minSem, maxSem, minuSem, maxuSem, clzSem, ctzSem, popcSem, moviSem, movhSem, sextSem, zextSem,
      faddSem, fsubSem, fmulSem, ffmaSem, fdivSem, fsqrtSem, fminSem, fmaxSem, fcvtSem, brSem, brxSem, callSem, callxSem, retSem,
      loopSem, loopxSem, getcSem, putcSem, fmtsetSem, modeSem, tendSem, trapSem, plutSem, aluX_off hacts, fpX_off hacts,
      transfer_off hacts, openLoop_off hacts, lbrkSem_off hacts, lidxSem_off hacts, OpSem.guarded_off hacts,
      OpSem.outsideHandler_eq hst]
  -- PUTC is left: its register is none of handler mode.
  exact fun hcsr => OpSem.inHandler_eq hcsr s .idle

theorem vectorForm_off {i : Instr} {f : Form} (hi : vectorForm i = some f) (hsup : Suppressible i) {s : State}
    (hacts : f.acts s = false) : f.sem s = .idle := by
  revert hsup
  unfold vectorForm at hi
  split at hi <;> simp only [Option.some.injEq, reduceCtorEq] at hi <;> subst hi
  all_goals
    simp only [Form.acts, if_true] at hacts
    simp [Suppressible, vAddSem, vSubSem, vMulSem, vMulhSem, vMulhuSem, vAndSem, vOrSem, vXorSem, vAndnSem, vShlSem, vShrSem,
      vSarSem, vMinSem, vMaxSem, vMinuSem, vMaxuSem, vClzSem, vPopcSem, vAbsSem, vFaddSem, vFsubSem, vFmulSem, vFfmaSem, vFminSem,
      vFmaxSem, vFabsSem, vFnegSem, vfclassSem, vfdivSem, vfsqrtSem, vfrsqSem, vfrcpSem, vbcastSem, vpermSem, vslideSem, vpackSem,
      vunpkSem, vcvtSem, vdot4Sem, vamaxSem, vexpoSem, vsrndSem, vdithSem, vqencSem, vqdecSem, vPlutSem, pmovToPredicateSem,
      pmovToVectorSem, vecInt2, vecInt1, vecOp_off hacts, vecNf_off hacts, vecFp_off hacts, vecCodes_off hacts,
      OpSem.takesDivider_off hacts, OpSem.withScale_off hacts, vlaneSem_off hacts, vredSem_off hacts, hacts]

theorem loadForm_off {i : Instr} {f : Form} (hi : loadForm i = some f) {s : State} (hacts : f.acts s = false) : f.sem s = .idle := by
  unfold loadForm at hi
  split at hi <;> simp only [Option.some.injEq, reduceCtorEq] at hi <;> subst hi
  all_goals
    simp only [Form.acts, Bool.false_eq_true, if_false, if_true] at hacts
    simp [ldSem, ldvSem, ldsSem, ldgSem, ldcSem, ldcvSem, prefSem, laaddSem, lamovSem, ldSpec, ldvSpec, ldsSpec, ldgSpec, lane0Only,
      stepLanes, loadSem_off, State.laPost_off, State.lane0_eq_false, State.lanesOn_eq_nil, OpSem.guarded_off, hacts]

theorem storeForm_off {i : Instr} {f : Form} (hi : storeForm i = some f) {s : State} (hacts : f.acts s = false) : f.sem s = .idle := by
  unfold storeForm at hi
  split at hi <;> simp only [Option.some.injEq, reduceCtorEq] at hi <;> subst hi
  all_goals
    simp only [Form.acts, Bool.false_eq_true, if_false, if_true] at hacts
    simp [stSem, stvSem, stsSem, scatSem, qstSem, qstbSem, aaddSem, afaddSem, aminSem, amaxSem, aorSem, aandSem, axchgSem, acasSem,
      qaaddSem, contribSem, atomicSem, stSpec, stvSpec, stsSpec, scatSpec, lanePieces, stepLanes, storeSem_off, quantSem_off,
      State.qaPost_off, State.lane0_eq_false, State.lanesOn_eq_nil, OpSem.guarded_off, hacts]

/-- Under a guard that lets nothing act, a form contributes nothing: it faults nowhere, is held by nothing, and has no effect. -/
theorem formOf_off {i : Instr} {f : Form} (hi : formOf i = some f) (hsup : Suppressible i) {s : State} (hst : s.me.st = .bound)
    (hacts : f.acts s = false) : f.sem s = .idle := by
  rcases formOf_cases hi with hi | hi | hi | hi | hi | hi | hi | hi
  · exact scalarForm_off hi hsup hst hacts
  · exact vectorForm_off hi hsup hacts
  · unfold groveForm at hi; split at hi <;> cases hi <;> exact OpSem.guarded_off hacts _
  · exact loadForm_off hi hacts
  · exact storeForm_off hi hacts
  · unfold exchangeForm at hi; split at hi <;> cases hi <;> exact OpSem.guarded_off hacts _
  · unfold copyForm at hi; split at hi <;> cases hi <;> exact OpSem.guarded_off hacts _
  · unfold syncForm at hi; split at hi <;> cases hi <;> exact OpSem.guarded_off hacts _

/-- Settles O51: a suppressed operation contributes nothing, so that its issue leaves the state as it is. -/
theorem suppressedSlots : Obligations.SuppressedSlots := by
  unfold Obligations.SuppressedSlots
  intro i f s hi hacts hbad hst hsup
  have hoff : f.sem s = .idle := formOf_off hi (show Suppressible i from hsup) hst hacts
  rw [Runs, exec_eq_run_form hi, hbad, hoff, OpSem.run_idle]

end Sys2Proof.Machine
end

section
/-! Codes packed into a vector, and the completion of the conversions of the V slots (R97, R139 to R141, R150, R158). -/

namespace Sys2Proof.Machine

/-! ## Digits of a number at chosen positions -/

/-- A digit of width w added at position i, where the number has no bit. -/
theorem testBit_add_digit {w acc i : Nat} (hw : 0 < w) (x b : Nat) (hfree : ∀ b, b / w = i → acc.testBit b = false) :
    (acc + x % 2 ^ w * 2 ^ (w * i)).testBit b = (acc.testBit b || (decide (b / w = i) && x.testBit (b % w))) := by
  have hdigit : acc / 2 ^ (w * i) % 2 ^ w = 0 := by
    refine Nat.eq_of_testBit_eq fun j => ?_
    rw [Nat.testBit_mod_two_pow, Nat.testBit_div_two_pow, Nat.zero_testBit]
    by_cases hj : j < w
    · rw [hfree (j + w * i) (by rw [Nat.add_mul_div_left _ _ hw, Nat.div_eq_of_lt hj, Nat.zero_add]), Bool.and_false]
    · rw [decide_eq_false hj, Bool.false_and]
  have hsplit : acc + x % 2 ^ w * 2 ^ (w * i)
      = 2 ^ (w * i) * (2 ^ w * (acc / 2 ^ (w * i) / 2 ^ w) + x % 2 ^ w) + acc % 2 ^ (w * i) := by
    have hlow := Nat.div_add_mod acc (2 ^ (w * i))
    have hhigh := Nat.div_add_mod (acc / 2 ^ (w * i)) (2 ^ w)
    rw [hdigit, Nat.add_zero] at hhigh
    rw [hhigh, Nat.mul_add, Nat.mul_comm (x % 2 ^ w)]
    omega
  have hpos := Nat.div_add_mod b w
  have hrem := Nat.mod_lt b hw
  rw [hsplit, Nat.testBit_two_pow_mul_add _ (Nat.mod_lt _ (Nat.two_pow_pos _)),
    Nat.testBit_two_pow_mul_add _ (Nat.mod_lt _ (Nat.two_pow_pos _)), Nat.testBit_mod_two_pow, Nat.testBit_mod_two_pow,
    Nat.testBit_div_two_pow, Nat.testBit_div_two_pow]
  rcases Nat.lt_trichotomy (b / w) i with h | rfl | h
  · have hb : b < w * i := Nat.mul_comm .. ▸ (Nat.div_lt_iff_lt_mul hw).1 h
    rw [if_pos hb, decide_eq_true hb, decide_eq_false h.ne, Bool.true_and, Bool.false_and, Bool.or_false]
  · rw [if_neg (by omega), show b - w * (b / w) = b % w by omega, if_pos hrem, decide_eq_true hrem, hfree b rfl, decide_eq_true rfl,
      Bool.false_or]
  · have hb : w * (i + 1) ≤ b := Nat.mul_comm .. ▸ (Nat.le_div_iff_mul_le hw).1 h
    rw [Nat.mul_succ] at hb
    rw [if_neg (by omega), if_neg (by omega), decide_eq_false h.ne', Bool.false_and, Bool.or_false]
    congr 1; omega

/-- The number whose digit of width w at position c.1 is c.2, for each c of a list. -/
def digitsFrom (w acc : Nat) (cs : List (Nat × Nat)) : Nat := cs.foldl (fun acc c => acc + c.2 % 2 ^ w * 2 ^ (w * c.1)) acc

theorem testBit_digitsFrom {w : Nat} (hw : 0 < w) (b : Nat) {cs : List (Nat × Nat)} (hnodup : (cs.map Prod.fst).Nodup) :
    ∀ acc : Nat, (∀ c ∈ cs, ∀ b, b / w = c.1 → acc.testBit b = false) →
      ((digitsFrom w acc cs).testBit b = true ↔ acc.testBit b = true ∨ ∃ c ∈ cs, b / w = c.1 ∧ c.2.testBit (b % w) = true) := by
  induction cs with
  | nil => simp [digitsFrom]
  | cons c cs ih =>
    intro acc hacc
    rw [List.map_cons, List.nodup_cons] at hnodup
    obtain ⟨hc, hcs⟩ := List.forall_mem_cons.1 hacc
    have hbit := fun b => testBit_add_digit hw c.2 b hc
    have hother : ∀ c' ∈ cs, ∀ b, b / w = c'.1 → (acc + c.2 % 2 ^ w * 2 ^ (w * c.1)).testBit b = false := fun c' hc' b hb => by
      have hne : ¬ b / w = c.1 := fun h => hnodup.1 (List.mem_map.2 ⟨c', hc', hb ▸ h⟩)
      rw [hbit, hcs c' hc' b hb, decide_eq_false hne, Bool.false_and, Bool.or_false]
    have hstep : digitsFrom w acc (c :: cs) = digitsFrom w (acc + c.2 % 2 ^ w * 2 ^ (w * c.1)) cs := rfl
    rw [hstep, ih hnodup.2 _ hother, hbit]
    simp only [Bool.or_eq_true, Bool.and_eq_true, decide_eq_true_iff, List.mem_cons, exists_eq_or_imp, or_assoc]

theorem codesVec_eq (w : Nat) (cs : List (Nat × Nat)) : codesVec w cs = BitVec.ofNat 1024 (digitsFrom w 0 cs) := rfl

theorem codesMask_eq (w : Nat) (ps : List Nat) :
    codesMask w ps = BitVec.ofNat 1024 (digitsFrom w 0 (ps.map (fun p => (p, 2 ^ w - 1)))) := by
  have hones : (2 ^ w - 1) % 2 ^ w = 2 ^ w - 1 := Nat.mod_eq_of_lt (Nat.sub_lt (Nat.two_pow_pos w) Nat.one_pos)
  simp only [codesMask, digitsFrom, List.foldl_map, hones]

/-! ## Packed codes (R140) -/

/-- The mask of a list of positions has the bits of these positions. -/
theorem getLsbD_codesMask {w : Nat} (hw : 0 < w) {ps : List Nat} (hnodup : ps.Nodup) {b : Nat} (hb : b < 1024) :
    (codesMask w ps).getLsbD b = true ↔ b / w ∈ ps := by
  have hpositions : ((ps.map (fun p => (p, 2 ^ w - 1))).map Prod.fst).Nodup := by
    simpa [List.map_map, Function.comp_def] using hnodup
  have hrem : b % w < w := Nat.mod_lt b hw
  rw [codesMask_eq, BitVec.getLsbD_ofNat, decide_eq_true hb, Bool.true_and,
    testBit_digitsFrom hw b hpositions 0 (fun _ _ b _ => Nat.zero_testBit b)]
  simp [Nat.testBit_two_pow_sub_one, hrem]

/-- The code at a position of a list of codes. -/
theorem codeAt_codesVec {w : Nat} (hw : 0 < w) {cs : List (Nat × Nat)} (hnodup : (cs.map Prod.fst).Nodup) {c : Nat × Nat} (hc : c ∈ cs)
    (hend : w * (c.1 + 1) ≤ 1024) : codeAt (codesVec w cs) w c.1 = c.2 % 2 ^ w := by
  rw [codeAt, bitsOf, codesVec_eq]
  refine Nat.eq_of_testBit_eq fun j => ?_
  rw [Nat.testBit_mod_two_pow, Nat.testBit_mod_two_pow, Nat.testBit_div_two_pow, BitVec.testBit_toNat, BitVec.getLsbD_ofNat]
  by_cases hj : j < w
  · rw [Nat.mul_succ] at hend
    have hdiv : (j + w * c.1) / w = c.1 := by rw [Nat.add_mul_div_left _ _ hw, Nat.div_eq_of_lt hj, Nat.zero_add]
    have hmod : (j + w * c.1) % w = j := by rw [Nat.add_mul_mod_self_left, Nat.mod_eq_of_lt hj]
    have hin : j + w * c.1 < 1024 := by omega
    rw [decide_eq_true hj, Bool.true_and, decide_eq_true hin, Bool.true_and, Bool.true_and, Bool.eq_iff_iff,
      testBit_digitsFrom hw _ hnodup 0 (fun _ _ b _ => Nat.zero_testBit b), hdiv, hmod, Nat.zero_testBit]
    constructor
    · rintro (h | ⟨c', hc', hpos, hbit⟩)
      · exact absurd h Bool.false_ne_true
      · rwa [List.inj_on_of_nodup_map hnodup hc hc' hpos]
    · exact fun h => .inr ⟨c, hc, rfl, h⟩
  · rw [decide_eq_false hj, Bool.false_and, Bool.false_and]

theorem Fmt.bits_pos (f : Fmt) : 0 < f.bits := by cases f <;> decide

theorem State.mem_lanesOn {s : State} {tt : TT} {l : Nat} (h : l ∈ s.lanesOn tt) : l < 32 := List.mem_range.1 (List.mem_filter.1 h).1

/-- A write of packed codes: one operation whose positions differ from lane to lane. -/
theorem packedResult {s : State} {vu : VUnit} {tt : TT} {vd : VReg} {w : Nat} {f : Nat → List (Nat × Enc)} {i : Instr} (hw : 0 < w)
    (hrun : Runs i s ((s.push 3 (s.me.vreg vd) (codesMask w (((s.lanesOn tt).flatMap f).map (·.1)))
        (codesVec w (((s.lanesOn tt).flatMap f).map (fun c => (c.1, c.2.code))))).nfLanes 3 (slotV vu) (s.lanesOn tt)
      (fun l => (f l).any (fun c => c.2.nf)) (fmtNfte s.me.csr.fmt)))
    (hnodup : (((s.lanesOn tt).flatMap f).map (·.1)).Nodup)
    (hend : ∀ l ∈ s.lanesOn tt, ∀ c ∈ f l, w * (c.1 + 1) ≤ 1024) : PackedResult s vu tt vd w f i := by
  refine ⟨_, _, hrun, fun b hb => ?_, fun l hl c hc => ?_⟩
  · rw [getLsbD_codesMask hw hnodup hb]
    have hdigit : ∀ p, b / w = p ↔ w * p ≤ b ∧ b < w * (p + 1) := fun p => by
      rw [Nat.div_eq_iff hw, Nat.mul_succ, Nat.mul_comm]; omega
    simp only [List.mem_map, List.mem_flatMap, ← hdigit, eq_comm (a := b / w)]
    constructor
    · rintro ⟨c, ⟨l, hl, hc⟩, h⟩; exact ⟨l, hl, c, hc, h⟩
    · rintro ⟨l, hl, c, hc, h⟩; exact ⟨c, ⟨l, hl, hc⟩, h⟩
  · have hmem : (c.1, c.2.code) ∈ ((s.lanesOn tt).flatMap f).map (fun c => (c.1, c.2.code)) :=
      List.mem_map.2 ⟨c, List.mem_flatMap.2 ⟨l, hl, hc⟩, rfl⟩
    have hpositions : ((((s.lanesOn tt).flatMap f).map (fun c => (c.1, c.2.code))).map Prod.fst).Nodup := by
      rwa [List.map_map]
    exact codeAt_codesVec hw hpositions hmem (hend l hl c hc)

/-! ## Completion (R139, R150) -/

section

variable {s : State} {tt : TT} (h : s.anyLane tt = true)

include h

theorem vecNf_run (vu : VUnit) (lat : Nat) (vd : VReg) (f : Nat → W32 × Bool) (slot : Nat) :
    (vecNf s vu tt lat vd f).run slot [] s = .next (vectorNf s vu tt lat vd f) := by
  rw [vecNf, if_pos h, OpSem.run_pure]; rfl

theorem vecOp_run (lat : Nat) (vd : VReg) (f : Nat → W32) (slot : Nat) :
    (vecOp s tt lat vd f).run slot [] s = .next (s.push lat (s.me.vreg vd) (s.guardMask tt) (vecOf f)) := by
  rw [vecOp, if_pos h, OpSem.run_pure]

theorem vecCodes_run (vu : VUnit) (vd : VReg) (w : Nat) (f : Nat → List (Nat × Enc)) (slot : Nat) :
    (vecCodes s vu tt 3 vd w f).run slot [] s = .next ((s.push 3 (s.me.vreg vd) (codesMask w (((s.lanesOn tt).flatMap f).map (·.1)))
        (codesVec w (((s.lanesOn tt).flatMap f).map (fun c => (c.1, c.2.code))))).nfLanes 3 (slotV vu) (s.lanesOn tt)
      (fun l => (f l).any (fun c => c.2.nf)) (fmtNfte s.me.csr.fmt)) := by
  rw [vecCodes, if_pos h, OpSem.run_pure]; rfl

end

/-- A usable SC word raises nothing. -/
theorem OpSem.withScale_ok {s : State} {se : Bool} {k : Nat} (h : s.scaleOk se k = true) (o : OpSem) (vu : VUnit) (tt : TT) :
    o.withScale s vu tt se k = o := by
  rw [OpSem.withScale, h, Bool.not_true, Bool.and_false, if_neg Bool.false_ne_true]

theorem State.lanesOn_nodup (s : State) (tt : TT) : (s.lanesOn tt).Nodup := List.nodup_range.filter _

/-- VPACK and VQENC: the codes of a lane, at its own positions. -/
theorem packings (s : State) (vu : VUnit) (tt : TT) (vd va vb : VReg) (fmt : BitVec 4) (frame : BitVec 3) (sc : BitVec 4) (se : Bool)
    (h : s.anyLane tt = true) (hvd : s.me.vregBad vd = false) (hva : s.me.vregBad va = false) (hvb : s.me.vregBad vb = false)
    (hfmt : fmt.toNat ≤ 7) :
    (1 ≤ fmt.toNat → PackedResult s vu tt vd (fmt4 fmt).bits
        (fun i => [(i, packLane s.flushes (fmtSat s.fmt) (s.rm 0) (fmt4 fmt) (lane (s.vec va) i)),
          (32 + i, packLane s.flushes (fmtSat s.fmt) (s.rm 0) (fmt4 fmt) (lane (s.vec vb) i))]) (.vpack vu tt vd va vb fmt))
      ∧ (s.scaleOk se sc.toNat = true → PackedResult s vu tt vd (fmt4 fmt).bits
        (fun i => [(i, vqencLane s.flushes (fmtSat s.fmt) (s.rm 0) (s.frame frame.toNat) (fmtDen s.fmt) (fmt4 fmt) (s.scale se sc.toNat) i
          (lane (s.vec va) i))]) (.vqenc vu tt vd va frame sc se fmt)) := by
  have hbits : (fmt4 fmt).bits ≤ 32 ∧ (1 ≤ fmt.toNat → (fmt4 fmt).bits ≤ 16) := by revert fmt; decide
  refine ⟨fun h1 => packedResult (Fmt.bits_pos _) ?_ ?_ fun l hl c hc => ?_,
    fun hsc => packedResult (Fmt.bits_pos _) ?_ ?_ fun l hl c hc => ?_⟩
  · show (vpackSem vu tt vd va vb fmt s).run (slotV vu) (s.badV [vd, va, vb]) s = _
    rw [State.badV_eq_nil (by simp [hvd, hva, hvb]), vpackSem, vecCodes_run h]
  · rw [List.map_flatMap, List.nodup_flatMap]
    refine ⟨fun l _ => by simp, (State.lanesOn_nodup s tt).imp_of_mem fun ha hb hne => ?_⟩
    have := State.mem_lanesOn ha
    have := State.mem_lanesOn hb
    simp [Function.onFun, List.Disjoint]
    omega
  · have hl' := State.mem_lanesOn hl
    have hc' : c.1 < 64 := by
      simp only [List.mem_cons, List.not_mem_nil, or_false] at hc
      rcases hc with rfl | rfl <;> simp only <;> omega
    calc (fmt4 fmt).bits * (c.1 + 1) ≤ 16 * 64 := Nat.mul_le_mul (hbits.2 h1) hc'
      _ = 1024 := rfl
  · show (vqencSem vu tt vd va frame sc se fmt s).run (slotV vu) (s.badV [vd, va]) s = _
    rw [State.badV_eq_nil (by simp [hvd, hva]), vqencSem, OpSem.withScale_ok hsc, vecCodes_run h]
  · simpa [List.map_flatMap, List.flatMap_singleton'] using State.lanesOn_nodup s tt
  · have hl' := State.mem_lanesOn hl
    obtain rfl := List.mem_singleton.1 hc
    calc (fmt4 fmt).bits * (l + 1) ≤ 32 * 32 := Nat.mul_le_mul hbits.1 hl'
      _ = 1024 := rfl

theorem State.rm_eq (s : State) (rm : BitVec 3) :
    s.rm rm.toNat = if rm = 0 then (fmtRm s.me.csr.fmt).noSr else (rmOfCode rm.toNat).noSr := by
  have hzero : rm.toNat = 0 ↔ rm = 0 := by rw [BitVec.toNat_eq]; rfl
  rw [State.rm]
  simp only [hzero]
  rfl

end Sys2Proof.Machine
end

section
/-! What the codes of a number format stand for (R101 to R103), and what a code reads as where subnormals flush (R114). -/

namespace Sys2Proof.Machine

/-! ## The formats of numbers -/

/-- A format of numbers: an integer or a floating-point one (R101, R103). -/
def Fmt.Number (f : Fmt) : Prop := f.isInt = true ∨ ∃ fs, f.float? = some fs

theorem fmt4_number {fmt : BitVec 4} (h : fmt.toNat ≤ 7 ∨ fmt = 10) : (fmt4 fmt).Number := by
  have hall : ∀ fmt : BitVec 4, fmt.toNat ≤ 7 ∨ fmt = 10 → (fmt4 fmt).isInt = true ∨ (fmt4 fmt).float?.isSome = true := by decide
  exact (hall fmt h).imp_right Option.isSome_iff_exists.1

theorem Fmt.isInt_iff (f : Fmt) : f.isInt = true ↔ f = .int8 ∨ f = .int4 ∨ f = .int32 := by cases f <;> decide

theorem Fmt.isWide_iff (f : Fmt) : f.isWide = true ↔ f = .fp32 ∨ f = .fp16 ∨ f = .bf16 := by cases f <;> decide

theorem Fmt.float_of_isInt {f : Fmt} (h : f.isInt = true) : f.float? = none := by
  obtain rfl | rfl | rfl := f.isInt_iff.1 h <;> rfl

theorem Fmt.hasInf_of_isInt {f : Fmt} (h : f.isInt = true) : f.hasInf = false := by
  obtain rfl | rfl | rfl := f.isInt_iff.1 h <;> rfl

theorem Fmt.isWide_of_isInt {f : Fmt} (h : f.isInt = true) : f.isWide = false := by
  obtain rfl | rfl | rfl := f.isInt_iff.1 h <;> rfl

theorem Fmt.hasInf_of_isWide {f : Fmt} (h : f.isWide = true) : f.hasInf = true := by
  obtain rfl | rfl | rfl := f.isWide_iff.1 h <;> rfl

/-- The largest integer of a format. -/
theorem Fmt.maxCode_int {f : Fmt} (h : f.isInt = true) : ((2 ^ (f.bits - 1) : Nat) : Int) = f.maxCode + 1 := by
  obtain rfl | rfl | rfl := f.isInt_iff.1 h <;> rfl

/-- The wide formats have the fraction widths that the subnormal rule names (R114). -/
theorem Fmt.float_of_isWide {f : Fmt} (h : f.isWide = true) :
    ∃ fs, f.float? = some fs ∧ (if f = .fp32 then 23 else if f = .fp16 then 10 else 7) = fs.fbits := by
  obtain rfl | rfl | rfl := f.isWide_iff.1 h <;> exact ⟨_, rfl, rfl⟩

/-- The codes past the largest finite one begin with infinity (R101). -/
theorem Fmt.infCode_eq {f : Fmt} {fs : FloatSpec} (hf : f.float? = some fs) (h : f.hasInf = true) :
    f.infCode = f.maxCode + 1 ∧ f.infCode = (2 ^ fs.ebits - 1) * 2 ^ fs.fbits := by
  revert h; cases f <;> cases hf <;> decide

/-- Of the floating-point formats without infinities E4M3 alone has a code that is no number (R101). -/
theorem Fmt.maxCode_of_noInf {f : Fmt} {fs : FloatSpec} (hf : f.float? = some fs) (h : f.hasInf = false) :
    f = .e4m3 ∨ f.maxCode + 1 = 2 ^ (fs.ebits + fs.fbits) := by
  revert h; cases f <;> cases hf <;> decide

/-! ## Subnormals (R114) -/

theorem b2n_testBit (c i : Nat) : b2n (c.testBit i) = c / 2 ^ i % 2 := by rw [← bitAt_eq_testBit, b2n_bitAt]

/-- The top bit of a code is what its magnitude leaves. -/
theorem div_top_bit {c n : Nat} (hc : c < 2 ^ (n + 1)) : c / 2 ^ n = b2n (c.testBit n) := by
  have hq : c / 2 ^ n < 2 := Nat.div_lt_of_lt_mul (by rwa [← Nat.pow_succ])
  rw [b2n_testBit, Nat.mod_eq_of_lt hq]

theorem wideFlush_of_not_wide {f : Fmt} (h : f.isWide = false) (flush : Bool) (c : Nat) : wideFlush f flush c = c := by
  have hcond : (f == .fp32 || f == .fp16 || f == .bf16) = false := h
  simp only [wideFlush, hcond, Bool.and_false, Bool.false_and, Bool.false_eq_true, if_false]

/-- What the rule of R114 makes of a code, by its exponent field. -/
theorem wideFlush_of_wide {f : Fmt} (h : f.isWide = true) {fs : FloatSpec} (hf : f.float? = some fs) (flush : Bool) {c : Nat}
    (hc : c < 2 ^ f.bits) : wideFlush f flush c = if flush = true ∧ c % 2 ^ (fs.ebits + fs.fbits) < 2 ^ fs.fbits
      then signedCode fs (c.testBit (fs.ebits + fs.fbits)) 0 else c := by
  obtain ⟨fs', hf', hfw⟩ := Fmt.float_of_isWide h
  obtain rfl : fs' = fs := Option.some.inj (hf'.symm.trans hf)
  have hcond : (f == .fp32 || f == .fp16 || f == .bf16) = true := h
  have hbits := Fmt.bits_of_float hf
  rw [hbits] at hc
  simp only [wideFlush, hcond, hfw, hbits, Nat.add_sub_cancel, Bool.and_true, Bool.and_eq_true, decide_eq_true_iff, div_top_bit hc,
    signedCode, Nat.add_zero]

/-- The model's subnormal rule is that of R114. -/
theorem flushCode_eq_wideFlush {f : Fmt} (h : f.isWide = true) (flush : Bool) {c : Nat} (hc : c < 2 ^ f.bits) :
    flushCode f flush c = wideFlush f flush c := by
  obtain ⟨fs, hf, -⟩ := Fmt.float_of_isWide h
  have hcode : flushCode f flush c = if flush && isSubnormal fs c then signedCode fs (c.testBit (fs.ebits + fs.fbits)) 0 else c := by
    simp only [flushCode, hf, bitAt_eq_testBit, signedCode, Nat.add_zero]
  have hexp : bitsOf c fs.fbits fs.ebits = 0 ↔ c % 2 ^ (fs.ebits + fs.fbits) < 2 ^ fs.fbits := by
    rw [bitsOf_exponent, Nat.div_eq_zero_iff_lt (Nat.two_pow_pos _)]
  rw [hcode, wideFlush_of_wide h hf flush hc]
  by_cases hlow : flush = true ∧ c % 2 ^ (fs.ebits + fs.fbits) < 2 ^ fs.fbits
  · rw [if_pos hlow]
    obtain ⟨rfl, hlt⟩ := hlow
    by_cases hfrac : bitsOf c 0 fs.fbits = 0
    · rw [bitsOf_fraction, Nat.mod_eq_of_lt hlt] at hfrac
      rw [Fmt.bits_of_float hf] at hc
      have hsplit := Nat.div_add_mod' c (2 ^ (fs.ebits + fs.fbits))
      rw [hfrac, div_top_bit hc] at hsplit
      rw [signedCode, hsplit, ite_self]
    · rw [if_pos (by simpa [isSubnormal, hexp.2 hlt] using hfrac)]
  · rw [if_neg hlow, if_neg fun hs => hlow ?_]
    simp only [isSubnormal, Bool.and_eq_true, beq_iff_eq] at hs
    exact ⟨hs.1, hexp.1 hs.2.1⟩

theorem wideFlush_lt {f : Fmt} (flush : Bool) {c : Nat} (hc : c < 2 ^ f.bits) : wideFlush f flush c < 2 ^ f.bits := by
  cases hw : f.isWide with
  | false => rwa [wideFlush_of_not_wide hw]
  | true =>
    obtain ⟨fs, hf, -⟩ := Fmt.float_of_isWide hw
    rw [wideFlush_of_wide hw hf flush hc]
    split
    · rw [Fmt.bits_of_float hf]; exact signedCode_lt (Nat.two_pow_pos _) _
    · exact hc

/-- The subnormal rule keeps the sign of a code. -/
theorem wideFlush_sign {f : Fmt} (flush : Bool) {c : Nat} (hc : c < 2 ^ f.bits) :
    (wideFlush f flush c).testBit (f.bits - 1) = c.testBit (f.bits - 1) := by
  cases hw : f.isWide with
  | false => rw [wideFlush_of_not_wide hw]
  | true =>
    obtain ⟨fs, hf, -⟩ := Fmt.float_of_isWide hw
    rw [wideFlush_of_wide hw hf flush hc, Fmt.bits_of_float hf, Nat.add_sub_cancel]
    split
    · exact signedCode_testBit (Nat.two_pow_pos _) _
    · rfl

/-- A code that is no number is no subnormal. -/
theorem wideFlush_of_not_finite {f : Fmt} (flush : Bool) {c : Nat} (hc : c < 2 ^ f.bits) (hfin : ¬ FiniteCode f c) :
    wideFlush f flush c = c := by
  cases hw : f.isWide with
  | false => exact wideFlush_of_not_wide hw flush c
  | true =>
    obtain ⟨fs, hf, -⟩ := Fmt.float_of_isWide hw
    have hmax : 2 ^ fs.fbits ≤ f.maxCode := by revert hw; cases f <;> cases hf <;> decide
    rw [wideFlush_of_wide hw hf flush hc, if_neg]
    rintro ⟨-, hlt⟩
    rw [finiteCode_float hf, ← Fmt.bits_of_float hf] at hfin
    exact hfin ⟨hc, by omega⟩

theorem finiteCode_wideFlush {f : Fmt} (flush : Bool) {c : Nat} (hfin : FiniteCode f c) : FiniteCode f (wideFlush f flush c) := by
  cases hw : f.isWide with
  | false => rwa [wideFlush_of_not_wide hw]
  | true =>
    obtain ⟨fs, hf, -⟩ := Fmt.float_of_isWide hw
    rw [wideFlush_of_wide hw hf flush hfin.1]
    split
    · exact finiteCode_signedCode hf (Nat.zero_le _) _
    · exact hfin

/-! ## What a code decodes to -/

theorem decodeCode_float {f : Fmt} {fs : FloatSpec} (hf : f.float? = some fs) {c : Nat} (hc : c < 2 ^ f.bits) :
    decodeCode f c = decodeFloat f fs c := by
  simp only [decodeCode, hf, Nat.mod_eq_of_lt hc]

theorem decodeCode_int {f : Fmt} (h : f.isInt = true) (c : Nat) :
    decodeCode f c = .fin ⟨decide ((BitVec.ofNat f.bits c).toInt < 0), (BitVec.ofNat f.bits c).toInt.natAbs, 0⟩ := by
  rw [← signed_eq_toInt (Fmt.bits_pos f)]
  obtain rfl | rfl | rfl := f.isInt_iff.1 h <;> rfl

theorem unitsOf_int {f : Fmt} (h : f.isInt = true) (c : Nat) : unitsOf f c = (BitVec.ofNat f.bits c).toInt * 2 ^ 300 := by
  simp only [unitsOf, Fmt.float_of_isInt h]

/-- A dyadic number that a code reads as: its number in units of 2^-300 and its sign, no finer than FP32's least number. -/
structure Dy.Reads (d : Dy) (x : Int) (neg : Bool) : Prop where
  exp_ge : -149 ≤ d.exp
  units : d.at (-300) = x
  sign : d.neg = neg

theorem Dy.Reads.exp {d : Dy} {x : Int} {neg : Bool} (h : d.Reads x neg) : -300 ≤ d.exp := le_trans (by decide) h.exp_ge

theorem Fmt.ulpAt_ge' {f : Fmt} {fs : FloatSpec} (hf : f.float? = some fs) (k : Nat) : -149 ≤ ulpAt fs k := by
  have : fs.bias + fs.fbits ≤ 150 := by cases f <;> cases hf <;> decide
  unfold ulpAt; omega

/-- A finite code reads as its number. -/
theorem decodeCode_finite {f : Fmt} (hn : f.Number) {c : Nat} (hc : FiniteCode f c) :
    ∃ d : Dy, decodeCode f c = .fin d ∧ d.Reads (unitsOf f c) (c.testBit (f.bits - 1)) := by
  rcases hn with hint | ⟨fs, hf⟩
  · have hmsb : (BitVec.ofNat f.bits c).msb = c.testBit (f.bits - 1) := by
      have := Fmt.bits_pos f
      rw [BitVec.msb_eq_getLsbD_last, BitVec.getLsbD_ofNat, decide_eq_true (by omega), Bool.true_and]
    refine ⟨_, decodeCode_int hint c, show (-149 : Int) ≤ 0 by decide, ?_, ?_⟩
    · rw [Dy.at_ofInt, unitsOf_int hint]
    · rw [← hmsb, BitVec.msb_eq_toInt]
  · rw [finiteCode_float hf, ← Fmt.bits_of_float hf] at hc
    obtain ⟨d, hd, -, hunits⟩ := decodeFloat_finite hf hc.2
    rw [decodeCode_float hf hc.1]
    refine ⟨d, hd, ?_, hunits, ?_⟩ <;> rw [decodeFloat_of_le hf hc.2, Val.fin.injEq] at hd
    · rw [← hd]; split <;> exact Fmt.ulpAt_ge' hf _
    · rw [← hd, Fmt.bits_of_float hf, Nat.add_sub_cancel, ← bitAt_eq_testBit]; split <;> rfl

/-- A code that is no number reads as an infinity of its sign or as NaN (R102). -/
theorem decodeCode_not_finite {f : Fmt} (hn : f.Number) {c : Nat} (hc : c < 2 ^ f.bits) (hfin : ¬ FiniteCode f c) :
    decodeCode f c = if f.hasInf = true ∧ c % 2 ^ (f.bits - 1) = f.infCode then .inf (c.testBit (f.bits - 1)) else .nan := by
  obtain ⟨fs, hf⟩ : ∃ fs, f.float? = some fs := hn.resolve_left fun hint => hfin ⟨hc, .inl hint⟩
  have hmag : f.maxCode < c % 2 ^ (fs.ebits + fs.fbits) := by
    rw [finiteCode_float hf, ← Fmt.bits_of_float hf] at hfin
    exact Nat.lt_of_not_le fun h => hfin ⟨hc, h⟩
  have hlt := Nat.mod_lt c (Nat.two_pow_pos (fs.ebits + fs.fbits))
  rw [decodeCode_float hf hc, Fmt.bits_of_float hf, Nat.add_sub_cancel]
  unfold decodeFloat
  rw [bitsOf_exponent, bitsOf_fraction, bitAt_eq_testBit]
  generalize c % 2 ^ (fs.ebits + fs.fbits) = r at *
  cases hinf : f.hasInf with
  | true =>
    obtain ⟨hmax, hexp⟩ := Fmt.infCode_eq hf hinf
    have hpos := Nat.two_pow_pos fs.fbits
    have hone : 2 ≤ 2 ^ fs.ebits := by cases f <;> cases hf <;> decide
    have hdiv : r / 2 ^ fs.fbits = 2 ^ fs.ebits - 1 := by
      rw [Nat.pow_add] at hlt
      exact Nat.div_eq_of_lt_le (by omega) (by rwa [Nat.sub_add_cancel (by omega)])
    have hfrac : r % 2 ^ fs.fbits = 0 ↔ r = f.infCode := by
      have := Nat.div_add_mod' r (2 ^ fs.fbits)
      rw [hdiv, ← hexp] at this
      omega
    simp only [hdiv, hfrac, true_and, if_neg (show ¬ 2 ^ fs.ebits - 1 = 0 by omega), lt_irrefl, if_true, if_false]
  | false =>
    obtain rfl | hmax := Fmt.maxCode_of_noInf hf hinf
    · cases hf
      obtain rfl : r = 127 := by simp only [Fmt.maxCode] at hmag; simp only at hlt; omega
      rfl
    · omega

section

variable {f : Fmt} (hn : f.isInt = true ∨ f.isWide = true)

include hn

theorem Fmt.number_of_flushes : f.Number :=
  hn.imp_right fun hw => (Fmt.float_of_isWide hw).imp fun _ h => h.1

/-- A finite code of a wide format or an integer reads as the number of its code after the subnormal rule. -/
theorem decodeFlush_finite (flush : Bool) {c : Nat} (hc : FiniteCode f c) :
    ∃ d : Dy, decodeFlush f flush c = .fin d ∧ d.Reads (unitsOf f (wideFlush f flush c)) (c.testBit (f.bits - 1)) := by
  have hread := decodeCode_finite (Fmt.number_of_flushes hn) hc
  rcases hn with hint | hw
  · have hdec : decodeFlush f flush c = decodeCode f c := by simp only [decodeFlush, Fmt.float_of_isInt hint]
    rwa [hdec, wideFlush_of_not_wide (Fmt.isWide_of_isInt hint)]
  · obtain ⟨fs, hf, -⟩ := Fmt.float_of_isWide hw
    have htop : f.bits - 1 = fs.ebits + fs.fbits := by rw [Fmt.bits_of_float hf, Nat.add_sub_cancel]
    rw [decodeCode_float hf hc.1] at hread
    simp only [decodeFlush, ← flushCode_eq_wideFlush hw flush hc.1, flushCode, hf, Nat.mod_eq_of_lt hc.1]
    cases flush && isSubnormal fs c with
    | false => exact hread
    | true =>
      refine ⟨_, rfl, show (-149 : Int) ≤ 0 by decide, ?_, by rw [htop, bitAt_eq_testBit]⟩
      have hzero := unitsOf_signedCode hf (Nat.two_pow_pos _) (bitAt c (fs.ebits + fs.fbits))
      rw [codeUnits_zero, withSign_zero, signedCode, Nat.add_zero] at hzero
      rw [Dy.at_of_man rfl]
      exact hzero.symm

/-- A code that is no number reads as it does without the subnormal rule. -/
theorem decodeFlush_not_finite (flush : Bool) {c : Nat} (hc : c < 2 ^ f.bits) (hfin : ¬ FiniteCode f c) :
    decodeFlush f flush c = if f.hasInf = true ∧ c % 2 ^ (f.bits - 1) = f.infCode then .inf (c.testBit (f.bits - 1)) else .nan := by
  rw [← decodeCode_not_finite (Fmt.number_of_flushes hn) hc hfin]
  have hw : f.isWide = true := hn.resolve_left fun hint => hfin ⟨hc, .inl hint⟩
  obtain ⟨fs, hf, -⟩ := Fmt.float_of_isWide hw
  have hsub : (flush && isSubnormal fs c) = false := by
    refine Bool.eq_false_iff.2 fun hs => ?_
    have hcode := flushCode_eq_wideFlush hw flush hc
    simp only [flushCode, hf, hs, if_true, wideFlush_of_not_finite flush hc hfin] at hcode
    refine hfin (hcode ▸ ?_)
    simpa [signedCode] using finiteCode_signedCode hf (Nat.zero_le _) (bitAt c (fs.ebits + fs.fbits))
  simp only [decodeFlush, hf, hsub, decodeCode]
  rfl

end

/-! ## FP32 operands -/

theorem flushed_toNat (flush : Bool) (a : W32) : (flushed flush a).toNat = wideFlush .fp32 flush a.toNat := by
  have h := flushCode_fp32 flush a.toNat
  rw [BitVec.ofNat_toNat, BitVec.setWidth_eq, flushCode_eq_wideFlush rfl flush a.isLt] at h
  exact h ▸ toNat_ofNat_lt (wideFlush_lt (f := .fp32) flush a.isLt)

theorem f32NonFinite_iff (a : W32) : f32NonFinite a = false ↔ FiniteCode .fp32 a.toNat := by
  rw [f32NonFinite_eq_false]
  exact ⟨fun h => ⟨a.isLt, .inr h⟩, fun h => h.2.resolve_left Bool.false_ne_true⟩

/-- A finite lane reads as the number of its word after the subnormal rule, with its sign. -/
theorem f32In_reads (flush : Bool) {a : W32} (h : f32NonFinite a = false) :
    ∃ d : Dy, f32In flush a = .fin d ∧ d.Reads (unitsOf .fp32 (flushed flush a).toNat) ((flushed flush a).getLsbD 31) := by
  have hfin := (f32NonFinite_iff a).1 h
  have hsign : (flushed flush a).getLsbD 31 = a.toNat.testBit (Fmt.fp32.bits - 1) := by
    rw [← BitVec.testBit_toNat, flushed_toNat, ← wideFlush_sign flush hfin.1]; rfl
  rw [hsign, flushed_toNat]
  exact decodeFlush_finite (.inr rfl) flush hfin

/-- A lane that is no number is not changed by the subnormal rule. -/
theorem flushed_of_nonFinite (flush : Bool) {a : W32} (h : f32NonFinite a = true) : flushed flush a = a := by
  refine BitVec.eq_of_toNat_eq ?_
  rw [flushed_toNat]
  exact wideFlush_of_not_finite flush a.isLt fun hfin => by rw [(f32NonFinite_iff a).2 hfin] at h; cases h

theorem f32NonFinite_flushed (flush : Bool) {a : W32} (h : f32NonFinite a = false) : f32NonFinite (flushed flush a) = false := by
  rw [f32NonFinite_iff, flushed_toNat]
  exact finiteCode_wideFlush flush ((f32NonFinite_iff a).1 h)

end Sys2Proof.Machine
end

section
/-! The encode of a number by any mode: the code where it is finite, or the code of the overflow (R109 to R111); and by SR, as the mode
that the draw chooses for the number (R110). -/

namespace Sys2Proof.Machine

/-! ## Rounded numbers -/

/-- A mantissa at a unit of the last place lies within a format where its code is a finite one. -/
theorem magLe_maxCode {f : Fmt} {fs : FloatSpec} (hf : f.float? = some fs) {m k : Nat} (hk : k = 0 ∨ 2 ^ fs.fbits ≤ m)
    (hm : m ≤ 2 * 2 ^ fs.fbits) : ∃ mx : Dy, decodeFloat f fs f.maxCode = .fin mx
      ∧ (magLe m (ulpAt fs k) mx.man mx.exp = true ↔ m + k * 2 ^ fs.fbits ≤ f.maxCode) := by
  obtain ⟨mx, hmx, hexp, hunits⟩ := decodeFloat_finite hf (Nat.mod_le f.maxCode (2 ^ (fs.ebits + fs.fbits)))
  rw [unitsOf_of_le_maxCode hf le_rfl, Dy.at_eq_withSign, withSign] at hunits
  have hmax : mx.man * 2 ^ (mx.exp + 300).toNat = codeUnits fs f.maxCode := by
    show mx.units = _
    split at hunits <;> omega
  have hcode : m * 2 ^ (ulpAt fs k + 300).toNat = codeUnits fs (m + k * 2 ^ fs.fbits) := units_ulpAt hf hk hm false
  exact ⟨mx, hmx, by rw [magLe_iff (ulpAt_ge hf k) hexp, hmax, hcode, (codeUnits_strictMono fs).le_iff_le]⟩

/-- The encode of a number that rounds to a mantissa at a unit of the last place. -/
theorem encodeExact_of_round {f : Fmt} {fs : FloatSpec} (hf : f.float? = some fs) {rm : RM} {draw : Nat} {d : Dy} {m k : Nat}
    (hk : k = 0 ∨ 2 ^ fs.fbits ≤ m) (hm : m ≤ 2 * 2 ^ fs.fbits)
    (hround : roundFloat fs rm draw d.toExact = ⟨d.neg, m, ulpAt fs k⟩) (sat : Bool) :
    encodeExact f rm sat draw d.toExact = if m + k * 2 ^ fs.fbits ≤ f.maxCode
      then ⟨signedCode fs d.neg (m + k * 2 ^ fs.fbits), false⟩ else overflowFloat f rm sat d.neg := by
  obtain ⟨mx, hmx, hle⟩ := magLe_maxCode hf hk hm
  have henc : encodeExact f rm sat draw d.toExact = encodeExactFloat f fs rm sat draw d.toExact := by simp only [encodeExact, hf]
  rw [henc, encodeExactFloat, hround, hmx]
  simp only [hle, packFloat_ulpAt fs hk hm]
  rfl

/-! ## SR as the mode that its draw chooses (R110) -/

/-- Whether a draw takes the upper of two neighbours, whole apart, for a number that lies part above the lower (R110). -/
def drawsUp (draw : Nat) (part whole : Int) : Bool := decide ((2 * (draw : Int) + 1) * whole < part * 2 ^ 17)

/-- The mode that rounds a number to the neighbour that a draw takes. -/
def drawMode (draw : Nat) (part whole : Int) : RM := if drawsUp draw part whole then .ru else .rd

theorem drawMode_ne_sr (draw : Nat) (part whole : Int) : drawMode draw part whole ≠ .sr := by
  rw [drawMode]; split <;> exact nofun

/-- A part of 0 is never rounded up. -/
theorem drawsUp_zero (draw : Nat) {whole : Int} (h : 0 ≤ whole) : drawsUp draw 0 whole = false := by
  have : 0 ≤ (2 * (draw : Int) + 1) * whole := Int.mul_nonneg (by omega) h
  exact decide_eq_false (by omega)

theorem drawsUp_mul (draw : Nat) (part whole : Int) {k : Int} (hk : 0 < k) :
    drawsUp draw (part * k) (whole * k) = drawsUp draw part whole := by
  rw [drawsUp, drawsUp, decide_eq_decide, ← Int.mul_assoc, Int.mul_right_comm part, Int.mul_lt_mul_right hk]

/-- The remainder of a magnitude with a sign, divided downwards. -/
theorem withSign_emod (neg : Bool) (X : Nat) {U : Nat} (hU : 0 < U) :
    withSign neg X % U = if X % U = 0 then 0 else if neg then (U : Int) - (X % U : Nat) else (X % U : Nat) := by
  have hlt := Nat.mod_lt X hU
  cases neg with
  | false => simp only [withSign, Bool.false_eq_true, if_false]; split <;> omega
  | true =>
    simp only [withSign, if_true]
    have hX : -(X : Int) = -((X % U : Nat) : Int) + (-((X / U : Nat) : Int)) * U := by
      have := Nat.div_add_mod' X U
      zify at this ⊢
      linarith
    rw [hX, Int.add_mul_emod_self_right]
    split
    next h0 => rw [h0]; rfl
    next h0 => rw [← Int.add_emod_right, Int.emod_eq_of_lt] <;> omega

/-- The model draws in whole numbers. -/
theorem drawsUp_nat (draw num sh : Nat) :
    num * 2 ^ 17 > (2 * draw + 1) * 2 ^ sh ↔ drawsUp draw num (2 ^ sh : Nat) = true := by
  rw [drawsUp, decide_eq_true_iff, gt_iff_lt, ← Int.ofNat_lt]
  push_cast
  exact Iff.rfl

section

variable {rem : Nat} (h0 : (rem != 0) = true)

include h0

theorem roundsUp_sr_pos (draw m sh : Nat) : roundsUp .sr false m rem sh false draw = drawsUp draw rem (2 ^ sh : Nat) := by
  rw [Bool.eq_iff_iff, ← drawsUp_nat]
  simp only [roundsUp, h0, Bool.or_false, Bool.not_true, Bool.false_eq_true, if_false, decide_eq_true_iff]

theorem roundsUp_sr_neg (draw m sh : Nat) : roundsUp .sr true m rem sh false draw = !drawsUp draw (2 ^ sh - rem : Nat) (2 ^ sh : Nat) := by
  rw [Bool.eq_iff_iff, Bool.not_eq_true', ← Bool.not_eq_true, ← drawsUp_nat]
  simp only [roundsUp, h0, Bool.or_false, Bool.not_true, Bool.false_eq_true, if_false, if_true, Bool.not_eq_true',
    decide_eq_false_iff_not]

theorem roundsUp_of_draw (up neg : Bool) (m sh draw : Nat) :
    roundsUp (if up then .ru else .rd) neg m rem sh false draw = if neg then !up else up := by
  cases neg <;> cases up <;> simp [roundsUp, h0]

end

/-- Of a magnitude m + rem/2^sh SR makes what the mode that the draw chooses does. -/
theorem roundsUp_sr (draw : Nat) (neg : Bool) (m : Nat) {rem sh : Nat} (hrem : rem < 2 ^ sh) :
    roundsUp .sr neg m rem sh false draw
      = roundsUp (drawMode draw (withSign neg rem % (2 ^ sh : Nat)) (2 ^ sh : Nat)) neg m rem sh false draw := by
  rw [withSign_emod neg rem (Nat.two_pow_pos sh), Nat.mod_eq_of_lt hrem]
  rcases eq_or_ne rem 0 with rfl | h0
  · rw [if_pos rfl, drawMode, drawsUp_zero draw (Int.natCast_nonneg _), if_neg Bool.false_ne_true]
    simp [roundsUp]
  · have hne : (rem != 0) = true := bne_iff_ne.2 h0
    rw [if_neg h0, drawMode, roundsUp_of_draw hne]
    cases neg with
    | false => exact roundsUp_sr_pos hne draw m sh
    | true => rw [roundsUp_sr_neg hne, Int.ofNat_sub hrem.le]; rfl

/-- SR rounds a number to a multiple of 2^u as the mode that the draw chooses. -/
theorem roundAt_sr (draw : Nat) {d : Dy} {u : Int} (hd : -300 ≤ d.exp) (hu : -300 ≤ u) :
    roundAt .sr draw d.toExact u = roundAt (drawMode draw (d.at (-300) % (2 ^ (u + 300).toNat : Nat)) (2 ^ (u + 300).toNat : Nat)) draw
      d.toExact u := by
  by_cases h : d.exp ≥ u
  · exact (if_pos h).trans (if_pos h).symm
  · have hU : 2 ^ (u + 300).toNat = 2 ^ (u - d.exp).toNat * 2 ^ (d.exp + 300).toNat := by
      rw [← Nat.pow_add]; congr 1; omega
    have hpos : (0 : Int) < (2 ^ (d.exp + 300).toNat : Nat) := by exact_mod_cast Nat.two_pow_pos _
    have hscale : ∀ a b : Int, a * (2 ^ (d.exp + 300).toNat : Nat) % (b * (2 ^ (d.exp + 300).toNat : Nat))
        = a % b * (2 ^ (d.exp + 300).toNat : Nat) := fun a b => by
      rw [Int.mul_comm a, Int.mul_comm b, Int.mul_emod_mul_of_pos _ _ hpos, Int.mul_comm]
    have hmode : drawMode draw (d.at (-300) % (2 ^ (u + 300).toNat : Nat)) (2 ^ (u + 300).toNat : Nat)
        = drawMode draw (withSign d.neg (d.man % 2 ^ (u - d.exp).toNat) % (2 ^ (u - d.exp).toNat : Nat)) (2 ^ (u - d.exp).toNat : Nat) := by
      have hpart : d.at (-300) % (2 ^ (u + 300).toNat : Nat)
          = withSign d.neg (d.man % 2 ^ (u - d.exp).toNat) % (2 ^ (u - d.exp).toNat : Nat) * (2 ^ (d.exp + 300).toNat : Nat) := by
        rw [Dy.at_eq_withSign, Dy.units, withSign_mul, hU, Int.natCast_mul, hscale,
          withSign_emod _ _ (Nat.two_pow_pos _), withSign_emod _ _ (Nat.two_pow_pos _), Nat.mod_mod]
      rw [drawMode, drawMode, hpart, hU, Int.natCast_mul, drawsUp_mul _ _ _ hpos]
    rw [hmode]
    refine (if_neg h).trans (Eq.trans ?_ (if_neg h).symm)
    simp only [Dy.toExact, roundsUp_sr draw d.neg _ (Nat.mod_lt d.man (Nat.two_pow_pos (u - d.exp).toNat))]
    rfl

end Sys2Proof.Machine
end

section
/-! The encode of a number by SR (R110), and the integer formats (R111). -/

namespace Sys2Proof.Machine

/-! ## SR in a floating-point format -/

/-- The distance of a code's magnitude from the next. -/
def stepUnits (fs : FloatSpec) (c : Nat) : Nat := 2 ^ (c / 2 ^ fs.fbits - 1 + (301 - fs.bias - fs.fbits))

theorem stepUnits_pos (fs : FloatSpec) (c : Nat) : 0 < stepUnits fs c := Nat.two_pow_pos _

theorem codeUnits_next (fs : FloatSpec) (c : Nat) : codeUnits fs (c + 1) = codeUnits fs c + stepUnits fs c := codeUnits_succ fs c

/-- What a magnitude exceeds the lower of its neighbours by. -/
theorem mod_stepUnits {fs : FloatSpec} {c X : Nat} (hlo : codeUnits fs c ≤ X) (hhi : X < codeUnits fs (c + 1)) :
    X % stepUnits fs c = X - codeUnits fs c := by
  rw [codeUnits_next] at hhi
  obtain ⟨d, rfl⟩ := Nat.exists_eq_add_of_le hlo
  rw [codeUnits, stepUnits, Nat.mul_add_mod_self_right, Nat.add_sub_cancel_left]
  exact Nat.mod_eq_of_lt (by rw [stepUnits] at hhi; omega)

/-- SR rounds to a format as the mode that the draw chooses between the number's neighbours. -/
theorem roundFloat_sr {f : Fmt} {fs : FloatSpec} (hf : f.float? = some fs) (draw : Nat) {d : Dy} (hd : -300 ≤ d.exp) :
    ∃ c m k, c = m + k * 2 ^ fs.fbits ∧ (k = 0 ∨ 2 ^ fs.fbits ≤ m) ∧ m < 2 * 2 ^ fs.fbits
      ∧ codeUnits fs c ≤ d.units ∧ d.units < codeUnits fs (c + 1)
      ∧ roundFloat fs .sr draw d.toExact = ⟨d.neg, m + b2n (takesUpper (drawMode draw (d.at (-300) % stepUnits fs c) (stepUnits fs c))
          d.neg (c % 2 == 1) (codeUnits fs c) (codeUnits fs (c + 1)) d.units), ulpAt fs k⟩ := by
  rcases eq_or_ne d.man 0 with h0 | h0
  · obtain ⟨c, m, k, hc, hk, hm, hlo, hhi, hround⟩ := roundFloat_eq hf (rm := .rd) nofun draw hd
    refine ⟨c, m, k, hc, hk, hm, hlo, hhi, ?_⟩
    have hunits : d.units = 0 := by rw [Dy.units, h0, Nat.zero_mul]
    have hrem : d.at (-300) % (stepUnits fs c : Int) = 0 := by rw [Dy.at_of_man h0, Int.zero_emod]
    have hsame : roundFloat fs .sr draw d.toExact = roundFloat fs .rd draw d.toExact := by simp [roundFloat, Dy.toExact, h0]
    rw [hrem, drawMode, drawsUp_zero _ (Int.natCast_nonneg _), hsame, hround]
    rfl
  · obtain ⟨k', hulp, -, -⟩ := ulpExp_spec hf hd h0
    have hu : -300 ≤ ulpExp fs d.man d.exp := hulp ▸ ulpAt_ge hf k'
    have hfloat : ∀ rm, roundFloat fs rm draw d.toExact = roundAt rm draw d.toExact (ulpExp fs d.man d.exp) := fun rm => by
      have hq : max d.man 1 = d.man := by omega
      simp [roundFloat, Dy.toExact, h0, hq]
    obtain ⟨c, m, k, hc, hk, hm, hlo, hhi, hround⟩ := roundFloat_eq hf
      (drawMode_ne_sr draw (d.at (-300) % (2 ^ (ulpExp fs d.man d.exp + 300).toNat : Nat)) (2 ^ (ulpExp fs d.man d.exp + 300).toNat : Nat))
      draw hd
    have hexp : ulpExp fs d.man d.exp = ulpAt fs k := by
      have hexp := congrArg Dy.exp ((hfloat _).symm.trans hround)
      rwa [show ∀ rm u, (roundAt rm draw d.toExact u).exp = u from fun rm u => by rw [roundAt]; split <;> rfl] at hexp
    have hstep : stepUnits fs c = 2 ^ (ulpExp fs d.man d.exp + 300).toNat := by
      have hnext := codeUnits_at (hk.imp_right Nat.le_succ_of_le) hm
      rw [Nat.succ_add, ← hc, Nat.succ_eq_add_one, codeUnits_next, hc, codeUnits_at hk hm.le, ← hc, Nat.succ_mul] at hnext
      rw [hexp, ulpAt_units hf, Nat.add_left_cancel hnext]
    refine ⟨c, m, k, hc, hk, hm, hlo, hhi, ?_⟩
    rw [hfloat, roundAt_sr draw hd hu, ← hfloat, hround, hstep]

/-- The encode by SR of a number takes the code that the draw chooses where it is finite, and the overflow's code where it is not. -/
theorem encodeExact_sr {f : Fmt} {fs : FloatSpec} (hf : f.float? = some fs) (sat : Bool) (draw : Nat) {d : Dy} (hd : -300 ≤ d.exp) :
    ∃ c, codeUnits fs c ≤ d.units ∧ d.units < codeUnits fs (c + 1) ∧ encodeExact f .sr sat draw d.toExact =
      if roundedCode fs (drawMode draw (d.at (-300) % stepUnits fs c) (stepUnits fs c)) d.neg c d.units ≤ f.maxCode
        then ⟨signedCode fs d.neg (roundedCode fs (drawMode draw (d.at (-300) % stepUnits fs c) (stepUnits fs c)) d.neg c d.units), false⟩
        else overflowFloat f .sr sat d.neg := by
  obtain ⟨c, m, k, hc, hk, hm, hlo, hhi, hround⟩ := roundFloat_sr hf draw hd
  refine ⟨c, hlo, hhi, ?_⟩
  rw [roundedCode]
  generalize takesUpper _ d.neg (c % 2 == 1) (codeUnits fs c) (codeUnits fs (c + 1)) d.units = up at *
  have hb : b2n up ≤ 1 := by cases up <;> decide
  have hcode : c + b2n up = m + b2n up + k * 2 ^ fs.fbits := by omega
  rw [encodeExact_of_round hf (hk.imp_right (Nat.le_add_right_of_le ·)) (by omega) hround, hcode]

/-- A mode does not leave the range of the codes where the number does not. -/
theorem roundedCode_le {fs : FloatSpec} {c X M : Nat} (hlo : codeUnits fs c ≤ X) (hhi : X < codeUnits fs (c + 1)) (hX : X ≤ codeUnits fs M)
    (rm : RM) (neg : Bool) : roundedCode fs rm neg c X ≤ M := by
  have hmono := codeUnits_strictMono fs
  rcases Nat.lt_or_eq_of_le (hmono.le_iff_le.1 (hlo.trans hX)) with h | rfl
  · rw [roundedCode, b2n]; split <;> omega
  · obtain rfl := le_antisymm hX hlo
    rw [roundedCode, takesUpper_exact _ _ _ hhi]; rfl

/-- The code below a number, by its remainder. -/
theorem units_roundedCode_rd {fs : FloatSpec} {c X : Nat} (hlo : codeUnits fs c ≤ X) (hhi : X < codeUnits fs (c + 1)) (neg : Bool) :
    withSign neg (codeUnits fs (roundedCode fs .rd neg c X)) = withSign neg X - withSign neg X % stepUnits fs c := by
  have hnext := codeUnits_next fs c
  have htake : takesUpper .rd neg (c % 2 == 1) (codeUnits fs c) (codeUnits fs (c + 1)) X = (neg && decide (codeUnits fs c < X)) := rfl
  rw [codeUnits_roundedCode, withSign_emod neg X (stepUnits_pos fs c), mod_stepUnits hlo hhi, htake]
  cases neg with
  | false => simp only [Bool.false_and, Bool.false_eq_true, if_false, withSign]; split <;> omega
  | true => simp only [Bool.true_and, decide_eq_true_iff, if_true, withSign]; split <;> split <;> omega

/-- The code above a number, by its remainder. -/
theorem units_roundedCode_ru {fs : FloatSpec} {c X : Nat} (hlo : codeUnits fs c ≤ X) (hhi : X < codeUnits fs (c + 1)) (neg : Bool) :
    withSign neg (codeUnits fs (roundedCode fs .ru neg c X)) = if withSign neg X % stepUnits fs c = 0 then withSign neg X
      else withSign neg X - withSign neg X % stepUnits fs c + stepUnits fs c := by
  have hnext := codeUnits_next fs c
  have htake : takesUpper .ru neg (c % 2 == 1) (codeUnits fs c) (codeUnits fs (c + 1)) X = (!neg && decide (codeUnits fs c < X)) := rfl
  rw [codeUnits_roundedCode, withSign_emod neg X (stepUnits_pos fs c), mod_stepUnits hlo hhi, htake]
  cases neg with
  | false =>
    simp only [Bool.not_false, Bool.true_and, decide_eq_true_iff, Bool.false_eq_true, if_false, withSign]
    by_cases hx : codeUnits fs c < X
    · rw [if_pos hx, if_neg (by omega), if_neg (by omega)]; omega
    · rw [if_neg hx, if_pos (by omega)]; omega
  | true =>
    simp only [Bool.not_true, Bool.false_and, Bool.false_eq_true, if_false, if_true, withSign]
    by_cases hx : codeUnits fs c < X
    · rw [if_neg (by omega), if_neg (by omega)]; omega
    · rw [if_pos (by omega)]; omega

end Sys2Proof.Machine
end

section
/-! What the encode makes of a number, in a floating-point or an integer format, by a mode and by SR (R109 to R111). -/

namespace Sys2Proof.Machine

/-! ## The codes above and below a number (R109) -/

/-- A finite code is its sign and its number. -/
theorem finiteCode_ext {f : Fmt} {fs : FloatSpec} (hf : f.float? = some fs) {a b : Nat} (ha : FiniteCode f a) (hb : FiniteCode f b)
    (hsign : a.testBit (f.bits - 1) = b.testBit (f.bits - 1)) (hunits : unitsOf f a = unitsOf f b) : a = b := by
  rw [finiteCode_float hf] at ha hb
  rw [Fmt.bits_of_float hf, Nat.add_sub_cancel] at hsign
  rw [unitsOf_float hf, unitsOf_float hf, hsign] at hunits
  have hmag : codeUnits fs (a % 2 ^ (fs.ebits + fs.fbits)) = codeUnits fs (b % 2 ^ (fs.ebits + fs.fbits)) := by
    cases hb : b.testBit (fs.ebits + fs.fbits) <;> simpa [withSign, hb] using hunits
  rw [← Nat.div_add_mod' a (2 ^ (fs.ebits + fs.fbits)), ← Nat.div_add_mod' b (2 ^ (fs.ebits + fs.fbits)), div_top_bit ha.1,
    div_top_bit hb.1, hsign, (codeUnits_strictMono fs).injective hmag]

/-- The code above or below a number that is not 0 is the only one. -/
theorem roundsTo_unique {f : Fmt} {fs : FloatSpec} (hf : f.float? = some fs) {rm : RM} (hrm : rm = .rd ∨ rm = .ru) {x : Int} (hx : x ≠ 0)
    {a b : Nat} (ha : RoundsTo f rm x a) (hb : RoundsTo f rm x b) : a = b := by
  obtain ⟨hfa, hsa, hra⟩ := ha
  obtain ⟨hfb, hsb, hrb⟩ := hb
  refine finiteCode_ext hf hfa hfb ((hsa hx).trans (hsb hx).symm) ?_
  obtain rfl | rfl := hrm
  · exact le_antisymm (hrb.2 a hfa hra.1) (hra.2 b hfb hrb.1)
  · exact le_antisymm (hra.2 b hfb hrb.1) (hrb.2 a hfa hra.1)

/-- A number between codes lies within the largest. -/
theorem units_le_of_roundsTo {f : Fmt} {fs : FloatSpec} (hf : f.float? = some fs) {neg : Bool} {X lo hi : Nat}
    (hlo : RoundsTo f .rd (withSign neg X) lo) (hhi : RoundsTo f .ru (withSign neg X) hi) : X ≤ codeUnits fs f.maxCode := by
  have hbound : ∀ c, FiniteCode f c → unitsOf f c ≤ codeUnits fs f.maxCode ∧ -(codeUnits fs f.maxCode : Int) ≤ unitsOf f c := fun c hc => by
    have hle := (codeUnits_strictMono fs).monotone ((finiteCode_float hf c).1 hc).2
    rw [unitsOf_float hf, withSign]
    split <;> omega
  obtain ⟨hfl, -, hxl, -⟩ := hlo
  obtain ⟨hfh, -, hxh, -⟩ := hhi
  have hupper := (hbound hi hfh).1
  have hlower := (hbound lo hfl).2
  cases neg <;> simp only [withSign, Bool.false_eq_true, if_true, if_false] at hxl hxh <;> omega

/-! ## SR (R110) -/

theorem signedCode_true {f : Fmt} {fs : FloatSpec} (hf : f.float? = some fs) (c : Nat) : signedCode fs true c = c + 2 ^ (f.bits - 1) := by
  rw [Fmt.bits_of_float hf, Nat.add_sub_cancel, signedCode, b2n, if_pos rfl, Nat.one_mul, Nat.add_comm]

theorem signedCode_false (fs : FloatSpec) (c : Nat) : signedCode fs false c = c := by
  rw [signedCode, b2n, if_neg Bool.false_ne_true, Nat.zero_mul, Nat.zero_add]

theorem zeroCode_float {f : Fmt} {fs : FloatSpec} (hf : f.float? = some fs) (neg : Bool) : zeroCode f neg = signedCode fs neg 0 := by
  rw [zeroCode, Fmt.isInt_of_float hf]
  cases neg
  · exact (signedCode_false fs 0).symm
  · rw [signedCode_true hf, Nat.zero_add]; rfl

/-- The code that a draw takes of the two neighbours of a number between codes. -/
theorem drawn_between {f : Fmt} {fs : FloatSpec} (hf : f.float? = some fs) (draw : Nat) {c X : Nat} (hlo : codeUnits fs c ≤ X)
    (hhi : X < codeUnits fs (c + 1)) {neg : Bool} (hx : withSign neg X ≠ 0) {a b : Nat} (ha : RoundsTo f .rd (withSign neg X) a)
    (hb : RoundsTo f .ru (withSign neg X) b) :
    signedCode fs neg (roundedCode fs (drawMode draw (withSign neg X % stepUnits fs c) (stepUnits fs c)) neg c X)
      = if drawsUp draw (withSign neg X - unitsOf f a) (unitsOf f b - unitsOf f a) then b else a := by
  have hX := units_le_of_roundsTo hf ha hb
  have hle := roundedCode_le hlo hhi hX
  have hrd := roundsTo_unique hf (.inl rfl) hx ha (roundsTo_roundedCode hf (rm := .rd) (by decide) hlo hhi neg (hle .rd neg))
  have hru := roundsTo_unique hf (.inr rfl) hx hb (roundsTo_roundedCode hf (rm := .ru) (by decide) hlo hhi neg (hle .ru neg))
  have hunits := fun rm => unitsOf_signedCode hf (lt_of_le_of_lt (hle rm neg) (Fmt.maxCode_lt hf)) neg
  have hdraw : drawsUp draw (withSign neg X - unitsOf f a) (unitsOf f b - unitsOf f a)
      = drawsUp draw (withSign neg X % stepUnits fs c) (stepUnits fs c) := by
    rw [hrd, hru, hunits, hunits, units_roundedCode_rd hlo hhi, units_roundedCode_ru hlo hhi, sub_sub_cancel]
    split
    next h0 => rw [h0, sub_zero, sub_self, drawsUp_zero _ le_rfl, drawsUp_zero _ (Int.natCast_nonneg _)]
    next h0 => rw [add_sub_cancel_left]
  rw [hdraw, drawMode]
  split
  · exact hru.symm
  · exact hrd.symm

/-- A number beyond the code M is drawn beyond it where it reaches the next code, or where the draw takes that code. -/
theorem drawn_beyond {fs : FloatSpec} (draw : Nat) {c X M : Nat} (hlo : codeUnits fs c ≤ X) (hhi : X < codeUnits fs (c + 1))
    (hgt : codeUnits fs M < X) (neg : Bool) :
    M < roundedCode fs (drawMode draw (withSign neg X % stepUnits fs c) (stepUnits fs c)) neg c X
      ↔ codeUnits fs (M + 1) ≤ X ∨ drawsUp draw (if neg then (codeUnits fs (M + 1) : Int) - X else (X : Int) - codeUnits fs M)
        (stepUnits fs M) = !neg := by
  have hmono := codeUnits_strictMono fs
  have hle : M ≤ c := Nat.le_of_lt_succ (hmono.lt_iff_lt.1 (hgt.trans hhi))
  rcases Nat.eq_or_lt_of_le hle with rfl | h
  · have hnext := codeUnits_next fs M
    have hpart : withSign neg X % stepUnits fs M
        = if neg then (codeUnits fs (M + 1) : Int) - X else (X : Int) - codeUnits fs M := by
      rw [withSign_emod neg X (stepUnits_pos fs M), mod_stepUnits hlo hhi, if_neg (by omega)]
      split <;> omega
    rw [hpart, or_iff_right (Nat.not_le_of_lt hhi), drawMode, roundedCode]
    generalize drawsUp draw _ _ = up
    cases neg <;> cases up <;> simp [takesUpper, hgt, b2n]
  · exact iff_of_true (Nat.lt_add_right _ h) (.inl ((hmono.monotone h).trans hlo))

/-- What SR makes of a number beyond the largest finite one. -/
theorem drawn_overflow {f : Fmt} {fs : FloatSpec} (hf : f.float? = some fs) (sat : Bool) (draw : Nat) {c X : Nat}
    (hlo : codeUnits fs c ≤ X) (hhi : X < codeUnits fs (c + 1)) (hgt : codeUnits fs f.maxCode < X) (neg : Bool) :
    (if roundedCode fs (drawMode draw (withSign neg X % stepUnits fs c) (stepUnits fs c)) neg c X ≤ f.maxCode
      then ⟨signedCode fs neg (roundedCode fs (drawMode draw (withSign neg X % stepUnits fs c) (stepUnits fs c)) neg c X), false⟩
      else overflowFloat f .sr sat neg : Enc)
    = if codeUnits fs (f.maxCode + 1) ≤ X ∨ drawsUp draw (if neg then (codeUnits fs (f.maxCode + 1) : Int) - X
        else (X : Int) - codeUnits fs f.maxCode) (stepUnits fs f.maxCode) = !neg
      then overflowCode f .sr sat neg else ⟨signedCode fs neg f.maxCode, false⟩ := by
  have hover := drawn_beyond draw hlo hhi hgt neg
  have hle : f.maxCode ≤ c := Nat.le_of_lt_succ ((codeUnits_strictMono fs).lt_iff_lt.1 (hgt.trans hhi))
  rw [overflowFloat_eq hf]
  by_cases h : roundedCode fs (drawMode draw (withSign neg X % stepUnits fs c) (stepUnits fs c)) neg c X ≤ f.maxCode
  · rw [if_pos h, if_neg (mt hover.2 (Nat.not_lt_of_le h)), le_antisymm h (hle.trans (Nat.le_add_right ..))]
  · rw [if_neg h, if_pos (hover.1 (Nat.lt_of_not_le h))]

/-- The encode by SR is that of R110. -/
theorem encodeExact_draws_float {f : Fmt} {fs : FloatSpec} (hf : f.float? = some fs) (sat : Bool) (draw : Nat) {d : Dy}
    (hd : -300 ≤ d.exp) : DrawsNumber f sat draw (d.at (-300)) d.neg (encodeExact f .sr sat draw d.toExact) := by
  obtain ⟨c, hlo, hhi, henc⟩ := encodeExact_sr hf sat draw hd
  have hint := Fmt.isInt_of_float hf
  have hmax := unitsOf_of_le_maxCode hf (le_refl f.maxCode)
  have hstep : unitsOf f f.maxCode - unitsOf f (f.maxCode - 1) = stepUnits fs f.maxCode := by
    have hsym := maxCode_step hf
    rw [codeUnits_next] at hsym
    rw [hmax, unitsOf_of_le_maxCode hf (Nat.sub_le f.maxCode 1)]
    omega
  have hnext := codeUnits_next fs f.maxCode
  rw [henc, Dy.at_eq_withSign]
  generalize d.units = X at *
  generalize d.neg = neg at *
  refine ⟨fun h => absurd h (by rw [hint]; exact Bool.false_ne_true), fun _ => ⟨fun h0 => ?_, fun a b hx ha hb => ?_, fun hgt => ?_,
    fun hlt => ?_⟩⟩
  · have hX : X ≤ codeUnits fs 0 := (withSign_eq_zero.1 h0).trans_le (Nat.zero_le _)
    have hcode := Nat.le_zero.1 (roundedCode_le hlo hhi hX (drawMode draw (withSign neg X % stepUnits fs c) (stepUnits fs c)) neg)
    rw [hcode, if_pos (Nat.zero_le _), zeroCode_float hf]
  · have hX := units_le_of_roundsTo hf ha hb
    rw [if_pos (roundedCode_le hlo hhi hX _ _), drawn_between hf draw hlo hhi hx ha hb]
    rfl
  · rw [hmax] at hgt
    obtain rfl : neg = false := Bool.eq_false_iff.2 fun h => by rw [h, withSign, if_pos rfl] at hgt; omega
    have hreach : (codeUnits fs f.maxCode : Int) + stepUnits fs f.maxCode ≤ withSign false X ↔ codeUnits fs (f.maxCode + 1) ≤ X := by
      rw [withSign, if_neg Bool.false_ne_true]; omega
    rw [drawn_overflow hf sat draw hlo hhi (by rw [withSign, if_neg Bool.false_ne_true] at hgt; omega), hstep, hmax, signedCode_false]
    simp only [hreach]
    rfl
  · rw [hmax] at hlt
    obtain rfl : neg = true := Bool.of_not_eq_false fun h => by rw [h, withSign, if_neg Bool.false_ne_true] at hlt; omega
    have hreach : withSign true X ≤ -((codeUnits fs f.maxCode : Int) + stepUnits fs f.maxCode) ↔ codeUnits fs (f.maxCode + 1) ≤ X := by
      rw [withSign, if_pos rfl]; omega
    have hpart : withSign true X + codeUnits fs f.maxCode + stepUnits fs f.maxCode = (codeUnits fs (f.maxCode + 1) : Int) - X := by
      rw [withSign, if_pos rfl]; omega
    rw [drawn_overflow hf sat draw hlo hhi (by rw [withSign, if_pos rfl] at hlt; omega), hstep, hmax, signedCode_true hf]
    simp only [hreach, hpart]
    simp only [drawsUp, Bool.not_true, decide_eq_false_iff_not, decide_eq_true_iff, if_true]

/-! ## Integer formats (R109 to R111) -/

theorem roundAt_draw {rm : RM} (hrm : rm ≠ .sr) (draw : Nat) (x : Exact) (u : Int) : roundAt rm draw x u = roundAt rm 0 x u := by
  have hup : ∀ m rem sh sticky, roundsUp rm x.neg m rem sh sticky draw = roundsUp rm x.neg m rem sh sticky 0 := fun m rem sh sticky => by
    cases rm with
    | sr => exact absurd rfl hrm
    | rne | rz | ru | rd => rfl
  simp only [roundAt, hup]

theorem encodeExact_int {f : Fmt} (h : f.isInt = true) (rm : RM) (sat : Bool) (draw : Nat) (x : Exact) :
    encodeExact f rm sat draw x = encodeExactInt f rm draw x := by simp only [encodeExact, Fmt.float_of_isInt h]

/-- The encode into an integer format saturates the rounded integer. -/
theorem encodeExactInt_eq_intCode (f : Fmt) (rm : RM) (draw : Nat) (x : Exact) :
    encodeExactInt f rm draw x = intCode f (withSign (roundAt rm draw x 0).neg (roundAt rm draw x 0).man) := by
  have hpow : ((2 ^ (f.bits - 1) : Nat) : Int) = 2 ^ (f.bits - 1) := Int.natCast_pow ..
  have hpos : (0 : Int) < 2 ^ (f.bits - 1) := Int.pow_pos (by decide)
  have hmod : ((2 ^ f.bits : Nat) : Int) = 2 ^ f.bits := Int.natCast_pow ..
  have hi : (if (roundAt rm draw x 0).neg then -((roundAt rm draw x 0).man : Int) else (roundAt rm draw x 0).man)
    = withSign (roundAt rm draw x 0).neg (roundAt rm draw x 0).man := rfl
  simp only [encodeExactInt, hi, intCode, unsignedOf, hpow, hmod]
  generalize withSign (roundAt rm draw x 0).neg (roundAt rm draw x 0).man = i
  generalize (2 : Int) ^ (f.bits - 1) = P at *
  split
  next hlt => rw [max_eq_left (by omega), decide_eq_true (.inl hlt)]
  next hge =>
    split
    next hgt => rw [min_eq_left (by omega), max_eq_right (by omega), decide_eq_true (.inr hgt)]
    next hle => rw [min_eq_right (by omega), max_eq_right (by omega), decide_eq_false (by omega)]

/-- A number that is no whole number lies below the next one. -/
theorem neg_ediv_of_emod_pos {y U : Int} (hU : 0 < U) (h : 0 < y % U) : -(-y / U) = y / U + 1 := by
  have hlt := Int.emod_lt_of_pos y hU
  have hsplit := Int.ediv_mul_add_emod y U
  have hdiv : -y / U = -(y / U) - 1 := ediv_eq_of_le_of_lt hU (by rw [Int.sub_mul, Int.neg_mul]; omega)
    (by rw [Int.sub_add_cancel, Int.neg_mul]; omega)
  omega

/-- The integer that SR rounds to (R110). -/
theorem roundAt_zero_sr (draw : Nat) {d : Dy} (hd : -300 ≤ d.exp) :
    withSign (roundAt .sr draw d.toExact 0).neg (roundAt .sr draw d.toExact 0).man
      = d.at (-300) / 2 ^ 300 + if drawsUp draw (d.at (-300) % 2 ^ 300) (2 ^ 300) then 1 else 0 := by
  have hone : ((2 ^ ((0 : Int) + 300).toNat : Nat) : Int) = 2 ^ 300 := by
    rw [show ((0 : Int) + 300).toNat = 300 from rfl, Int.natCast_pow]; rfl
  have hU : (0 : Int) < 2 ^ 300 := Int.pow_pos (by decide)
  have hround : ∀ {rm i}, rm ≠ .sr → RoundsToInt rm (d.at (-300)) i →
      withSign (roundAt rm draw d.toExact 0).neg (roundAt rm draw d.toExact 0).man = i := fun hrm hi => by
    obtain ⟨hneg, hman⟩ := roundAt_zero_eq hrm hd hi
    rw [roundAt_draw hrm, hneg, hman]
  rw [roundAt_sr draw hd (by decide), hone]
  rcases hup : drawsUp draw (d.at (-300) % 2 ^ 300) (2 ^ 300) with _ | _
  · rw [drawMode, hup, if_neg Bool.false_ne_true, if_neg Bool.false_ne_true, add_zero]
    exact hround (by decide) rfl
  · rw [drawMode, hup, if_pos rfl, if_pos rfl]
    refine (hround (rm := .ru) (by decide) rfl).trans (neg_ediv_of_emod_pos hU (lt_of_le_of_ne (Int.emod_nonneg _ hU.ne') fun h => ?_))
    rw [← h, drawsUp_zero draw hU.le] at hup
    cases hup

/-! ## The encode of a number -/

/-- The encode of a number by a mode other than SR. -/
theorem encodeExact_encodes {f : Fmt} (hn : f.Number) {rm : RM} (hrm : rm ≠ .sr) (sat : Bool) {d : Dy} (hd : -300 ≤ d.exp) :
    EncodesNumber f rm sat (d.at (-300)) d.neg (encodeExact f rm sat 0 d.toExact) := by
  rcases hn with hint | ⟨fs, hf⟩
  · refine ⟨fun h => absurd hint (by rw [h]; exact Bool.false_ne_true), fun _ i hi => ?_⟩
    obtain ⟨hneg, hman⟩ := roundAt_zero_eq hrm hd hi
    rw [encodeExact_int hint, encodeExactInt_eq_intCode, hneg, ← hman]
  · refine ⟨fun _ => ⟨encodeExact_roundedOnce hf hrm sat 0 hd, fun h0 => ?_⟩, fun h => absurd h ?_⟩
    · rw [encodeExact_zero hf hrm sat 0 hd (withSign_eq_zero.1 h0), ← zeroCode_float hf, zeroCode, Fmt.isInt_of_float hf]
      simp
    · rw [Fmt.isInt_of_float hf]; exact Bool.false_ne_true

/-- The encode of a number by SR. -/
theorem encodeExact_draws {f : Fmt} (hn : f.Number) (sat : Bool) (draw : Nat) {d : Dy} (hd : -300 ≤ d.exp) :
    DrawsNumber f sat draw (d.at (-300)) d.neg (encodeExact f .sr sat draw d.toExact) := by
  rcases hn with hint | ⟨fs, hf⟩
  · refine ⟨fun _ => ?_, fun h => absurd hint (by rw [h]; exact Bool.false_ne_true)⟩
    rw [encodeExact_int hint, encodeExactInt_eq_intCode, roundAt_zero_sr draw hd]
    rfl
  · exact encodeExact_draws_float hf sat draw hd

end Sys2Proof.Machine
end

section
/-! The encode of a lane through a block scale (R106, R112), and the flag of a code that a lane receives (R113). -/

namespace Sys2Proof.Machine

/-! ## Block scales (R106) -/

/-- A number through a power of two, exactly. -/
theorem Dy.at_shift {d : Dy} {a b : Nat} (hd : -300 ≤ d.exp) (h : -300 ≤ d.exp + ((a : Int) - b)) :
    ({ d with exp := d.exp + ((a : Int) - b) } : Dy).at (-300) = d.at (-300) * 2 ^ a / 2 ^ b := by
  have hpow : 2 ^ (d.exp + ((a : Int) - b) + 300).toNat * 2 ^ b = 2 ^ (d.exp + 300).toNat * 2 ^ a := by
    rw [← Nat.pow_add, ← Nat.pow_add]; congr 1; omega
  have hmul : ({ d with exp := d.exp + ((a : Int) - b) } : Dy).at (-300) * 2 ^ b = d.at (-300) * 2 ^ a := by
    have hcast : ∀ n : Nat, (2 : Int) ^ n = ((2 ^ n : Nat) : Int) := fun n => (Int.natCast_pow ..).symm
    rw [Dy.at_eq_withSign, Dy.at_eq_withSign, hcast, hcast, ← withSign_mul, ← withSign_mul, Dy.units, Dy.units, Nat.mul_assoc,
      Nat.mul_assoc, hpow]
  rw [← hmul, Int.mul_ediv_cancel _ (Int.pow_pos (by decide)).ne']

theorem valScale_zero (v : Val) : valScale v 0 = v := by
  cases v <;> simp [valScale]

/-- The encode through the scale that stands for 1. -/
theorem encScaled_unit (f : Fmt) (rm : RM) (sat : Bool) (draw : Nat) (v : Val) : encScaled f rm sat draw 0 127 v = encodeVal f rm sat draw v := by
  have hscale : valScale v (127 - ((127 % 256 : Nat) : Int)) = v := valScale_zero v
  rw [encScaled, if_neg (by decide), hscale]
  cases v <;> rfl

/-- The encode of a number through a scale other than 0xFF: that of the scaled number. -/
theorem encScaled_finite {f : Fmt} {rm : RM} {sat : Bool} {draw : Nat} {d : Int} {s : Nat} (hs : s < 255) {x : Dy} {y : Int} {neg : Bool}
    (hx : x.Reads y neg) : ∃ v : Dy, -300 ≤ v.exp ∧ v.at (-300) = y * 2 ^ 127 / 2 ^ s ∧ v.neg = neg
      ∧ encScaled f rm sat draw d s (.fin x) = if d = 0 then encodeExact f rm sat draw v.toExact else encDither f rm sat d v := by
  have hexp := hx.exp_ge
  refine ⟨{ x with exp := x.exp + (((127 : Nat) : Int) - s) }, by simp only; omega, ?_, hx.sign, ?_⟩
  · rw [Dy.at_shift hx.exp (by omega), hx.units]
  · rw [encScaled, Nat.mod_eq_of_lt (by omega), if_neg (by omega)]; rfl

/-! ## Lanes that are no numbers (R106, R112) -/

theorem encodeNonFinite_inf (f : Fmt) (sat neg : Bool) : encodeNonFinite f sat (.inf neg) = infinityCode f sat neg := by
  cases f <;> cases sat <;> cases neg <;> rfl

theorem f32NonFinite_of_inf {a : W32} (h : a &&& 0x7FFFFFFF = 0x7F800000) : f32NonFinite a = true ∧ f32IsNaN a = false := by
  have hmag : a.toNat % 2 ^ 31 = 0x7F800000 := by
    rw [← Nat.and_two_pow_sub_one_eq_mod]
    exact congrArg BitVec.toNat h
  simp only [f32NonFinite, f32IsNaN, bitsOf, Bool.and_eq_false_iff, beq_iff_eq, bne_eq_false_iff_eq]
  omega

/-- The encode of a lane that is no number, or through a scale of 0xFF. -/
theorem encScaled_nonFinite (f : Fmt) (rm : RM) (sat : Bool) (draw : Nat) (d : Int) {s : Nat} (hs : s ≤ 255) (flush : Bool) (a : W32) :
    EncodesNonFinite f sat s (flushed flush a) (encScaled f rm sat draw d s (f32In flush a)) := by
  have hmod : s % 256 = s := Nat.mod_eq_of_lt (by omega)
  have hlane : f32NonFinite (flushed flush a) = true → f32NonFinite a = true := fun h => by
    rcases hfin : f32NonFinite a with _ | _
    · rw [f32NonFinite_flushed flush hfin] at h; cases h
    · rfl
  refine ⟨fun h => ?_, fun hlt hinf => ?_⟩
  · rcases eq_or_ne s 255 with rfl | hne
    · rfl
    · have hnan := h.resolve_left hne
      have ha := flushed_of_nonFinite flush (hlane (Bool.and_eq_true_iff.1 hnan).1)
      rw [ha] at hnan
      rw [encScaled, hmod, if_neg hne, f32In_nan flush hnan]
      rfl
  · obtain ⟨hnf, hnum⟩ := f32NonFinite_of_inf hinf
    have ha := flushed_of_nonFinite flush (hlane hnf)
    rw [ha] at hnum hinf ⊢
    rw [encScaled, hmod, if_neg hlt.ne, f32In_nonFinite flush (ha ▸ hnf), hnum, if_neg Bool.false_ne_true]
    exact encodeNonFinite_inf f sat _

/-! ## Codes that a lane receives (R113) -/

/-- A code of a format that is a number, or an infinity or NaN that the format or the flag tells. -/
def Enc.Told (f : Fmt) (e : Enc) : Prop := e.code < 2 ^ f.bits ∧ (f.hasInf = false → FiniteCode f e.code ∨ e.nf = true)

theorem codeNonFinite_iff {f : Fmt} {fs : FloatSpec} (hf : f.float? = some fs) {c : Nat} (hc : c < 2 ^ f.bits) :
    codeNonFinite f c = true ↔ ¬ FiniteCode f c := by
  rw [codeNonFinite, hf, Option.isSome_some, Bool.true_and]
  by_cases hfin : FiniteCode f c
  · obtain ⟨d, hd, -⟩ := decodeCode_finite (.inr ⟨fs, hf⟩) hfin
    simp [hd, hfin, Val.isFinite]
  · rw [decodeCode_not_finite (.inr ⟨fs, hf⟩) hc hfin]
    split <;> simp [hfin, Val.isFinite]

/-- The flag of a code that a lane receives. -/
theorem received_nf {f : Fmt} (hn : f.Number) {e : Enc} (he : e.Told f) : (e.received f).nf = receivedNf f e := by
  obtain ⟨hlt, htold⟩ := he
  show (e.nf || codeNonFinite f e.code) = _
  rcases hn with hint | ⟨fs, hf⟩
  · rw [receivedNf, Fmt.hasInf_of_isInt hint, codeNonFinite, Fmt.float_of_isInt hint]; rfl
  · have hnf := codeNonFinite_iff hf hlt
    rw [receivedNf, Bool.eq_iff_iff, Bool.or_eq_true, Bool.or_eq_true, Bool.and_eq_true, decide_eq_true_iff, hnf]
    rcases hinf : f.hasInf with _ | _
    · simp only [Bool.false_eq_true, false_and, or_false]
      exact ⟨fun h => h.elim id (htold hinf).resolve_left, .inl⟩
    · have hmax := (Fmt.infCode_eq hf hinf).1
      rw [finiteCode_float hf, ← Fmt.bits_of_float hf, Fmt.bits_of_float hf, Nat.add_sub_cancel]
      rw [Fmt.bits_of_float hf] at hlt
      refine or_congr_right ⟨fun h => ⟨rfl, ?_⟩, fun h hfin => ?_⟩ <;> omega

theorem told_of_finite {f : Fmt} {c : Nat} (h : FiniteCode f c) (nf : Bool) : (⟨c, nf⟩ : Enc).Told f := ⟨h.1, fun _ => .inl h⟩

theorem overflowFloat_told {f : Fmt} {fs : FloatSpec} (hf : f.float? = some fs) (rm : RM) (sat neg : Bool) :
    (overflowFloat f rm sat neg).Told f := by
  have hmax : FiniteCode f (maxOfSign f neg) := by
    have h := finiteCode_signedCode hf (le_refl f.maxCode) neg
    rw [maxOfSign, Fmt.isInt_of_float hf, if_neg Bool.false_ne_true]
    rwa [signedCode, Nat.add_comm, ← Nat.add_sub_cancel (fs.ebits + fs.fbits) 1, ← Fmt.bits_of_float hf] at h
  rw [overflowFloat]
  split
  · exact told_of_finite hmax _
  · split
    · split
      next hinf =>
        refine ⟨?_, fun h => absurd hinf (by rw [h]; exact Bool.false_ne_true)⟩
        revert hinf; cases f <;> cases hf <;> cases neg <;> decide
      next =>
        split
        next he => subst he; exact ⟨by decide, fun _ => .inr rfl⟩
        next => exact told_of_finite hmax _
    · exact told_of_finite hmax _

theorem encodeNonFinite_told {f : Fmt} (hn : f.Number) (sat : Bool) {v : Val} (hv : v.isFinite = false) : (encodeNonFinite f sat v).Told f := by
  have hall : ∀ f : Fmt, f.isInt = true ∨ f.float?.isSome = true → f.canonNaN < 2 ^ f.bits
      ∧ ∀ sat neg, (infinityCode f sat neg).code < 2 ^ f.bits ∧ (infinityCode f sat neg).nf = true := by
    intro f; cases f <;> decide
  obtain ⟨hnan, hinf⟩ := hall f (hn.imp_right Option.isSome_iff_exists.2)
  cases v with
  | nan => exact ⟨hnan, fun _ => .inr rfl⟩
  | inf neg => rw [encodeNonFinite_inf]; exact ⟨(hinf sat neg).1, fun _ => .inr (hinf sat neg).2⟩
  | fin d => cases hv

theorem intCode_lt (f : Fmt) (i : Int) : (intCode f i).code < 2 ^ f.bits := by
  have hpos : (0 : Int) < 2 ^ f.bits := Int.pow_pos (by decide)
  have hcast : ((2 ^ f.bits : Nat) : Int) = 2 ^ f.bits := Int.natCast_pow ..
  have hlt := Int.emod_lt_of_pos (max (-2 ^ (f.bits - 1)) (min (2 ^ (f.bits - 1) - 1) i)) hpos
  simp only [intCode]
  omega

/-- Every mode makes a finite code of a number, or the code of an overflow. -/
theorem encodeExact_told {f : Fmt} (hn : f.Number) (rm : RM) (sat : Bool) (draw : Nat) {d : Dy} (hd : -300 ≤ d.exp) :
    (encodeExact f rm sat draw d.toExact).Told f := by
  rcases hn with hint | ⟨fs, hf⟩
  · rw [encodeExact_int hint, encodeExactInt_eq_intCode]
    exact ⟨intCode_lt f _, fun _ => .inl ⟨intCode_lt f _, .inl hint⟩⟩
  · have hcase : ∀ {r : Nat}, (if r ≤ f.maxCode then ⟨signedCode fs d.neg r, false⟩ else overflowFloat f rm sat d.neg : Enc).Told f := fun {r} => by
      split
      next h => exact told_of_finite (finiteCode_signedCode hf h d.neg) _
      next => exact overflowFloat_told hf rm sat d.neg
    rcases eq_or_ne rm .sr with rfl | hrm
    · obtain ⟨c, -, -, henc⟩ := encodeExact_sr hf sat draw hd
      exact henc ▸ hcase
    · obtain ⟨c, -, -, henc⟩ := encodeExact_eq hf hrm sat draw hd
      exact henc ▸ hcase

theorem encodeVal_told {f : Fmt} (hn : f.Number) (rm : RM) (sat : Bool) (draw : Nat) {v : Val} (hv : ∀ d, v = .fin d → -300 ≤ d.exp) :
    (encodeVal f rm sat draw v).Told f := by
  cases v with
  | fin d => exact encodeExact_told hn rm sat draw (hv d rfl)
  | nan => exact encodeNonFinite_told hn sat rfl
  | inf neg => exact encodeNonFinite_told hn sat rfl

end Sys2Proof.Machine
end

section
/-! Codes as FP32 (R159, R164): every number of a narrow format is one of FP32. VUNPK, VCVT, VPACK, VEXPO, VSRND and VDITH lane by lane. -/

namespace Sys2Proof.Machine

/-! ## Numbers that FP32 holds exactly -/

/-- A mantissa of 24 bits at a unit that FP32 has is the magnitude of a code of FP32. -/
theorem exists_fp32_code {m j : Nat} (hm : m < 2 ^ 24) (hj : 151 ≤ j) : ∃ c, codeUnits f32Spec c = m * 2 ^ j := by
  have hlen : bitLen m ≤ 24 := bitLen_le_iff.2 hm
  have hshift : m * 2 ^ min (j - 151) (24 - bitLen m) < 2 ^ 24 := by
    calc m * 2 ^ min (j - 151) (24 - bitLen m) < 2 ^ bitLen m * 2 ^ min (j - 151) (24 - bitLen m) :=
          Nat.mul_lt_mul_of_pos_right (bitLen_le_iff.1 le_rfl) (Nat.two_pow_pos _)
      _ = 2 ^ (bitLen m + min (j - 151) (24 - bitLen m)) := (Nat.pow_add ..).symm
      _ ≤ 2 ^ 24 := Nat.pow_le_pow_right (by decide) (by omega)
  rcases eq_or_ne m 0 with rfl | h0
  · exact ⟨0, by rw [codeUnits_zero, Nat.zero_mul]⟩
  · refine ⟨m * 2 ^ min (j - 151) (24 - bitLen m) + (j - 151 - min (j - 151) (24 - bitLen m)) * 2 ^ f32Spec.fbits, ?_⟩
    rw [codeUnits_at ?_ hshift.le, Nat.mul_assoc, ← Nat.pow_add]
    · congr 2; simp only [f32Spec]; omega
    · refine or_iff_not_imp_left.2 fun hk => ?_
      have hmin : min (j - 151) (24 - bitLen m) = 24 - bitLen m := by omega
      have hpos := bitLen_pos h0
      have hexp : bitLen m - 1 + (24 - bitLen m) = f32Spec.fbits := by simp only [f32Spec]; omega
      rw [hmin]
      calc 2 ^ f32Spec.fbits = 2 ^ (bitLen m - 1) * 2 ^ (24 - bitLen m) := by rw [← Nat.pow_add, hexp]
        _ ≤ m * 2 ^ (24 - bitLen m) := Nat.mul_le_mul_right _ (lt_bitLen_iff.1 (by omega))

/-- A magnitude that a finite code of FP32 has. -/
def InFp32 (X : Nat) : Prop := ∃ c ≤ Fmt.fp32.maxCode, codeUnits f32Spec c = X

theorem inFp32_of_mul {m j : Nat} (hm : m < 2 ^ 24) (hj : 151 ≤ j) (hle : m * 2 ^ j ≤ codeUnits f32Spec Fmt.fp32.maxCode) :
    InFp32 (m * 2 ^ j) := by
  obtain ⟨c, hc⟩ := exists_fp32_code hm hj
  exact ⟨c, (codeUnits_strictMono f32Spec).le_iff_le.1 (hc.trans_le hle), hc⟩

/-- An integer of 24 bits, at a unit between those of FP32's least and greatest numbers. -/
theorem inFp32_int {i : Int} (hi : i.natAbs < 2 ^ 24) {n : Nat} (hlo : 151 ≤ n) (hhi : n ≤ 300) : InFp32 (i * 2 ^ n).natAbs := by
  have hcode := codeUnits_at (fs := f32Spec) (m := 2 ^ f32Spec.fbits) (k := 150) (.inr le_rfl) (by omega)
  have hmax : 2 ^ f32Spec.fbits + 150 * 2 ^ f32Spec.fbits ≤ Fmt.fp32.maxCode := by decide
  rw [Int.natAbs_mul, Int.natAbs_pow]
  refine inFp32_of_mul hi hlo (le_trans ?_ ((codeUnits_strictMono f32Spec).monotone hmax))
  rw [hcode, ← Nat.pow_add]
  calc i.natAbs * 2 ^ n ≤ 2 ^ 24 * 2 ^ n := Nat.mul_le_mul_right _ hi.le
    _ = 2 ^ (24 + n) := (Nat.pow_add ..).symm
    _ ≤ _ := Nat.pow_le_pow_right (by decide) (by simp only [f32Spec]; omega)

/-- The finite numbers of the formats 1 to 7 are numbers of FP32. -/
theorem inFp32_of_finite {fmt : BitVec 4} (h7 : fmt.toNat ≤ 7) {c : Nat} (hc : FiniteCode (fmt4 fmt) c) :
    InFp32 (unitsOf (fmt4 fmt) c).natAbs := by
  rcases fmt4_number (.inl h7) with hint | ⟨fs, hf⟩
  · have hbits : ∀ fmt : BitVec 4, fmt.toNat ≤ 7 → (fmt4 fmt).isInt = true → 2 ^ ((fmt4 fmt).bits - 1) < 2 ^ 24 := by decide
    have habs : (BitVec.ofNat (fmt4 fmt).bits c).toInt.natAbs ≤ 2 ^ ((fmt4 fmt).bits - 1) := by
      have hlo := BitVec.le_toInt (BitVec.ofNat (fmt4 fmt).bits c)
      have hhi := BitVec.toInt_lt (x := BitVec.ofNat (fmt4 fmt).bits c)
      zify
      rw [abs_le]
      omega
    rw [unitsOf_int hint]
    exact inFp32_int (lt_of_le_of_lt habs (hbits fmt h7 hint)) (by decide) le_rfl
  · have hspec : ∀ fmt : BitVec 4, fmt.toNat ≤ 7 → ∀ fs, (fmt4 fmt).float? = some fs →
        fs.fbits ≤ 23 ∧ fs.bias + fs.fbits ≤ 150 ∧ codeUnits fs (fmt4 fmt).maxCode ≤ codeUnits f32Spec Fmt.fp32.maxCode := by
      decide +kernel
    obtain ⟨hfb, hbias, hmax⟩ := hspec fmt h7 fs hf
    rw [finiteCode_float hf] at hc
    have habs : (unitsOf (fmt4 fmt) c).natAbs = codeUnits fs (c % 2 ^ (fs.ebits + fs.fbits)) := by
      rw [unitsOf_float hf, withSign]; split <;> omega
    have hle := ((codeUnits_strictMono fs).monotone hc.2).trans hmax
    rw [habs]
    obtain ⟨m, k, hmk, -, hk, hm⟩ := code_split fs (c % 2 ^ (fs.ebits + fs.fbits))
    rw [hmk, codeUnits_at hk hm.le] at hle ⊢
    refine inFp32_of_mul (lt_of_lt_of_le hm ?_) (by omega) hle
    rw [← Nat.pow_succ']
    exact Nat.pow_le_pow_right (by decide) (by omega)

/-- The encode into FP32 of a number that FP32 holds is its code. -/
theorem encodeExact_fp32 {d : Dy} (hd : -300 ≤ d.exp) (hin : InFp32 d.units) :
    ∃ c ≤ Fmt.fp32.maxCode, codeUnits f32Spec c = d.units ∧ encodeExact .fp32 .rne false 0 d.toExact = ⟨signedCode f32Spec d.neg c, false⟩ := by
  obtain ⟨c, hle, hc⟩ := hin
  obtain ⟨c', hlo, hhi, henc⟩ := encodeExact_eq float_fp32 (rm := .rne) (by decide) false 0 hd
  have hmono := codeUnits_strictMono f32Spec
  rw [← hc] at hlo hhi henc
  obtain rfl : c' = c := le_antisymm (hmono.le_iff_le.1 hlo) (Nat.le_of_lt_succ (hmono.lt_iff_lt.1 hhi))
  rw [roundedCode, takesUpper_exact _ _ _ hhi, b2n, if_neg Bool.false_ne_true, Nat.add_zero, if_pos hle] at henc
  exact ⟨c', hle, hc, henc⟩

/-- The word of FP32 for a value. -/
def f32Word (v : Val) : W32 := BitVec.ofNat 32 (encodeVal .fp32 .rne false 0 v).code

/-- The word of a number that FP32 holds stands for it, a zero with its sign. -/
theorem f32Word_exact {d : Dy} {x : Int} {neg : Bool} (hd : d.Reads x neg) (hin : InFp32 x.natAbs) :
    f32NonFinite (f32Word (.fin d)) = false ∧ unitsOf .fp32 (f32Word (.fin d)).toNat = x
      ∧ (x = 0 → f32Word (.fin d) = if neg then 0x80000000 else 0) := by
  have hunits : d.units = x.natAbs := by rw [← hd.units, Dy.at_eq_withSign, withSign]; split <;> omega
  obtain ⟨c, hle, hc, henc⟩ := encodeExact_fp32 hd.exp (hunits ▸ hin)
  have hfin := finiteCode_signedCode float_fp32 hle d.neg
  have hword : f32Word (.fin d) = BitVec.ofNat 32 (signedCode f32Spec d.neg c) := by rw [f32Word, encodeVal, henc]
  have hnat : (f32Word (.fin d)).toNat = signedCode f32Spec d.neg c := hword ▸ toNat_ofNat_lt hfin.1
  refine ⟨(f32NonFinite_iff _).2 (hnat ▸ hfin), ?_, fun h0 => ?_⟩
  · rw [hnat, unitsOf_signedCode float_fp32 (lt_of_le_of_lt hle (Fmt.maxCode_lt float_fp32)), hc, ← Dy.at_eq_withSign, hd.units]
  · have hzero : c = 0 := by
      have hX : codeUnits f32Spec c = codeUnits f32Spec 0 := by rw [hc, hunits, h0, codeUnits_zero]; rfl
      exact (codeUnits_strictMono f32Spec).injective hX
    rw [hword, hzero, hd.sign]
    cases neg <;> rfl

/-- The word of a code of the formats 1 to 7 is its value as FP32. -/
theorem widensTo_of_read {fmt : BitVec 4} (h7 : fmt.toNat ≤ 7) {c : Nat} (hc : c < 2 ^ (fmt4 fmt).bits) {v : Val}
    (hfin : FiniteCode (fmt4 fmt) c → ∃ d : Dy, v = .fin d ∧ d.Reads (unitsOf (fmt4 fmt) c) (c.testBit ((fmt4 fmt).bits - 1)))
    (hnf : ¬ FiniteCode (fmt4 fmt) c → v = if (fmt4 fmt).hasInf = true ∧ c % 2 ^ ((fmt4 fmt).bits - 1) = (fmt4 fmt).infCode
      then .inf (c.testBit ((fmt4 fmt).bits - 1)) else .nan) : WidensTo (fmt4 fmt) c (f32Word v) := by
  refine ⟨fun h => ?_, fun h => ?_⟩
  · obtain ⟨d, rfl, hd⟩ := hfin h
    obtain ⟨hnum, hunits, hzero⟩ := f32Word_exact hd (inFp32_of_finite h7 h)
    refine ⟨hnum, hunits, fun h0 => ?_⟩
    rw [hzero h0]
    rcases hint : (fmt4 fmt).isInt with _ | _
    · rw [Bool.not_false, Bool.and_true]
    · have hint0 : (BitVec.ofNat (fmt4 fmt).bits c).toInt = 0 := by
        rw [unitsOf_int hint] at h0
        exact (Int.mul_eq_zero.1 h0).resolve_right (Int.pow_pos (by decide)).ne'
      have hword : BitVec.ofNat (fmt4 fmt).bits c = 0#_ := BitVec.eq_of_toInt_eq (hint0.trans BitVec.toInt_zero.symm)
      have hc0 : c = 0 := by rw [← toNat_ofNat_lt hc, hword, BitVec.toNat_ofNat, Nat.zero_mod]
      rw [hc0, Nat.zero_testBit]
      rfl
  · have hint : (fmt4 fmt).isInt = false := Bool.eq_false_iff.2 fun hint => h ⟨hc, .inl hint⟩
    rw [hnf h, hint, Bool.not_false, Bool.and_true]
    split
    · cases c.testBit ((fmt4 fmt).bits - 1) <;> rfl
    · rfl

end Sys2Proof.Machine
end

section
/-! VPACK, VUNPK, VCVT, VEXPO, VSRND and VDITH lane by lane (R141, R157 to R159, R163, R164). -/

namespace Sys2Proof.Machine

/-- Of a number that is 0 the magnitude is 0. -/
theorem man_eq_zero {d : Dy} (h : d.at (-300) = 0) : d.man = 0 :=
  (Nat.mul_eq_zero.1 (withSign_eq_zero.1 h)).resolve_right (Nat.two_pow_pos _).ne'

theorem scaledUnits_unit (a : W32) : scaledUnits 127 a = unitsOf .fp32 a.toNat :=
  Int.mul_ediv_cancel _ (Int.pow_pos (by decide)).ne'

/-- What a lane reads as is no finer than 2^-300. -/
theorem f32In_exp {flush : Bool} {a : W32} {d : Dy} (h : f32In flush a = .fin d) : -300 ≤ d.exp := by
  rcases hfin : f32NonFinite a with _ | _
  · obtain ⟨d', hd', hread⟩ := f32In_reads flush hfin
    exact Val.fin.inj (hd'.symm.trans h) ▸ hread.exp
  · rw [f32In_nonFinite flush hfin] at h
    split at h <;> cases h

/-- The binade of a number. -/
theorem floorLog2_eq {d : Dy} (hd : -300 ≤ d.exp) (h0 : d.man ≠ 0) {k : Nat} (hlo : 2 ^ k ≤ d.units) (hhi : d.units < 2 ^ (k + 1)) :
    floorLog2 d = (k : Int) - 300 := by
  have hpos := bitLen_pos h0
  have hlen : bitLen d.units = bitLen d.man - 1 + (d.exp + 300).toNat + 1 := by
    refine bitLen_eq ?_ ?_
    · rw [Nat.pow_add]; exact Nat.mul_le_mul_right _ (lt_bitLen_iff.1 (by omega))
    · rw [show bitLen d.man - 1 + (d.exp + 300).toNat + 1 = bitLen d.man + (d.exp + 300).toNat by omega, Nat.pow_add]
      exact Nat.mul_lt_mul_of_pos_right (bitLen_le_iff.1 le_rfl) (Nat.two_pow_pos _)
  rw [bitLen_eq hlo hhi] at hlen
  rw [floorLog2]
  omega

/-! ## VUNPK (R159) -/

/-- What VUNPK reads of a code of a floating-point format. -/
def unpackRead (flush : Bool) (f : Fmt) (c : Nat) : Val := if f.isWide then decodeFlush f flush c else decodeCode f c

theorem widensTo_unpackRead {fmt : BitVec 4} (h7 : fmt.toNat ≤ 7) (flush : Bool) {c : Nat} (hc : c < 2 ^ (fmt4 fmt).bits) :
    WidensTo (fmt4 fmt) (wideFlush (fmt4 fmt) flush c) (f32Word (unpackRead flush (fmt4 fmt) c)) := by
  have hn := fmt4_number (.inl h7)
  refine widensTo_of_read h7 (wideFlush_lt flush hc) (fun hfin => ?_) fun hnf => ?_
  · have hcode : FiniteCode (fmt4 fmt) c := by
      by_contra h
      rw [wideFlush_of_not_finite flush hc h] at hfin
      exact h hfin
    rw [wideFlush_sign flush hc, unpackRead]
    split
    next hw => exact decodeFlush_finite (.inr hw) flush hcode
    next hw => rw [wideFlush_of_not_wide (Bool.not_eq_true _ ▸ hw)]; exact decodeCode_finite hn hcode
  · have hcode : ¬ FiniteCode (fmt4 fmt) c := fun h => hnf (finiteCode_wideFlush flush h)
    rw [wideFlush_of_not_finite flush hc hcode, unpackRead]
    split
    next hw => exact decodeFlush_not_finite (.inr hw) flush hc hcode
    next => exact decodeCode_not_finite hn hc hcode

/-- The fields of BF16. -/
def bf16Spec : FloatSpec := ⟨8, 7, 127⟩

/-- The subnormal rule leaves the words of the codes that it has left. -/
theorem flushed_unpackRead_bf16 (flush : Bool) {c : Nat} (hc : c < 2 ^ Fmt.bf16.bits) :
    flushed flush (f32Word (unpackRead flush .bf16 c)) = f32Word (unpackRead flush .bf16 c) := by
  obtain ⟨hfin, hnf⟩ := widensTo_unpackRead (fmt := 2) (by decide) flush hc
  have hfmt : fmt4 2 = .bf16 := rfl
  rw [hfmt] at hfin hnf
  generalize f32Word (unpackRead flush .bf16 c) = r at *
  by_cases hcode : FiniteCode .bf16 (wideFlush .bf16 flush c)
  · obtain ⟨hnum, hunits, hzero⟩ := hfin hcode
    by_contra hne
    have hlow : flush = true ∧ r.toNat % 2 ^ (f32Spec.ebits + f32Spec.fbits) < 2 ^ f32Spec.fbits := by
      by_contra hlow
      refine hne (BitVec.eq_of_toNat_eq ?_)
      rw [flushed_toNat, wideFlush_of_wide rfl float_fp32 flush r.isLt, if_neg hlow]
    obtain ⟨rfl, hlow⟩ := hlow
    have hsmall : (unitsOf .fp32 r.toNat).natAbs < codeUnits f32Spec (2 ^ f32Spec.fbits) := by
      have hlt := codeUnits_strictMono f32Spec hlow
      rw [unitsOf_float float_fp32, withSign]; split <;> omega
    have hleast : codeUnits f32Spec (2 ^ f32Spec.fbits) = codeUnits bf16Spec (2 ^ bf16Spec.fbits) := by decide +kernel
    have hbf : Fmt.bf16.float? = some bf16Spec := rfl
    have hzerocode : unitsOf .bf16 (wideFlush .bf16 true c) = 0 := by
      by_cases h : c % 2 ^ (bf16Spec.ebits + bf16Spec.fbits) < 2 ^ bf16Spec.fbits
      · rw [wideFlush_of_wide rfl hbf true hc, if_pos ⟨rfl, h⟩, unitsOf_signedCode hbf (Nat.two_pow_pos _), codeUnits_zero,
          withSign_zero]
      · have hge := (codeUnits_strictMono bf16Spec).monotone (Nat.le_of_not_lt h)
        rw [hunits, wideFlush_of_wide rfl hbf true hc, if_neg (fun h' => h h'.2), unitsOf_float hbf, hleast, withSign] at hsmall
        split at hsmall <;> omega
    have hr := hzero hzerocode
    refine hne (hr ▸ ?_)
    split <;> decide
  · refine flushed_of_nonFinite flush ?_
    rw [hnf hcode]
    split
    · split <;> decide
    · decide

theorem unpackValues : UnpackValues := by
  intro flush fmt c _ h7 hc f v
  refine ⟨fun hint => ?_, fun hint => ?_⟩
  · show unpackCode flush f c = _
    rw [unpackCode, if_pos hint, signed_eq_toInt (Fmt.bits_pos f)]
  · have hlane : v = (if f = .bf16 then flushed flush (f32Word (unpackRead flush f c)) else f32Word (unpackRead flush f c),
        f32NonFinite (f32Word (unpackRead flush f c))) := by
      have hflush := flushCode_fp32 flush (f32Word (unpackRead flush f c)).toNat
      rw [BitVec.ofNat_toNat, BitVec.setWidth_eq] at hflush
      rw [← hflush]
      exact if_neg (by rw [hint]; exact Bool.false_ne_true)
    have hword : (if f = .bf16 then flushed flush (f32Word (unpackRead flush f c)) else f32Word (unpackRead flush f c))
        = f32Word (unpackRead flush f c) := by
      split
      next hbf => rw [hbf]; exact flushed_unpackRead_bf16 flush (hbf ▸ hc)
      next => rfl
    rw [hword] at hlane
    rw [hlane]
    exact ⟨widensTo_unpackRead h7 flush hc, rfl⟩

/-! ## VCVT (R157) -/

theorem encodes_of_reads {f : Fmt} (hn : f.Number) {rm : RM} (hrm : rm ≠ .sr) (sat : Bool) {d : Dy} {x : Int} {neg : Bool}
    (hd : d.Reads x neg) : EncodesNumber f rm sat x neg (encodeVal f rm sat 0 (.fin d)) := by
  have h := encodeExact_encodes hn hrm sat hd.exp
  rwa [hd.units, hd.sign] at h

/-- A code that a lane receives, after the subnormal rule. -/
theorem received_eq {f : Fmt} (hn : f.Number) (flush : Bool) {e : Enc} (he : e.Told f) :
    (⟨if f.isWide then flushCode f flush (e.received f).code else (e.received f).code, (e.received f).nf⟩ : Enc)
      = ⟨wideFlush f flush e.code, receivedNf f e⟩ := by
  rw [received_nf hn he]
  have hcode : (e.received f).code = e.code := rfl
  rw [hcode]
  split
  next hw => rw [flushCode_eq_wideFlush hw flush he.1]
  next hw => rw [wideFlush_of_not_wide (Bool.not_eq_true _ ▸ hw)]

/-- The formats of VCVT: integers and the wide formats. -/
theorem fmt4_convertible : ∀ fmt : BitVec 4, fmt = 0 ∨ fmt = 1 ∨ fmt = 2 ∨ fmt = 10 → (fmt4 fmt).isInt = true ∨ (fmt4 fmt).isWide = true := by
  decide

theorem flushCode_of_convertible {f : Fmt} (h : f.isInt = true ∨ f.isWide = true) (flush : Bool) {c : Nat} (hc : c < 2 ^ f.bits) :
    flushCode f flush c = wideFlush f flush c := by
  rcases h with hint | hw
  · rw [wideFlush_of_not_wide (Fmt.isWide_of_isInt hint)]; simp only [flushCode, Fmt.float_of_isInt hint]
  · exact flushCode_eq_wideFlush hw flush hc

theorem convertValues : ConvertValues := by
  intro flush sat rm sfmt dfmt a hs hd _ hrm sf df sat' c neg
  have hsf : sf.isInt = true ∨ sf.isWide = true := fmt4_convertible sfmt hs
  have hdf : df.isInt = true ∨ df.isWide = true := fmt4_convertible dfmt hd
  have hn : df.Number := Fmt.number_of_flushes hdf
  have hc : c < 2 ^ sf.bits := Nat.mod_lt _ (Nat.two_pow_pos _)
  have henc : (if df = .fp32 then encodeVal .fp32 rm false 0 (decodeFlush sf flush c) else encodeVal df rm sat' 0 (decodeFlush sf flush c))
      = encodeVal df rm sat' 0 (decodeFlush sf flush c) := by
    split
    next h =>
      have hsat : sat' = false := by show (sat && df != .fp32) = false; rw [h]; exact Bool.and_false sat
      rw [hsat, h]
    next => rfl
  have htold : (encodeVal df rm sat' 0 (decodeFlush sf flush c)).Told df := by
    refine encodeVal_told hn rm sat' 0 fun d hd => ?_
    by_cases hfin : FiniteCode sf c
    · obtain ⟨d', hd', hread⟩ := decodeFlush_finite hsf flush hfin
      obtain rfl : d' = d := Val.fin.inj (hd'.symm.trans hd)
      exact hread.exp
    · rw [decodeFlush_not_finite hsf flush hc hfin] at hd
      split at hd <;> cases hd
  refine ⟨encodeVal df rm sat' 0 (decodeFlush sf flush c), ?_, fun hfin => ?_, fun hfin => ?_⟩
  · have hlane : vcvtLane flush sat' rm sf df a = (BitVec.ofNat 32 (flushCode df flush (encodeVal df rm sat' 0 (decodeFlush sf flush c)).code),
        ((encodeVal df rm sat' 0 (decodeFlush sf flush c)).received df).nf) := by rw [← henc]; rfl
    rw [hlane, received_nf hn htold, flushCode_of_convertible hdf flush htold.1]
  · obtain ⟨d, hd, hread⟩ := decodeFlush_finite hsf flush hfin
    rw [hd]
    exact encodes_of_reads hn hrm sat' hread
  · have hinf : sf.hasInf = true := Fmt.hasInf_of_isWide (hsf.resolve_left fun hint => hfin ⟨hc, .inl hint⟩)
    rw [decodeFlush_not_finite hsf flush hc hfin, hinf]
    simp only [true_and]
    split
    · exact encodeNonFinite_inf df sat' neg
    · rfl

/-! ## VEXPO (R163) -/

theorem blockScales : BlockScales := by
  intro flush fmt a h1 h7 x e top
  have htop : ∀ fmt : BitVec 4, 1 ≤ fmt.toNat → fmt.toNat ≤ 7 →
      (fmt4 fmt).emaxf = ([0, 15, 127, 8, 15, 2, 6, 2] : List Int).getD fmt.toNat 0 := by decide
  refine ⟨fun hnf => ?_, fun hfin h0 => ?_, fun hfin k hlo hhi => ?_⟩
  · show blockScale (fmt4 fmt) (f32In flush a) = _
    rw [f32In_nonFinite flush hnf]
    split <;> rfl
  · obtain ⟨d, hd, hread⟩ := f32In_reads flush hfin
    have hman : d.man = 0 := man_eq_zero (hread.units.trans h0)
    show blockScale (fmt4 fmt) (f32In flush a) = _
    rw [hd, blockScale, if_pos hman]
  · obtain ⟨d, hd, hread⟩ := f32In_reads flush hfin
    have hunits : d.units = x.natAbs := by
      have hx : d.at (-300) = x := hread.units
      rw [← hx, Dy.at_eq_withSign, withSign]; split <;> omega
    rw [← hunits] at hlo hhi
    have hman : d.man ≠ 0 := fun h => by
      rw [Dy.units, h, Nat.zero_mul] at hlo
      exact absurd hlo (Nat.not_le_of_lt (Nat.two_pow_pos k))
    have hlog := floorLog2_eq hread.exp hman hlo hhi
    show blockScale (fmt4 fmt) (f32In flush a) = _
    rw [hd, blockScale, if_neg hman, hlog, htop fmt h1 h7, min_comm]

/-! ## VDITH (R141) -/

theorem and_low_word (t : W64) : (t.truncate 32).zeroExtend 64 = t &&& 0xFFFFFFFF := by
  refine BitVec.eq_of_toNat_eq ?_
  rw [BitVec.toNat_and, show (0xFFFFFFFF : W64).toNat = 2 ^ 32 - 1 from rfl, Nat.and_two_pow_sub_one_eq_mod]
  simp only [BitVec.truncate_eq_setWidth, BitVec.toNat_setWidth]
  omega

theorem Fmt.dithers_iff (f : Fmt) : f.dithers = true ↔ f = .e4m3 ∨ f = .e5m2 ∨ f = .e2m1 ∨ f = .int8 ∨ f = .int4 := by
  cases f <;> decide

theorem offsetRule (fr : Frame) (den : Bool) (f : Fmt) (n : W64) : OffsetRule fr den f n := by
  have hcond : (f.dithers && den && fr.seed != 0) = true
      ↔ (f = .e4m3 ∨ f = .e5m2 ∨ f = .e2m1 ∨ f = .int8 ∨ f = .int4) ∧ den = true ∧ fr.seed ≠ 0 := by
    rw [Bool.and_eq_true, Bool.and_eq_true, Fmt.dithers_iff, bne_iff_ne, and_assoc]
  refine ⟨fun h => if_neg (mt hcond.1 h), fun h => ?_⟩
  have hkey : (mixh fr.seed (fr.tag &&& 0xFFFFFFFF) n).toNat / 2 ^ 60 < 16 := by omega
  have hd : fr.offsetFor den f n = 2 * ((mixh fr.seed (fr.tag &&& 0xFFFFFFFF) n).toNat / 2 ^ 60 : Nat) - 15 := by
    rw [Frame.offsetFor, if_pos (hcond.2 h), Frame.offset, Frame.key, Frame.tagIn, and_low_word]
    omega
  rw [hd]
  omega

theorem offsetFor_bounds (fr : Frame) (den : Bool) (f : Fmt) (n : W64) : -15 ≤ fr.offsetFor den f n ∧ fr.offsetFor den f n ≤ 15 := by
  obtain ⟨hno, hyes⟩ := offsetRule fr den f n
  by_cases h : (f = .e4m3 ∨ f = .e5m2 ∨ f = .e2m1 ∨ f = .int8 ∨ f = .int4) ∧ den = true ∧ fr.seed ≠ 0
  · exact ⟨(hyes h).2.1, (hyes h).2.2.1⟩
  · rw [hno h]; decide

theorem f32Out_honoured (d : Dy) : f32Out false .rne (.fin d) = f32Word (.fin d) := by
  have hcode : ∀ c, flushCode .fp32 false c = c := fun c => by simp [flushCode, float_fp32]
  show BitVec.ofNat 32 (flushCode .fp32 false _) = _
  rw [hcode]
  rfl

theorem ditherValues : DitherValues := by
  intro fr den fmt a h7 n d r
  obtain ⟨hlo, hhi⟩ := offsetFor_bounds fr den (fmt4 fmt) n
  have hread : (⟨decide (d < 0), d.natAbs, -5⟩ : Dy).Reads (d * 2 ^ 295) (decide (d < 0)) := by
    refine ⟨show (-149 : Int) ≤ -5 by decide, ?_, rfl⟩
    rw [Dy.at_eq_withSign, Dy.units, withSign_mul, withSign_natAbs, show ((-5 : Int) + 300).toNat = 295 from rfl, Nat.cast_pow,
      Nat.cast_ofNat]
  have habs : d.natAbs < 2 ^ 24 := by show (fr.offsetFor den (fmt4 fmt) n).natAbs < 2 ^ 24; omega
  obtain ⟨hnum, hunits, hzero⟩ := f32Word_exact hread (inFp32_int habs (by decide) (by decide))
  have hlane : r = f32Word (.fin ⟨decide (d < 0), d.natAbs, -5⟩) := f32Out_honoured _
  rw [hlane]
  refine ⟨offsetRule fr den (fmt4 fmt) n, hnum, hunits, fun h0 => ?_⟩
  rw [hzero (by rw [h0, Int.zero_mul]), h0]
  rfl

/-! ## VSRND (R164) -/

theorem stochasticValues : StochasticValues := by
  intro flush sat fr den fmt i a h1 h7 f draw v
  have hn : f.Number := fmt4_number (.inl h7)
  have hdraw : fr.draw den (fr.n0 + BitVec.ofNat 64 i) = draw := by rw [Frame.draw, Frame.tagIn, and_low_word]
  have htold : (encodeVal f .sr sat draw (f32In flush a)).Told f := encodeVal_told hn .sr sat draw fun d hd => f32In_exp hd
  have hlane : v = (f32Word (decodeCode f (encodeVal f .sr sat draw (f32In flush a)).code),
      ((encodeVal f .sr sat draw (f32In flush a)).received f).nf) := by rw [← hdraw]; rfl
  refine ⟨encodeVal f .sr sat draw (f32In flush a), ?_, ?_, ?_, fun hfin => ?_⟩
  · rw [hlane]
    exact widensTo_of_read h7 htold.1 (decodeCode_finite hn) (decodeCode_not_finite hn htold.1)
  · rw [hlane]; exact received_nf hn htold
  · rw [← encScaled_unit]; exact encScaled_nonFinite f .sr sat draw 0 (by decide) flush a
  · obtain ⟨d, hd, hread⟩ := f32In_reads flush hfin
    have hdraws := encodeExact_draws hn sat draw hread.exp
    rw [hread.units, hread.sign] at hdraws
    rw [hd, EncodesDrawn, scaledUnits_unit]
    exact hdraws

end Sys2Proof.Machine
end

section
/-! Units of the last place (R131), offsets (R133) and the places of the codes in the order of their values (R132). -/

namespace Sys2Proof.Machine

/-! ## Offsets of a number -/

/-- What an offset of d 32nds of 2^u adds to a number. -/
theorem dyAddOffset_spec {y : Dy} (hy : -300 ≤ y.exp) {u : Int} (hu : -295 ≤ u) (d : Int) :
    (dyAddOffset y d u).exp = min y.exp (u - 5) ∧ (dyAddOffset y d u).at (-300) = y.at (-300) + d * 2 ^ (u + 300).toNat / 32
      ∧ (dyAddOffset y d u).neg = if (dyAddOffset y d u).at (-300) = 0 then y.neg else decide ((dyAddOffset y d u).at (-300) < 0) := by
  have he : -300 ≤ min y.exp (u - 5) := by omega
  have hcast : ∀ n : Nat, ((2 ^ n : Nat) : Int) = 2 ^ n := fun n => Int.natCast_pow ..
  have hpow : ∀ n : Nat, (0 : Int) < 2 ^ n := fun n => Int.pow_pos (by decide)
  generalize hs : y.at (min y.exp (u - 5)) + d * (2 ^ (u - 5 - min y.exp (u - 5)).toNat : Nat) = s
  have hdy : dyAddOffset y d u = ⟨if s = 0 then y.neg else decide (s < 0), s.natAbs, min y.exp (u - 5)⟩ := by rw [← hs]; rfl
  have hat : (dyAddOffset y d u).at (-300) = s * 2 ^ (min y.exp (u - 5) + 300).toNat := by
    rw [hdy, Dy.at_eq_withSign, Dy.units, withSign_mul, hcast]
    congr 1
    show withSign (if s = 0 then y.neg else decide (s < 0)) s.natAbs = s
    split
    next h0 => rw [h0]; exact withSign_zero _
    next => exact withSign_natAbs s
  have hoffset : d * 2 ^ (u + 300).toNat / 32
      = d * (2 ^ (u - 5 - min y.exp (u - 5)).toNat : Nat) * 2 ^ (min y.exp (u - 5) + 300).toNat := by
    have hexp : (u + 300).toNat = (u - 5 - min y.exp (u - 5)).toNat + (min y.exp (u - 5) + 300).toNat + 5 := by omega
    rw [hexp, pow_succ, pow_succ, pow_succ, pow_succ, pow_succ, pow_add, hcast]
    generalize (2 : Int) ^ (u - 5 - min y.exp (u - 5)).toNat = A
    generalize (2 : Int) ^ (min y.exp (u - 5) + 300).toNat = B
    rw [show d * (A * B * 2 * 2 * 2 * 2 * 2) = d * A * B * 32 by ring, Int.mul_ediv_cancel _ (by decide)]
  refine ⟨by rw [hdy], ?_, ?_⟩
  · rw [hat, hoffset, Dy.at_scale he (min_le_left _ _), ← Int.add_mul, hs]
  · rw [hat]
    have hzero : s * 2 ^ (min y.exp (u - 5) + 300).toNat = 0 ↔ s = 0 := by
      rw [Int.mul_eq_zero]; exact or_iff_left (hpow _).ne'
    have hneg : s * 2 ^ (min y.exp (u - 5) + 300).toNat < 0 ↔ s < 0 := by
      rw [← Int.zero_mul (2 ^ (min y.exp (u - 5) + 300).toNat), Int.mul_lt_mul_right (hpow _), Int.zero_mul]
    simp only [hzero, hneg, hdy]

/-! ## Units of the last place (R131) -/

theorem realUlp_ge {f : Fmt} (hn : f.Number) (y : Dy) : -149 ≤ realUlp f y := by
  rcases hn with hint | ⟨fs, hf⟩
  · simp only [realUlp, Fmt.float_of_isInt hint]; decide
  · have := Fmt.ulpAt_ge' hf 0
    simp only [realUlp, hf, ulpExp]
    simp only [ulpAt] at this
    split <;> omega

/-- The unit of the last place of a number that is not 0. -/
theorem realUlp_units {f : Fmt} (hn : f.Number) {y : Dy} (hy : -300 ≤ y.exp) (h0 : y.man ≠ 0) :
    (2 : Int) ^ (realUlp f y + 300).toNat = ulpUnits f (y.at (-300)) := by
  rcases hn with hint | ⟨fs, hf⟩
  · simp only [realUlp, ulpUnits, Fmt.float_of_isInt hint]; rfl
  · have habs : (y.at (-300)).natAbs = y.units := by rw [Dy.at_eq_withSign, withSign]; split <;> omega
    have hunits : y.units ≠ 0 := Nat.mul_ne_zero h0 (Nat.two_pow_pos _).ne'
    have hlog := floorLog2_eq hy h0 (Nat.log2_self_le hunits) Nat.lt_log2_self
    have hb := Fmt.bias_le hf
    simp only [realUlp, ulpUnits, hf, if_neg h0, habs, ulpExp]
    simp only [floorLog2] at hlog
    rw [hlog]
    congr 1
    omega

/-- The unit of the last place of a code is that of its number. -/
theorem codeUlp_eq_realUlp {f : Fmt} (hn : f.Number) {c : Nat} (hc : FiniteCode f c) {v : Dy} (hv : decodeCode f c = .fin v)
    (h0 : v.man ≠ 0) : codeUlp f c = realUlp f v := by
  rcases hn with hint | ⟨fs, hf⟩
  · simp only [realUlp, codeUlp, Fmt.float_of_isInt hint]
  · rw [finiteCode_float hf, ← Fmt.bits_of_float hf] at hc
    rw [decodeCode_float hf hc.1, decodeFloat_of_le hf hc.2, Val.fin.injEq] at hv
    have hfrac : bitsOf c 0 fs.fbits < 2 ^ fs.fbits := Nat.mod_lt _ (Nat.two_pow_pos _)
    simp only [realUlp, codeUlp, hf, if_neg h0, ulpExp]
    split at hv
    next hexp =>
      have hlen := bitLen_le_iff.2 hfrac
      rw [← hv, hexp]
      simp only [ulpAt]
      omega
    next hexp =>
      have hlen : bitLen (2 ^ fs.fbits + bitsOf c 0 fs.fbits) = fs.fbits + 1 :=
        bitLen_eq (Nat.le_add_right ..) (by rw [Nat.pow_succ]; omega)
      rw [← hv]
      simp only [ulpAt, hlen]
      omega

theorem codeUlp_zero_le {f : Fmt} (hn : f.Number) (c : Nat) : codeUlp f 0 ≤ codeUlp f c := by
  rcases hn with hint | ⟨fs, hf⟩
  · simp only [codeUlp, Fmt.float_of_isInt hint]; exact le_rfl
  · simp only [codeUlp, hf, bitsOf, Nat.zero_div, Nat.zero_mod]; omega

theorem codeUlp_zero_ge {f : Fmt} (hn : f.Number) : -149 ≤ codeUlp f 0 := by
  rcases hn with hint | ⟨fs, hf⟩
  · simp only [codeUlp, Fmt.float_of_isInt hint]; decide
  · have := Fmt.ulpAt_ge' hf 0
    simp only [codeUlp, hf, bitsOf, Nat.zero_div, Nat.zero_mod]
    simp only [ulpAt] at this
    omega

/-- A code's number is counted in its unit of the last place. -/
theorem decodeCode_exp {f : Fmt} (hn : f.Number) {c : Nat} (hc : FiniteCode f c) {v : Dy} (hv : decodeCode f c = .fin v) :
    v.exp = codeUlp f c := by
  rcases hn with hint | ⟨fs, hf⟩
  · rw [decodeCode_int hint, Val.fin.injEq] at hv
    simp only [codeUlp, Fmt.float_of_isInt hint, ← hv]
  · rw [finiteCode_float hf, ← Fmt.bits_of_float hf] at hc
    rw [decodeCode_float hf hc.1, decodeFloat_of_le hf hc.2, Val.fin.injEq] at hv
    simp only [codeUlp, hf]
    rw [← hv]
    split <;> simp only [ulpAt] <;> omega

/-! ## Places (R132) -/

/-- The places of the finite codes of a format. -/
def FinitePlace (f : Fmt) (k : Int) : Prop := (if f.isInt then -(f.maxCode : Int) - 1 else -(f.maxCode : Int)) ≤ k ∧ k ≤ f.maxCode

theorem placeUnits_float {f : Fmt} {fs : FloatSpec} (hf : f.float? = some fs) {k : Int} (hk : FinitePlace f k) :
    placeUnits f k = withSign (decide (k < 0)) (codeUnits fs k.natAbs) := by
  have hint := Fmt.isInt_of_float hf
  simp only [FinitePlace, hint, Bool.false_eq_true, if_false] at hk
  simp only [placeUnits, hint, Bool.false_eq_true, if_false, unitsOf_of_le_maxCode hf (show k.natAbs ≤ f.maxCode by omega), withSign,
    decide_eq_true_iff]

/-- The number at the place of a finite code is the code's. -/
theorem placeUnits_placeOf {f : Fmt} (hn : f.Number) {c : Nat} (hc : FiniteCode f c) :
    FinitePlace f (placeOf f c) ∧ placeUnits f (placeOf f c) = unitsOf f c := by
  rcases hn with hint | ⟨fs, hf⟩
  · have hmax := (Fmt.maxCode_int hint).symm
    have hlo := BitVec.le_toInt (BitVec.ofNat f.bits c)
    have hhi := BitVec.toInt_lt (x := BitVec.ofNat f.bits c)
    rw [Int.natCast_pow, Nat.cast_ofNat] at hmax
    simp only [FinitePlace, placeOf, placeUnits, hint, if_true, unitsOf_int hint, and_true]
    omega
  · have hint := Fmt.isInt_of_float hf
    rw [finiteCode_float hf] at hc
    have hsplit := Nat.div_add_mod' c (2 ^ (fs.ebits + fs.fbits))
    have hplace : placeOf f c = withSign (c.testBit (fs.ebits + fs.fbits)) (c % 2 ^ (fs.ebits + fs.fbits)) := by
      simp only [placeOf, hint, Bool.false_eq_true, if_false, Fmt.bits_of_float hf, Nat.add_sub_cancel, withSign]
      rw [div_top_bit hc.1] at hsplit
      cases hb : c.testBit (fs.ebits + fs.fbits)
      · rw [hb, b2n, if_neg Bool.false_ne_true, Nat.zero_mul, Nat.zero_add] at hsplit
        rw [hsplit]
      · rfl
    have hfin : FinitePlace f (placeOf f c) := by
      simp only [FinitePlace, hint, Bool.false_eq_true, if_false, hplace, withSign]
      split <;> omega
    refine ⟨hfin, ?_⟩
    rw [placeUnits_float hf hfin, hplace, unitsOf_float hf]
    generalize c % 2 ^ (fs.ebits + fs.fbits) = r
    rcases Nat.eq_zero_or_pos r with rfl | hpos
    · rw [withSign_zero, Int.natAbs_zero, codeUnits_zero, withSign_zero, withSign_zero]
    · rw [decide_withSign hpos]
      congr 2
      rw [withSign]; split <;> omega

/-- Only the zero codes stand for 0. -/
theorem unitsOf_eq_zero {f : Fmt} (hn : f.Number) {c : Nat} (hc : FiniteCode f c) : unitsOf f c = 0 ↔ placeOf f c = 0 := by
  obtain ⟨hfin, hunits⟩ := placeUnits_placeOf hn hc
  rw [← hunits]
  rcases hn with hint | ⟨fs, hf⟩
  · simp only [placeUnits, hint, if_true, Int.mul_eq_zero]
    exact or_iff_left (Int.pow_pos (by decide)).ne'
  · rw [placeUnits_float hf hfin, withSign_eq_zero, ← codeUnits_zero fs, (codeUnits_strictMono fs).injective.eq_iff, Int.natAbs_eq_zero]

/-! ## Codes through an offset (R133) -/

/-- An offset is less than half of the unit of the last place of a number that is not 0. -/
theorem offset_ne_zero {X d Q : Int} (hQ : 0 < Q) (hd : -15 ≤ d ∧ d ≤ 15) (hX : Q * 32 ≤ X.natAbs) : X - d * Q ≠ 0 := by
  have hlo : -15 * Q ≤ d * Q := Int.mul_le_mul_of_nonneg_right hd.1 hQ.le
  have hhi : d * Q ≤ 15 * Q := Int.mul_le_mul_of_nonneg_right hd.2 hQ.le
  omega

/-- A code through an offset: the number of its place less the offset. -/
theorem decOffset_finite {f : Fmt} (hn : f.Number) {c : Nat} (hc : FiniteCode f c) {d : Int} (hd : -15 ≤ d ∧ d ≤ 15) :
    ∃ v : Dy, decOffset f c d = .fin v ∧ codeUlp f 0 - 5 ≤ v.exp ∧ v.at (-300) = ditheredUnits f d (placeOf f c)
      ∧ (v.man = 0 → v.neg = c.testBit (f.bits - 1) ∧ placeOf f c = 0) := by
  obtain ⟨v, hv, hread⟩ := decodeCode_finite hn hc
  have hunits := (placeUnits_placeOf hn hc).2
  have hplace := unitsOf_eq_zero hn hc
  have hexp := decodeCode_exp hn hc hv
  have hlow := codeUlp_zero_le hn c
  have hge := codeUlp_zero_ge hn
  rcases eq_or_ne v.man 0 with h0 | h0
  · have hzero : placeOf f c = 0 := hplace.1 (hread.units.symm.trans (Dy.at_of_man h0))
    refine ⟨v, by rw [decOffset, hv]; exact if_pos h0, by omega, ?_, fun _ => ⟨hread.sign, hzero⟩⟩
    rw [Dy.at_of_man h0, ditheredUnits, if_pos hzero]
  · obtain ⟨hoexp, hoat, -⟩ := dyAddOffset_spec hread.exp (u := codeUlp f c) (by omega) (-d)
    have hne : placeOf f c ≠ 0 := fun h => h0 (man_eq_zero (hread.units.trans (hplace.2 h)))
    have hulp : (2 : Int) ^ (codeUlp f c + 300).toNat = ulpUnits f (v.at (-300)) := by
      rw [codeUlp_eq_realUlp hn hc hv h0, realUlp_units hn hread.exp h0]
    have hQ : (0 : Int) < 2 ^ (codeUlp f c + 295).toNat := Int.pow_pos (by decide)
    have h32 : (2 : Int) ^ (codeUlp f c + 300).toNat = 2 ^ (codeUlp f c + 295).toNat * 32 := by
      rw [show (codeUlp f c + 300).toNat = (codeUlp f c + 295).toNat + 5 by omega, pow_add]; rfl
    have hdiv : ∀ e : Int, e * 2 ^ (codeUlp f c + 300).toNat / 32 = e * 2 ^ (codeUlp f c + 295).toNat := fun e => by
      rw [h32, ← Int.mul_assoc, Int.mul_ediv_cancel _ (by decide)]
    have hat : (dyAddOffset v (-d) (codeUlp f c)).at (-300) = v.at (-300) - d * 2 ^ (codeUlp f c + 295).toNat := by
      rw [hoat, hdiv, Int.neg_mul, Int.sub_eq_add_neg]
    have hlarge : 2 ^ (codeUlp f c + 295).toNat * 32 ≤ ((v.at (-300)).natAbs : Int) := by
      have habs : (v.at (-300)).natAbs = v.units := by rw [Dy.at_eq_withSign, withSign]; split <;> omega
      rw [habs, ← h32, Dy.units, hexp]
      exact_mod_cast Nat.le_mul_of_pos_left _ (Nat.pos_of_ne_zero h0)
    refine ⟨dyAddOffset v (-d) (codeUlp f c), by rw [decOffset, hv]; exact if_neg h0, by omega, ?_, fun hman => ?_⟩
    · rw [hat, ditheredUnits, if_neg hne, hunits, ← hread.units, ← hulp, hdiv]
    · exact absurd (hat.symm.trans (Dy.at_of_man hman)) (offset_ne_zero hQ hd hlarge)

/-- A code that is no number is decoded without an offset. -/
theorem decOffset_not_finite {f : Fmt} (hn : f.Number) {c : Nat} (hc : c < 2 ^ f.bits) (hfin : ¬ FiniteCode f c) (d : Int) :
    decOffset f c d = if f.hasInf = true ∧ c % 2 ^ (f.bits - 1) = f.infCode then .inf (c.testBit (f.bits - 1)) else .nan := by
  rw [decOffset, decodeCode_not_finite hn hc hfin]
  by_cases h : f.hasInf = true ∧ c % 2 ^ (f.bits - 1) = f.infCode
  · rw [if_pos h]
  · rw [if_neg h]

end Sys2Proof.Machine
end

section
/-! The encode through an offset (R132): the place nearest to the offset number, and the candidate whose decoded value lies nearest. -/

namespace Sys2Proof.Machine

/-! ## The nearest place -/

/-- The number that an encode through an offset takes its place of. -/
def offsetUnits (f : Fmt) (d y : Int) : Int := if y = 0 then 0 else y + d * ulpUnits f y / 32

/-- A number rounded to an integer, with the exponent unbounded, leaves the places of a format (R132). -/
def BeyondPlaces (f : Fmt) (z : Int) : Prop := if f.isInt then ∃ i, RoundsToInt .rne z i ∧ ¬ FinitePlace f i else Overflows f .rne z

/-- The place nearest to a number, an even one where two are as near. -/
def NearestPlace (f : Fmt) (z c0 : Int) : Prop := FinitePlace f c0 ∧ ∀ j, FinitePlace f j →
  (placeUnits f c0 - z).natAbs < (placeUnits f j - z).natAbs
    ∨ ((placeUnits f c0 - z).natAbs = (placeUnits f j - z).natAbs ∧ (j = c0 ∨ c0 % 2 = 0))

/-- The dyadic number whose place an encode through an offset takes. -/
def offsetDy (f : Fmt) (y : Dy) (d : Int) : Dy := if y.man = 0 then y else dyAddOffset y d (realUlp f y)

theorem offsetDy_spec {f : Fmt} (hn : f.Number) {y : Dy} (hy : -300 ≤ y.exp) (d : Int) :
    -300 ≤ (offsetDy f y d).exp ∧ (offsetDy f y d).at (-300) = offsetUnits f d (y.at (-300))
      ∧ ((offsetDy f y d).at (-300) ≠ 0 → (offsetDy f y d).neg = decide ((offsetDy f y d).at (-300) < 0)) := by
  rw [offsetDy]
  split
  next h0 => exact ⟨hy, by rw [offsetUnits, if_pos (Dy.at_of_man h0), Dy.at_of_man h0], fun h => absurd (Dy.at_of_man h0) h⟩
  next h0 =>
    have hge := realUlp_ge hn y
    obtain ⟨hexp, hat, hneg⟩ := dyAddOffset_spec hy (u := realUlp f y) (by omega) d
    refine ⟨by omega, ?_, fun h => by rw [hneg, if_neg h]⟩
    rw [hat, realUlp_units hn hy h0, offsetUnits, if_neg fun h => h0 (man_eq_zero h)]

/-- Every number has a nearest multiple of U, an even one where two are as near. -/
theorem exists_nearest {U : Nat} (hU : 0 < U) (z : Int) :
    ∃ i : Int, (2 * (i * U - z)).natAbs ≤ U ∧ ((2 * (i * U - z)).natAbs = U → i % 2 = 0) := by
  have hU' : (0 : Int) < U := by exact_mod_cast hU
  have hsplit := Int.ediv_mul_add_emod z U
  have hrem := Int.emod_nonneg z hU'.ne'
  have hlt := Int.emod_lt_of_pos z hU'
  by_cases h : 2 * (z % U) < U ∨ (2 * (z % U) = U ∧ (z / U) % 2 = 0)
  · refine ⟨z / U, ?_⟩
    rw [show 2 * (z / U * U - z) = -(2 * (z % U)) by linarith]
    omega
  · refine ⟨z / U + 1, ?_⟩
    rw [show 2 * ((z / U + 1) * U - z) = 2 * (U - z % U) by linarith]
    omega

/-- The nearest multiple of U is nearer than any other, or even. -/
theorem nearest_of_half {U : Nat} (hU : 0 < U) {z i : Int} (hnear : (2 * (i * U - z)).natAbs ≤ U)
    (htie : (2 * (i * U - z)).natAbs = U → i % 2 = 0) (j : Int) :
    (i * U - z).natAbs < (j * U - z).natAbs ∨ ((i * U - z).natAbs = (j * U - z).natAbs ∧ (j = i ∨ i % 2 = 0)) := by
  have hU' : (0 : Int) ≤ U := Int.natCast_nonneg U
  rcases lt_trichotomy j i with h | rfl | h
  · have hmul : (j + 1) * U ≤ i * U := Int.mul_le_mul_of_nonneg_right h hU'
    rw [Int.add_mul, Int.one_mul] at hmul
    omega
  · exact .inr ⟨rfl, .inl rfl⟩
  · have hmul : (i + 1) * U ≤ j * U := Int.mul_le_mul_of_nonneg_right h hU'
    rw [Int.add_mul, Int.one_mul] at hmul
    omega

/-- Rounding to an integer, by the unit 1. -/
theorem roundsToInt_rne {U : Nat} (hU : U = 2 ^ 300) (z i : Int) :
    RoundsToInt .rne z i ↔ (2 * (i * U - z)).natAbs ≤ U ∧ ((2 * (i * U - z)).natAbs = U → i % 2 = 0) := by
  have hone : (2 : Int) ^ 300 = (U : Int) := by rw [hU, Nat.cast_pow, Nat.cast_ofNat]
  simp only [RoundsToInt, hone, ← hU]

theorem finitePlace_int {f : Fmt} (hint : f.isInt = true) (i : Int) : FinitePlace f i ↔ ordLo f ≤ i ∧ i ≤ ordHi f := by
  simp only [FinitePlace, ordLo, ordHi, hint, if_true, Fmt.maxCode_int hint]
  omega

/-- The nearest place of an integer format is the rounded integer, where that is in range. -/
theorem nearestOrd_int {f : Fmt} (hint : f.isInt = true) {y : Dy} (hy : -300 ≤ y.exp) (d : Int) :
    (∃ c0, nearestOrd f y d = some c0 ∧ ¬ BeyondPlaces f (offsetUnits f d (y.at (-300))) ∧ NearestPlace f (offsetUnits f d (y.at (-300))) c0)
      ∨ (nearestOrd f y d = none ∧ BeyondPlaces f (offsetUnits f d (y.at (-300)))) := by
  obtain ⟨U, hU, hpos⟩ : ∃ U : Nat, U = 2 ^ 300 ∧ 0 < U := ⟨_, rfl, Nat.two_pow_pos _⟩
  have hone : (2 : Int) ^ 300 = (U : Int) := by rw [hU, Nat.cast_pow, Nat.cast_ofNat]
  obtain ⟨hexp, hat, -⟩ := offsetDy_spec (.inl hint) hy d
  rw [← hat]
  obtain ⟨i, hi⟩ := exists_nearest hpos ((offsetDy f y d).at (-300))
  have hround := (roundsToInt_rne hU _ _).2 hi
  have hunique : ∀ j, RoundsToInt .rne ((offsetDy f y d).at (-300)) j → j = i := fun j hj => by
    rw [(roundAt_zero_eq (by decide) hexp hj).2, ← (roundAt_zero_eq (by decide) hexp hround).2]
  have hord : nearestOrd f y d = if ordLo f ≤ i ∧ i ≤ ordHi f then some i else none := by
    obtain ⟨hneg, hman⟩ := roundAt_zero_eq (by decide) hexp hround
    simp only [nearestOrd, Fmt.float_of_isInt hint]
    rw [← hneg] at hman
    rw [hman]
    rfl
  rw [hord, BeyondPlaces, if_pos hint]
  by_cases hfin : FinitePlace f i
  · refine .inl ⟨i, if_pos ((finitePlace_int hint i).1 hfin), fun ⟨j, hj, hout⟩ => hout (hunique j hj ▸ hfin), hfin, fun j _ => ?_⟩
    simp only [placeUnits, hint, if_true, hone]
    exact nearest_of_half hpos hi.1 hi.2 j
  · exact .inr ⟨if_neg (mt (finitePlace_int hint i).2 hfin), i, hround, hfin⟩

/-- The code at a place of a floating-point format. -/
theorem signedCode_place {f : Fmt} {fs : FloatSpec} (hf : f.float? = some fs) {k : Int} (hk : FinitePlace f k) :
    FiniteCode f (signedCode fs (decide (k < 0)) k.natAbs) ∧ unitsOf f (signedCode fs (decide (k < 0)) k.natAbs) = placeUnits f k := by
  have hle : k.natAbs ≤ f.maxCode := by
    simp only [FinitePlace, Fmt.isInt_of_float hf, Bool.false_eq_true, if_false] at hk; omega
  exact ⟨finiteCode_signedCode hf hle _, by rw [unitsOf_signedCode hf (lt_of_le_of_lt hle (Fmt.maxCode_lt hf)), placeUnits_float hf hk]⟩

/-- The place of a code of a sign and a magnitude. -/
theorem finitePlace_withSign {f : Fmt} {fs : FloatSpec} (hf : f.float? = some fs) {n : Nat} (hn : n ≤ f.maxCode) (neg : Bool) :
    FinitePlace f (withSign neg n) ∧ placeUnits f (withSign neg n) = unitsOf f (signedCode fs neg n) := by
  have hfin : FinitePlace f (withSign neg n) := by
    simp only [FinitePlace, Fmt.isInt_of_float hf, Bool.false_eq_true, if_false, withSign]; split <;> omega
  refine ⟨hfin, ?_⟩
  rw [placeUnits_float hf hfin, unitsOf_signedCode hf (lt_of_le_of_lt hn (Fmt.maxCode_lt hf))]
  rcases Nat.eq_zero_or_pos n with rfl | hpos
  · rw [withSign_zero, Int.natAbs_zero, codeUnits_zero, withSign_zero, withSign_zero]
  · rw [decide_withSign hpos]
    congr 2
    rw [withSign]; split <;> omega

theorem placeUnits_injective {f : Fmt} {fs : FloatSpec} (hf : f.float? = some fs) {j k : Int} (hj : FinitePlace f j) (hk : FinitePlace f k)
    (h : placeUnits f j = placeUnits f k) : j = k := by
  have hzero := fun i : Int => codeUnits_pos fs (c := i.natAbs)
  have hinj : ∀ {a b : Nat}, codeUnits fs a = codeUnits fs b → a = b := fun h => (codeUnits_strictMono fs).injective h
  rw [placeUnits_float hf hj, placeUnits_float hf hk] at h
  have hposj := hzero j
  have hposk := hzero k
  by_cases hj0 : j < 0 <;> by_cases hk0 : k < 0 <;>
    simp only [withSign, hj0, hk0, decide_true, decide_false, if_true, Bool.false_eq_true, if_false] at h
  · have := hinj (Int.ofNat.inj (Int.neg_inj.1 h)); omega
  · omega
  · omega
  · have := hinj (Int.ofNat.inj h); omega

/-- The nearest place of a floating-point format is the code that RNE rounds to, where that is finite. -/
theorem nearestOrd_float {f : Fmt} {fs : FloatSpec} (hf : f.float? = some fs) {y : Dy} (hy : -300 ≤ y.exp) (d : Int) :
    (∃ c0, nearestOrd f y d = some c0 ∧ ¬ BeyondPlaces f (offsetUnits f d (y.at (-300))) ∧ NearestPlace f (offsetUnits f d (y.at (-300))) c0)
      ∨ (nearestOrd f y d = none ∧ BeyondPlaces f (offsetUnits f d (y.at (-300)))) := by
  have hint := Fmt.isInt_of_float hf
  obtain ⟨hexp, hat, -⟩ := offsetDy_spec (.inr ⟨fs, hf⟩) hy d
  obtain ⟨c, m, k, hc, hk, hm, hlo, hhi, hround⟩ := roundFloat_eq hf (rm := .rne) (by decide) 0 hexp
  rw [← hat, BeyondPlaces, hint, if_neg Bool.false_ne_true, Dy.at_eq_withSign, overflows_iff hf hlo hhi]
  have hord : nearestOrd f y d = if roundedCode fs .rne (offsetDy f y d).neg c (offsetDy f y d).units ≤ f.maxCode
      then some (withSign (offsetDy f y d).neg (roundedCode fs .rne (offsetDy f y d).neg c (offsetDy f y d).units)) else none := by
    generalize hup : takesUpper .rne (offsetDy f y d).neg (c % 2 == 1) (codeUnits fs c) (codeUnits fs (c + 1)) (offsetDy f y d).units = up
      at hround
    have hb : b2n up ≤ 1 := by cases up <;> decide
    have hk' : k = 0 ∨ 2 ^ fs.fbits ≤ m + b2n up := hk.imp_right (Nat.le_add_right_of_le ·)
    have hm' : m + b2n up ≤ 2 * 2 ^ fs.fbits := by omega
    have hcode : roundedCode fs .rne (offsetDy f y d).neg c (offsetDy f y d).units = m + b2n up + k * 2 ^ fs.fbits := by
      rw [roundedCode, hup]; omega
    obtain ⟨mx, hmx, hle⟩ := magLe_maxCode hf hk' hm'
    have hmaxlt : f.maxCode < 2 ^ f.bits := by
      rw [Fmt.bits_of_float hf, Nat.pow_succ]; have := Fmt.maxCode_lt hf; omega
    have hpack := packFloat_ulpAt fs hk' hm' false
    rw [signedCode_false] at hpack
    rw [← decodeCode_float hf hmaxlt] at hmx
    have hmodel : nearestOrd f y d = if magLe (m + b2n up) (ulpAt fs k) mx.man mx.exp
        then some (withSign (offsetDy f y d).neg (packFloat fs ⟨false, m + b2n up, ulpAt fs k⟩)) else none := by
      simp only [nearestOrd, hf]
      rw [← offsetDy, hround, hmx]
      rfl
    rw [hmodel, hpack, hcode]
    simp only [hle]
  rw [hord]
  generalize (offsetDy f y d).units = X at *
  generalize (offsetDy f y d).neg = neg at *
  by_cases hle : roundedCode fs .rne neg c X ≤ f.maxCode
  · refine .inl ⟨_, if_pos hle, Nat.not_lt_of_le hle, ?_, fun j hj => ?_⟩
    · exact (finitePlace_withSign hf hle neg).1
    · obtain ⟨-, -, hnear⟩ := roundsTo_roundedCode hf (rm := .rne) (by decide) hlo hhi neg hle
      have hparity := signedCode_mod_two hf neg (roundedCode fs .rne neg c X)
      have hplace := finitePlace_withSign hf hle neg
      rw [← hplace.2] at hnear
      generalize roundedCode fs .rne neg c X = n at *
      obtain ⟨hfin, hunits⟩ := signedCode_place hf hj
      obtain ⟨hdist, htie⟩ := hnear _ hfin
      rw [hunits] at hdist htie
      refine (Nat.lt_or_eq_of_le hdist).imp_right fun heq => ⟨heq, or_iff_not_imp_left.2 fun hne => ?_⟩
      have heven := htie heq fun h => hne (placeUnits_injective hf hj hplace.1 h)
      rw [withSign]
      split <;> omega
  · exact .inr ⟨if_neg hle, Nat.lt_of_not_le hle⟩

end Sys2Proof.Machine
end

section
/-! The candidates of an encode through an offset, and the encode (R132). -/

namespace Sys2Proof.Machine

/-! ## The codes of the places -/

theorem codeOfOrd_float {f : Fmt} {fs : FloatSpec} (hf : f.float? = some fs) (k : Int) :
    codeOfOrd f k = signedCode fs (decide (k < 0)) k.natAbs := by
  rw [codeOfOrd, Fmt.isInt_of_float hf, if_neg Bool.false_ne_true]
  by_cases h : k < 0
  · rw [if_pos h, decide_eq_true h, signedCode_true hf]
  · rw [if_neg h, decide_eq_false h, signedCode_false, Nat.add_zero]

/-- The finite places are those of the finite codes. -/
theorem codeOfOrd_spec {f : Fmt} (hn : f.Number) {k : Int} (hk : FinitePlace f k) :
    FiniteCode f (codeOfOrd f k) ∧ placeOf f (codeOfOrd f k) = k ∧ codeOfOrd f k % 2 = k.natAbs % 2 := by
  rcases hn with hint | ⟨fs, hf⟩
  · obtain ⟨n, hn⟩ := Nat.exists_eq_succ_of_ne_zero (Fmt.bits_pos f).ne'
    have hrange := (finitePlace_int hint k).1 hk
    have hmax := Fmt.maxCode_int hint
    simp only [ordLo, ordHi, hint, if_true] at hrange
    rw [hn, Nat.succ_eq_add_one, Nat.add_sub_cancel] at hmax hrange
    have hpow : ((2 ^ (n + 1) : Nat) : Int) = 2 * (2 ^ n : Nat) := by rw [Nat.pow_succ]; omega
    have hcode : codeOfOrd f k = (k % (2 ^ (n + 1) : Nat)).toNat := by rw [codeOfOrd, if_pos hint, hn]; rfl
    have hmod : k % (2 ^ (n + 1) : Nat) = if k < 0 then k + (2 ^ (n + 1) : Nat) else k := by
      split
      next h => rw [← Int.add_emod_right, Int.emod_eq_of_lt] <;> omega
      next h => exact Int.emod_eq_of_lt (by omega) (by omega)
    rw [hmod] at hcode
    have hlt : codeOfOrd f k < 2 ^ f.bits := by rw [hcode, hn]; split <;> omega
    refine ⟨⟨hlt, .inl hint⟩, ?_, ?_⟩
    · rw [placeOf, if_pos hint, BitVec.toInt_eq_toNat_cond, toNat_ofNat_lt hlt, hcode, hn]
      split <;> split <;> omega
    · rw [hcode]; split <;> omega
  · obtain ⟨hfin, -⟩ := signedCode_place hf hk
    have hlt : k.natAbs < 2 ^ (fs.ebits + fs.fbits) := by
      have hle : k.natAbs ≤ f.maxCode := by
        simp only [FinitePlace, Fmt.isInt_of_float hf, Bool.false_eq_true, if_false] at hk; omega
      exact lt_of_le_of_lt hle (Fmt.maxCode_lt hf)
    rw [codeOfOrd_float hf]
    refine ⟨hfin, ?_, signedCode_mod_two hf _ _⟩
    rw [placeOf, Fmt.isInt_of_float hf, if_neg Bool.false_ne_true, Fmt.bits_of_float hf, Nat.add_sub_cancel, signedCode_testBit hlt,
      signedCode_mod hlt]
    by_cases h : k < 0
    · rw [if_pos (decide_eq_true h)]; omega
    · rw [if_neg (by simpa using h), decide_eq_false h, signedCode_false]; omega

/-! ## Candidates in their order -/

/-- What candidates are compared by: the distance of the decoded value, an even code, the magnitude (R132). -/
def placeKey (f : Fmt) (d y k : Int) : Nat ×ₗ Nat ×ₗ Nat := toLex ((y - ditheredUnits f d k).natAbs, toLex (k.natAbs % 2, k.natAbs))

theorem placeKey_le {f : Fmt} {d y a b : Int} : placeKey f d y a ≤ placeKey f d y b ↔
    (y - ditheredUnits f d a).natAbs < (y - ditheredUnits f d b).natAbs
      ∨ ((y - ditheredUnits f d a).natAbs = (y - ditheredUnits f d b).natAbs
        ∧ (a.natAbs % 2 < b.natAbs % 2 ∨ (a.natAbs % 2 = b.natAbs % 2 ∧ a.natAbs ≤ b.natAbs))) := by
  rw [placeKey, placeKey, Prod.Lex.toLex_le_toLex, Prod.Lex.toLex_le_toLex]

theorem placeKey_lt {f : Fmt} {d y a b : Int} : placeKey f d y a < placeKey f d y b ↔
    (y - ditheredUnits f d a).natAbs < (y - ditheredUnits f d b).natAbs
      ∨ ((y - ditheredUnits f d a).natAbs = (y - ditheredUnits f d b).natAbs
        ∧ (a.natAbs % 2 < b.natAbs % 2 ∨ (a.natAbs % 2 = b.natAbs % 2 ∧ a.natAbs < b.natAbs))) := by
  rw [placeKey, placeKey, Prod.Lex.toLex_lt_toLex, Prod.Lex.toLex_lt_toLex]

section

variable {f : Fmt} (hn : f.Number) {y : Dy} (hy : -300 ≤ y.exp) {d : Int} (hd : -15 ≤ d ∧ d ≤ 15)

include hn hy hd

/-- The distance that the model counts, in units of 2^-300. -/
theorem candDist_units {k : Int} (hk : FinitePlace f k) :
    candDist f y d (min y.exp (codeUlp f 0 - 5)) k * 2 ^ (min y.exp (codeUlp f 0 - 5) + 300).toNat
      = (y.at (-300) - ditheredUnits f d k).natAbs := by
  obtain ⟨hfin, hplace, -⟩ := codeOfOrd_spec hn hk
  obtain ⟨v, hv, hexp, hat, -⟩ := decOffset_finite hn hfin hd
  have hge := codeUlp_zero_ge hn
  have he : -300 ≤ min y.exp (codeUlp f 0 - 5) := by omega
  rw [hplace] at hat
  rw [← hat, Dy.at_scale he (min_le_left _ _), Dy.at_scale (d := v) he (by omega), ← Int.sub_mul, Int.natAbs_mul, Int.natAbs_pow]
  simp only [candDist, hv]
  rfl

/-- The model prefers a candidate where its key is less. -/
theorem candBetter_iff {a b : Int} (ha : FinitePlace f a) (hb : FinitePlace f b) :
    candBetter f y d (min y.exp (codeUlp f 0 - 5)) a b = true ↔ placeKey f d (y.at (-300)) a < placeKey f d (y.at (-300)) b := by
  have hpos := Nat.two_pow_pos (min y.exp (codeUlp f 0 - 5) + 300).toNat
  rw [placeKey_lt, ← candDist_units hn hy hd ha, ← candDist_units hn hy hd hb, Nat.mul_lt_mul_right hpos, Nat.mul_left_inj hpos.ne']
  simp only [candBetter, (codeOfOrd_spec hn ha).2.2, (codeOfOrd_spec hn hb).2.2]
  generalize candDist f y d _ a = A
  generalize candDist f y d _ b = B
  split
  next hne => rw [decide_eq_true_iff]; exact ⟨.inl, fun h => h.resolve_right fun h => hne h.1⟩
  next heq =>
    have hAB : A = B := not_not.1 heq
    rw [hAB, or_iff_right (lt_irrefl B)]
    split
    next hne => rw [decide_eq_true_iff]; exact ⟨fun h => ⟨rfl, .inl h⟩, fun h => h.2.resolve_right fun h => hne h.1⟩
    next heq => rw [decide_eq_true_iff, not_not.1 heq]; exact ⟨fun h => ⟨rfl, .inr ⟨rfl, h⟩⟩, fun h => (h.2.resolve_left (lt_irrefl _)).2⟩

/-- The model's choice is a candidate, and none has a lesser key. -/
theorem bestCand_least (l : List Int) : ∀ b : Int, (∀ k ∈ b :: l, FinitePlace f k) →
    bestCand f y d (min y.exp (codeUlp f 0 - 5)) b l ∈ b :: l
      ∧ ∀ j ∈ b :: l, placeKey f d (y.at (-300)) (bestCand f y d (min y.exp (codeUlp f 0 - 5)) b l) ≤ placeKey f d (y.at (-300)) j := by
  induction l with
  | nil =>
    intro b _
    exact ⟨List.mem_singleton_self b, fun j hj => by rw [List.mem_singleton.1 hj]; exact le_rfl⟩
  | cons a l ih =>
    intro b hfin
    have hb := hfin b (by simp)
    have ha := hfin a (by simp)
    have hbetter := candBetter_iff hn hy hd ha hb
    have hstep : bestCand f y d (min y.exp (codeUlp f 0 - 5)) b (a :: l) = bestCand f y d (min y.exp (codeUlp f 0 - 5))
        (if candBetter f y d (min y.exp (codeUlp f 0 - 5)) a b then a else b) l := rfl
    have hskip : ∀ k ∈ b :: l, k ∈ b :: a :: l := fun k hk => List.mem_cons.2 ((List.mem_cons.1 hk).imp_right (List.mem_cons_of_mem a))
    rw [hstep]
    split
    next h =>
      obtain ⟨hmem, hle⟩ := ih a fun k hk => hfin k (List.mem_cons_of_mem b hk)
      refine ⟨List.mem_cons_of_mem b hmem, fun j hj => ?_⟩
      rcases List.mem_cons.1 hj with rfl | hj
      · exact (hle a (by simp)).trans (hbetter.1 h).le
      · exact hle j hj
    next h =>
      obtain ⟨hmem, hle⟩ := ih b fun k hk => hfin k (hskip k hk)
      refine ⟨hskip _ hmem, fun j hj => ?_⟩
      simp only [List.mem_cons] at hj
      rcases hj with rfl | rfl | hj
      · exact hle j (by simp)
      · exact (hle b (by simp)).trans (not_lt.1 (mt hbetter.2 h))
      · exact hle j (by simp [hj])

end

/-! ## The encode through an offset -/

/-- The code of a place, a zero with a sign. -/
def placeCode (f : Fmt) (neg : Bool) (k : Int) : Nat := if k = 0 then zeroCode f neg else codeOfOrd f k

theorem placeCode_eq {f : Fmt} (neg : Bool) {k : Int} (hk : FinitePlace f k) :
    placeCode f neg k = if k = 0 then zeroCode f neg
      else if k < 0 then (if f.isInt then (k % 2 ^ f.bits).toNat else 2 ^ (f.bits - 1) + k.natAbs) else k.natAbs := by
  rw [placeCode, codeOfOrd]
  split
  next => rfl
  next h0 =>
    rcases hint : f.isInt with _ | _
    · simp only [Bool.false_eq_true, if_false]; split <;> omega
    · simp only [if_true, unsignedOf, Int.natCast_pow, Nat.cast_ofNat]
      split
      next => rfl
      next hpos =>
        have hmax : (f.maxCode : Int) < 2 ^ f.bits := by revert hint; cases f <;> decide
        have hle : k ≤ f.maxCode := hk.2
        rw [Int.emod_eq_of_lt (by omega) (by omega)]
        omega

theorem placeCode_finite {f : Fmt} (hn : f.Number) (neg : Bool) {k : Int} (hk : FinitePlace f k) : FiniteCode f (placeCode f neg k) := by
  rw [placeCode]
  split
  next =>
    rcases hn with hint | ⟨fs, hf⟩
    · refine ⟨?_, .inl hint⟩
      rw [zeroCode, hint, Bool.not_true, Bool.and_false, if_neg Bool.false_ne_true]
      exact Nat.two_pow_pos _
    · rw [zeroCode_float hf]; exact finiteCode_signedCode hf (Nat.zero_le _) neg
  next => exact (codeOfOrd_spec hn hk).1

theorem finitePlace_iff {f : Fmt} (hn : f.Number) (k : Int) : FinitePlace f k ↔ ordLo f ≤ k ∧ k ≤ ordHi f := by
  rcases hn with hint | ⟨fs, hf⟩
  · exact finitePlace_int hint k
  · simp only [FinitePlace, ordLo, ordHi, Fmt.isInt_of_float hf, Bool.false_eq_true, if_false]

/-- The code of an overflow of an encode through an offset. -/
theorem encDither_overflow (f : Fmt) (hn : f.Number) (rm : RM) (sat neg : Bool) :
    (if f.isInt then ⟨maxOfSign f neg, true⟩ else overflowFloat f rm sat neg : Enc) = overflowCode f rm sat neg := by
  rcases hn with hint | ⟨fs, hf⟩
  · simp only [hint, if_true, maxOfSign, overflowCode]
  · rw [Fmt.isInt_of_float hf, if_neg Bool.false_ne_true, overflowFloat_eq hf]

theorem nearestOrd_spec {f : Fmt} (hn : f.Number) {y : Dy} (hy : -300 ≤ y.exp) (d : Int) :
    (∃ c0, nearestOrd f y d = some c0 ∧ ¬ BeyondPlaces f (offsetUnits f d (y.at (-300))) ∧ NearestPlace f (offsetUnits f d (y.at (-300))) c0)
      ∨ (nearestOrd f y d = none ∧ BeyondPlaces f (offsetUnits f d (y.at (-300)))) := by
  rcases hn with hint | ⟨fs, hf⟩
  · exact nearestOrd_int hint hy d
  · exact nearestOrd_float hf hy d

/-- 0 has a place. -/
theorem not_beyond_zero {f : Fmt} (hn : f.Number) : ¬ BeyondPlaces f 0 := by
  rcases hn with hint | ⟨fs, hf⟩
  · rw [BeyondPlaces, if_pos hint]
    rintro ⟨i, hi, hout⟩
    have hzero : (⟨false, 0, 0⟩ : Dy).at (-300) = 0 := Dy.at_of_man rfl
    obtain ⟨-, hman⟩ := roundAt_zero_eq (d := ⟨false, 0, 0⟩) (by decide) (by decide) (hzero ▸ hi)
    have h0 : i = 0 := hman
    exact hout (h0 ▸ (finitePlace_int hint 0).2 (by revert hint; cases f <;> decide))
  · have hnext : (0 : Nat) < codeUnits fs (0 + 1) := codeUnits_pos fs Nat.one_pos
    have hover := overflows_iff hf (rm := .rne) (codeUnits_zero fs).le hnext false
    rw [withSign_zero] at hover
    rw [BeyondPlaces, Fmt.isInt_of_float hf, if_neg Bool.false_ne_true, hover, Nat.not_lt]
    exact roundedCode_le (codeUnits_zero fs).le hnext (Nat.zero_le _) .rne false

/-- What an encode through an offset gives: the overflow's code, or that of the least candidate about the nearest place. -/
theorem encDither_eq {f : Fmt} (hn : f.Number) (rm : RM) (sat : Bool) {d : Int} (hd : -15 ≤ d ∧ d ≤ 15) {y : Dy} (hy : -300 ≤ y.exp) :
    (BeyondPlaces f (offsetUnits f d (y.at (-300)))
        ∧ encDither f rm sat d y = overflowCode f rm sat (decide (offsetUnits f d (y.at (-300)) < 0)))
      ∨ (¬ BeyondPlaces f (offsetUnits f d (y.at (-300))) ∧ ∃ c0 k, NearestPlace f (offsetUnits f d (y.at (-300))) c0
        ∧ (FinitePlace f k ∧ (k = c0 ∨ k = c0 + 1 ∨ k = c0 - 1 ∨ k = 0))
        ∧ (∀ j, FinitePlace f j ∧ (j = c0 ∨ j = c0 + 1 ∨ j = c0 - 1 ∨ j = 0) →
          placeKey f d (y.at (-300)) k ≤ placeKey f d (y.at (-300)) j)
        ∧ encDither f rm sat d y = ⟨placeCode f y.neg k, false⟩) := by
  obtain ⟨-, hat, hsign⟩ := offsetDy_spec hn hy d
  rcases nearestOrd_spec hn hy d with ⟨c0, hord, hin, hnear⟩ | ⟨hord, hout⟩
  · have hmem : ∀ k, k ∈ c0 :: ([c0 + 1, c0 - 1, 0]).filter (fun k => decide (ordLo f ≤ k ∧ k ≤ ordHi f))
        ↔ FinitePlace f k ∧ (k = c0 ∨ k = c0 + 1 ∨ k = c0 - 1 ∨ k = 0) := fun k => by
      have hc0 : k = c0 → FinitePlace f k := fun h => h ▸ hnear.1
      simp only [List.mem_cons, List.mem_filter, List.not_mem_nil, or_false, decide_eq_true_iff, ← finitePlace_iff hn]
      tauto
    obtain ⟨hbest, hleast⟩ := bestCand_least hn hy hd (([c0 + 1, c0 - 1, 0]).filter (fun k => decide (ordLo f ≤ k ∧ k ≤ ordHi f))) c0
      fun k hk => ((hmem k).1 hk).1
    refine .inr ⟨hin, c0, _, hnear, (hmem _).1 hbest, fun j hj => hleast j ((hmem j).2 hj), ?_⟩
    simp only [encDither, hord, placeCode, zeroCode]
    split <;> rfl
  · refine .inl ⟨hout, ?_⟩
    rw [← hat] at hout ⊢
    have hne : (offsetDy f y d).at (-300) ≠ 0 := fun h => not_beyond_zero hn (h ▸ hout)
    rw [← hsign hne, encDither, hord]
    exact encDither_overflow f hn rm sat (offsetDy f y d).neg

/-- The encode through an offset is that of R132. -/
theorem encDither_dithers {f : Fmt} (hn : f.Number) (rm : RM) (sat : Bool) {d : Int} (hd : -15 ≤ d ∧ d ≤ 15) {y : Dy} (hy : -300 ≤ y.exp) :
    DithersNumber f rm sat d (y.at (-300)) y.neg (encDither f rm sat d y) := by
  rcases encDither_eq hn rm sat hd hy with ⟨hout, henc⟩ | ⟨hin, c0, k, hnear, hk, hleast, henc⟩
  · exact ⟨fun _ => henc, fun h => absurd hout h⟩
  · refine ⟨fun h => absurd h hin, fun _ => ⟨c0, k, hnear.1, hnear.2, hk, fun j hj => placeKey_le.1 (hleast j hj), ?_⟩⟩
    rw [henc, placeCode_eq y.neg hk.1]

/-- A code encoded through an offset is finite, or the code of an overflow. -/
theorem encDither_told {f : Fmt} (hn : f.Number) (rm : RM) (sat : Bool) {d : Int} (hd : -15 ≤ d ∧ d ≤ 15) {y : Dy} (hy : -300 ≤ y.exp) :
    (encDither f rm sat d y).Told f := by
  rcases encDither_eq hn rm sat hd hy with ⟨-, henc⟩ | ⟨-, c0, k, -, hk, -, henc⟩ <;> rw [henc]
  · rcases hn with hint | ⟨fs, hf⟩
    · refine ⟨?_, fun _ => .inr ?_⟩ <;> simp only [overflowCode, hint, if_true]
      generalize decide (offsetUnits f d (y.at (-300)) < 0) = neg
      revert hint; cases f <;> cases neg <;> decide
    · rw [← overflowFloat_eq hf]; exact overflowFloat_told hf ..
  · exact told_of_finite (placeCode_finite hn _ hk.1) _

end Sys2Proof.Machine
end

section
/-! VPACK, VQENC and VQDEC code by code (R105, R106, R132, R133, R141, R158), and the statement on the conversions of the V slots. -/

namespace Sys2Proof.Machine

/-! ## VPACK (R158) -/

/-- The encode of a lane without dither and scale. -/
theorem encodeVal_lane {f : Fmt} (hn : f.Number) (rm : RM) (sat flush : Bool) (a : W32) :
    (encodeVal f rm sat 0 (f32In flush a)).Told f
      ∧ EncodesNonFinite f sat 127 (flushed flush a) (encodeVal f rm sat 0 (f32In flush a))
      ∧ (f32NonFinite a = false → rm ≠ .sr → EncodesRounded f rm sat 127 (flushed flush a) (encodeVal f rm sat 0 (f32In flush a))) := by
  refine ⟨encodeVal_told hn rm sat 0 fun d hd => f32In_exp hd, ?_, fun hfin hrm => ?_⟩
  · rw [← encScaled_unit]; exact encScaled_nonFinite f rm sat 0 0 (by decide) flush a
  · obtain ⟨d, hd, hread⟩ := f32In_reads flush hfin
    rw [hd, EncodesRounded, scaledUnits_unit]
    exact encodes_of_reads hn hrm sat hread

/-- VPACK into an integer format saturates the lane (R158). -/
theorem packLane_int {f : Fmt} (hint : f.isInt = true) (flush sat : Bool) (rm : RM) (a : W32) : packLane flush sat rm f a = intCode f a.toInt := by
  obtain ⟨U, hU, hpos⟩ : ∃ U : Nat, U = 2 ^ 300 ∧ 0 < U := ⟨_, rfl, Nat.two_pow_pos _⟩
  have hone : (2 : Int) ^ 300 = (U : Int) := by rw [hU, Nat.cast_pow, Nat.cast_ofNat]
  have hround : RoundsToInt .rne (a.toInt * 2 ^ 300) a.toInt := by
    rw [roundsToInt_rne hU, hone, sub_self, Int.mul_zero]
    exact ⟨Nat.zero_le U, fun h => absurd h hpos.ne⟩
  have henc := (encodeExact_encodes (.inl hint) (rm := .rne) (by decide) false
    (d := ⟨decide (a.toInt < 0), a.toInt.natAbs, 0⟩) (show (-300 : Int) ≤ 0 by decide)).2 hint a.toInt (by rw [Dy.at_ofInt]; exact hround)
  rw [packLane, if_pos hint, decodeCode_int32]
  exact henc

theorem packLane_float {f : Fmt} (hint : f.isInt = false) (hn : f.Number) (flush sat : Bool) (rm : RM) (a : W32) :
    packLane flush sat rm f a = ⟨wideFlush f flush (encodeVal f rm sat 0 (f32In flush a)).code,
      receivedNf f (encodeVal f rm sat 0 (f32In flush a))⟩ := by
  rw [← received_eq hn flush (encodeVal_lane hn rm sat flush a).1, packLane, hint, if_neg Bool.false_ne_true]

/-! ## VQENC (R106, R132) -/

theorem encScaled_told {f : Fmt} (hn : f.Number) (rm : RM) (sat : Bool) (draw : Nat) {d : Int} (hd : -15 ≤ d ∧ d ≤ 15) {s : Nat} (hs : s ≤ 255)
    (flush : Bool) (a : W32) : (encScaled f rm sat draw d s (f32In flush a)).Told f := by
  rcases Nat.lt_or_eq_of_le hs with hlt | rfl
  · rcases hfin : f32NonFinite a with _ | _
    · obtain ⟨x, hx, hread⟩ := f32In_reads flush hfin
      obtain ⟨v, hexp, -, -, henc⟩ := encScaled_finite (f := f) (rm := rm) (sat := sat) (draw := draw) (d := d) hlt hread
      rw [hx, henc]
      split
      · exact encodeExact_told hn rm sat draw hexp
      · exact encDither_told hn rm sat hd hexp
    · have hno : encScaled f rm sat draw d s (f32In flush a) = encodeNonFinite f sat (f32In flush a) := by
        rw [encScaled, Nat.mod_eq_of_lt (by omega), if_neg hlt.ne, f32In_nonFinite flush hfin]
        cases f32IsNaN a <;> rfl
      rw [hno]
      refine encodeNonFinite_told hn sat ?_
      rw [f32In_nonFinite flush hfin]
      split <;> rfl
  · exact encodeNonFinite_told hn sat (v := .nan) rfl

/-- The encode of a lane through an offset and a block scale. -/
theorem encScaled_lane {f : Fmt} (hn : f.Number) {rm : RM} (hrm : rm ≠ .sr) (sat : Bool) {d : Int} (hd : -15 ≤ d ∧ d ≤ 15) {s : Nat}
    (hs : s < 255) (flush : Bool) {a : W32} (hfin : f32NonFinite a = false) :
    (d = 0 → EncodesRounded f rm sat s (flushed flush a) (encScaled f rm sat 0 d s (f32In flush a)))
      ∧ (d ≠ 0 → EncodesDithered f rm sat d s (flushed flush a) (encScaled f rm sat 0 d s (f32In flush a))) := by
  obtain ⟨x, hx, hread⟩ := f32In_reads flush hfin
  obtain ⟨v, hexp, hat, hneg, henc⟩ := encScaled_finite (f := f) (rm := rm) (sat := sat) (draw := 0) (d := d) hs hread
  rw [hx, henc, EncodesRounded, EncodesDithered, scaledUnits, ← hat, ← hneg]
  refine ⟨fun h0 => ?_, fun h0 => ?_⟩
  · rw [if_pos h0]; exact encodeExact_encodes hn hrm sat hexp
  · rw [if_neg h0]; exact encDither_dithers hn rm sat hd hexp

/-! ## VQDEC (R106, R133) -/

theorem f32Out_inf (flush : Bool) (rm : RM) (neg : Bool) :
    f32Out flush rm (.inf neg) = 0x7F800000 ||| (if neg then 0x80000000 else 0) := by
  show BitVec.ofNat 32 (encodeNonFinite .fp32 false (.inf neg)).code = _
  cases neg <;> decide

section

variable {f : Fmt} (hn : f.Number) (flush : Bool) (rm : RM) (fr : Frame) (den : Bool) {s : Nat} (i : Nat) {c : Nat} (hc : c < 2 ^ f.bits)

include hc

theorem vqdecLane_eq : vqdecLane flush rm fr den f s i c
    = f32Out flush rm (decScaled f (wideFlush f flush c) (fr.offsetFor den f (fr.n0 + BitVec.ofNat 64 i)) s) := by
  have hcode : (if f.isWide then flushCode f flush c else c) = wideFlush f flush c := by
    split
    next hw => exact flushCode_eq_wideFlush hw flush hc
    next hw => rw [wideFlush_of_not_wide (Bool.not_eq_true _ ▸ hw)]
  rw [← hcode]
  rfl

include hn

/-- A finite code decodes to its number less the offset, through the scale, rounded once. -/
theorem vqdecLane_finite (hs : s < 255) (hfin : FiniteCode f c) :
    F32Result flush rm (ditheredUnits f (fr.offsetFor den f (fr.n0 + BitVec.ofNat 64 i)) (placeOf f (wideFlush f flush c)) * 2 ^ s / 2 ^ 127)
      (if c.testBit (f.bits - 1) then 0x80000000 else 0) (vqdecLane flush rm fr den f s i c) := by
  obtain ⟨v, hv, hexp, hat, hzero⟩ := decOffset_finite hn (finiteCode_wideFlush flush hfin)
    (offsetFor_bounds fr den f (fr.n0 + BitVec.ofNat 64 i))
  have hge := codeUlp_zero_ge hn
  have hdec : decScaled f (wideFlush f flush c) (fr.offsetFor den f (fr.n0 + BitVec.ofNat 64 i)) s
      = .fin { v with exp := v.exp + ((s : Int) - (127 : Nat)) } := by
    rw [decScaled, Nat.mod_eq_of_lt (by omega), if_neg hs.ne, hv]; rfl
  rw [vqdecLane_eq flush rm fr den i hc, hdec, ← hat, ← Dy.at_shift (a := s) (b := 127) (by omega) (by omega)]
  refine f32Out_result flush rm (by simp only; omega) fun hman => ?_
  have hsign := (hzero hman).1
  rw [wideFlush_sign flush hc] at hsign
  simp only [hsign]
  cases c.testBit (f.bits - 1) <;> rfl

/-- A code that is no number decodes to an infinity of its sign or to NaN. -/
theorem vqdecLane_not_finite (hs : s < 255) (hfin : ¬ FiniteCode f c) : vqdecLane flush rm fr den f s i c
    = if f.hasInf = true ∧ c % 2 ^ (f.bits - 1) = f.infCode then 0x7F800000 ||| (if c.testBit (f.bits - 1) then 0x80000000 else 0) else f32NaN := by
  rw [vqdecLane_eq flush rm fr den i hc, wideFlush_of_not_finite flush hc hfin, decScaled, Nat.mod_eq_of_lt (by omega), if_neg hs.ne,
    decOffset_not_finite hn hc hfin]
  split
  · exact f32Out_inf flush rm (c.testBit (f.bits - 1))
  · rfl

end

/-! ## The statement -/

/-- Settles O19: each code by the encode of the lane that it comes of, each conversion lane by lane, and each form as one write of its
lanes or of its code positions. -/
theorem vectorConversions : Obligations.VectorConversions := by
  unfold Obligations.VectorConversions
  refine ⟨?_, unpackValues, convertValues, blockScales, stochasticValues, ditherValues, ?_, ?_⟩
  · intro flush sat rm fr den fmt s i a h7 hs f n d lane sat' e
    have hn : f.Number := fmt4_number (.inl h7)
    have hd : -15 ≤ d ∧ d ≤ 15 := offsetFor_bounds fr den f n
    refine ⟨offsetRule fr den f n, fun h1 h5 hrm => ?_, fun hint => packLane_int hint flush sat rm a,
      ⟨encScaled f rm sat' 0 d s (f32In flush a), received_eq hn flush (encScaled_told hn rm sat' 0 hd hs flush a),
        encScaled_nonFinite f rm sat' 0 d hs flush a, fun hfin hlt hrm => encScaled_lane hn hrm sat' hd hlt flush hfin⟩,
      fun c hc => ⟨fun h => ?_, vqdecLane_finite hn flush rm fr den i hc, vqdecLane_not_finite hn flush rm fr den i hc⟩⟩
    · have hint : f.isInt = false := by
        have hall : ∀ fmt : BitVec 4, fmt.toNat ≤ 5 → (fmt4 fmt).isInt = false := by decide
        exact hall fmt h5
      obtain ⟨-, hnf, hround⟩ := encodeVal_lane hn rm sat flush a
      exact ⟨_, packLane_float hint hn flush sat rm a, hnf, fun hfin => hround hfin hrm⟩
    · subst h; rfl
  · intro s vu tt vd va vb fmt frame sc se h hvd hva hvb h7
    exact packings s vu tt vd va vb fmt frame sc se h hvd hva hvb h7
  · intro s vu tt vd va fmt sfmt dfmt part rm frame sc se h hvd hva a flush sat den fr f
    have hbad : s.badV [vd, va] = [] := State.badV_eq_nil (by simp [hvd, hva])
    refine ⟨?_, ?_, ?_, ?_, ?_, fun hsc => ?_⟩
    · show (vunpkSem vu tt vd va fmt part s).run (slotV vu) (s.badV [vd, va]) s = _
      rw [hbad, vunpkSem, vecNf_run h]; rfl
    · show (vcvtSem vu tt vd va sfmt dfmt rm s).run (slotV vu) (s.badV [vd, va]) s = _
      rw [hbad, vcvtSem, vecNf_run h, State.rm_eq]; rfl
    · show (vexpoSem vu tt vd va fmt s).run (slotV vu) (s.badV [vd, va]) s = _
      rw [hbad, vexpoSem, vecNf_run h]; rfl
    · show (vsrndSem vu tt vd va frame fmt s).run (slotV vu) (s.badV [vd, va]) s = _
      rw [hbad, vsrndSem, vecNf_run h]; rfl
    · show (vdithSem vu tt vd va frame fmt s).run (slotV vu) (s.badV [vd, va]) s = _
      rw [hbad, vdithSem, vecOp_run h]; rfl
    · show (vqdecSem vu tt vd va frame sc se fmt s).run (slotV vu) (s.badV [vd, va]) s = _
      rw [hbad, vqdecSem, OpSem.withScale_ok hsc, vecFp, vecNf_run h]; rfl

end Sys2Proof.Machine
end

section
/-! The lane-moving forms and VFCLASS (R154, R156). -/

namespace Sys2Proof.Machine

/-- The class of a word by its fields. -/
theorem fclass_eq (a : W32) :
    fclass a = BitVec.ofNat 32 (
      if a.extractLsb' 23 8 = 255 ∧ a.extractLsb' 0 23 ≠ 0 then 2 ^ 8
      else if a.extractLsb' 23 8 = 255 then (if a.getLsbD 31 then 2 ^ 0 else 2 ^ 7)
      else if a.extractLsb' 23 8 = 0 ∧ a.extractLsb' 0 23 = 0 then (if a.getLsbD 31 then 2 ^ 3 else 2 ^ 4)
      else if a.extractLsb' 23 8 = 0 then (if a.getLsbD 31 then 2 ^ 2 else 2 ^ 5)
      else if a.getLsbD 31 then 2 ^ 1 else 2 ^ 6) := by
  have hones : a.extractLsb' 23 8 = 255 ↔ bitsOf a.toNat 23 8 = 255 := by
    rw [BitVec.toNat_eq, extractLsb'_toNat_eq_bitsOf]; rfl
  have hexp := bitsOf_toNat_eq_zero a 23 8
  have hfrac := bitsOf_toNat_eq_zero a 0 23
  simp only [hones, ne_eq, ← hexp, ← hfrac, fclass]
  generalize bitsOf a.toNat 23 8 = e
  generalize bitsOf a.toNat 0 23 = f
  generalize a.getLsbD 31 = neg
  by_cases hnonFinite : e = 255
  · by_cases hf : f = 0 <;> cases neg <;> simp [hnonFinite, hf]
  by_cases hsmall : e = 0
  · by_cases hf : f = 0 <;> cases neg <;> simp [hsmall, hf]
  · cases neg <;> simp [hnonFinite, hsmall]

/-- Settles O17: VFCLASS is one write of the classes of its lanes, and the class is read off the fields of the word. -/
theorem vectorClass : Obligations.VectorClass := by
  unfold Obligations.VectorClass
  refine ⟨fun s vu tt vd va h hvd hva => ?_, fclass_eq⟩
  show (vfclassSem vu tt vd va s).run (slotV vu) (s.badV [vd, va]) s = _
  rw [State.badV_eq_nil (by simp [hvd, hva]), vfclassSem, vecOp_run h]

/-- VLANE writes its one lane where that lane's guard holds (R156). -/
theorem vlane_run (s : State) (vu : VUnit) (tt : TT) (vd va : VReg) (k : BitVec 5) :
    (vlaneSem vu tt vd va k s).run (slotV vu) [] s = .next (if s.on tt k.toNat
      then s.push 2 (s.me.vreg vd) (laneMask k.toNat) (vecOf fun _ => lane (s.vec va) 0) else s) := by
  rw [vlaneSem]
  split
  · exact OpSem.run_pure _ _ s
  · exact OpSem.run_idle _ s

/-- Settles O18: VLANE writes one lane or nothing, the other forms are one write of the moved lanes. -/
theorem laneMoves : Obligations.LaneMoves := by
  unfold Obligations.LaneMoves
  intro s vu tt vd va vb k hvd hva hvb a b res
  have hbad2 : s.badV [vd, va] = [] := State.badV_eq_nil (by simp [hvd, hva])
  have hbad3 : s.badV [vd, va, vb] = [] := State.badV_eq_nil (by simp [hvd, hva, hvb])
  have hvlane := vlane_run s vu tt vd va k
  rw [← hbad2] at hvlane
  refine ⟨fun h => ⟨_, hvlane.trans (by rw [if_pos h]), lane_vecOf _ k.isLt⟩,
    fun h => hvlane.trans (by rw [h, if_neg Bool.false_ne_true]), fun h => ⟨?_, ?_, ?_, ?_⟩⟩
  · show (vbcastSem vu tt vd va k s).run (slotV vu) (s.badV [vd, va]) s = _
    rw [hbad2, vbcastSem, vecOp_run h]
  · have hlt : ∀ i, b i < 32 ↔ (b i).toNat < 32 := fun i => BitVec.lt_def
    show (vpermSem vu tt vd va vb s).run (slotV vu) (s.badV [vd, va, vb]) s = _
    simp only [hlt]
    rw [hbad3, vpermSem, vecOp_run h]
  · show (vslideSem vu tt vd va vb k false s).run (slotV vu) (s.badV [vd, va, vb]) s = _
    rw [hbad3, vslideSem, vecOp_run h]; rfl
  · show (vslideSem vu tt vd va vb k true s).run (slotV vu) (s.badV [vd, va, vb]) s = _
    rw [hbad3, vslideSem, vecOp_run h]; rfl

end Sys2Proof.Machine
end

section
/-! The integer forms of the V slots (R151): each sub-lane receives its row modulo 2^n. -/

namespace Sys2Proof.Machine

/-! ## Sub-lanes (R140, R151) -/

/-- A field of a word of w bits. -/
theorem bitsOf_ofNat {lo len w : Nat} (x : Nat) (h : lo + len ≤ w) : bitsOf (BitVec.ofNat w x).toNat lo len = bitsOf x lo len := by
  refine Nat.eq_of_testBit_eq fun j => ?_
  simp only [bitsOf, Nat.testBit_mod_two_pow, Nat.testBit_div_two_pow, BitVec.testBit_toNat, BitVec.getLsbD_ofNat]
  by_cases hj : j < len
  · rw [decide_eq_true (show j + lo < w by omega), Bool.true_and]
  · rw [decide_eq_false hj, Bool.false_and, Bool.false_and]

/-- A lane made of sub-lanes has them, modulo 2^n. -/
theorem subLane_subLanes {n : Nat} (hn : 0 < n) (f : Nat → Nat) {j : Nat} (hj : j < 32 / n) :
    subLane n (subLanes n f) j = f j % 2 ^ n := by
  have hfold : (List.range (32 / n)).foldl (fun acc j => acc + f j % 2 ^ n * 2 ^ (n * j)) 0
      = digitsFrom n 0 ((List.range (32 / n)).map fun j => (j, f j)) := by rw [digitsFrom, List.foldl_map]
  have hnodup : (((List.range (32 / n)).map fun j => (j, f j)).map Prod.fst).Nodup := by
    rw [List.map_map]; exact (List.map_id _).symm ▸ List.nodup_range
  have hmem : (j, f j) ∈ (List.range (32 / n)).map fun j => (j, f j) := List.mem_map.2 ⟨j, List.mem_range.2 hj, rfl⟩
  have hend : n * j + n ≤ 32 := by
    calc n * (j + 1) ≤ n * (32 / n) := Nat.mul_le_mul_left n hj
      _ ≤ 32 := Nat.mul_div_le 32 n
  have hcode : codeAt (codesVec n _) n j = _ := codeAt_codesVec hn hnodup hmem (by rw [Nat.mul_succ]; simp only; omega)
  rw [codeAt, codesVec_eq, bitsOf_ofNat _ (by omega)] at hcode
  rw [subLane, subLanes, bitsOf_ofNat _ hend, hfold]
  exact hcode

theorem subLane_lt (n : Nat) (a : W32) (j : Nat) : subLane n a j < 2 ^ n := Nat.mod_lt _ (Nat.two_pow_pos n)

theorem subOf_eq_subLane (n : Nat) (v : Vec) (l j : Nat) : subOf n v l j = subLane n (lane v l) j := rfl

/-- The width of a code of W (R151). -/
theorem subWidth_eq {w : BitVec 2} (h : w.toNat ≤ 2) : subWidth w.toNat = 32 / 2 ^ w.toNat := by
  revert w; decide

theorem subWidth_pos {w : BitVec 2} (h : w.toNat ≤ 2) : 0 < 32 / 2 ^ w.toNat := by revert w; decide

section

variable {s : State} {tt : TT} {vd va vb : VReg} {w : BitVec 2} {i : Instr} {slot : Nat} (h : s.anyLane tt = true)
  (hw : w.toNat ≤ 2)

include h hw

/-- A form of two operands that gives each sub-lane its row, modulo 2^n. -/
theorem vecInt2_result {f : Nat → Nat → Nat → Nat} {g : Nat → Nat → Int} (hrun : exec i s = (vecInt2 s tt vd va vb w f).run slot [] s)
    (hrow : ∀ l j, ((f (32 / 2 ^ w.toNat) (subOf (32 / 2 ^ w.toNat) (s.vec va) l j) (subOf (32 / 2 ^ w.toNat) (s.vec vb) l j)
      % 2 ^ (32 / 2 ^ w.toNat) : Nat) : Int) = g l j % 2 ^ (32 / 2 ^ w.toNat)) :
    SubLaneResult s tt vd (32 / 2 ^ w.toNat) g i := by
  refine ⟨_, hrun.trans (vecOp_run h 2 vd _ slot), fun l hl j hj => ?_⟩
  rw [subWidth_eq hw, subOf_eq_subLane, lane_vecOf _ hl, subLane_subLanes (subWidth_pos hw) _ hj]
  exact hrow l j

/-- A form of one operand that gives each sub-lane its row, modulo 2^n. -/
theorem vecInt1_result {f : Nat → Nat → Nat} {g : Nat → Nat → Int} (hrun : exec i s = (vecInt1 s tt vd va w f).run slot [] s)
    (hrow : ∀ l j, ((f (32 / 2 ^ w.toNat) (subOf (32 / 2 ^ w.toNat) (s.vec va) l j) % 2 ^ (32 / 2 ^ w.toNat) : Nat) : Int)
      = g l j % 2 ^ (32 / 2 ^ w.toNat)) :
    SubLaneResult s tt vd (32 / 2 ^ w.toNat) g i := by
  refine ⟨_, hrun.trans (vecOp_run h 2 vd _ slot), fun l hl j hj => ?_⟩
  rw [subWidth_eq hw, subOf_eq_subLane, lane_vecOf _ hl, subLane_subLanes (subWidth_pos hw) _ hj]
  exact hrow l j

end

/-! ## The rows (R151) -/

theorem natCast_two_pow (n : Nat) : ((2 ^ n : Nat) : Int) = 2 ^ n := Int.natCast_pow ..

theorem natCast_mod_two_pow (n x : Nat) : ((x % 2 ^ n : Nat) : Int) = (x : Int) % 2 ^ n := by
  rw [Int.natCast_emod, natCast_two_pow]

theorem unsignedOf_emod (n : Nat) (i : Int) : ((unsignedOf n i % 2 ^ n : Nat) : Int) = i % 2 ^ n := by
  have hpos : (2 : Int) ^ n ≠ 0 := (Int.pow_pos (by decide)).ne'
  rw [natCast_mod_two_pow, unsignedOf, natCast_two_pow, Int.toNat_of_nonneg (Int.emod_nonneg i hpos), Int.emod_emod]

theorem natCast_emod_eq_toInt (n x : Nat) : ((x % 2 ^ n : Nat) : Int) = (BitVec.ofNat n x).toInt % 2 ^ n := by
  rw [BitVec.toInt_eq_toNat_bmod, BitVec.toNat_ofNat, ← natCast_two_pow, Int.bmod_emod, Int.natCast_emod, Int.emod_emod]

/-- The saturation of a row (R151): u the unsigned, v the signed exact result. -/
theorem satInt_emod (n : Nat) (sati : BitVec 2) (u v : Int) :
    ((satInt n sati.toNat u v % 2 ^ n : Nat) : Int)
      = (if sati = 0 then u
        else if sati = 1 then (if v < -2 ^ (n - 1) then -2 ^ (n - 1) else if 2 ^ (n - 1) - 1 < v then 2 ^ (n - 1) - 1 else v)
        else if u < 0 then 0 else if 2 ^ n - 1 < u then 2 ^ n - 1 else u) % 2 ^ n := by
  have hhalf : (0 : Int) < 2 ^ (n - 1) := Int.pow_pos (by decide)
  have hfull : (0 : Int) < 2 ^ n := Int.pow_pos (by decide)
  have hclamp : ∀ {lo hi x : Int}, lo ≤ hi → clampInt lo hi x = if x < lo then lo else if hi < x then hi else x := fun hle => by
    rw [clampInt]; split <;> omega
  obtain rfl | rfl | ⟨h0, h1⟩ : sati = 0 ∨ sati = 1 ∨ sati ≠ 0 ∧ sati ≠ 1 := by tauto
  · exact unsignedOf_emod n u
  · rw [if_neg (by decide), if_pos rfl, ← hclamp (by omega)]
    show ((unsignedOf n (clampInt (-(2 ^ (n - 1) : Nat)) ((2 ^ (n - 1) : Nat) - 1) v) % 2 ^ n : Nat) : Int) = _
    rw [unsignedOf_emod, natCast_two_pow]
  · have hsat : satInt n sati.toNat u v = (clampInt 0 ((2 ^ n : Nat) - 1) u).toNat := by
      have h0' : sati.toNat ≠ 0 := fun h => h0 (BitVec.eq_of_toNat_eq h)
      have h1' : sati.toNat ≠ 1 := fun h => h1 (BitVec.eq_of_toNat_eq h)
      rw [satInt]
      exacts [h0', h1']
    rw [hsat, if_neg h0, if_neg h1, natCast_mod_two_pow, natCast_two_pow, ← hclamp (by omega), Int.toNat_of_nonneg]
    rw [clampInt]; omega

section

variable {n : Nat} (hn : 0 < n) (a b : Nat)

include hn

theorem subMulh_emod : ((subMulh n a b % 2 ^ n : Nat) : Int)
    = ((BitVec.ofNat n a).toInt * (BitVec.ofNat n b).toInt / 2 ^ n) % 2 ^ n := by
  rw [subMulh, unsignedOf_emod, signed_eq_toInt hn, signed_eq_toInt hn, natCast_two_pow]

theorem subSar_emod : ((subSar n a b % 2 ^ n : Nat) : Int) = ((BitVec.ofNat n a).toInt / 2 ^ (b % n)) % 2 ^ n := by
  rw [subSar, unsignedOf_emod, signed_eq_toInt hn, natCast_two_pow]

theorem min_emod : (((if signed n a < signed n b then a else b) % 2 ^ n : Nat) : Int)
    = min (BitVec.ofNat n a).toInt (BitVec.ofNat n b).toInt % 2 ^ n := by
  rw [signed_eq_toInt hn, signed_eq_toInt hn]
  split
  next hlt => rw [min_eq_left hlt.le, natCast_emod_eq_toInt]
  next hge => rw [min_eq_right (not_lt.1 hge), natCast_emod_eq_toInt]

theorem max_emod : (((if signed n a < signed n b then b else a) % 2 ^ n : Nat) : Int)
    = max (BitVec.ofNat n a).toInt (BitVec.ofNat n b).toInt % 2 ^ n := by
  rw [signed_eq_toInt hn, signed_eq_toInt hn]
  split
  next hlt => rw [max_eq_right hlt.le, natCast_emod_eq_toInt]
  next hge => rw [max_eq_left (not_lt.1 hge), natCast_emod_eq_toInt]

end

theorem andn_eq {n a b : Nat} (ha : a < 2 ^ n) (hb : b < 2 ^ n) :
    a &&& (2 ^ n - 1 - b) = (BitVec.ofNat n a &&& ~~~BitVec.ofNat n b).toNat := by
  rw [BitVec.toNat_and, BitVec.toNat_not, toNat_ofNat_lt ha, toNat_ofNat_lt hb]

/-- The count of leading zeros of a number of n bits. -/
theorem clz_spec {n a : Nat} (ha : a < 2 ^ n) : (a = 0 → n - bitLen a = n)
    ∧ (a ≠ 0 → n - bitLen a < n ∧ 2 ^ (n - 1 - (n - bitLen a)) ≤ a ∧ a < 2 ^ (n - (n - bitLen a))) := by
  refine ⟨fun h => by rw [h]; rfl, fun h => ?_⟩
  have hpos := bitLen_pos h
  have hle := bitLen_le_iff.2 ha
  exact ⟨by omega, lt_bitLen_iff.1 (by omega), bitLen_le_iff.1 (by omega)⟩

/-- Settles O13: each form is one write of sub-lanes, each sub-lane its row of R151. -/
theorem vectorIntegerResults : Obligations.VectorIntegerResults := by
  unfold Obligations.VectorIntegerResults
  refine ⟨fun s vu tt vd va vb w sati h hw hvd hva hvb => ?_, fun s vu tt vd va w h hw hvd hva => ?_⟩
  · intro n a b sa sb clamp sat res
    have hbad : s.badV [vd, va, vb] = [] := State.badV_eq_nil (by simp [hvd, hva, hvb])
    have hn : 0 < n := subWidth_pos hw
    have hlt : ∀ (v : Vec) l j, subOf n v l j < 2 ^ n := fun v l j => subLane_lt n (lane v l) j
    have result : ∀ {f : Nat → Nat → Nat → Nat} {g : Nat → Nat → Int} {i : Instr},
        exec i s = (vecInt2 s tt vd va vb w f).run (slotV vu) (s.badV [vd, va, vb]) s →
        (∀ l j, ((f n (a l j) (b l j) % 2 ^ n : Nat) : Int) = g l j % 2 ^ n) → res g i :=
      fun hrun hrow => vecInt2_result h hw (hbad ▸ hrun) hrow
    have hsat : ∀ u v : Int, ((satInt n sati.toNat u v % 2 ^ n : Nat) : Int) = sat u v % 2 ^ n := satInt_emod n sati
    refine ⟨result rfl fun l j => ?_, result rfl fun l j => ?_, result rfl fun l j => ?_, result rfl fun l j => ?_,
      result rfl fun l j => ?_, result rfl fun l j => ?_, result rfl fun l j => ?_, result rfl fun l j => ?_,
      result rfl fun l j => ?_, result rfl fun l j => ?_, result rfl fun l j => ?_, result rfl fun l j => ?_,
      result rfl fun l j => ?_, result rfl fun l j => ?_, result rfl fun l j => ?_, result rfl fun l j => ?_⟩
    · rw [subAdd, signed_eq_toInt hn, signed_eq_toInt hn, hsat]
    · rw [subSub, signed_eq_toInt hn, signed_eq_toInt hn, hsat]
    · rw [natCast_mod_two_pow, Int.natCast_mul]
    · exact subMulh_emod hn _ _
    · rw [natCast_mod_two_pow, Int.natCast_ediv, Int.natCast_mul, natCast_two_pow]
    · exact natCast_mod_two_pow ..
    · exact natCast_mod_two_pow ..
    · exact natCast_mod_two_pow ..
    · rw [andn_eq (hlt ..) (hlt ..), natCast_mod_two_pow]
    · rw [natCast_mod_two_pow, Int.natCast_mul, natCast_two_pow]
    · rw [natCast_mod_two_pow, Int.natCast_ediv, natCast_two_pow]
    · exact subSar_emod hn _ _
    · exact min_emod hn _ _
    · exact max_emod hn _ _
    · exact natCast_mod_two_pow ..
    · exact natCast_mod_two_pow ..
  · intro n a
    have hbad : s.badV [vd, va] = [] := State.badV_eq_nil (by simp [hvd, hva])
    have hn : 0 < n := subWidth_pos hw
    have hlt : ∀ l j, a l j < 2 ^ n := fun l j => subLane_lt n (lane (s.vec va) l) j
    have result : ∀ {f : Nat → Nat → Nat} {g : Nat → Nat → Int} {i : Instr},
        exec i s = (vecInt1 s tt vd va w f).run (slotV vu) (s.badV [vd, va]) s →
        (∀ l j, ((f n (a l j) % 2 ^ n : Nat) : Int) = g l j % 2 ^ n) → SubLaneResult s tt vd n g i :=
      fun hrun hrow => vecInt1_result h hw (hbad ▸ hrun) hrow
    refine ⟨⟨fun l j => n - bitLen (a l j), result rfl fun l j => natCast_mod_two_pow .., fun l j => clz_spec (hlt l j)⟩,
      result rfl fun l j => ?_, result rfl fun l j => ?_⟩
    · rw [popCount_eq, natCast_mod_two_pow]
    · rw [signed_eq_toInt hn, natCast_mod_two_pow]

end Sys2Proof.Machine
end

section
/-! FP32 operands by their kind, and the results that are no rounded numbers (R79, R102, R114, R152). -/

namespace Sys2Proof.Machine

/-! ## Signs and magnitudes of words (R101) -/

/-- The word of a sign. -/
def signWord (neg : Bool) : W32 := if neg then 0x80000000 else 0

theorem signWord_eq_ofNat (neg : Bool) : signWord neg = BitVec.ofNat 32 (b2n neg * 2 ^ 31) := by cases neg <;> rfl

@[simp] theorem signWord_getLsbD (neg : Bool) : (signWord neg).getLsbD 31 = neg := by cases neg <;> rfl

theorem and_signMask (w : W32) : w &&& 0x80000000 = signWord (w.getLsbD 31) := by
  rw [and_sign, signWord_eq_ofNat]; rfl

@[simp] theorem signWord_and (neg : Bool) : signWord neg &&& 0x80000000 = signWord neg := by
  rw [and_signMask, signWord_getLsbD]

theorem signWord_inj {m n : Bool} : signWord m = signWord n ↔ m = n :=
  ⟨fun h => by rw [← signWord_getLsbD m, h, signWord_getLsbD], congrArg signWord⟩

/-- The sign of a product or a quotient. -/
theorem and_signMask_xor (a b : W32) : (a ^^^ b) &&& 0x80000000 = signWord (a.getLsbD 31 != b.getLsbD 31) := by
  rw [and_signMask, BitVec.getLsbD_xor]

theorem toNat_and_magnitude (w : W32) : (w &&& 0x7FFFFFFF).toNat = w.toNat % 2 ^ 31 := by
  rw [BitVec.toNat_and, ← Nat.and_two_pow_sub_one_eq_mod]; rfl

/-- A word is its magnitude and its sign. -/
theorem magnitude_or_sign (w : W32) : (w &&& 0x7FFFFFFF) ||| signWord (w.getLsbD 31) = w := by
  rw [← and_signMask, ← BitVec.and_or_distrib_left, show (0x7FFFFFFF ||| 0x80000000 : W32) = BitVec.allOnes 32 by decide,
    BitVec.and_allOnes]

theorem getLsbD_flushed (flush : Bool) (w : W32) : (flushed flush w).getLsbD 31 = w.getLsbD 31 := by
  rw [← BitVec.testBit_toNat, ← BitVec.testBit_toNat, flushed_toNat]
  exact wideFlush_sign (f := .fp32) flush w.isLt

/-! ## The kinds of an operand (R102, R114) -/

/-- An infinity. -/
def IsInf (w : W32) : Prop := w &&& 0x7FFFFFFF = 0x7F800000

/-- A zero, after the subnormal rule. -/
def ReadsZero (flush : Bool) (w : W32) : Prop := flushed flush w &&& 0x7FFFFFFF = 0

/-- A word is a NaN, an infinity or a finite number. -/
theorem f32_kind (w : W32) : f32IsNaN w = true ∨ IsInf w ∨ f32NonFinite w = false := by
  rcases hfin : f32NonFinite w with _ | _
  · exact .inr (.inr rfl)
  rcases hnan : f32IsNaN w with _ | _
  · refine .inr (.inl (BitVec.eq_of_toNat_eq ?_))
    have hexp : bitsOf w.toNat 23 8 = 255 := by simpa [f32NonFinite] using hfin
    have hfrac : bitsOf w.toNat 0 23 = 0 := by simpa [f32IsNaN, hexp] using hnan
    rw [toNat_and_magnitude, f32_mod, hexp, hfrac]
    rfl
  · exact .inl rfl

theorem IsInf.nonFinite {w : W32} (h : IsInf w) : f32NonFinite w = true := (f32NonFinite_of_inf h).1

theorem IsInf.not_nan {w : W32} (h : IsInf w) : ¬ f32IsNaN w = true := by rw [(f32NonFinite_of_inf h).2]; exact Bool.false_ne_true

theorem not_nan_of_finite {w : W32} (h : f32NonFinite w = false) : ¬ f32IsNaN w = true := fun hnan => by
  rw [f32NonFinite, (Bool.and_eq_true_iff.1 hnan).1] at h; cases h

/-- Two infinities differ in their signs alone. -/
theorem IsInf.eq {w : W32} (h : IsInf w) : w = 0x7F800000 ||| signWord (w.getLsbD 31) := by
  conv_lhs => rw [← magnitude_or_sign w, show w &&& 0x7FFFFFFF = 0x7F800000 from h]

theorem IsInf.ext {a b : W32} (ha : IsInf a) (hb : IsInf b) : a = b ↔ a.getLsbD 31 = b.getLsbD 31 :=
  ⟨fun h => by rw [h], fun h => by rw [ha.eq, hb.eq, h]⟩

theorem f32In_inf (flush : Bool) {w : W32} (h : IsInf w) : f32In flush w = .inf (w.getLsbD 31) := by
  rw [f32In_nonFinite flush h.nonFinite, if_neg h.not_nan]

theorem ReadsZero.finite {flush : Bool} {w : W32} (h : ReadsZero flush w) : f32NonFinite w = false := by
  rcases hfin : f32NonFinite w with _ | _
  · rfl
  · rw [ReadsZero, flushed_of_nonFinite flush hfin] at h
    have hmag : w.toNat % 2 ^ 31 = 0 := (toNat_and_magnitude w).symm.trans (congrArg BitVec.toNat h)
    have hle : w.toNat % 2 ^ 31 ≤ Fmt.fp32.maxCode := hmag.trans_le (Nat.zero_le _)
    rw [(f32NonFinite_eq_false w).2 hle] at hfin
    cases hfin

/-- An operand reads as zero where its number is 0. -/
theorem readsZero_iff (flush : Bool) (w : W32) : ReadsZero flush w ↔ unitsOf .fp32 (flushed flush w).toNat = 0 := by
  have hmag : ReadsZero flush w ↔ (flushed flush w).toNat % 2 ^ (f32Spec.ebits + f32Spec.fbits) = 0 := by
    rw [ReadsZero, BitVec.toNat_eq, toNat_and_magnitude]; rfl
  rw [hmag, unitsOf_float float_fp32, withSign_eq_zero]
  exact ⟨fun h => by rw [h, codeUnits_zero], fun h => Nat.eq_zero_of_not_pos fun hpos => (codeUnits_pos f32Spec hpos).ne' h⟩

/-- A finite operand reads as its number, with its sign. -/
theorem f32In_number (flush : Bool) {w : W32} (h : f32NonFinite w = false) :
    ∃ d : Dy, f32In flush w = .fin d ∧ d.Reads (unitsOf .fp32 (flushed flush w).toNat) (w.getLsbD 31)
      ∧ (d.man = 0 ↔ ReadsZero flush w) := by
  obtain ⟨d, hd, hread⟩ := f32In_reads flush h
  rw [getLsbD_flushed] at hread
  refine ⟨d, hd, hread, ?_⟩
  rw [readsZero_iff, ← hread.units]
  exact ⟨Dy.at_of_man, man_eq_zero⟩

/-- A word by its fields (R102). -/
theorem decodeFloat_fp32 (c : Nat) : decodeFloat .fp32 f32Spec c =
    if bitsOf c 23 8 = 0 then .fin ⟨bitAt c 31, bitsOf c 0 23, 1 - 127 - 23⟩
    else if bitsOf c 23 8 < 255 then .fin ⟨bitAt c 31, 2 ^ 23 + bitsOf c 0 23, (bitsOf c 23 8 : Int) - 127 - 23⟩
    else if bitsOf c 0 23 = 0 then .inf (bitAt c 31) else .nan := rfl

/-- The sign inverted. -/
theorem f32In_xor_sign (flush : Bool) (w : W32) : f32In flush (w ^^^ 0x80000000) = (f32In flush w).negate := by
  have hfield : ∀ lo len, (0x80000000 : W32).extractLsb' lo len = 0 → bitsOf (w ^^^ 0x80000000).toNat lo len = bitsOf w.toNat lo len :=
    fun lo len h => by
      rw [← extractLsb'_toNat_eq_bitsOf, BitVec.extractLsb'_xor, h, ← extractLsb'_toNat_eq_bitsOf]; exact congrArg _ (BitVec.xor_zero)
  have hexp := hfield 23 8 (by decide)
  have hfrac := hfield 0 23 (by decide)
  have hsign : bitAt (w ^^^ 0x80000000).toNat 31 = !bitAt w.toNat 31 := by
    rw [bitAt_eq_testBit, bitAt_eq_testBit, BitVec.testBit_toNat, BitVec.testBit_toNat, BitVec.getLsbD_xor]
    exact Bool.xor_true _
  have hsub : isSubnormal f32Spec (w ^^^ 0x80000000).toNat = isSubnormal f32Spec w.toNat := by
    show (bitsOf _ 23 8 == 0 && bitsOf _ 0 23 != 0) = _
    rw [hexp, hfrac]; rfl
  rw [f32In_eq, f32In_eq, hsub, decodeFloat_fp32, decodeFloat_fp32, hexp, hfrac, hsign]
  simp only [apply_ite Val.negate]
  rfl

/-! ## Results -/

theorem f32Out_nan (flush : Bool) (rm : RM) : f32Out flush rm .nan = f32NaN := rfl

theorem f32Out_infinite (flush : Bool) (rm : RM) (neg : Bool) : f32Out flush rm (.inf neg) = 0x7F800000 ||| signWord neg :=
  f32Out_inf flush rm neg

/-- A zero result keeps its sign. -/
theorem f32Out_zero (flush : Bool) (rm : RM) {d : Dy} (hd : -300 ≤ d.exp) (h0 : d.man = 0) :
    f32Out flush rm (.fin d) = signWord d.neg := by
  have hunits : d.units = 0 := by rw [Dy.units, h0, Nat.zero_mul]
  show BitVec.ofNat 32 (flushCode .fp32 flush (encodeExact .fp32 rm.noSr false 0 d.toExact).code) = _
  rw [flushCode_fp32, encodeExact_zero float_fp32 (noSr_ne_sr rm) false 0 hd hunits]
  cases flush <;> cases d.neg <;> decide

/-- A number is rounded once; a zero has the sign that is named. -/
theorem f32Out_rounds (flush : Bool) (rm : RM) {d : Dy} {x : Int} {z : W32} (hd : -300 ≤ d.exp) (hx : d.at (-300) = x)
    (hz : d.man = 0 → z &&& 0x80000000 = signWord d.neg) : F32Result flush rm x z (f32Out flush rm (.fin d)) :=
  hx ▸ f32Out_result flush rm hd fun h => (hz h).trans (signWord_eq_ofNat _)

/-! ## Sums and products of dyadic numbers -/

theorem withSign_mul_withSign (m n : Bool) (X Y : Nat) : withSign m X * withSign n Y = withSign (m != n) (X * Y) := by
  cases m <;> cases n <;> simp [withSign]

theorem dyAdd_of_zeros (rm : RM) {a b : Dy} (h : a.man = 0 ∧ b.man = 0) :
    dyAdd rm a b = ⟨if a.neg = b.neg then a.neg else decide (rm = .rd), 0, min a.exp b.exp⟩ := by
  rw [dyAdd, if_pos (by simpa using h)]
  simp only [beq_iff_eq]

/-- A sum at the lesser of the exponents. -/
theorem dyAdd_of_not_zeros (rm : RM) {a b : Dy} (h : ¬ (a.man = 0 ∧ b.man = 0)) {s : Int}
    (hs : a.at (min a.exp b.exp) + b.at (min a.exp b.exp) = s) :
    dyAdd rm a b = ⟨if s = 0 then decide (rm = .rd) else decide (s < 0), s.natAbs, min a.exp b.exp⟩ := by
  rw [dyAdd, if_neg (by simpa using h)]
  simp only [hs]
  split
  next h0 => rw [h0]; rfl
  next => rfl

theorem dyAdd_exp (rm : RM) (a b : Dy) : (dyAdd rm a b).exp = min a.exp b.exp := by
  by_cases h : a.man = 0 ∧ b.man = 0
  · rw [dyAdd_of_zeros rm h]
  · rw [dyAdd_of_not_zeros rm h rfl]

theorem dyAdd_at (rm : RM) {a b : Dy} (ha : -300 ≤ a.exp) (hb : -300 ≤ b.exp) :
    (dyAdd rm a b).at (-300) = a.at (-300) + b.at (-300) := by
  have he : -300 ≤ min a.exp b.exp := le_min ha hb
  by_cases h : a.man = 0 ∧ b.man = 0
  · rw [dyAdd_of_zeros rm h, Dy.at_of_man rfl, Dy.at_of_man h.1, Dy.at_of_man h.2]; rfl
  · rw [Dy.at_scale he (min_le_left a.exp b.exp), Dy.at_scale he (min_le_right a.exp b.exp), ← Int.add_mul]
    generalize hs : a.at (min a.exp b.exp) + b.at (min a.exp b.exp) = s
    rw [dyAdd_of_not_zeros rm h hs, ← natCast_two_pow]
    by_cases h0 : s = 0
    · rw [if_pos h0, h0, Dy.at_of_man rfl, Int.zero_mul]
    · rw [if_neg h0, Dy.at_eq_withSign, Dy.units, withSign_mul, withSign_natAbs]

/-- The sign of a sum that is 0 (R109). -/
theorem dyAdd_neg (rm : RM) {a b : Dy} (h : (dyAdd rm a b).man = 0) :
    (dyAdd rm a b).neg = if a.man = 0 ∧ b.man = 0 ∧ a.neg = b.neg then a.neg else decide (rm = .rd) := by
  by_cases hab : a.man = 0 ∧ b.man = 0
  · rw [dyAdd_of_zeros rm hab]
    simp only [hab.1, hab.2, true_and]
  · rw [dyAdd_of_not_zeros rm hab rfl] at h ⊢
    exact (if_pos (Int.natAbs_eq_zero.1 h)).trans (if_neg fun h' => hab ⟨h'.1, h'.2.1⟩).symm

theorem dyMul_at {a b : Dy} (ha : -300 ≤ a.exp) (hb : -300 ≤ b.exp) (hab : -300 ≤ a.exp + b.exp) :
    (dyMul a b).at (-300) = a.at (-300) * b.at (-300) / 2 ^ 300 := by
  have hpow : (dyMul a b).units * 2 ^ 300 = a.units * b.units := by
    have he : (a.exp + b.exp + 300).toNat + 300 = (a.exp + 300).toNat + (b.exp + 300).toNat := by omega
    rw [Dy.units, Dy.units, Dy.units, Nat.mul_mul_mul_comm, ← Nat.pow_add, ← he, Nat.pow_add, ← Nat.mul_assoc]
    rfl
  rw [Dy.at_eq_withSign, Dy.at_eq_withSign, Dy.at_eq_withSign, withSign_mul_withSign, ← hpow, withSign_mul, Nat.cast_pow,
    Nat.cast_ofNat, Int.mul_ediv_cancel _ (Int.pow_pos (by decide)).ne']
  rfl

end Sys2Proof.Machine
end

section
/-! Sums, products and a·b + c of FP32 operands (R79, R109, R111, R114, R152). -/

namespace Sys2Proof.Machine

theorem valAdd_nan_left (rm : RM) (v : Val) : valAdd rm .nan v = .nan := rfl

theorem valAdd_nan_right (rm : RM) (v : Val) : valAdd rm v .nan = .nan := by cases v <;> rfl

theorem valMul_nan_left (v : Val) : valMul .nan v = .nan := rfl

theorem valMul_nan_right (v : Val) : valMul v .nan = .nan := by cases v <;> rfl

theorem noSr_eq_rd {rm : RM} : rm.noSr = .rd ↔ rm = .rd := by cases rm <;> decide

/-- The sign of a sum of opposite numbers (R109). -/
theorem oppositeSum_sign (rm : RM) : (if rm = .rd then 0x80000000 else 0 : W32) &&& 0x80000000 = signWord (decide (rm = .rd)) := by
  cases rm <;> decide

/-- The word whose sign an exact zero sum of two operands has (R109). -/
def zeroSum (flush : Bool) (rm : RM) (u w : W32) : W32 :=
  if flushed flush u &&& 0x7FFFFFFF = 0 ∧ flushed flush w &&& 0x7FFFFFFF = 0 ∧ u &&& 0x80000000 = w &&& 0x80000000 then u
  else if rm = .rd then 0x80000000 else 0

/-- The sign of a sum that is 0 is that of the word of a zero sum. -/
theorem zeroSum_sign {flush : Bool} (rm : RM) {a b : Dy} {u w : W32} (hu : a.man = 0 ↔ ReadsZero flush u)
    (hw : b.man = 0 ↔ ReadsZero flush w) (su : a.neg = u.getLsbD 31) (sw : b.neg = w.getLsbD 31)
    (h : (dyAdd rm.noSr a b).man = 0) : zeroSum flush rm u w &&& 0x80000000 = signWord (dyAdd rm.noSr a b).neg := by
  have hcond : (flushed flush u &&& 0x7FFFFFFF = 0 ∧ flushed flush w &&& 0x7FFFFFFF = 0 ∧ u &&& 0x80000000 = w &&& 0x80000000)
      ↔ (a.man = 0 ∧ b.man = 0 ∧ a.neg = b.neg) := by
    rw [and_signMask, and_signMask, signWord_inj, hu, hw, su, sw]; rfl
  rw [dyAdd_neg _ h, zeroSum]
  simp only [hcond, noSr_eq_rd]
  split
  · rw [and_signMask, su]
  · exact oppositeSum_sign rm

/-- What a NaN reads as, in a sum with anything. -/
theorem f32Add_of_nan (flush : Bool) (rm : RM) {a b : W32} (h : f32IsNaN a = true ∨ f32IsNaN b = true) :
    f32Add flush rm a b = f32NaN := by
  rcases h with h | h <;> rw [f32Add, f32In_nan flush h]
  · rw [valAdd_nan_left, f32Out_nan]
  · rw [valAdd_nan_right, f32Out_nan]

/-- Infinities of opposite signs. -/
theorem f32Add_opposite (flush : Bool) (rm : RM) {a b : W32} (ha : IsInf a) (hb : IsInf b) (h : a ≠ b) :
    f32Add flush rm a b = f32NaN := by
  rw [f32Add, f32In_inf flush ha, f32In_inf flush hb, valAdd, if_neg (mt (ha.ext hb).2 h), f32Out_nan]

/-- An infinity and a number, or the same infinity. -/
theorem f32Add_inf_left (flush : Bool) (rm : RM) {a b : W32} (ha : IsInf a) (h : f32NonFinite b = false ∨ a = b) :
    f32Add flush rm a b = a := by
  have hsum : valAdd rm.noSr (f32In flush a) (f32In flush b) = .inf (a.getLsbD 31) := by
    rcases h with hb | rfl
    · obtain ⟨d, hd, -⟩ := f32In_number flush hb
      rw [f32In_inf flush ha, hd]; rfl
    · rw [f32In_inf flush ha]; exact if_pos rfl
  rw [f32Add, hsum, f32Out_infinite, ← ha.eq]

theorem f32Add_inf_right (flush : Bool) (rm : RM) {a b : W32} (ha : f32NonFinite a = false) (hb : IsInf b) :
    f32Add flush rm a b = b := by
  obtain ⟨d, hd, -⟩ := f32In_number flush ha
  rw [f32Add, f32In_inf flush hb, hd, valAdd, f32Out_infinite, ← hb.eq]

/-- A sum of numbers. -/
theorem f32Add_finite (flush : Bool) (rm : RM) {a b : W32} (ha : f32NonFinite a = false) (hb : f32NonFinite b = false) :
    F32Result flush rm (unitsOf .fp32 (flushed flush a).toNat + unitsOf .fp32 (flushed flush b).toNat) (zeroSum flush rm a b)
      (f32Add flush rm a b) := by
  obtain ⟨x, hx, hxr, hx0⟩ := f32In_number flush ha
  obtain ⟨y, hy, hyr, hy0⟩ := f32In_number flush hb
  rw [f32Add, hx, hy, ← hxr.units, ← hyr.units]
  exact f32Out_rounds flush rm ((dyAdd_exp ..).ge.trans' (le_min hxr.exp hyr.exp)) (dyAdd_at _ hxr.exp hyr.exp)
    (zeroSum_sign rm hx0 hy0 hxr.sign hyr.sign)

/-- A difference is the sum with the sign of the subtrahend inverted. -/
theorem f32Sub_eq (flush : Bool) (rm : RM) (a b : W32) : f32Sub flush rm a b = f32Add flush rm a (b ^^^ 0x80000000) := by
  rw [f32Sub, f32Add, f32In_xor_sign]

theorem f32Sub_of_nan (flush : Bool) (rm : RM) (a : W32) {b : W32} (h : f32IsNaN b = true) : f32Sub flush rm a b = f32NaN := by
  rw [f32Sub, f32In_nan flush h]
  exact (congrArg _ (valAdd_nan_right ..)).trans (f32Out_nan ..)

/-! ## Products -/

/-- Operands whose product is no number (R79). -/
def NoProduct (flush : Bool) (a b : W32) : Prop :=
  f32IsNaN a = true ∨ f32IsNaN b = true ∨ (IsInf a ∧ ReadsZero flush b) ∨ (ReadsZero flush a ∧ IsInf b)

/-- Operands whose product is infinite. -/
def InfProduct (flush : Bool) (a b : W32) : Prop :=
  (IsInf a ∧ ¬ f32IsNaN b = true ∧ ¬ ReadsZero flush b) ∨ (IsInf b ∧ ¬ f32IsNaN a = true ∧ ¬ ReadsZero flush a)

section

variable {flush : Bool} {a b : W32}

theorem product_nan (h : NoProduct flush a b) : valMul (f32In flush a) (f32In flush b) = .nan := by
  rcases h with h | h | ⟨ha, hb⟩ | ⟨ha, hb⟩
  · rw [f32In_nan flush h, valMul_nan_left]
  · rw [f32In_nan flush h, valMul_nan_right]
  · obtain ⟨d, hd, -, hd0⟩ := f32In_number flush hb.finite
    rw [f32In_inf flush ha, hd, valMul, if_pos (hd0.2 hb)]
  · obtain ⟨d, hd, -, hd0⟩ := f32In_number flush ha.finite
    rw [f32In_inf flush hb, hd, valMul, if_pos (hd0.2 ha)]

theorem product_inf (h : InfProduct flush a b) :
    valMul (f32In flush a) (f32In flush b) = .inf (a.getLsbD 31 != b.getLsbD 31) := by
  rcases h with ⟨hinf, hnan, hzero⟩ | ⟨hinf, hnan, hzero⟩
  · rcases f32_kind b with hb | hb | hb
    · exact absurd hb hnan
    · rw [f32In_inf flush hinf, f32In_inf flush hb]; rfl
    · obtain ⟨d, hd, hread, hd0⟩ := f32In_number flush hb
      rw [f32In_inf flush hinf, hd, valMul, if_neg (mt hd0.1 hzero), hread.sign]
  · rcases f32_kind a with ha | ha | ha
    · exact absurd ha hnan
    · rw [f32In_inf flush hinf, f32In_inf flush ha]; rfl
    · obtain ⟨d, hd, hread, hd0⟩ := f32In_number flush ha
      rw [f32In_inf flush hinf, hd, valMul, if_neg (mt hd0.1 hzero), hread.sign]

/-- A product of numbers is exact, with the sign of the operands' signs. -/
theorem product_finite (ha : f32NonFinite a = false) (hb : f32NonFinite b = false) :
    ∃ p : Dy, valMul (f32In flush a) (f32In flush b) = .fin p ∧ -300 ≤ p.exp
      ∧ p.at (-300) = unitsOf .fp32 (flushed flush a).toNat * unitsOf .fp32 (flushed flush b).toNat / 2 ^ 300
      ∧ p.neg = (a.getLsbD 31 != b.getLsbD 31)
      ∧ (p.man = 0 ↔ unitsOf .fp32 (flushed flush a).toNat * unitsOf .fp32 (flushed flush b).toNat = 0) := by
  obtain ⟨x, hx, hxr, hx0⟩ := f32In_number flush ha
  obtain ⟨y, hy, hyr, hy0⟩ := f32In_number flush hb
  have hexp : -300 ≤ x.exp + y.exp := by have := hxr.exp_ge; have := hyr.exp_ge; omega
  refine ⟨dyMul x y, by rw [hx, hy]; rfl, hexp, ?_, ?_, ?_⟩
  · rw [dyMul_at hxr.exp hyr.exp hexp, hxr.units, hyr.units]
  · rw [← hxr.sign, ← hyr.sign]; rfl
  · rw [Int.mul_eq_zero, ← readsZero_iff, ← readsZero_iff, ← hx0, ← hy0]
    exact Nat.mul_eq_zero

variable (rm : RM)

theorem f32Mul_of_nan (h : NoProduct flush a b) : f32Mul flush rm a b = f32NaN := by
  rw [f32Mul, product_nan h, f32Out_nan]

theorem f32Mul_inf (h : InfProduct flush a b) : f32Mul flush rm a b = 0x7F800000 ||| ((a ^^^ b) &&& 0x80000000) := by
  rw [f32Mul, product_inf h, f32Out_infinite, and_signMask_xor]

theorem f32Mul_finite (ha : f32NonFinite a = false) (hb : f32NonFinite b = false) :
    F32Result flush rm (unitsOf .fp32 (flushed flush a).toNat * unitsOf .fp32 (flushed flush b).toNat / 2 ^ 300)
      ((a ^^^ b) &&& 0x80000000) (f32Mul flush rm a b) := by
  obtain ⟨p, hp, hexp, hat, hneg, -⟩ := product_finite (flush := flush) ha hb
  rw [f32Mul, hp]
  exact f32Out_rounds flush rm hexp hat fun _ => by rw [and_signMask_xor, signWord_and, hneg]

/-! ## a·b + c -/

variable {c : W32}

theorem f32Fma_of_nan (h : NoProduct flush a b ∨ f32IsNaN c = true
      ∨ (InfProduct flush a b ∧ IsInf c ∧ c ≠ 0x7F800000 ||| ((a ^^^ b) &&& 0x80000000))) :
    f32Fma flush rm a b c = f32NaN := by
  rcases h with h | h | ⟨h, hc, hne⟩
  · rw [f32Fma, product_nan h, valAdd_nan_left, f32Out_nan]
  · rw [f32Fma, f32In_nan flush h, valAdd_nan_right, f32Out_nan]
  · have hsign : ¬ (a.getLsbD 31 != b.getLsbD 31) = c.getLsbD 31 := fun heq =>
      hne (hc.eq.trans (by rw [← heq, and_signMask_xor]))
    rw [f32Fma, product_inf h, f32In_inf flush hc, valAdd, if_neg hsign, f32Out_nan]

theorem f32Fma_inf (h : InfProduct flush a b) (hc : f32NonFinite c = false ∨ c = 0x7F800000 ||| ((a ^^^ b) &&& 0x80000000)) :
    f32Fma flush rm a b c = 0x7F800000 ||| ((a ^^^ b) &&& 0x80000000) := by
  have hsum : valAdd rm.noSr (.inf (a.getLsbD 31 != b.getLsbD 31)) (f32In flush c) = .inf (a.getLsbD 31 != b.getLsbD 31) := by
    rcases hc with hc | hc
    · obtain ⟨d, hd, -⟩ := f32In_number flush hc
      rw [hd]; rfl
    · rw [and_signMask_xor] at hc
      generalize (a.getLsbD 31 != b.getLsbD 31) = neg at *
      have hinf : IsInf c := by rw [hc, IsInf]; cases neg <;> decide
      have hneg : c.getLsbD 31 = neg := by rw [hc]; cases neg <;> rfl
      rw [f32In_inf flush hinf, hneg]
      exact if_pos rfl
  rw [f32Fma, product_inf h, hsum, f32Out_infinite, and_signMask_xor]

theorem f32Fma_inf_addend (ha : f32NonFinite a = false) (hb : f32NonFinite b = false) (hc : IsInf c) :
    f32Fma flush rm a b c = c := by
  obtain ⟨p, hp, -⟩ := product_finite (flush := flush) ha hb
  rw [f32Fma, hp, f32In_inf flush hc, valAdd, f32Out_infinite, ← hc.eq]

/-- A word of a sign reads as a zero. -/
theorem readsZero_sign (flush : Bool) (w : W32) : ReadsZero flush (w &&& 0x80000000) := by
  rw [ReadsZero, and_signMask]
  cases flush <;> cases w.getLsbD 31 <;> decide

theorem f32Fma_finite (ha : f32NonFinite a = false) (hb : f32NonFinite b = false) (hc : f32NonFinite c = false) :
    F32Result flush rm (unitsOf .fp32 (flushed flush a).toNat * unitsOf .fp32 (flushed flush b).toNat / 2 ^ 300
        + unitsOf .fp32 (flushed flush c).toNat)
      (if unitsOf .fp32 (flushed flush a).toNat * unitsOf .fp32 (flushed flush b).toNat = 0
        then zeroSum flush rm ((a ^^^ b) &&& 0x80000000) c else if rm = .rd then 0x80000000 else 0)
      (f32Fma flush rm a b c) := by
  obtain ⟨p, hp, hexp, hat, hneg, hp0⟩ := product_finite (flush := flush) ha hb
  obtain ⟨y, hy, hyr, hy0⟩ := f32In_number flush hc
  rw [f32Fma, hp, hy, ← hat, ← hyr.units]
  refine f32Out_rounds flush rm ((dyAdd_exp ..).ge.trans' (le_min hexp hyr.exp)) (dyAdd_at _ hexp hyr.exp) fun h0 => ?_
  split
  next hzero =>
    refine zeroSum_sign rm (iff_of_true (hp0.2 hzero) (readsZero_sign flush _)) hy0 ?_ hyr.sign h0
    rw [and_signMask_xor, signWord_getLsbD, hneg]
  next hzero =>
    have hneg0 := dyAdd_neg _ h0
    rw [if_neg (fun h => hzero (hp0.1 h.1)), decide_eq_decide.2 noSr_eq_rd] at hneg0
    rw [hneg0, oppositeSum_sign]

end

end Sys2Proof.Machine
end

section
/-! FMIN and FMAX by the order of the operands' magnitudes and signs, and the statement on the FP32 forms of the V slots (R79, R152). -/

namespace Sys2Proof.Machine

/-! ## The order of FMIN and FMAX (R79, R152) -/

/-- The rank of a magnitude: its number, or beyond every number. -/
def magRank (m : Nat) : Nat := if m ≤ Fmt.fp32.maxCode then codeUnits f32Spec m else 2 ^ 500

theorem magnitude_le_inf {w : W32} (h : ¬ f32IsNaN w = true) : w.toNat % 2 ^ 31 ≤ Fmt.fp32.maxCode + 1 := by
  rcases f32_kind w with hnan | hinf | hfin
  · exact absurd hnan h
  · rw [← toNat_and_magnitude, show w &&& 0x7FFFFFFF = 0x7F800000 from hinf]; decide
  · exact ((f32NonFinite_eq_false w).1 hfin).trans (Nat.le_succ _)

theorem magRank_lt {m n : Nat} (hm : m ≤ Fmt.fp32.maxCode + 1) (hn : n ≤ Fmt.fp32.maxCode + 1) :
    magRank m < magRank n ↔ m < n := by
  have hbound : ∀ {e}, 431 ≤ e → ∀ k ≤ Fmt.fp32.maxCode, codeUnits f32Spec k < 2 ^ e := fun he k hk =>
    (codeUnits_lt (Fmt.bias_le float_fp32) (lt_of_le_of_lt hk (Fmt.maxCode_lt float_fp32))).trans_le
      (Nat.pow_le_pow_right (by decide) he)
  rw [magRank, magRank]
  split
  next hm' =>
    split
    next hn' => exact (codeUnits_strictMono f32Spec).lt_iff_lt
    next hn' => exact iff_of_true (hbound (by decide) m hm') (by omega)
  next hm' =>
    split
    next hn' => exact iff_of_false (Nat.not_lt_of_lt (hbound (by decide) n hn')) (by omega)
    next hn' => exact iff_of_false (lt_irrefl _) (by omega)

/-- A number's rank by its magnitude and its sign. -/
theorem rankOf_eq {w : W32} (h : ¬ f32IsNaN w = true) : rankOf false w = withSign (w.getLsbD 31) (magRank (w.toNat % 2 ^ 31)) := by
  rw [rankOf, magRank]
  rcases f32_kind w with hnan | hinf | hfin
  · exact absurd hnan h
  · have hmag : ¬ w.toNat % 2 ^ 31 ≤ Fmt.fp32.maxCode := fun hle => by
      have hnf := hinf.nonFinite
      rw [(f32NonFinite_eq_false w).2 hle] at hnf
      cases hnf
    rw [if_pos hinf.nonFinite, if_neg hmag, withSign, natCast_two_pow]
  · rw [hfin, if_neg Bool.false_ne_true, if_pos ((f32NonFinite_eq_false w).1 hfin), unitsOf_float float_fp32]
    rfl

theorem neg?_f32In (flush : Bool) {w : W32} (h : ¬ f32IsNaN w = true) : (f32In flush w).neg? = w.getLsbD 31 := by
  rcases f32_kind w with hnan | hinf | hfin
  · exact absurd hnan h
  · rw [f32In_inf flush hinf]; rfl
  · obtain ⟨d, hd, hread, -⟩ := f32In_number flush hfin
    rw [hd, ← hread.sign]; rfl

/-- The order of two words as FMIN and FMAX see it: by value, −0 below +0. -/
def orderKey (w : W32) : Int :=
  if w.getLsbD 31 then -((w.toNat % 2 ^ 31 : Nat) : Int) - 1 else (w.toNat % 2 ^ 31 : Nat)

theorem less_eq_orderKey {u v : W32} (hu : ¬ f32IsNaN u = true) (hv : ¬ f32IsNaN v = true) :
    (valLt (f32In false u) (f32In false v) || (valEq (f32In false u) (f32In false v) && (f32In false u).neg? && !(f32In false v).neg?))
      = decide (orderKey u < orderKey v) := by
  have hR : (0 : Int) < 2 ^ 500 := Int.pow_pos (by decide)
  have hru := f32In_rank false (Bool.not_eq_true _ ▸ hu)
  have hrv := f32In_rank false (Bool.not_eq_true _ ▸ hv)
  have hlt := magRank_lt (magnitude_le_inf hu) (magnitude_le_inf hv)
  have hgt := magRank_lt (magnitude_le_inf hv) (magnitude_le_inf hu)
  rw [Bool.eq_iff_iff, Bool.or_eq_true, Bool.and_eq_true, Bool.and_eq_true, Bool.not_eq_true', decide_eq_true_iff,
    valLt_iff hR hru hrv, valEq_iff hR hru hrv, rankOf_eq hu, rankOf_eq hv, neg?_f32In false hu, neg?_f32In false hv, orderKey, orderKey]
  generalize magRank (u.toNat % 2 ^ 31) = x at *
  generalize magRank (v.toNat % 2 ^ 31) = y at *
  cases u.getLsbD 31 <;> cases v.getLsbD 31 <;> simp [withSign] <;> omega

section

variable (isMax flush : Bool) {a b : W32}

theorem ofNat_flushCode (a : W32) : BitVec.ofNat 32 (flushCode .fp32 flush a.toNat) = flushed flush a := by
  rw [flushCode_fp32, BitVec.ofNat_toNat, BitVec.setWidth_eq]

theorem decodeCode_flushCode (a : W32) : decodeCode .fp32 (flushCode .fp32 flush a.toNat) = f32In false (flushed flush a) := by
  have hcode : flushCode .fp32 flush a.toNat = (flushed flush a).toNat := by
    rw [flushed_toNat]; exact flushCode_eq_wideFlush rfl flush a.isLt
  rw [hcode]; rfl

theorem f32MinMax_nan_nan (ha : f32IsNaN a = true) (hb : f32IsNaN b = true) : f32MinMax isMax flush a b = f32NaN := by
  simp only [f32MinMax, ha, hb, if_true]

theorem f32MinMax_nan_left (ha : f32IsNaN a = true) (hb : ¬ f32IsNaN b = true) : f32MinMax isMax flush a b = flushed flush b := by
  simp only [f32MinMax, if_pos ha, if_neg hb, ofNat_flushCode]

theorem f32MinMax_nan_right (ha : ¬ f32IsNaN a = true) (hb : f32IsNaN b = true) : f32MinMax isMax flush a b = flushed flush a := by
  simp only [f32MinMax, if_neg ha, if_pos hb, ofNat_flushCode]

theorem flushed_not_nan (h : ¬ f32IsNaN a = true) : ¬ f32IsNaN (flushed flush a) = true := by
  rcases hfin : f32NonFinite a with _ | _
  · exact not_nan_of_finite (f32NonFinite_flushed flush hfin)
  · rwa [flushed_of_nonFinite flush hfin]

/-- Of two numbers the lesser or the greater. -/
theorem f32MinMax_numbers (ha : ¬ f32IsNaN a = true) (hb : ¬ f32IsNaN b = true) : f32MinMax isMax flush a b
    = flushed flush (if decide (orderKey (flushed flush a) < orderKey (flushed flush b)) = isMax then b else a) := by
  simp only [f32MinMax, if_neg ha, if_neg hb, decodeCode_flushCode,
    less_eq_orderKey (flushed_not_nan flush ha) (flushed_not_nan flush hb), beq_iff_eq]
  split <;> exact ofNat_flushCode ..

/-- The key of an operand after the subnormal rule, by the sign of its word. -/
theorem orderKey_flushed (w : W32) : orderKey (flushed flush w) = if w &&& 0x80000000 = 0
    then ((flushed flush w &&& 0x7FFFFFFF).toNat : Int) else -((flushed flush w &&& 0x7FFFFFFF).toNat : Int) - 1 := by
  rw [orderKey, getLsbD_flushed, and_signMask, toNat_and_magnitude]
  cases w.getLsbD 31 <;> rfl

/-- FABS and FNEG (R152). -/
theorem f32SignOp_eq (inv : Bool) (x : W32) : f32SignOp flush inv x = if f32IsNaN x then f32NaN
    else if inv then flushed flush x ^^^ 0x80000000 else flushed flush x &&& 0x7FFFFFFF := by
  simp only [f32SignOp, ofNat_flushCode]

end

/-! ## Completion (R149, R150) -/

theorem vecFp_run {s : State} {tt : TT} (h : s.anyLane tt = true) (vu : VUnit) (lat : Nat) (vd : VReg) (f : Nat → W32) (slot : Nat) :
    (vecFp s vu tt lat vd f).run slot [] s = .next (vectorFp s vu tt lat vd f) := vecNf_run h vu lat vd _ slot

/-- Settles O15: the values by the kinds of the operands, and each form as one FP32 result lane by lane. -/
theorem vectorFloatResults : Obligations.VectorFloatResults := by
  unfold Obligations.VectorFloatResults
  refine ⟨fun flush rm a b c => ?_, fun s vu tt vd va vb vc rm h hvd hva hvb hvc => ?_⟩
  · intro x sign inf fin nan isZero sumZero prodSign prodInf noProd key
    refine ⟨fun ha hb => ⟨f32Add_finite flush rm ha hb, f32Mul_finite rm ha hb⟩, ?_, fun ha hb => f32Add_inf_left flush rm ha hb,
      fun ha hb => f32Add_inf_right flush rm ha hb, f32Sub_of_nan flush rm a, fun _ => f32Sub_eq flush rm a b, f32Mul_of_nan rm,
      f32Mul_inf rm, fun ha hb hc => f32Fma_finite rm ha hb hc, f32Fma_of_nan rm, fun hp hc => f32Fma_inf rm hp hc,
      fun ha hb hc => f32Fma_inf_addend rm ha hb hc, fun isMax => ⟨f32MinMax_nan_nan isMax flush, f32MinMax_nan_left isMax flush,
        f32MinMax_nan_right isMax flush, fun ha hb => ?_⟩⟩
    · rintro (hnan | hnan | ⟨ha, hb, hne⟩)
      · exact f32Add_of_nan flush rm (.inl hnan)
      · exact f32Add_of_nan flush rm (.inr hnan)
      · exact f32Add_opposite flush rm ha hb hne
    · rw [f32MinMax_numbers isMax flush ha hb, orderKey_flushed, orderKey_flushed]
  · intro a b c flush m sign res
    have hbad2 : s.badV [vd, va] = [] := State.badV_eq_nil (by simp [hvd, hva])
    have hbad3 : s.badV [vd, va, vb] = [] := State.badV_eq_nil (by simp [hvd, hva, hvb])
    have hbad4 : s.badV [vd, va, vb, vc] = [] := State.badV_eq_nil (by simp [hvd, hva, hvb, hvc])
    have run := fun f => vecFp_run h vu 4 vd f (slotV vu)
    have hsign : ∀ inv x, f32SignOp flush inv x = sign inv x := f32SignOp_eq flush
    refine ⟨?_, ?_, ?_, ?_, ?_, ?_, ?_, ?_⟩
    · show (vFaddSem vu tt vd va vb rm s).run (slotV vu) (s.badV [vd, va, vb]) s = _
      rw [hbad3, vFaddSem, State.rm_eq]; exact run _
    · show (vFsubSem vu tt vd va vb rm s).run (slotV vu) (s.badV [vd, va, vb]) s = _
      rw [hbad3, vFsubSem, State.rm_eq]; exact run _
    · show (vFmulSem vu tt vd va vb rm s).run (slotV vu) (s.badV [vd, va, vb]) s = _
      rw [hbad3, vFmulSem, State.rm_eq]; exact run _
    · show (vFfmaSem vu tt vd va vb vc rm s).run (slotV vu) (s.badV [vd, va, vb, vc]) s = _
      rw [hbad4, vFfmaSem, State.rm_eq]; exact run _
    · show (vFminSem vu tt vd va vb s).run (slotV vu) (s.badV [vd, va, vb]) s = _
      rw [hbad3, vFminSem]; exact run _
    · show (vFmaxSem vu tt vd va vb s).run (slotV vu) (s.badV [vd, va, vb]) s = _
      rw [hbad3, vFmaxSem]; exact run _
    · show (vFabsSem vu tt vd va s).run (slotV vu) (s.badV [vd, va]) s = _
      simp only [← hsign]
      rw [hbad2, vFabsSem]; exact run _
    · show (vFnegSem vu tt vd va s).run (slotV vu) (s.badV [vd, va]) s = _
      simp only [← hsign]
      rw [hbad2, vFnegSem]; exact run _

end Sys2Proof.Machine
end

section
/-! VRED and VAMAX (R160, R162): the pairwise tree over the lanes, and the largest magnitude. -/

namespace Sys2Proof.Machine

/-! ## The pairwise tree (R160) -/

theorem pairUp_map_range {α : Type} (op : α → α → α) (n : Nat) (f : Nat → α) :
    pairUp op ((List.range (2 * n)).map f) = (List.range n).map fun i => op (f (2 * i)) (f (2 * i + 1)) := by
  induction n generalizing f with
  | zero => rfl
  | succ n ih =>
    have hrange : List.range (2 * (n + 1)) = 0 :: 1 :: (List.range (2 * n)).map (· + 2) := by
      rw [Nat.mul_succ, List.range_succ_eq_map, List.range_succ_eq_map, List.map_cons, List.map_map]; rfl
    rw [hrange, List.map_cons, List.map_cons, List.map_map, pairUp, ih, List.range_succ_eq_map, List.map_cons, List.map_map]
    rfl

/-- One level of the tree from the one below. -/
theorem pairUp_level (op : W32 → W32 → W32) (v : Vec) (k : Nat) {m n : Nat} (h : m = 2 * n) :
    pairUp op ((List.range m).map (pairTree op v k)) = (List.range n).map (pairTree op v (k + 1)) := by
  rw [h, pairUp_map_range]; rfl

theorem vredTree_eq (op : W32 → W32 → W32) (v : Vec) : vredTree op v = pairTree op v 5 0 := by
  have hleaves : (List.range 32).map (lane v) = (List.range 32).map (pairTree op v 0) := rfl
  rw [vredTree, hleaves]
  simp only [pairUp_level op v 0 (m := 32) (n := 16) rfl, pairUp_level op v 1 (m := 16) (n := 8) rfl,
    pairUp_level op v 2 (m := 8) (n := 4) rfl, pairUp_level op v 3 (m := 4) (n := 2) rfl, pairUp_level op v 4 (m := 2) (n := 1) rfl]
  rfl

/-- VRED's operation of each code (R160). -/
theorem vred_run {s : State} {tt : TT} (h : s.anyLane tt = true) (vu : VUnit) (vd va : VReg) (red : BitVec 2) (slot : Nat) :
    (vredSem vu tt vd va red s).run slot [] s = .next (if red.toNat = 0
      then s.push 6 (s.me.vreg vd) (s.guardMask tt) (vecOf fun _ => pairTree (vredOp s.flushes red.toNat) (s.vec va) 5 0)
      else vectorFp s vu tt 10 vd fun _ => pairTree (vredOp s.flushes red.toNat) (s.vec va) 5 0) := by
  rw [vredSem, vredTree_eq]
  split
  · exact vecOp_run h 6 vd _ slot
  · exact vecFp_run h vu 10 vd _ slot

/-! ## The largest magnitude (R162) -/

/-- A lane's magnitude, after the subnormal rule. -/
def laneMag (flush : Bool) (w : W32) : W32 := if flush && w &&& 0x7F800000 == 0 then 0 else w &&& 0x7FFFFFFF

theorem toNat_laneMag (flush : Bool) (w : W32) : (laneMag flush w).toNat = flushCode .fp32 flush (w.toNat % 2 ^ 31) := by
  have hexp : (w &&& 0x7FFFFFFF) &&& 0x7F800000 = w &&& 0x7F800000 := by rw [BitVec.and_assoc]; rfl
  have hsign : (w &&& 0x7FFFFFFF) &&& 0x80000000 = 0 := by rw [BitVec.and_assoc]; exact BitVec.and_zero
  have hflush : laneMag flush w = flushed flush (w &&& 0x7FFFFFFF) := by rw [laneMag, flushed, hexp, hsign]
  rw [← toNat_and_magnitude, hflush, flushed_toNat]
  exact (flushCode_eq_wideFlush rfl flush (w &&& 0x7FFFFFFF).isLt).symm

/-- With a NaN lane the largest magnitude is NaN. -/
theorem amaxOf_nan {flush : Bool} {v : Vec} (h : ∃ i, i < 32 ∧ f32IsNaN (lane v i) = true) : amaxOf flush v = f32NaN := by
  obtain ⟨i, hi, hnan⟩ := h
  exact if_pos (List.any_eq_true.2 ⟨_, List.mem_map.2 ⟨i, List.mem_range.2 hi, rfl⟩, hnan⟩)

/-- Without one it is a lane's, and no lane's is larger. -/
theorem amaxOf_greatest {flush : Bool} {v : Vec} (h : ∀ i, i < 32 → f32IsNaN (lane v i) = false) :
    (∀ i, i < 32 → (laneMag flush (lane v i)).toNat ≤ (amaxOf flush v).toNat)
      ∧ ∃ i, i < 32 ∧ amaxOf flush v = laneMag flush (lane v i) := by
  have hany : ¬ ((List.range 32).map (lane v)).any f32IsNaN = true := fun hany => by
    obtain ⟨w, hw, hnan⟩ := List.any_eq_true.1 hany
    obtain ⟨i, hi, rfl⟩ := List.mem_map.1 hw
    rw [h i (List.mem_range.1 hi)] at hnan
    cases hnan
  have hmax : amaxOf flush v = BitVec.ofNat 32 (((List.range 32).map fun i => (laneMag flush (lane v i)).toNat).foldl max 0) := by
    simp only [toNat_laneMag]
    exact (if_neg hany).trans (by rw [List.map_map]; rfl)
  obtain ⟨hmem, hle⟩ := List.max?_eq_some_iff.1 (List.max?_cons' (x := 0) (xs := (List.range 32).map fun i => (laneMag flush (lane v i)).toNat))
  generalize ((List.range 32).map fun i => (laneMag flush (lane v i)).toNat).foldl max 0 = m at *
  have hge : ∀ i, i < 32 → (laneMag flush (lane v i)).toNat ≤ m := fun i hi =>
    hle _ (List.mem_cons_of_mem _ (List.mem_map.2 ⟨i, List.mem_range.2 hi, rfl⟩))
  obtain ⟨i, hi, rfl⟩ : ∃ i, i < 32 ∧ m = (laneMag flush (lane v i)).toNat := by
    rcases List.mem_cons.1 hmem with rfl | hmem
    · exact ⟨0, by decide, (Nat.le_zero.1 (hge 0 (by decide))).symm⟩
    · obtain ⟨i, hi, rfl⟩ := List.mem_map.1 hmem
      exact ⟨i, List.mem_range.1 hi, rfl⟩
  rw [BitVec.ofNat_toNat, BitVec.setWidth_eq] at hmax
  exact ⟨hmax ▸ hge, i, hi, hmax⟩

end Sys2Proof.Machine
end

section
/-! VDOT4 (R102, R123, R161): the products of codes, their exact sum and its one rounding into the lane. -/

namespace Sys2Proof.Machine

/-! ## Products of codes (R123) -/

/-- The code of an infinity (R102). -/
def CodeInf (f : Fmt) (c : Nat) : Prop := f.hasInf = true ∧ c % 128 = f.infCode

/-- The code of a NaN (R102). -/
def CodeNan (f : Fmt) (c : Nat) : Prop := ¬ FiniteCode f c ∧ ¬ CodeInf f c

/-- Codes whose product is no number. -/
def NoCodeProduct (f : Fmt) (c d : Nat) : Prop :=
  CodeNan f c ∨ CodeNan f d ∨ (CodeInf f c ∧ d % 128 = 0) ∨ (c % 128 = 0 ∧ CodeInf f d)

/-- Codes whose product is the infinity of a sign. -/
def InfCodeProduct (f : Fmt) (c d : Nat) (neg : Bool) : Prop :=
  (CodeInf f c ∨ CodeInf f d) ∧ ¬ NoCodeProduct f c d ∧ (c.testBit 7 != d.testBit 7) = neg

section

variable {f : Fmt} {fs : FloatSpec} (hf : f.float? = some fs) (h8 : f.bits = 8)

include hf h8

theorem decodeCode_codeNan {c : Nat} (hc : c < 256) (h : CodeNan f c) : decodeCode f c = .nan := by
  obtain ⟨hfin, hinf⟩ := h
  have hread := decodeCode_not_finite (.inr ⟨fs, hf⟩) (h8 ▸ hc) hfin
  rw [h8] at hread
  exact hread.trans (if_neg hinf)

theorem decodeCode_codeInf {c : Nat} (hc : c < 256) (h : CodeInf f c) : decodeCode f c = .inf (c.testBit 7) := by
  have hfin : ¬ FiniteCode f c := fun hfin => by
    have hmag := ((finiteCode_float hf c).1 hfin).2
    have hbits := Fmt.bits_of_float hf
    rw [h8] at hbits
    rw [show fs.ebits + fs.fbits = 7 by omega, show c % 2 ^ 7 = f.infCode from h.2, (Fmt.infCode_eq hf h.1).1] at hmag
    omega
  have hread := decodeCode_not_finite (.inr ⟨fs, hf⟩) (h8 ▸ hc) hfin
  rw [h8] at hread
  exact hread.trans (if_pos h)

theorem decodeCode_number {c : Nat} (h : FiniteCode f c) :
    ∃ d : Dy, decodeCode f c = .fin d ∧ d.Reads (unitsOf f c) (c.testBit 7) ∧ (d.man = 0 ↔ c % 128 = 0) := by
  obtain ⟨d, hd, hread⟩ := decodeCode_finite (.inr ⟨fs, hf⟩) h
  have hbits := Fmt.bits_of_float hf
  rw [h8] at hbits hread
  refine ⟨d, hd, hread, ?_⟩
  have hzero : d.man = 0 ↔ unitsOf f c = 0 := by rw [← hread.units]; exact ⟨Dy.at_of_man, man_eq_zero⟩
  rw [hzero, unitsOf_float hf, show fs.ebits + fs.fbits = 7 by omega, withSign_eq_zero]
  exact ⟨fun h => Nat.eq_zero_of_not_pos fun hpos => (codeUnits_pos fs hpos).ne' h,
    fun h => by rw [show c % 2 ^ 7 = 0 from h, codeUnits_zero]⟩

theorem codeProduct_nan {c d : Nat} (hc : c < 256) (hd : d < 256) (h : NoCodeProduct f c d) :
    valMul (decodeCode f c) (decodeCode f d) = .nan := by
  have hfinite : ∀ {c}, c < 256 → c % 128 = 0 → FiniteCode f c := fun {c} hc h0 => by
    have hbits := Fmt.bits_of_float hf
    rw [h8] at hbits
    rw [finiteCode_float hf, show fs.ebits + fs.fbits = 7 by omega]
    exact ⟨hc, (show c % 2 ^ 7 = 0 from h0).trans_le (Nat.zero_le _)⟩
  rcases h with h | h | ⟨hinf, h0⟩ | ⟨h0, hinf⟩
  · rw [decodeCode_codeNan hf h8 hc h, valMul_nan_left]
  · rw [decodeCode_codeNan hf h8 hd h, valMul_nan_right]
  · obtain ⟨y, hy, -, hy0⟩ := decodeCode_number hf h8 (hfinite hd h0)
    rw [decodeCode_codeInf hf h8 hc hinf, hy, valMul, if_pos (hy0.2 h0)]
  · obtain ⟨x, hx, -, hx0⟩ := decodeCode_number hf h8 (hfinite hc h0)
    rw [decodeCode_codeInf hf h8 hd hinf, hx, valMul, if_pos (hx0.2 h0)]

theorem codeProduct_inf {c d : Nat} (hc : c < 256) (hd : d < 256) {neg : Bool} (h : InfCodeProduct f c d neg) :
    valMul (decodeCode f c) (decodeCode f d) = .inf neg := by
  obtain ⟨hinf, hno, rfl⟩ := h
  have hkind : ∀ {c}, ¬ CodeNan f c → ¬ CodeInf f c → FiniteCode f c := fun hnan hinf => by_contra fun hfin => hnan ⟨hfin, hinf⟩
  by_cases hci : CodeInf f c
  · by_cases hdi : CodeInf f d
    · rw [decodeCode_codeInf hf h8 hc hci, decodeCode_codeInf hf h8 hd hdi]; rfl
    · obtain ⟨y, hy, hyr, hy0⟩ := decodeCode_number hf h8 (hkind (fun h => hno (.inr (.inl h))) hdi)
      have hne : ¬ y.man = 0 := fun h => hno (.inr (.inr (.inl ⟨hci, hy0.1 h⟩)))
      rw [decodeCode_codeInf hf h8 hc hci, hy, valMul, if_neg hne, hyr.sign]
  · have hdi := hinf.resolve_left hci
    obtain ⟨x, hx, hxr, hx0⟩ := decodeCode_number hf h8 (hkind (fun h => hno (.inl h)) hci)
    have hne : ¬ x.man = 0 := fun h => hno (.inr (.inr (.inr ⟨hx0.1 h, hdi⟩)))
    rw [decodeCode_codeInf hf h8 hd hdi, hx, valMul, if_neg hne, hxr.sign]

theorem codeProduct_finite {c d : Nat} (hc : FiniteCode f c) (hd : FiniteCode f d) : ∃ p : Dy,
    valMul (decodeCode f c) (decodeCode f d) = .fin p ∧ -300 ≤ p.exp ∧ p.at (-300) = unitsOf f c * unitsOf f d / 2 ^ 300 := by
  obtain ⟨x, hx, hxr, -⟩ := decodeCode_number hf h8 hc
  obtain ⟨y, hy, hyr, -⟩ := decodeCode_number hf h8 hd
  have hexp : -300 ≤ x.exp + y.exp := by have := hxr.exp_ge; have := hyr.exp_ge; omega
  exact ⟨dyMul x y, by rw [hx, hy]; rfl, hexp, by rw [dyMul_at hxr.exp hyr.exp hexp, hxr.units, hyr.units]⟩

/-- A product is a NaN, an infinity or a number. -/
theorem codeProduct_cases (c d : Nat) :
    NoCodeProduct f c d ∨ (∃ neg, InfCodeProduct f c d neg) ∨ ∃ p, valMul (decodeCode f c) (decodeCode f d) = .fin p := by
  by_cases hno : NoCodeProduct f c d
  · exact .inl hno
  by_cases hinf : CodeInf f c ∨ CodeInf f d
  · exact .inr (.inl ⟨_, hinf, hno, rfl⟩)
  · have hfinite : ∀ {c}, ¬ CodeNan f c → ¬ CodeInf f c → FiniteCode f c := fun hnan hinf => by_contra fun hfin => hnan ⟨hfin, hinf⟩
    obtain ⟨p, hp, -⟩ := codeProduct_finite hf h8 (hfinite (fun h => hno (.inl h)) fun h => hinf (.inl h))
      (hfinite (fun h => hno (.inr (.inl h))) fun h => hinf (.inr h))
    exact .inr (.inr ⟨p, hp⟩)

end

/-! ## Sums of values (R79) -/

/-- Values whose sum is no number. -/
def NoSum (l : List Val) : Prop := .nan ∈ l ∨ (.inf false ∈ l ∧ .inf true ∈ l)

/-- An infinity in a sum leaves itself or makes it NaN. -/
theorem valAdd_of_inf (rm : RM) {v w : Val} {neg : Bool} (h : v = .inf neg ∨ w = .inf neg) :
    valAdd rm v w = .inf neg ∨ valAdd rm v w = .nan := by
  rcases h with rfl | rfl
  · cases w with
    | nan => exact .inr rfl
    | inf n => rw [valAdd]; split <;> simp
    | fin d => exact .inl rfl
  · cases v with
    | nan => exact .inr rfl
    | inf n => rw [valAdd]; split <;> simp [*]
    | fin d => exact .inl rfl

theorem NoSum.step (rm : RM) {v w : Val} {l : List Val} (h : NoSum (v :: w :: l)) : NoSum (valAdd rm v w :: l) := by
  have hinf : ∀ {neg}, .inf neg ∈ v :: w :: l → .inf neg ∈ valAdd rm v w :: l ∨ .nan ∈ valAdd rm v w :: l := fun {neg} hmem => by
    simp only [List.mem_cons] at hmem ⊢
    rcases hmem with hv | hw | hl
    · exact (valAdd_of_inf rm (.inl hv.symm)).imp (fun h => .inl h.symm) fun h => .inl h.symm
    · exact (valAdd_of_inf rm (.inr hw.symm)).imp (fun h => .inl h.symm) fun h => .inl h.symm
    · exact .inl (.inr hl)
  rcases h with hnan | ⟨hpos, hneg⟩
  · refine .inl ?_
    simp only [List.mem_cons] at hnan ⊢
    rcases hnan with rfl | rfl | hl
    · exact .inl (valAdd_nan_left rm w).symm
    · exact .inl (valAdd_nan_right rm v).symm
    · exact .inr hl
  · rcases hinf hpos with hpos | hnan
    · exact (hinf hneg).elim (fun hneg => .inr ⟨hpos, hneg⟩) .inl
    · exact .inl hnan

theorem foldl_valAdd_nan (rm : RM) (l : List Val) : ∀ v, NoSum (v :: l) → l.foldl (valAdd rm) v = .nan := by
  induction l with
  | nil =>
    rintro v (h | ⟨h, h'⟩)
    · exact (List.mem_singleton.1 h).symm
    · exact absurd ((List.mem_singleton.1 h).trans (List.mem_singleton.1 h').symm) (by simp)
  | cons w l ih => exact fun v h => ih _ (h.step rm)

/-- An infinity among values that are numbers or it stands. -/
theorem foldl_valAdd_inf (rm : RM) {neg : Bool} (l : List Val) : ∀ v, (∀ w ∈ v :: l, w = .inf neg ∨ ∃ d, w = .fin d) →
    .inf neg ∈ v :: l → l.foldl (valAdd rm) v = .inf neg := by
  induction l with
  | nil => exact fun v _ h => (List.mem_singleton.1 h).symm
  | cons w l ih =>
    intro v hall hmem
    have hrest : ∀ u ∈ l, u = .inf neg ∨ ∃ d, u = .fin d := fun u hu => hall u (by simp [hu])
    rcases hall v (by simp) with rfl | ⟨x, rfl⟩ <;> rcases hall w (by simp) with rfl | ⟨y, rfl⟩
    · exact ih _ (List.forall_mem_cons.2 ⟨.inl (if_pos rfl), hrest⟩) (List.mem_cons.2 (.inl (if_pos rfl).symm))
    · exact ih _ (List.forall_mem_cons.2 ⟨.inl rfl, hrest⟩) (List.mem_cons.2 (.inl rfl))
    · exact ih _ (List.forall_mem_cons.2 ⟨.inl rfl, hrest⟩) (List.mem_cons.2 (.inl rfl))
    · exact ih _ (List.forall_mem_cons.2 ⟨.inr ⟨_, rfl⟩, hrest⟩) (List.mem_cons.2 (.inr (by simpa using hmem)))

/-- Numbers have their exact sum. -/
theorem foldl_valAdd_finite (rm : RM) (l : List Dy) : ∀ a : Dy, (∀ d ∈ a :: l, -300 ≤ d.exp) →
    ∃ d : Dy, (l.map Val.fin).foldl (valAdd rm) (.fin a) = .fin d ∧ -300 ≤ d.exp
      ∧ d.at (-300) = ((a :: l).map (fun d => d.at (-300))).sum := by
  induction l with
  | nil => exact fun a h => ⟨a, rfl, h a (List.mem_singleton_self a), by simp⟩
  | cons b l ih =>
    intro a h
    have ha := h a (by simp)
    have hb := h b (by simp)
    obtain ⟨d, hd, hexp, hat⟩ := ih (dyAdd rm a b) fun d hd => by
      rcases List.mem_cons.1 hd with rfl | hd
      · rw [dyAdd_exp]; exact le_min ha hb
      · exact h d (by simp [hd])
    refine ⟨d, hd, hexp, hat.trans ?_⟩
    simp only [List.map_cons, List.sum_cons, dyAdd_at rm ha hb, Int.add_assoc]

/-! ## The lane of VDOT4 (R161) -/

/-- What VDOT4 makes of the sum of the products and of the lane c. -/
def dotSum (flush : Bool) (t : Val) (c : W32) : W32 :=
  match t with
  | .nan => f32NaN
  | t => if t.isZero then f32Out flush .rne (f32In flush c) else f32Out flush .rne (valAdd .rne (f32In flush c) t)

/-- The products of the codes of two lanes. -/
def dotProducts (f : Fmt) (a b : W32) : List Val :=
  (List.range 4).map fun j => valMul (decodeCode f (subLane 8 a j)) (decodeCode f (subLane 8 b j))

theorem dot4Lane_float {f : Fmt} (hint : f.isInt = false) (flush : Bool) (a b c : W32) :
    dot4Lane flush f a b c = (dotSum flush ((dotProducts f a b).foldl (valAdd .rne) .zero) c,
      f32NonFinite (dotSum flush ((dotProducts f a b).foldl (valAdd .rne) .zero) c)) := by
  have hsum : dot4 f a b = (dotProducts f a b).foldl (valAdd .rne) .zero := by rw [dotProducts, List.foldl_map]; rfl
  rw [← hsum, dot4Lane, hint, if_neg Bool.false_ne_true]
  rfl

section

variable (flush : Bool) {c : W32}

theorem dotSum_nan_addend (t : Val) (h : f32IsNaN c = true) : dotSum flush t c = f32NaN := by
  have hother : (if t.isZero then f32Out flush .rne (f32In flush c) else f32Out flush .rne (valAdd .rne (f32In flush c) t)) = f32NaN := by
    rw [f32In_nan flush h, valAdd_nan_left, f32Out_nan, ite_self]
  cases t with
  | nan => rfl
  | inf n => exact hother
  | fin d => exact hother

/-- The word of an infinity. -/
def infWord (neg : Bool) : W32 := if neg then 0xFF800000 else 0x7F800000

theorem infWord_eq (neg : Bool) : 0x7F800000 ||| signWord neg = infWord neg := by cases neg <;> rfl

theorem isInf_infWord (neg : Bool) : IsInf (infWord neg) := by rw [IsInf]; cases neg <;> decide

theorem getLsbD_infWord (neg : Bool) : (infWord neg).getLsbD 31 = neg := by cases neg <;> rfl

theorem dotSum_inf (neg : Bool) (h : ¬ f32IsNaN c = true) :
    dotSum flush (.inf neg) c = if c = infWord (!neg) then f32NaN else infWord neg := by
  show f32Out flush .rne (valAdd .rne (f32In flush c) (.inf neg)) = _
  rcases f32_kind c with hnan | hinf | hfin
  · exact absurd hnan h
  · have hother : c = infWord (!neg) ↔ ¬ c.getLsbD 31 = neg := by
      rw [hinf.ext (isInf_infWord _), getLsbD_infWord]; cases c.getLsbD 31 <;> cases neg <;> decide
    rw [f32In_inf flush hinf, valAdd]
    by_cases hsign : c.getLsbD 31 = neg
    · rw [if_pos hsign, if_neg (fun h => hother.1 h hsign), hsign, f32Out_infinite, infWord_eq]
    · rw [if_neg hsign, if_pos (hother.2 hsign), f32Out_nan]
  · obtain ⟨d, hd, -⟩ := f32In_number flush hfin
    have hne : ¬ c = infWord (!neg) := fun h => by
      have := (isInf_infWord (!neg)).nonFinite
      rw [← h, hfin] at this
      cases this
    rw [hd, if_neg hne, valAdd, f32Out_infinite, infWord_eq]

theorem dotSum_inf_addend (d : Dy) (h : IsInf c) : dotSum flush (.fin d) c = c := by
  show (if d.man == 0 then f32Out flush .rne (f32In flush c) else f32Out flush .rne (valAdd .rne (f32In flush c) (.fin d))) = c
  rw [f32In_inf flush h, valAdd, ite_self, f32Out_infinite, ← h.eq]

theorem flushed_flushed (w : W32) : flushed flush (flushed flush w) = flushed flush w := by
  by_cases h : (flush && w &&& 0x7F800000 == 0) = true
  · rw [show flushed flush w = w &&& 0x80000000 from if_pos h, flushed]
    split
    · rw [BitVec.and_assoc, BitVec.and_self]
    · rfl
  · rw [show flushed flush w = w from if_neg h]
    exact if_neg h

/-- A word is the code of its sign and its magnitude. -/
theorem signedCode_word (w : W32) : signedCode f32Spec (w.getLsbD 31) (w.toNat % 2 ^ 31) = w.toNat := by
  have htop : w.toNat / 2 ^ 31 = b2n (w.toNat.testBit 31) := div_top_bit w.isLt
  rw [signedCode, ← BitVec.testBit_toNat, ← htop]
  exact Nat.div_add_mod' ..

/-- A number of FP32 is its own rounded value. -/
theorem f32Out_f32In (h : f32NonFinite c = false) : f32Out flush .rne (f32In flush c) = flushed flush c := by
  obtain ⟨d, hd, hread, -⟩ := f32In_number flush h
  have hfin := (f32NonFinite_eq_false _).1 (f32NonFinite_flushed flush h)
  have hunits : d.units = codeUnits f32Spec ((flushed flush c).toNat % 2 ^ 31) := by
    have hat := hread.units
    rw [Dy.at_eq_withSign, unitsOf_float float_fp32] at hat
    have habs := congrArg Int.natAbs hat
    have : ∀ neg X, (withSign neg X).natAbs = X := fun neg X => by rw [withSign]; split <;> omega
    rwa [this, this] at habs
  obtain ⟨m, hm, hmc, henc⟩ := encodeExact_fp32 hread.exp ⟨_, hfin, hunits.symm⟩
  rw [hunits] at hmc
  have hcode : signedCode f32Spec d.neg m = (flushed flush c).toNat := by
    rw [(codeUnits_strictMono f32Spec).injective hmc, hread.sign, ← getLsbD_flushed flush, signedCode_word]
  rw [hd]
  show BitVec.ofNat 32 (flushCode .fp32 flush (encodeExact .fp32 .rne false 0 d.toExact).code) = _
  rw [henc, hcode, ofNat_flushCode, flushed_flushed]

theorem dotSum_zero {d : Dy} (h : f32NonFinite c = false) (h0 : d.man = 0) : dotSum flush (.fin d) c = flushed flush c := by
  rw [← f32Out_f32In flush h]
  exact if_pos (beq_iff_eq.2 h0)

theorem dotSum_number {d : Dy} (h : f32NonFinite c = false) (h0 : d.man ≠ 0) (hd : -300 ≤ d.exp) :
    F32Result flush .rne (unitsOf .fp32 (flushed flush c).toNat + d.at (-300)) 0 (dotSum flush (.fin d) c) := by
  obtain ⟨y, hy, hyr, -⟩ := f32In_number flush h
  have hsum : dotSum flush (.fin d) c = f32Out flush .rne (.fin (dyAdd .rne y d)) := by
    refine (if_neg (mt beq_iff_eq.1 h0)).trans ?_
    rw [hy]; rfl
  rw [hsum, ← hyr.units]
  refine f32Out_rounds flush .rne ((dyAdd_exp ..).ge.trans' (le_min hyr.exp hd)) (dyAdd_at _ hyr.exp hd) fun hman => ?_
  have hneg := dyAdd_neg _ hman
  rw [if_neg (fun h => h0 h.2.1)] at hneg
  rw [hneg]; rfl

end

end Sys2Proof.Machine
end

section
/-! The statement on VRED, VAMAX and VDOT4 (R160 to R162). -/

namespace Sys2Proof.Machine

/-! ## VDOT4 of E4M3 and E5M2 -/

section

variable {f : Fmt} {fs : FloatSpec} (hf : f.float? = some fs) (h8 : f.bits = 8) (a b : W32)

include hf h8

/-- Of finite codes the products have an exact sum. -/
theorem dotProducts_finite (h : ∀ j < 4, FiniteCode f (subLane 8 a j) ∧ FiniteCode f (subLane 8 b j)) :
    ∃ d : Dy, (dotProducts f a b).foldl (valAdd .rne) .zero = .fin d ∧ -300 ≤ d.exp
      ∧ d.at (-300) = ((List.range 4).map fun j => unitsOf f (subLane 8 a j) * unitsOf f (subLane 8 b j) / 2 ^ 300).sum := by
  have hproduct : ∀ j, ∃ p : Dy, j ∈ List.range 4 → valMul (decodeCode f (subLane 8 a j)) (decodeCode f (subLane 8 b j)) = .fin p
      ∧ -300 ≤ p.exp ∧ p.at (-300) = unitsOf f (subLane 8 a j) * unitsOf f (subLane 8 b j) / 2 ^ 300 := fun j => by
    by_cases hj : j < 4
    · obtain ⟨p, hp⟩ := codeProduct_finite hf h8 (h j hj).1 (h j hj).2
      exact ⟨p, fun _ => hp⟩
    · exact ⟨⟨false, 0, 0⟩, fun hmem => absurd (List.mem_range.1 hmem) hj⟩
  choose p hp using hproduct
  have hlist : dotProducts f a b = ((List.range 4).map p).map Val.fin := by
    rw [List.map_map]
    exact List.map_congr_left fun j hj => (hp j hj).1
  have hsum : ((List.range 4).map p).map (fun d => d.at (-300))
      = (List.range 4).map fun j => unitsOf f (subLane 8 a j) * unitsOf f (subLane 8 b j) / 2 ^ 300 := by
    rw [List.map_map]
    exact List.map_congr_left fun j hj => (hp j hj).2.2
  obtain ⟨d, hd, hexp, hat⟩ := foldl_valAdd_finite .rne ((List.range 4).map p) ⟨false, 0, 0⟩ fun d hd => by
    rcases List.mem_cons.1 hd with rfl | hd
    · decide
    · obtain ⟨j, hj, rfl⟩ := List.mem_map.1 hd
      exact (hp j hj).2.1
  rw [List.map_cons, List.sum_cons, Dy.at_of_man (d := ⟨false, 0, 0⟩) rfl, Int.zero_add, hsum] at hat
  exact ⟨d, hlist ▸ hd, hexp, hat⟩

theorem dotResult (flush : Bool) (c : W32) :
    DotResult f flush a b c (dotSum flush ((dotProducts f a b).foldl (valAdd .rne) .zero) c) := by
  unfold DotResult
  intro code inf nan zero neg noProduct infinite noSum sum infOf
  have hcode : ∀ (w : W32) j, subLane 8 w j < 256 := fun w j => subLane_lt 8 w j
  have hmem : ∀ {j v}, j < 4 → valMul (decodeCode f (subLane 8 a j)) (decodeCode f (subLane 8 b j)) = v
      → v ∈ Val.zero :: dotProducts f a b := fun hj h => List.mem_cons_of_mem _ (List.mem_map.2 ⟨_, List.mem_range.2 hj, h⟩)
  have hinfinite : ∀ {j n}, j < 4 → infinite j n → .inf n ∈ Val.zero :: dotProducts f a b := fun hj h =>
    hmem hj (codeProduct_inf hf h8 (hcode a _) (hcode b _) h)
  refine ⟨?_, fun n hsome ⟨j, hj, hinf⟩ hc => ?_, fun hfin => ?_⟩
  · rintro (hno | hc)
    · have hnan : NoSum (Val.zero :: dotProducts f a b) := by
        rcases hno with ⟨j, hj, hno⟩ | ⟨⟨i, hi, hpos⟩, j, hj, hneg⟩
        · exact .inl (hmem hj (codeProduct_nan hf h8 (hcode a j) (hcode b j) hno))
        · exact .inr ⟨hinfinite hi hpos, hinfinite hj hneg⟩
      rw [foldl_valAdd_nan .rne _ _ hnan]; rfl
    · exact dotSum_nan_addend flush _ hc
  · have hall : ∀ v ∈ Val.zero :: dotProducts f a b, v = .inf n ∨ ∃ d, v = .fin d := fun v hv => by
      rcases List.mem_cons.1 hv with rfl | hv
      · exact .inr ⟨_, rfl⟩
      obtain ⟨i, hi, rfl⟩ := List.mem_map.1 hv
      rcases codeProduct_cases hf h8 (subLane 8 a i) (subLane 8 b i) with hno | ⟨m, hm⟩ | hd
      · exact absurd (.inl ⟨i, List.mem_range.1 hi, hno⟩) hsome
      · rcases Bool.eq_or_eq_not m n with rfl | rfl
        · exact .inl (codeProduct_inf hf h8 (hcode a i) (hcode b i) hm)
        · refine absurd (.inr ?_) hsome
          cases n
          · exact ⟨⟨j, hj, hinf⟩, i, List.mem_range.1 hi, hm⟩
          · exact ⟨⟨i, List.mem_range.1 hi, hm⟩, j, hj, hinf⟩
      · exact .inr hd
    rw [foldl_valAdd_inf .rne _ _ hall (hinfinite hj hinf)]
    exact dotSum_inf flush n (by rw [hc]; exact Bool.false_ne_true)
  · obtain ⟨d, hd, hexp, hat⟩ := dotProducts_finite hf h8 a b hfin
    rw [hd]
    refine ⟨fun n hc => dotSum_inf_addend flush d (hc ▸ isInf_infWord n), fun hc => ⟨fun h0 => ?_, fun h0 => ?_⟩⟩
    · exact dotSum_zero flush hc (man_eq_zero (hat.trans h0))
    · have hnum := dotSum_number flush hc (fun hman => h0 (hat.symm.trans (Dy.at_of_man hman))) hexp
      rw [hat] at hnum
      exact hnum

end

/-! ## VDOT4 of INT8 -/

theorem signed_subLane (w : W32) (j : Nat) : signed 8 (subLane 8 w j) = (w.extractLsb' (8 * j) 8).toInt := by
  rw [signed_eq_toInt (by decide), subLane, ← extractLsb'_toNat_eq_bitsOf, BitVec.ofNat_toNat, BitVec.setWidth_eq]

theorem dot4Lane_int8 (flush : Bool) (a b c : W32) : dot4Lane flush .int8 a b c =
    (c + BitVec.ofInt 32 ((a.extractLsb' (8 * 0) 8).toInt * (b.extractLsb' (8 * 0) 8).toInt
      + (a.extractLsb' (8 * 1) 8).toInt * (b.extractLsb' (8 * 1) 8).toInt
      + (a.extractLsb' (8 * 2) 8).toInt * (b.extractLsb' (8 * 2) 8).toInt
      + (a.extractLsb' (8 * 3) 8).toInt * (b.extractLsb' (8 * 3) 8).toInt), false) := by
  have hsum : ∀ p : Nat → Int, (List.range 4).foldl (fun acc j => acc + p j) 0 = p 0 + p 1 + p 2 + p 3 := fun p => by
    simp [List.range_succ]
  simp only [← signed_subLane]
  rw [← hsum fun j => signed 8 (subLane 8 a j) * signed 8 (subLane 8 b j)]
  rfl

/-- A form that sets NF in no lane writes its lanes alone. -/
theorem vectorNf_of_none (s : State) (vu : VUnit) (tt : TT) (lat : Nat) (vd : VReg) (f : Nat → W32) :
    vectorNf s vu tt lat vd (fun i => (f i, false)) = s.push lat (s.me.vreg vd) (s.guardMask tt) (vecOf f) := by
  have hnone : firstNf (s.lanesOn tt) (fun _ => false) = none := List.find?_eq_none.2 fun _ _ => Bool.false_ne_true
  rw [vectorNf, State.nfLanes, hnone]

/-- Settles O20: VRED by the levels of its tree, VAMAX by the greatest of the lanes' magnitudes, VDOT4 by the sum of its products. -/
theorem crossLaneResults : Obligations.CrossLaneResults := by
  unfold Obligations.CrossLaneResults
  refine ⟨fun s vu tt vd va h hvd hva => ?_, fun s vu tt vd va h hvd hva => ?_, fun s vu tt vd va vb vc h hvd hva hvb hvc => ?_⟩
  · intro flush root
    have hbad : s.badV [vd, va] = [] := State.badV_eq_nil (by simp [hvd, hva])
    have run := fun red => vred_run h vu vd va red (slotV vu)
    rw [← hbad] at run
    exact ⟨run 0, run 1, run 2, run 3⟩
  · intro a mag
    have hbad : s.badV [vd, va] = [] := State.badV_eq_nil (by simp [hvd, hva])
    refine ⟨amaxOf s.flushes (s.vec va), ?_, amaxOf_nan, amaxOf_greatest⟩
    show (vamaxSem vu tt vd va s).run (slotV vu) (s.badV [vd, va]) s = _
    rw [hbad, vamaxSem, vecFp_run h]
  · intro byte p c dots
    have hbad : s.badV [vd, va, vb, vc] = [] := State.badV_eq_nil (by simp [hvd, hva, hvb, hvc])
    have run : ∀ fmt, Runs (.vdot4 vu tt vd va vb vc fmt) s (vectorNf s vu tt 4 vd fun i =>
        dot4Lane s.flushes (fmt4 fmt) (lane (s.vec va) i) (lane (s.vec vb) i) (lane (s.vec vc) i)) := fun fmt => by
      show (vdot4Sem vu tt vd va vb vc fmt s).run (slotV vu) (s.badV [vd, va, vb, vc]) s = _
      rw [hbad, vdot4Sem, vecNf_run h]
    have float : ∀ {f : Fmt} {fs} {fmt}, f.float? = some fs → f.bits = 8 → fmt4 fmt = f → dots f (.vdot4 vu tt vd va vb vc fmt) :=
      fun {f fs fmt} hf h8 hfmt => by
        refine ⟨_, ?_, fun l => dotResult hf h8 (lane (s.vec va) l) (lane (s.vec vb) l) s.flushes (c l)⟩
        have hrun := run fmt
        simp only [hfmt, dot4Lane_float (Fmt.isInt_of_float hf)] at hrun
        exact hrun
    refine ⟨?_, float rfl rfl rfl, float rfl rfl rfl⟩
    have hrun := run 6
    rw [show fmt4 6 = .int8 from rfl] at hrun
    simp only [dot4Lane_int8, vectorNf_of_none] at hrun
    exact hrun

end Sys2Proof.Machine
end

section
/-! Rounding of quotients and roots (R78, R79, R109, R153): a magnitude that the model knows to a fraction rounds as a whole number of
units of 2^-300 between the same codes and midpoints. -/

namespace Sys2Proof.Machine

/-! ## Magnitudes known to a fraction -/

/-- The magnitude V, in units of 2^-300, is (q + δ)·2^exp with 0 ≤ δ < 1, and δ > 0 exactly when the sticky bit says so. -/
def Exact.Holds (x : Exact) (V : ℝ) : Prop :=
  x.q * (2 : ℝ) ^ (x.exp + 300) ≤ V ∧ V < (x.q + 1) * (2 : ℝ) ^ (x.exp + 300)
    ∧ (x.sticky = true ↔ V ≠ x.q * (2 : ℝ) ^ (x.exp + 300))

/-- A whole number X of units lies as V does to every even number of units. -/
def NearTo (X : Nat) (V : ℝ) : Prop := ∀ t : Nat, (2 * t ≤ X ↔ 2 * (t : ℝ) ≤ V) ∧ (X ≤ 2 * t ↔ V ≤ 2 * (t : ℝ))

/-- The whole number for a magnitude between n and n + 1, as the statement names it. -/
def nearNat (isExact : Bool) (n : Nat) : Nat := if isExact then n else n / 2 * 2 + 1

theorem nearUnits_eq (isExact : Bool) (n : Nat) : nearUnits isExact n = nearNat isExact n := by
  cases isExact <;> rfl

theorem nearTo_nearNat {n : Nat} {V : ℝ} {isExact : Bool} (hlo : n ≤ V) (hhi : V < n + 1) (h : isExact = true ↔ V = n) :
    NearTo (nearNat isExact n) V := by
  intro t
  have hle : 2 * t ≤ n ↔ 2 * (t : ℝ) ≤ V := by
    constructor
    · intro h
      have : ((2 * t : Nat) : ℝ) ≤ n := Nat.cast_le.2 h
      push_cast at this; linarith
    · intro h
      have : ((2 * t : Nat) : ℝ) < (n + 1 : Nat) := by push_cast; linarith
      exact Nat.lt_succ_iff.1 (Nat.cast_lt.1 this)
  cases isExact with
  | true =>
    have hV : V = n := h.1 rfl
    refine ⟨hle, ?_⟩
    rw [hV, nearNat, if_pos rfl]
    exact_mod_cast Iff.rfl
  | false =>
    have hne : V ≠ n := fun hV => Bool.false_ne_true (h.2 hV)
    have hgt : (n : ℝ) < V := lt_of_le_of_ne hlo hne.symm
    have hge : n < 2 * t ↔ V ≤ 2 * (t : ℝ) := by
      constructor
      · intro h
        have : ((n + 1 : Nat) : ℝ) ≤ (2 * t : Nat) := Nat.cast_le.2 h
        push_cast at this; linarith
      · intro h
        have : (n : ℝ) < (2 * t : Nat) := by push_cast; linarith
        exact Nat.cast_lt.1 this
    rw [← hle, ← hge, nearNat, if_neg Bool.false_ne_true]
    omega

theorem zpow_units (e : Int) (sh : Nat) : (2 : ℝ) ^ (e + sh + 300) = 2 ^ sh * (2 : ℝ) ^ (e + 300) := by
  rw [show e + sh + 300 = sh + (e + 300) by ring, zpow_add₀ two_ne_zero, zpow_natCast]

/-- Whether a magnitude with a sticky bit rounds up, by how a whole number lies to its neighbours and to their midpoint. -/
theorem roundsUp_eq_takesUpper {rm : RM} (hrm : rm ≠ .sr) {r sh lo hi X : Nat} {sticky : Bool} (hinexact : lo < X ↔ r ≠ 0 ∨ sticky = true)
    (habove : lo + hi < 2 * X ↔ 2 ^ sh < 2 * r ∨ (2 * r = 2 ^ sh ∧ sticky = true))
    (htie : 2 * X = lo + hi ↔ 2 * r = 2 ^ sh ∧ sticky = false) (neg : Bool) (m draw : Nat) :
    roundsUp rm neg m r sh sticky draw = takesUpper rm neg (m % 2 == 1) lo hi X := by
  have hne : decide (lo < X) = (r != 0 || sticky) := by
    rw [Bool.eq_iff_iff, decide_eq_true_iff, hinexact, Bool.or_eq_true, bne_iff_ne]
  cases rm with
  | sr => exact absurd rfl hrm
  | rz => rfl
  | ru => simp only [roundsUp, takesUpper, hne]
  | rd => simp only [roundsUp, takesUpper, hne]
  | rne =>
    simp only [roundsUp, takesUpper, habove, htie, gt_iff_lt]
    cases sticky <;> simp

section

variable {x : Exact} {V : ℝ} (hx : x.Holds V)

include hx

theorem Exact.Holds.le_iff (c : Nat) : (c : ℝ) * (2 : ℝ) ^ (x.exp + 300) ≤ V ↔ c ≤ x.q := by
  obtain ⟨hlo, hhi, -⟩ := hx
  have hE : (0 : ℝ) < (2 : ℝ) ^ (x.exp + 300) := by positivity
  constructor
  · intro h
    have hlt : (c : ℝ) < x.q + 1 := lt_of_mul_lt_mul_right (h.trans_lt hhi) hE.le
    exact Nat.lt_succ_iff.1 (by exact_mod_cast hlt)
  · exact fun h => (mul_le_mul_of_nonneg_right (Nat.cast_le.2 h) hE.le).trans hlo

theorem Exact.Holds.ge_iff (c : Nat) :
    V ≤ (c : ℝ) * (2 : ℝ) ^ (x.exp + 300) ↔ x.q < c ∨ (x.q = c ∧ x.sticky = false) := by
  obtain ⟨hlo, hhi, hsticky⟩ := hx
  have hE : (0 : ℝ) < (2 : ℝ) ^ (x.exp + 300) := by positivity
  constructor
  · intro h
    rcases Nat.lt_or_ge x.q c with hlt | hge
    · exact .inl hlt
    · have hV : V = x.q * (2 : ℝ) ^ (x.exp + 300) :=
        le_antisymm (h.trans (mul_le_mul_of_nonneg_right (Nat.cast_le.2 hge) hE.le)) hlo
      have hle : x.q ≤ c := Nat.cast_le.1 (le_of_mul_le_mul_right (hV ▸ h) hE)
      exact .inr ⟨le_antisymm hle hge, Bool.eq_false_iff.2 fun hs => hsticky.1 hs hV⟩
  · rintro (hlt | ⟨rfl, hs⟩)
    · have hle : (x.q : ℝ) + 1 ≤ c := by exact_mod_cast hlt
      exact hhi.le.trans (mul_le_mul_of_nonneg_right hle hE.le)
    · have hV : V = x.q * (2 : ℝ) ^ (x.exp + 300) := not_not.1 fun hne => by rw [hsticky.2 hne] at hs; cases hs
      exact hV.le

variable {X : Nat} (hX : NearTo X V)

include hX

/-- How a whole number lies to an even one that is a multiple of 2^exp. -/
theorem Exact.Holds.near {t c : Nat} (h : 2 * (t : ℝ) = c * (2 : ℝ) ^ (x.exp + 300)) :
    (2 * t ≤ X ↔ c ≤ x.q) ∧ (X ≤ 2 * t ↔ x.q < c ∨ (x.q = c ∧ x.sticky = false)) := by
  obtain ⟨hle, hge⟩ := hX t
  rw [hle, hge, h]
  exact ⟨hx.le_iff c, hx.ge_iff c⟩

/-- A magnitude and the whole number for it round alike to a multiple of 2^u. -/
theorem roundAt_near {rm : RM} (hrm : rm ≠ .sr) (draw : Nat) {u : Int} (hu : x.exp < u) (hu' : -298 ≤ u) :
    roundAt rm draw x u = roundAt rm draw (⟨x.neg, X, -300⟩ : Dy).toExact u := by
  obtain ⟨sh, rfl⟩ : ∃ sh : Nat, u = x.exp + (sh + 1 : Nat) := ⟨(u - x.exp).toNat - 1, by omega⟩
  obtain ⟨w, hw⟩ : ∃ w : Nat, 2 ^ (x.exp + (sh + 1 : Nat) + 300).toNat = 4 * w := ⟨2 ^ (x.exp + (sh + 1 : Nat) + 298).toNat, by
    rw [show (x.exp + (sh + 1 : Nat) + 300).toNat = 2 + (x.exp + (sh + 1 : Nat) + 298).toNat by omega, Nat.pow_add]⟩
  have hunit : 4 * (w : ℝ) = 2 ^ (sh + 1) * (2 : ℝ) ^ (x.exp + 300) := by
    rw [← zpow_units]
    have hcast : ((4 * w : Nat) : ℝ) = (2 : ℝ) ^ (x.exp + (sh + 1 : Nat) + 300).toNat := by rw [← hw]; push_cast; rfl
    rw [← zpow_natCast, Int.toNat_of_nonneg (by omega)] at hcast
    exact_mod_cast hcast
  have hwpos : 0 < w := by have := Nat.two_pow_pos (x.exp + (sh + 1 : Nat) + 300).toNat; omega
  obtain ⟨m', hlo', hhi', hround⟩ := roundAt_eq hrm draw (d := ⟨x.neg, X, -300⟩) (by simp) (show -300 ≤ x.exp + (sh + 1 : Nat) by omega)
  have hunits : (⟨x.neg, X, -300⟩ : Dy).units = X := Nat.mul_one X
  rw [hunits, hw] at hlo' hhi' hround
  have hsplit := Nat.div_add_mod' x.q (2 ^ (sh + 1))
  have hrem := Nat.mod_lt x.q (Nat.two_pow_pos (sh + 1))
  generalize hm : x.q / 2 ^ (sh + 1) = m at *
  generalize hr : x.q % 2 ^ (sh + 1) = r at *
  have hfloor := hx.near hX (t := m * (2 * w)) (c := m * 2 ^ (sh + 1)) (by push_cast; linear_combination (m : ℝ) * hunit)
  have hnext := hx.near hX (t := (m + 1) * (2 * w)) (c := (m + 1) * 2 ^ (sh + 1)) (by push_cast; linear_combination ((m : ℝ) + 1) * hunit)
  have hmid := hx.near hX (t := (2 * m + 1) * w) (c := (2 * m + 1) * 2 ^ sh)
    (by push_cast; linear_combination ((m : ℝ) + 1 / 2) * hunit)
  have hfields : m * (4 * w) = 2 * (m * (2 * w)) ∧ (m + 1) * (4 * w) = 2 * ((m + 1) * (2 * w))
      ∧ m * (4 * w) + (m + 1) * (4 * w) = 2 * (2 * ((2 * m + 1) * w)) := ⟨by ring, by ring, by ring⟩
  have hpow : (m + 1) * 2 ^ (sh + 1) = m * 2 ^ (sh + 1) + 2 ^ (sh + 1)
      ∧ 2 * ((2 * m + 1) * 2 ^ sh) = 2 * (m * 2 ^ (sh + 1)) + 2 ^ (sh + 1) := ⟨by ring, by ring⟩
  have hup : m * (4 * w) ≤ X ∧ X < (m + 1) * (4 * w) ∧ roundsUp rm x.neg m r (sh + 1) x.sticky draw
      = takesUpper rm x.neg (m % 2 == 1) (m * (4 * w)) ((m + 1) * (4 * w)) X := by
    generalize m * (4 * w) = lo at *
    generalize (m + 1) * (4 * w) = hi at *
    generalize m * (2 * w) = t₀ at *
    generalize (m + 1) * (2 * w) = t₁ at *
    generalize (2 * m + 1) * w = t at *
    generalize (2 * m + 1) * 2 ^ sh = c at *
    generalize (m + 1) * 2 ^ (sh + 1) = c₁ at *
    generalize m * 2 ^ (sh + 1) = c₀ at *
    exact ⟨by omega, by omega, roundsUp_eq_takesUpper hrm (by grind) (by grind) (by grind) x.neg m draw⟩
  obtain ⟨hlo, hhi, hup⟩ := hup
  obtain rfl : m' = m := by rw [← Nat.div_eq_of_lt_le hlo' hhi', Nat.div_eq_of_lt_le hlo hhi]
  refine (if_neg (by omega)).trans ?_
  rw [hround, show (x.exp + (sh + 1 : Nat) - x.exp).toNat = sh + 1 by omega]
  simp only [hm, hr, hup, b2n]
  split <;> rfl

end

end Sys2Proof.Machine
end

section
/-! The one rounding of a quotient or a root (R109, R153): the encode of a magnitude that the model knows to a fraction, and how quotients
and roots are known. -/

namespace Sys2Proof.Machine

/-! ## The encode of a magnitude known to a fraction -/

section

variable {x : Exact} {V : ℝ} (hx : x.Holds V)

include hx

theorem Exact.Holds.pow_le_iff (hq : 0 < x.q) (k : Nat) : (2 : ℝ) ^ k ≤ V ↔ (k : Int) < x.exp + 300 + bitLen x.q := by
  have hpos := bitLen_pos hq.ne'
  by_cases h : (k : Int) < x.exp + 300
  · have hone : ((1 : Nat) : ℝ) * (2 : ℝ) ^ (x.exp + 300) ≤ V := (hx.le_iff 1).2 hq
    have hle : (2 : ℝ) ^ (k : Int) ≤ (2 : ℝ) ^ (x.exp + 300) := zpow_le_zpow_right₀ one_le_two h.le
    rw [zpow_natCast] at hle
    exact iff_of_true (hle.trans (by simpa using hone)) (by omega)
  · obtain ⟨j, hj⟩ : ∃ j : Nat, (k : Int) = j + (x.exp + 300) := ⟨(k - (x.exp + 300)).toNat, by omega⟩
    have hpow : (2 : ℝ) ^ k = ((2 ^ j : Nat) : ℝ) * (2 : ℝ) ^ (x.exp + 300) := by
      rw [← zpow_natCast, hj, zpow_add₀ two_ne_zero, zpow_natCast]; push_cast; rfl
    rw [hpow, hx.le_iff, ← lt_bitLen_iff]
    omega

variable {X : Nat} (hX : NearTo X V) (hpos : 0 < X)

include hX hpos

/-- The magnitude and the whole number for it have the same unit of the last place. -/
theorem ulpExp_near (hq : 0 < x.q) : ulpExp f32Spec x.q x.exp = ulpExp f32Spec X (-300) := by
  have hbits : ∀ k : Nat, 1 ≤ k → (k < bitLen X ↔ (k : Int) < x.exp + 300 + bitLen x.q) := fun k hk => by
    obtain ⟨j, rfl⟩ := Nat.exists_eq_add_of_le' hk
    have hnear := (hX (2 ^ j)).1
    rw [← hx.pow_le_iff hq, lt_bitLen_iff, pow_succ', pow_succ', hnear]
    push_cast; rfl
  have hX1 := bitLen_pos hpos.ne'
  have h1 := hbits 1 le_rfl
  have h2 := hbits (bitLen X) hX1
  have h3 := hbits (x.exp + 300 + bitLen x.q).toNat
  simp only [ulpExp, f32Spec]
  omega

variable (hq : 2 ^ 24 ≤ x.q)

include hq

theorem roundFloat_near {rm : RM} (hrm : rm ≠ .sr) (draw : Nat) :
    roundFloat f32Spec rm draw x = roundFloat f32Spec rm draw (⟨x.neg, X, -300⟩ : Dy).toExact := by
  have hq0 : 0 < x.q := lt_of_lt_of_le (by decide) hq
  have hulp := ulpExp_near hx hX hpos hq0
  have hlen : 24 < bitLen x.q := lt_bitLen_iff.2 hq
  have hge : -149 ≤ ulpExp f32Spec x.q x.exp := by simp only [ulpExp, f32Spec]; omega
  have hgt : x.exp < ulpExp f32Spec x.q x.exp := by simp only [ulpExp, f32Spec]; omega
  have hround := roundAt_near hx hX hrm draw hgt (le_trans (by decide) hge)
  have hxq : max x.q 1 = x.q := by omega
  have hXq : max X 1 = X := by omega
  simp only [roundFloat, Dy.toExact, hxq, hXq, hq0.ne', hpos.ne', ← hulp]
  exact hround

/-- A quotient or a root is rounded once and flushed. -/
theorem f32OfExact_near (flush : Bool) (rm : RM) (z : W32) : F32Result flush rm (withSign x.neg X) z (f32OfExact flush rm x) := by
  have henc : encodeExact .fp32 rm.noSr false 0 x = encodeExact .fp32 rm.noSr false 0 (⟨x.neg, X, -300⟩ : Dy).toExact := by
    show encodeExactFloat .fp32 f32Spec rm.noSr false 0 x = encodeExactFloat .fp32 f32Spec rm.noSr false 0 _
    rw [encodeExactFloat, encodeExactFloat, roundFloat_near hx hX hpos hq (noSr_ne_sr rm)]
    rfl
  have hout : f32OfExact flush rm x = f32Out flush rm (.fin ⟨x.neg, X, -300⟩) := by rw [f32OfExact, henc]; rfl
  have hat : (⟨x.neg, X, -300⟩ : Dy).at (-300) = withSign x.neg X := congrArg (withSign x.neg) (Nat.mul_one X)
  rw [hout]
  exact f32Out_rounds flush rm (d := ⟨x.neg, X, -300⟩) le_rfl hat fun h => absurd h hpos.ne'

end

/-! ## Whole numbers of units -/

section

variable {x : Exact} {V : ℝ} (hx : x.Holds V) (hexp : x.exp = -300)

include hx hexp

/-- A magnitude known to a unit. -/
theorem Exact.Holds.nearTo : NearTo (nearNat (!x.sticky) x.q) V := by
  obtain ⟨hlo, hhi, hsticky⟩ := hx
  rw [hexp, show (-300 : Int) + 300 = 0 from rfl, zpow_zero, mul_one] at hlo hhi hsticky
  refine nearTo_nearNat hlo hhi ?_
  rw [Bool.not_eq_true', ← Bool.not_eq_true, hsticky, not_not]

theorem Exact.Holds.nearNat_pos (hV : 0 < V) : 0 < nearNat (!x.sticky) x.q := by
  obtain ⟨hlo, hhi, hsticky⟩ := hx
  rw [hexp, show (-300 : Int) + 300 = 0 from rfl, zpow_zero, mul_one] at hsticky
  rcases hs : x.sticky with _ | _
  · have hVq : V = x.q := not_not.1 fun hne => by rw [hsticky.2 hne] at hs; cases hs
    rw [hVq] at hV
    exact_mod_cast hV
  · exact Nat.succ_pos _

end

/-! ## Quotients (R153) -/

/-- A quotient with the sticky bit of its remainder. -/
theorem holds_quotient (neg : Bool) (P : Nat) {Q : Nat} (hQ : 0 < Q) (e : Int) :
    (⟨neg, P / Q, e, decide (P % Q ≠ 0)⟩ : Exact).Holds (P / Q * (2 : ℝ) ^ (e + 300)) := by
  have hE : (0 : ℝ) < (2 : ℝ) ^ (e + 300) := by positivity
  have hQ' : (0 : ℝ) < Q := Nat.cast_pos.2 hQ
  have hsplit : (P : ℝ) = (P / Q : Nat) * Q + (P % Q : Nat) := by exact_mod_cast (Nat.div_add_mod' P Q).symm
  have hrem : ((P % Q : Nat) : ℝ) < Q := Nat.cast_lt.2 (Nat.mod_lt P hQ)
  have hrem0 : (0 : ℝ) ≤ (P % Q : Nat) := Nat.cast_nonneg _
  refine ⟨mul_le_mul_of_nonneg_right ?_ hE.le, mul_lt_mul_of_pos_right ?_ hE, ?_⟩
  · rw [le_div_iff₀ hQ']; simp only; linarith
  · rw [div_lt_iff₀ hQ']; simp only; linarith
  · refine decide_eq_true_iff.trans (not_congr ?_)
    rw [mul_left_inj' hE.ne', div_eq_iff hQ'.ne', hsplit, add_eq_left, Nat.cast_eq_zero]

theorem Dy.units_cast {d : Dy} (h : -300 ≤ d.exp) : (d.units : ℝ) = d.man * (2 : ℝ) ^ (d.exp + 300) := by
  rw [Dy.units, Nat.cast_mul, Nat.cast_pow, Nat.cast_ofNat, ← zpow_natCast, Int.toNat_of_nonneg (by omega)]

theorem units_pos {d : Dy} (h : d.man ≠ 0) : 0 < d.units := Nat.mul_pos (Nat.pos_of_ne_zero h) (Nat.two_pow_pos _)

/-- The quotient of two numbers, in units, and as the model divides it. -/
theorem quotient_units {a b : Dy} (ha : -300 ≤ a.exp) (hb : -300 ≤ b.exp) (hb0 : b.man ≠ 0) {U : Nat} (hU : (U : ℝ) = (2 : ℝ) ^ (300 : Int)) (k : Nat) :
    ((a.man * 2 ^ k : Nat) : ℝ) / b.man * (2 : ℝ) ^ (a.exp - b.exp - k + 300)
      = ((a.units * U : Nat) : ℝ) / b.units * (2 : ℝ) ^ ((-300 : Int) + 300) := by
  have hexp : (2 : ℝ) ^ (a.exp - b.exp - k + 300) * 2 ^ k * (2 : ℝ) ^ (b.exp + 300) = (2 : ℝ) ^ (a.exp + 300) * (2 : ℝ) ^ (300 : Int) := by
    rw [← zpow_natCast, ← zpow_add₀ two_ne_zero, ← zpow_add₀ two_ne_zero, ← zpow_add₀ two_ne_zero]
    congr 1; ring
  have hbr : (b.man : ℝ) ≠ 0 := Nat.cast_ne_zero.2 hb0
  have hE : (2 : ℝ) ^ (b.exp + 300) ≠ 0 := zpow_ne_zero _ two_ne_zero
  rw [show (-300 : Int) + 300 = 0 from rfl, zpow_zero, mul_one, div_mul_eq_mul_div, Nat.cast_mul, Nat.cast_mul, hU, Dy.units_cast ha,
    Dy.units_cast hb, div_eq_div_iff hbr (mul_ne_zero hbr hE), Nat.cast_pow, Nat.cast_ofNat]
  linear_combination (a.man : ℝ) * b.man * hexp

/-- The quotient of two numbers is rounded once. -/
theorem f32OfExact_div (flush : Bool) (rm : RM) (neg : Bool) {a b : Dy} (ha : -300 ≤ a.exp) (hb : -300 ≤ b.exp) (ha0 : a.man ≠ 0)
    (hb0 : b.man ≠ 0) {U : Nat} (hU : (U : ℝ) = (2 : ℝ) ^ (300 : Int)) (z : W32) :
    F32Result flush rm (withSign neg (nearNat (a.units * U % b.units == 0) (a.units * U / b.units))) z
      (f32OfExact flush rm (divExact neg a b)) := by
  have hb0' := Nat.pos_of_ne_zero hb0
  have hunits := holds_quotient neg (a.units * U) (units_pos hb0) (-300)
  have hmodel := holds_quotient neg (a.man * 2 ^ (64 + bitLen b.man)) hb0' (a.exp - b.exp - (64 + bitLen b.man : Nat))
  rw [quotient_units ha hb hb0 hU] at hmodel
  have hpos : (0 : ℝ) < ((a.units * U : Nat) : ℝ) / b.units * (2 : ℝ) ^ ((-300 : Int) + 300) := by
    have hP : 0 < a.units * U := Nat.mul_pos (units_pos ha0) (Nat.cast_pos.1 (hU ▸ zpow_pos two_pos 300))
    have hQ := units_pos hb0
    positivity
  have hsticky : (!decide (a.units * U % b.units ≠ 0)) = (a.units * U % b.units == 0) := by
    rw [decide_not, Bool.not_not]; rfl
  have hq : 2 ^ 24 ≤ a.man * 2 ^ (64 + bitLen b.man) / b.man := by
    rw [Nat.le_div_iff_mul_le hb0']
    calc 2 ^ 24 * b.man ≤ 2 ^ 64 * 2 ^ bitLen b.man := Nat.mul_le_mul (by decide) (bitLen_le_iff.1 le_rfl).le
      _ = 1 * 2 ^ (64 + bitLen b.man) := by rw [Nat.pow_add, Nat.one_mul]
      _ ≤ _ := Nat.mul_le_mul_right _ (Nat.pos_of_ne_zero ha0)
  rw [← hsticky]
  exact f32OfExact_near hmodel (hunits.nearTo rfl) (hunits.nearNat_pos rfl hpos) hq flush rm z

/-! ## Roots (R153) -/

/-- The integer square root. -/
theorem isqrtFrom_spec (i n r : Nat) (hlo : r * r ≤ n) (hhi : n < (r + 2 ^ i) * (r + 2 ^ i)) :
    isqrtFrom i n r * isqrtFrom i n r ≤ n ∧ n < (isqrtFrom i n r + 1) * (isqrtFrom i n r + 1) := by
  induction i generalizing r with
  | zero => exact ⟨hlo, hhi⟩
  | succ i ih =>
    rw [isqrtFrom]
    split
    next h => exact ih _ h (by rw [Nat.add_assoc, ← Nat.two_mul, ← Nat.pow_succ']; exact hhi)
    next h => exact ih _ hlo (Nat.lt_of_not_le h)

theorem isqrt_spec (n : Nat) : isqrt n * isqrt n ≤ n ∧ n < (isqrt n + 1) * (isqrt n + 1) := by
  refine isqrtFrom_spec _ n 0 (Nat.zero_le n) ?_
  rw [Nat.zero_add, ← Nat.pow_add]
  exact lt_of_lt_of_le (bitLen_le_iff.1 le_rfl) (Nat.pow_le_pow_right (by decide) (by omega))

/-- The root of a quotient with the sticky bit of its square. -/
theorem holds_root (neg : Bool) {P Q r : Nat} (hQ : 0 < Q) (hlo : r * r * Q ≤ P) (hhi : P < (r + 1) * (r + 1) * Q) (e : Int) :
    (⟨neg, r, e, decide (r * r * Q ≠ P)⟩ : Exact).Holds (√(P / Q * (2 : ℝ) ^ (2 * (e + 300)))) := by
  have hE : (0 : ℝ) < (2 : ℝ) ^ (e + 300) := by positivity
  have hQ' : (0 : ℝ) < Q := Nat.cast_pos.2 hQ
  have hroot : √(P / Q * (2 : ℝ) ^ (2 * (e + 300))) = √(P / Q) * (2 : ℝ) ^ (e + 300) := by
    rw [two_mul, zpow_add₀ two_ne_zero, Real.sqrt_mul (by positivity), Real.sqrt_mul_self hE.le]
  have hlo' : (r : ℝ) * r * Q ≤ P := by exact_mod_cast hlo
  have hhi' : (P : ℝ) < (r + 1) * (r + 1) * Q := by exact_mod_cast hhi
  rw [hroot]
  refine ⟨mul_le_mul_of_nonneg_right ?_ hE.le, mul_lt_mul_of_pos_right ?_ hE, ?_⟩
  · refine Real.le_sqrt_of_sq_le ?_
    rw [le_div_iff₀ hQ', pow_two]; exact hlo'
  · rw [Real.sqrt_lt' (by positivity), div_lt_iff₀ hQ', pow_two]; exact hhi'
  · refine decide_eq_true_iff.trans (not_congr ?_)
    rw [mul_left_inj' hE.ne', Real.sqrt_eq_iff_mul_self_eq (by positivity) (by positivity), div_eq_iff hQ'.ne']
    exact_mod_cast (eq_comm : r * r * Q = P ↔ _)

end Sys2Proof.Machine
end

section
/-! Square roots and their reciprocals, rounded once (R109, R153). -/

namespace Sys2Proof.Machine

/-! ## Roots by whole numbers of units -/

/-- A root as the model takes it rounds as the root that is known to a unit. -/
theorem f32OfExact_root (flush : Bool) (rm : RM) {P Q r P' Q' n : Nat} {e : Int} (hQ : 0 < Q) (hlo : r * r * Q ≤ P)
    (hhi : P < (r + 1) * (r + 1) * Q) (hQ' : 0 < Q') (hP' : 0 < P') (hlo' : n * n * Q' ≤ P') (hhi' : P' < (n + 1) * (n + 1) * Q')
    (hsame : (P : ℝ) / Q * (2 : ℝ) ^ (2 * (e + 300)) = P' / Q') (hr : 2 ^ 24 ≤ r) (z : W32) :
    F32Result flush rm (nearUnits (n * n * Q' == P') n) z (f32OfExact flush rm ⟨false, r, e, decide (r * r * Q ≠ P)⟩) := by
  have hmodel := holds_root false hQ hlo hhi e
  have hunits := holds_root false hQ' hlo' hhi' (-300)
  rw [show (2 : Int) * (-300 + 300) = 0 from rfl, zpow_zero, mul_one] at hunits
  rw [hsame] at hmodel
  have hpos : (0 : ℝ) < √((P' : ℝ) / Q') := by positivity
  have hsticky : (!decide (n * n * Q' ≠ P')) = (n * n * Q' == P') := by rw [decide_not, Bool.not_not]; rfl
  rw [nearUnits_eq, ← hsticky]
  exact f32OfExact_near hmodel (hunits.nearTo rfl) (hunits.nearNat_pos rfl hpos) hr flush rm z

theorem le_isqrt {a n : Nat} (h : a * a ≤ n) : a ≤ isqrt n := by
  obtain ⟨-, hhi⟩ := isqrt_spec n
  exact Nat.lt_succ_iff.1 (Nat.mul_self_lt_mul_self_iff.1 (h.trans_lt hhi))

/-! ## An even exponent -/

/-- The same number with an even exponent, where the model takes roots. -/
def Dy.even (d : Dy) : Dy := if d.exp % 2 ≠ 0 then ⟨d.neg, d.man * 2, d.exp - 1⟩ else d

theorem Dy.even_exp (d : Dy) : ∃ h : Int, d.even.exp = 2 * h := by
  rw [Dy.even]
  split
  · exact ⟨(d.exp - 1) / 2, by dsimp only; omega⟩
  · exact ⟨d.exp / 2, by omega⟩

theorem Dy.even_man_pos {d : Dy} (h : d.man ≠ 0) : 0 < d.even.man := by
  rw [Dy.even]
  split
  · dsimp only; omega
  · omega

theorem Dy.even_value {d : Dy} (h : -300 ≤ d.exp) : (d.units : ℝ) = d.even.man * (2 : ℝ) ^ (d.even.exp + 300) := by
  rw [Dy.units_cast h, Dy.even]
  split
  · rw [show d.exp + 300 = (d.exp - 1 + 300) + 1 by ring, zpow_add_one₀ two_ne_zero, Nat.cast_mul]; push_cast; ring
  · rfl

theorem sqrtExact_even (d : Dy) : sqrtExact d = ⟨false, isqrt (d.even.man * 2 ^ 128), d.even.exp / 2 - 64,
    decide (isqrt (d.even.man * 2 ^ 128) * isqrt (d.even.man * 2 ^ 128) * 1 ≠ d.even.man * 2 ^ 128)⟩ := by
  rw [Nat.mul_one, Dy.even]
  by_cases h : d.exp % 2 = 0 <;> simp [sqrtExact, h]

theorem rsqrtExact_even (d : Dy) : rsqrtExact d =
    ⟨false, isqrt (2 ^ (2 * (64 + bitLen d.even.man)) / d.even.man), -(d.even.exp / 2) - (64 + bitLen d.even.man : Nat),
      decide (isqrt (2 ^ (2 * (64 + bitLen d.even.man)) / d.even.man) * isqrt (2 ^ (2 * (64 + bitLen d.even.man)) / d.even.man)
        * d.even.man ≠ 2 ^ (2 * (64 + bitLen d.even.man)))⟩ := by
  rw [Dy.even]
  by_cases h : d.exp % 2 = 0 <;> simp [rsqrtExact, h]

/-! ## The roots of a number -/

section

variable (flush : Bool) (rm : RM) {d : Dy} (hd : -300 ≤ d.exp) (h0 : d.man ≠ 0)

include hd h0

/-- A square root is rounded once. -/
theorem f32OfExact_sqrt {U n : Nat} (hU : (U : ℝ) = (2 : ℝ) ^ (300 : Int)) (hlo : n * n ≤ d.units * U)
    (hhi : d.units * U < (n + 1) * (n + 1)) (z : W32) :
    F32Result flush rm (nearUnits (n * n == d.units * U) n) z (f32OfExact flush rm (sqrtExact d)) := by
  have hm := Dy.even_man_pos h0
  have hvalue := Dy.even_value hd
  obtain ⟨h, hh⟩ := d.even_exp
  rw [sqrtExact_even, hh, Int.mul_ediv_cancel_left h two_ne_zero]
  rw [hh] at hvalue
  generalize d.even.man = m at *
  obtain ⟨hlo₁, hhi₁⟩ := isqrt_spec (m * 2 ^ 128)
  have hU0 : 0 < U := Nat.cast_pos.1 (hU ▸ zpow_pos two_pos 300)
  have hsame : ((m * 2 ^ 128 : Nat) : ℝ) / (1 : Nat) * (2 : ℝ) ^ (2 * (h - 64 + 300)) = (d.units * U : Nat) / (1 : Nat) := by
    rw [Nat.cast_one, div_one, div_one, Nat.cast_mul, Nat.cast_mul, hvalue, hU, mul_assoc, mul_assoc, Nat.cast_pow, Nat.cast_ofNat,
      ← zpow_natCast, ← zpow_add₀ two_ne_zero, ← zpow_add₀ two_ne_zero]
    congr 2; push_cast; ring
  have hr : 2 ^ 24 ≤ isqrt (m * 2 ^ 128) := le_isqrt ((by decide : 2 ^ 24 * 2 ^ 24 ≤ 1 * 2 ^ 128).trans (Nat.mul_le_mul_right _ hm))
  have hroot := f32OfExact_root flush rm (n := n) (Q' := 1) (P' := d.units * U) Nat.one_pos (by rwa [Nat.mul_one])
    (by rwa [Nat.mul_one]) Nat.one_pos (Nat.mul_pos (units_pos h0) hU0) (by rwa [Nat.mul_one]) (by rwa [Nat.mul_one]) hsame hr z
  rwa [Nat.mul_one (n * n)] at hroot

/-- A reciprocal square root is rounded once. -/
theorem f32OfExact_rsqrt {W r : Nat} (hW : (W : ℝ) = (2 : ℝ) ^ (900 : Int)) (hlo : r * r * d.units ≤ W)
    (hhi : W < (r + 1) * (r + 1) * d.units) (z : W32) :
    F32Result flush rm (nearUnits (r * r * d.units == W) r) z (f32OfExact flush rm (rsqrtExact d)) := by
  have hm := Dy.even_man_pos h0
  have hvalue := Dy.even_value hd
  obtain ⟨h, hh⟩ := d.even_exp
  rw [rsqrtExact_even, hh, Int.mul_ediv_cancel_left h two_ne_zero]
  rw [hh] at hvalue
  generalize d.even.man = m at *
  have hlen : m < 2 ^ bitLen m := bitLen_le_iff.1 le_rfl
  generalize bitLen m = b at *
  obtain ⟨hlo₁, hhi₁⟩ := isqrt_spec (2 ^ (2 * (64 + b)) / m)
  have hW0 : 0 < W := Nat.cast_pos.1 (hW ▸ zpow_pos two_pos 900)
  have hm' : (m : ℝ) ≠ 0 := Nat.cast_ne_zero.2 hm.ne'
  have hsame : ((2 ^ (2 * (64 + b)) : Nat) : ℝ) / m * (2 : ℝ) ^ (2 * (-h - (64 + b : Nat) + 300)) = W / d.units := by
    have hE : (2 : ℝ) ^ (2 * h + 300) ≠ 0 := zpow_ne_zero _ two_ne_zero
    have hexp : (2 : ℝ) ^ (2 * (64 + b)) * (2 : ℝ) ^ (2 * (-h - (64 + b : Nat) + 300)) * (2 : ℝ) ^ (2 * h + 300)
        = (2 : ℝ) ^ (900 : Int) := by
      rw [← zpow_natCast, ← zpow_add₀ two_ne_zero, ← zpow_add₀ two_ne_zero]
      congr 1; push_cast; ring
    rw [hvalue, hW, div_mul_eq_mul_div, div_eq_div_iff hm' (mul_ne_zero hm' hE), Nat.cast_pow, Nat.cast_ofNat]
    linear_combination (m : ℝ) * hexp
  have hr : 2 ^ 24 ≤ isqrt (2 ^ (2 * (64 + b)) / m) := by
    refine le_isqrt ((Nat.le_div_iff_mul_le hm).2 ?_)
    calc 2 ^ 24 * 2 ^ 24 * m ≤ 2 ^ 128 * 2 ^ b := Nat.mul_le_mul (by decide) hlen.le
      _ = 2 ^ (128 + b) := (Nat.pow_add ..).symm
      _ ≤ 2 ^ (2 * (64 + b)) := Nat.pow_le_pow_right two_pos (by omega)
  exact f32OfExact_root flush rm hm ((Nat.le_div_iff_mul_le hm).1 hlo₁) ((Nat.div_lt_iff_lt_mul hm).1 hhi₁) (units_pos h0) hW0 hlo hhi
    hsame hr z

end

end Sys2Proof.Machine
end

section
/-! Division, square root and their reciprocals: the special cases, completion, and the statement on them (R79, R147, R149, R153). -/

namespace Sys2Proof.Machine

/-! ## Operands that are numbers (R102, R114) -/

/-- A finite operand that does not read as zero. -/
def IsNumber (flush : Bool) (w : W32) : Prop := f32NonFinite w = false ∧ ¬ ReadsZero flush w

theorem f32In_zero {flush : Bool} {w : W32} (h : ReadsZero flush w) :
    ∃ d : Dy, f32In flush w = .fin d ∧ d.man = 0 ∧ d.neg = w.getLsbD 31 ∧ -300 ≤ d.exp := by
  obtain ⟨d, hd, hread, hzero⟩ := f32In_number flush h.finite
  exact ⟨d, hd, hzero.2 h, hread.sign, hread.exp⟩

theorem f32In_nonzero {flush : Bool} {w : W32} (h : IsNumber flush w) : ∃ d : Dy, f32In flush w = .fin d ∧ d.man ≠ 0
    ∧ d.neg = w.getLsbD 31 ∧ -300 ≤ d.exp ∧ (unitsOf .fp32 (flushed flush w).toNat).natAbs = d.units := by
  obtain ⟨hfin, hne⟩ := h
  obtain ⟨d, hd, hread, hzero⟩ := f32In_number flush hfin
  refine ⟨d, hd, mt hzero.1 hne, hread.sign, hread.exp, ?_⟩
  rw [← hread.units, Dy.at_eq_withSign, withSign]
  split <;> simp

/-! ## Division (R79, R153) -/

theorem f32DivVal_nan_right (flush : Bool) (rm : RM) (v : Val) : f32DivVal flush rm v .nan = f32NaN := by cases v <;> rfl

theorem cast_two_pow (k : Nat) : ((2 ^ k : Nat) : ℝ) = (2 : ℝ) ^ (k : Int) := by
  rw [zpow_natCast, Nat.cast_pow, Nat.cast_ofNat]

section

variable (flush : Bool) (rm : RM) {a b : W32}

theorem f32DivVal_zero_divisor {x y : Dy} (hx : x.man ≠ 0) (hy : y.man = 0) :
    f32DivVal flush rm (.fin x) (.fin y) = 0x7F800000 ||| signWord (x.neg != y.neg) := by
  rw [f32DivVal, if_pos hy, if_neg hx, f32Out_infinite]

theorem f32DivVal_inf_divisor (x : Dy) (n : Bool) : f32DivVal flush rm (.fin x) (.inf n) = signWord (x.neg != n) :=
  f32Out_zero flush rm (by simp) rfl

theorem f32DivVal_quotient {x y : Dy} (hx : x.man ≠ 0) (hy : y.man ≠ 0) :
    f32DivVal flush rm (.fin x) (.fin y) = f32OfExact flush rm (divExact (x.neg != y.neg) x y) := by
  rw [f32DivVal, if_neg hy, if_neg hx]

theorem f32Div_of_nan (h : f32IsNaN a = true ∨ f32IsNaN b = true) : f32Div flush rm a b = f32NaN := by
  rcases h with h | h <;> rw [f32Div, f32In_nan flush h]
  · rfl
  · exact f32DivVal_nan_right ..

theorem f32Div_inf_inf (ha : IsInf a) (hb : IsInf b) : f32Div flush rm a b = f32NaN := by
  rw [f32Div, f32In_inf flush ha, f32In_inf flush hb]; rfl

theorem f32Div_zero_zero (ha : ReadsZero flush a) (hb : ReadsZero flush b) : f32Div flush rm a b = f32NaN := by
  obtain ⟨x, hx, hx0, -⟩ := f32In_zero ha
  obtain ⟨y, hy, hy0, -⟩ := f32In_zero hb
  rw [f32Div, hx, hy, f32DivVal, if_pos hy0, if_pos hx0]

theorem f32Div_inf_finite (ha : IsInf a) (hb : f32NonFinite b = false) :
    f32Div flush rm a b = 0x7F800000 ||| ((a ^^^ b) &&& 0x80000000) := by
  obtain ⟨y, hy, hread, -⟩ := f32In_number flush hb
  rw [f32Div, f32In_inf flush ha, hy, f32DivVal, f32Out_infinite, hread.sign, and_signMask_xor]

theorem f32Div_by_zero (ha : IsNumber flush a) (hb : ReadsZero flush b) :
    f32Div flush rm a b = 0x7F800000 ||| ((a ^^^ b) &&& 0x80000000) := by
  obtain ⟨x, hx, hx0, hxs, -⟩ := f32In_nonzero ha
  obtain ⟨y, hy, hy0, hys, -⟩ := f32In_zero hb
  rw [f32Div, hx, hy, f32DivVal_zero_divisor flush rm hx0 hy0, hxs, hys, and_signMask_xor]

theorem f32Div_finite_inf (ha : f32NonFinite a = false) (hb : IsInf b) : f32Div flush rm a b = (a ^^^ b) &&& 0x80000000 := by
  obtain ⟨x, hx, hread, -⟩ := f32In_number flush ha
  rw [f32Div, hx, f32In_inf flush hb, f32DivVal_inf_divisor, hread.sign, and_signMask_xor]

theorem f32Div_zero_number (ha : ReadsZero flush a) (hb : IsNumber flush b) : f32Div flush rm a b = (a ^^^ b) &&& 0x80000000 := by
  obtain ⟨x, hx, hx0, hxs, -⟩ := f32In_zero ha
  obtain ⟨y, hy, hy0, hys, -⟩ := f32In_nonzero hb
  rw [f32Div, hx, hy, f32DivVal, if_neg hy0, if_pos hx0, f32Out_zero flush rm (by simp) rfl, hxs, hys, and_signMask_xor]

/-- The quotient as the statement names it. -/
theorem quotient_eq (neg isExact : Bool) (n : Nat) :
    (if neg then -1 else 1) * nearUnits isExact n = withSign neg (nearNat isExact n) := by
  rw [nearUnits_eq, withSign]
  cases neg <;> simp

theorem f32Div_numbers (ha : IsNumber flush a) (hb : IsNumber flush b) :
    let p := (unitsOf .fp32 (flushed flush a).toNat).natAbs * 2 ^ 300
    let q := (unitsOf .fp32 (flushed flush b).toNat).natAbs
    F32Result flush rm ((if (a ^^^ b).getLsbD 31 then -1 else 1) * nearUnits (p % q == 0) (p / q)) (a ^^^ b) (f32Div flush rm a b) := by
  obtain ⟨x, hx, hx0, hxs, hxe, hxu⟩ := f32In_nonzero ha
  obtain ⟨y, hy, hy0, hys, hye, hyu⟩ := f32In_nonzero hb
  rw [hxu, hyu]
  intro p q
  rw [quotient_eq, f32Div, hx, hy, f32DivVal_quotient flush rm hx0 hy0, BitVec.getLsbD_xor, ← hxs, ← hys]
  exact f32OfExact_div flush rm _ hxe hye hx0 hy0 (cast_two_pow 300) (a ^^^ b)

/-! ## Square roots (R79, R153) -/

theorem f32Sqrt_of_nan (h : f32IsNaN a = true) : f32Sqrt flush rm a = f32NaN ∧ f32Rsq flush rm a = f32NaN := by
  rw [f32Sqrt, f32Rsq, f32In_nan flush h]
  exact ⟨rfl, rfl⟩

theorem f32Sqrt_zero (h : ReadsZero flush a) :
    f32Sqrt flush rm a = a &&& 0x80000000 ∧ f32Rsq flush rm a = 0x7F800000 ||| (a &&& 0x80000000) := by
  obtain ⟨d, hd, hd0, hds, hde⟩ := f32In_zero h
  rw [f32Sqrt, f32Rsq, hd, f32SqrtVal, and_signMask, ← hds]
  exact ⟨(if_pos hd0).trans (f32Out_zero flush rm hde hd0), (if_pos hd0).trans (f32Out_infinite flush rm d.neg)⟩

theorem f32Sqrt_negative (h : IsInf a ∨ IsNumber flush a) (hneg : a.getLsbD 31 = true) :
    f32Sqrt flush rm a = f32NaN ∧ f32Rsq flush rm a = f32NaN := by
  rcases h with hinf | hnum
  · rw [f32Sqrt, f32Rsq, f32In_inf flush hinf, hneg]
    exact ⟨rfl, rfl⟩
  · obtain ⟨d, hd, hd0, hds, -⟩ := f32In_nonzero hnum
    rw [f32Sqrt, f32Rsq, hd, f32SqrtVal]
    exact ⟨(if_neg hd0).trans (if_pos (hds.trans hneg)), (if_neg hd0).trans (if_pos (hds.trans hneg))⟩

theorem f32Sqrt_inf (h : IsInf a) (hpos : a.getLsbD 31 = false) : f32Sqrt flush rm a = 0x7F800000 ∧ f32Rsq flush rm a = 0 := by
  rw [f32Sqrt, f32Rsq, f32In_inf flush h, hpos]
  exact ⟨f32Out_infinite flush rm false, rfl⟩

section

variable (h : IsNumber flush a) (hpos : a.getLsbD 31 = false)

include h hpos

theorem f32Sqrt_number {n : Nat} :
    let p := (unitsOf .fp32 (flushed flush a).toNat).natAbs * 2 ^ 300
    n * n ≤ p → p < (n + 1) * (n + 1) → F32Result flush rm (nearUnits (n * n == p) n) 0 (f32Sqrt flush rm a) := by
  obtain ⟨d, hd, hd0, hds, hde, hdu⟩ := f32In_nonzero h
  rw [hdu, f32Sqrt, hd, f32SqrtVal, if_neg hd0, if_neg (by rw [hds, hpos]; exact Bool.false_ne_true)]
  exact fun hlo hhi => f32OfExact_sqrt flush rm hde hd0 (cast_two_pow 300) hlo hhi 0

theorem f32Rsq_number {r : Nat} :
    let q := (unitsOf .fp32 (flushed flush a).toNat).natAbs
    r * r * q ≤ 2 ^ 900 → 2 ^ 900 < (r + 1) * (r + 1) * q →
      F32Result flush rm (nearUnits (r * r * q == 2 ^ 900) r) 0 (f32Rsq flush rm a) := by
  obtain ⟨d, hd, hd0, hds, hde, hdu⟩ := f32In_nonzero h
  have hval : f32Rsq flush rm a = f32OfExact flush rm (rsqrtExact d) := by
    rw [f32Rsq, hd]
    exact (if_neg hd0).trans (if_neg (by rw [hds, hpos]; exact Bool.false_ne_true))
  rw [hdu, hval]
  exact fun hlo hhi => f32OfExact_rsqrt flush rm hde hd0 (cast_two_pow 900) hlo hhi 0

end

/-! ## Reciprocals (R79, R153) -/

theorem f32Rcp_of_nan (h : f32IsNaN a = true) : f32Rcp flush rm a = f32NaN := by
  rw [f32Rcp, f32In_nan flush h, f32DivVal_nan_right]

theorem f32Rcp_zero (h : ReadsZero flush a) : f32Rcp flush rm a = 0x7F800000 ||| (a &&& 0x80000000) := by
  obtain ⟨d, hd, hd0, hds, -⟩ := f32In_zero h
  rw [f32Rcp, hd, f32DivVal_zero_divisor flush rm one_ne_zero hd0, Bool.false_bne, hds, and_signMask]

theorem f32Rcp_inf (h : IsInf a) : f32Rcp flush rm a = a &&& 0x80000000 := by
  rw [f32Rcp, f32In_inf flush h, f32DivVal_inf_divisor, Bool.false_bne, and_signMask]

theorem f32Rcp_number (h : IsNumber flush a) :
    let q := (unitsOf .fp32 (flushed flush a).toNat).natAbs
    F32Result flush rm ((if a.getLsbD 31 then -1 else 1) * nearUnits (2 ^ 600 % q == 0) (2 ^ 600 / q)) a (f32Rcp flush rm a) := by
  obtain ⟨d, hd, hd0, hds, hde, hdu⟩ := f32In_nonzero h
  rw [hdu]
  intro q
  have hpow : (2 : Nat) ^ 600 = Dy.units ⟨false, 1, 0⟩ * 2 ^ 300 := by
    rw [Dy.units, Nat.one_mul, ← Nat.pow_add]; congr 1
  rw [quotient_eq, f32Rcp, hd, f32DivVal_quotient flush rm one_ne_zero hd0, Bool.false_bne, ← hds, hpow]
  exact f32OfExact_div flush rm _ (by simp) hde one_ne_zero hd0 (cast_two_pow 300) a

end

theorem divideValues : DivideValues := by
  intro flush rm a b x sign nan inf zero fin quotient
  refine ⟨f32Div_of_nan flush rm, fun h => ?_, f32Div_inf_inf flush rm, f32Div_zero_zero flush rm, fun ha hb => ?_,
    f32Div_by_zero flush rm, fun ha hb => ?_, f32Div_zero_number flush rm, f32Div_numbers flush rm, fun h => ?_,
    f32Sqrt_negative flush rm, f32Sqrt_inf flush rm, f32Rcp_inf flush rm, fun h hpos n r => ?_, f32Rcp_number flush rm⟩
  · obtain ⟨hsqrt, hrsq⟩ := f32Sqrt_of_nan flush rm h
    exact ⟨hsqrt, hrsq, f32Rcp_of_nan flush rm h⟩
  · exact f32Div_inf_finite flush rm ha (hb.elim ReadsZero.finite And.left)
  · exact f32Div_finite_inf flush rm (ha.elim ReadsZero.finite And.left) hb
  · obtain ⟨hsqrt, hrsq⟩ := f32Sqrt_zero flush rm h
    exact ⟨hsqrt, hrsq, f32Rcp_zero flush rm h⟩
  · exact ⟨f32Sqrt_number flush rm h hpos, f32Rsq_number flush rm h hpos⟩

/-! ## Completion (R147, R149) -/

theorem vectorFp_cur (s : State) (vu : VUnit) (tt : TT) (lat : Nat) (vd : VReg) (f : Nat → W32) :
    (vectorFp s vu tt lat vd f).cur = s.cur := by
  rw [vectorFp, State.nfLanes]; split <;> rfl

theorem vectorFp_t (s : State) (vu : VUnit) (tt : TT) (lat : Nat) (vd : VReg) (f : Nat → W32) :
    (vectorFp s vu tt lat vd f).t = s.t := by
  rw [vectorFp, State.nfLanes]; split <;> rfl

/-- An FP32 result of a form that takes the divide and square-root unit. -/
theorem takesDivider_run {s : State} {tt : TT} (h : s.anyLane tt = true) (vu : VUnit) (lat : Nat) (vd : VReg) (f : Nat → W32)
    (slot : Nat) : ((vecFp s vu tt lat vd f).takesDivider s tt).run slot [] s
      = .next ((vectorFp s vu tt lat vd f).onCore s.cur.1 (fun c => { c with lastDivide := some s.t })) := by
  have heffect : (vecFp s vu tt lat vd f).effect s = vectorFp s vu tt lat vd f := by rw [vecFp, vecNf, if_pos h]; rfl
  have hpure : ∃ g, vecFp s vu tt lat vd f = .pure g := ⟨_, by rw [vecFp, vecNf, if_pos h]⟩
  rw [OpSem.takesDivider, if_pos h, OpSem.run_next]
  · dsimp only
    rw [heffect, vectorFp_cur, vectorFp_t]
  all_goals obtain ⟨g, hg⟩ := hpure; rw [hg]
  · rfl
  · rfl
  · exact queueHold_zero ..

/-- Settles O16: the values by the kinds of the operands, and each form as one FP32 result with the unit taken. -/
theorem vectorDivides : Obligations.VectorDivides := by
  unfold Obligations.VectorDivides
  refine ⟨fun s vu tt vd va vb rm h hvd hva hvb => ?_, divideValues⟩
  intro a b flush m res
  have hbad2 : s.badV [vd, va] = [] := State.badV_eq_nil (by simp [hvd, hva])
  have hbad3 : s.badV [vd, va, vb] = [] := State.badV_eq_nil (by simp [hvd, hva, hvb])
  have run := fun f => takesDivider_run h vu 12 vd f (slotV vu)
  refine ⟨?_, ?_, ?_, ?_⟩
  · show (vfdivSem vu tt vd va vb rm s).run (slotV vu) (s.badV [vd, va, vb]) s = _
    rw [hbad3, vfdivSem, State.rm_eq]; exact run _
  · show (vfsqrtSem vu tt vd va rm s).run (slotV vu) (s.badV [vd, va]) s = _
    rw [hbad2, vfsqrtSem, State.rm_eq]; exact run _
  · show (vfrsqSem vu tt vd va rm s).run (slotV vu) (s.badV [vd, va]) s = _
    rw [hbad2, vfrsqSem, State.rm_eq]; exact run _
  · show (vfrcpSem vu tt vd va rm s).run (slotV vu) (s.badV [vd, va]) s = _
    rw [hbad2, vfrcpSem, State.rm_eq]; exact run _

end Sys2Proof.Machine
end
